-- ==== Sys2Proof/Word.lean ====
section
/-!
DEFINITION. The register word, the byte, and the one sparse table every memory, register file and entry store of
the model is held in: a list of (key, value) pairs, keys strictly rising, no value equal to what an unlisted key reads as.
-/

namespace Sys2Proof

/-- A register: 32 bits (00_scope.md, Conventions: "Registers are 32 bits wide"). -/
abbrev Word := BitVec 32

abbrev Byte := BitVec 8

/-- A sparse table, in one canonical form (`twf`). -/
abbrev Tab (α : Type) := List (Nat × α)

/-- What key `k` holds; an unlisted key reads as `d k`. -/
def tget {α : Type} (d : Nat → α) : Tab α → Nat → α
  | [], k => d k
  | p :: r, k => if p.1 = k then p.2 else tget d r k

/-- Insert a pair before the first larger key. -/
def tins {α : Type} (k : Nat) (v : α) : Tab α → Tab α
  | [] => [(k, v)]
  | p :: r => if k < p.1 then (k, v) :: p :: r else p :: tins k v r

/-- Store `v` under `k`, keeping the canonical form: a value an unlisted key reads as is not listed. -/
def tset {α : Type} [DecidableEq α] (d : Nat → α) (t : Tab α) (k : Nat) (v : α) : Tab α :=
  if v = d k then t.filter (fun p => p.1 != k) else tins k v (t.filter (fun p => p.1 != k))

/-- The canonical form: keys strictly rising, no listed value is the default. -/
def twf {α : Type} [DecidableEq α] (d : Nat → α) : Tab α → Bool
  | [] => true
  | p :: r => (p.2 != d p.1) && r.all (fun q => p.1 < q.1) && twf d r

/-- A field of a register: the register's key, the lowest bit, the width. -/
structure Fld where
  addr : Nat
  lo : Nat
  w : Nat
  deriving DecidableEq, Repr

/-- The bits of a field, as a number. -/
def wordGet (x : Word) (lo w : Nat) : Nat := (x.extractLsb' lo w).toNat

/-- The ones of a field's bits. -/
def fieldMask (lo w : Nat) : Word := ((BitVec.allOnes w).setWidth 32) <<< lo

/-- `x` with the bits of a field replaced by the low bits of `v`. -/
def wordSet (x : Word) (lo w v : Nat) : Word :=
  (x &&& ~~~(fieldMask lo w)) ||| ((BitVec.ofNat 32 v <<< lo) &&& fieldMask lo w)

/-- 1 for true, 0 for false: a flag written into a field. -/
def bit (b : Bool) : Nat := if b then 1 else 0

end Sys2Proof
end

