-- ==== Sys2Proof/Syntax.lean ====
section
/-!
DEFINITION. The commands of the block: one constructor per row of the table of operations and events, with the operands the row
needs. The table gives its rows no operand fields; the operands are what the rule of the row names (an address, a value, an
index) and, where an event comes from outside the block (a line frame, a message, a measured figure), what the outside brings.
-/

namespace Sys2Proof

/-- One item of a scheduled action: kind code, target, argument (R47, Table 3-1). -/
structure Item where
  kind : Nat
  target : Nat
  arg : Nat
  deriving DecidableEq, Repr

/-- The header bits of a scheduled action (PLK.ST_HDR, R58). -/
structure ActHdr where
  latePol : Bool
  group : Bool
  nomirror : Bool
  gmask : Nat
  tag : Nat
  deriving DecidableEq, Repr

/-- An ACTION message of the mirror link or the group transport (R56, R330): the resolved boundary, the items, the header and
the originator's sequence number. -/
structure ActMsg where
  sfn : Nat
  tick : Nat
  us : Bool
  items : List Item
  hdr : ActHdr
  peerSeq : Nat
  deriving DecidableEq, Repr

/-- What hardware writes into a register in the cycle in which a software write is applied (R30, R31). -/
structure HwWrite where
  mask : Word
  value : Word
  deriving DecidableEq, Repr

/-- The four parties that reset the PCIe core (R349). -/
inductive PcieResetKind where
  | perst | hot | linkDown | flr
  deriving DecidableEq, Repr

/-- Where a PCIe request goes (Table 16-1): a BAR, or the MSI-X message control word of the configuration space. -/
inductive PcieSpace where
  | bar0 | bar2 | bar4 | msixControl | config
  deriving DecidableEq, Repr

/-- A reset of a bus master finds a write unit before its last beat: matrix address and bytes received (R360). -/
structure Partial where
  addr : Nat
  bytes : Nat
  deriving DecidableEq, Repr

/-- The PLLs whose lock the block reports (Tables 1-5, 10-7, 15, R74): the core PLL, the memory PLL, the PCIe PLL, the transmit PLL
of quad `q` (0 to 47), of timing port `p`, of Gelvy port `p`. -/
inductive Pll where
  | core | mem | pcie
  | quad (q : Fin 48)
  | tport (p : Fin 4)
  | gelvy (p : Fin 8)
  deriving DecidableEq, Repr

/-- A supply as the monitors see it (R388): a rail of Table 17-1, or a VDDA_LN island. -/
inductive Supply where
  | rail (r : Fin 8)
  | island (n : Fin 16)
  deriving DecidableEq, Repr

/-- In tolerance, below it, above it. -/
inductive Level where
  | ok | under | over
  deriving DecidableEq, Repr


/-- What surrounds a message on a Gelvy control channel (R341, R342): the port, the header's SEQ and ACK, whether the CRC-32C is
good. -/
structure Env where
  port : Fin 8
  seq : Nat
  ack : Nat
  crcOk : Bool
  deriving DecidableEq, Repr

/-- A HELLO's payload (Table 15-5). -/
structure Hello where
  role : Nat
  id : Nat
  mode : Nat
  groupTag : Nat
  pairId : Nat
  twinEn : Bool
  prefer : Bool
  slotEn : Bool
  mirror : Bool
  deriving DecidableEq, Repr

/-- A HEARTBEAT's payload (Table 14-1): SFN, the sender's time value in ns, mode and twin state, claim, PREFER, PAIR_ID, the latest
action sequence mirrored or received, the latest forwarded write, the actions marked UNMIRRORED since the link came up, the
completeness bitmap of the 100 regions. -/
structure Beat where
  sfn : Nat
  ns : Nat
  mode : Nat
  twin : Nat
  claim : Bool
  prefer : Bool
  pairId : Nat
  actSeq : Nat
  fwdSeq : Nat
  unmirrored : Nat
  complete : Nat
  deriving DecidableEq, Repr

/-- The digests of one frame (R286): per channel the digest and its flags EDGE, EXCL, UNCOV, ABSENT in bits 0 to 3. -/
abbrev Digests := List (Word × Nat)

/-- The messages of the control channel (Tables 14-1 and 15-5). -/
inductive Msg where
  | hello (h : Hello)
  | heartbeat (b : Beat)
  | ttStamp (sfn : Nat) (departure arrival : Nat) (valid : Bool)
  | ptp (ctrl : Nat) (frame : List Byte)
  | action (a : ActMsg) (check : List Nat)
  | result (origin status reason applied index : Nat)
  | cancel (origin : Nat)
  | fwdWrite (addr : Nat) (val mask : Word) (master sfn : Nat)
  | digest (sfn : Nat) (d : Digests)
  | copy (region gen sfn offset : Nat) (data : List (Nat × Nat)) (last : Bool)
  | copyAck (region gen : Nat)
  | join (pairId version : Nat)
  | accept (c : Nat)
  | refuse (code : Nat)
  | rraReq (tag off : Nat) (write : Bool) (be : Nat) (data : Word)
  | rraRsp (tag status : Nat) (data : Word)
  deriving DecidableEq, Repr

/-- Where the framing pattern may stand (R88, R90): the bit offset, the 48 bits that begin there and, for OTN, the MFAS of the frame
they open. -/
structure Match where
  pos : Nat
  mfas : Nat
  /-- the 48 bits that begin there -/
  bits : Nat := 0xF6F6F6282828
  deriving DecidableEq, Repr

/-- What one line frame period carries in the overhead of an OTU, an ODU or one TCM level (R103, R111): the BIP-8 bits in error, BEI,
BDI, STAT, a 64-byte TTI message that this frame completes, PSI[0] of a 256-frame multiframe it completes. -/
structure OduObs where
  bip : Nat
  bei : Nat
  bdi : Bool
  stat : Nat
  tti : Option (List Byte)
  pt : Option Nat
  deriving DecidableEq, Repr

/-- What a pointer word carries (Table 6-3): all ones, no valid pointer, or a valid one, with or without NDF enabled. -/
inductive PtrObs where
  | ones
  | invalid
  | valid (v : Nat) (ndf : Bool)
  deriving DecidableEq, Repr

/-- What one frame of a path carries (R103, R126): the path's first slot and tributary, the BIP bits in error, REI, pointer, a line
justification either way, label, RDI, a trace message that this frame completes; for an LO ODU its PM, its TCM levels and an
uncorrectable justification control (R167). -/
structure PathObs where
  idx : Nat
  trib : Nat
  bip : Nat
  rei : Nat
  ptr : PtrObs
  pj : Bool
  nj : Bool
  label : Nat
  rdi : Bool
  trace : Option (List Byte)
  odu : OduObs
  tcm : List OduObs
  jcBad : Bool
  deriving DecidableEq, Repr

/-- What a PDH tributary monitor counts in the period, and what its detectors read of the signal, in order (Table 6-9): the longest run of
zeros; each framing bit or word checked, in error or not; each M-frame, its M-bits in error or not; the zeros in each interval of the
AIS rule (DS3: 0 for framed 1010 with C-bits 0, else 3); each alarm bit or code, standing or not; the CRC-4 multiframe lost. -/
structure TribObs where
  kind : Nat
  num : Nat
  c0 : Nat
  c1 : Nat
  c2 : Nat
  c3 : Nat
  zeros : Nat := 0
  frame : List Bool := []
  mbits : List Bool := []
  ais : List Nat := []
  alarm : List Bool := []
  crc4 : Bool := false
  deriving DecidableEq, Repr

/-- What a lane, or the four lanes of a bond, delivers in one line frame period, or, while the carder hunts, in the stretch of bit
positions `lo` to `hi - 1` of one (R88 to R100). While hunting: the pattern's matches in order, and for a SONET/SDH tie, per
candidate's position, the descrambled B1 byte and the BIP-8 over its confirming frame (Table 5-2). In frame: the 48 bits at the locked position, the MFAS, the SS
bits of H1, K1, K2, S1, the bits of B1 and B2 in error, REI-L, the section trace message completed, the OTU, HO ODU and TCM
overhead, the MSI (a tributary port per tributary slot), the RES bytes' TV and EXT (R193), the paths, the tributary monitors,
Ethernet blocks (or code-groups) and errored ones, and the bytes and the stream for the overhead buffer (R106). Of a bond also: each logical
lane that is framed: its marker's number, the physical lane 0 to 3, the arrival of its frame start in ns (R98, R99). -/
structure LineObs where
  lo : Nat
  hi : Nat
  ms : List Match
  b1s : List (Nat × Nat × Nat)
  fas : Nat
  mfas : Nat
  ss : Nat
  k1 : Nat
  k2 : Nat
  s1 : Nat
  b1 : Nat
  b2 : Nat
  rei : Nat
  trace : Option (List Byte)
  sm : OduObs
  odu : OduObs
  tcm : List OduObs
  msi : Option (List Nat)
  ext : Option Nat
  paths : List PathObs
  tribs : List TribObs
  nblk : Nat
  blocks : Nat
  lls : List (Nat × Nat × Nat)
  oh : List (Nat × Byte)
  stream : List Byte
  /-- when the frame's first FAS bit crosses the ingress timestamp point, after the state's own time, in 2^-16 ns (R204) -/
  at_ : Nat := 0
  deriving DecidableEq, Repr

/-- An entity that is watched for defects (R109 to R111): a channel's line or OTU, its HO ODU or one of its TCM levels, or a path
entry (level 0) and its TCM levels. -/
inductive Ent where
  | line (c : Fin 192)
  | odu (c : Fin 192) (level : Fin 7)
  | path (c : Fin 192) (idx : Fin 2048) (trib : Fin 29) (level : Fin 7)
  deriving DecidableEq, Repr

/-- The defects with an integration count (Tables 6-3 and 6-4): AIS, LOP, OCI, LCK, RDI or BDI, LTC, OCI or LCK of a TCM level. -/
inductive Defect where
  | ais | lop | oci | lck | rdi | ltc | ociLck
  deriving DecidableEq, Repr

/-- What the egress remapper of a container finds in a system frame (R165): some CHK correct, a CSQ or LAST wrong, a member that is no
carrier, a fill mark. -/
structure CarObs where
  c : Nat
  e : Nat
  chk : Bool
  csq : Bool
  kind : Bool
  fill : Bool
  deriving DecidableEq, Repr

/-- A member of a VCAT sink in a system frame (R161, R175): its delay in frames beyond the earliest, B3 errors, SF, multiframe lost. -/
structure MemObs where
  delay : Nat
  b3 : Nat
  sf : Bool
  lost : Bool
  deriving DecidableEq, Repr

/-- What a VCAT sink finds in a system frame (R175, R176): differential delay in frames, loss of alignment, sequence mismatch, failure
of protocol, and its members in order. -/
structure VcatObs where
  lg : Nat
  g : Nat
  dd : Nat
  loa : Bool
  sqm : Bool
  fop : Bool
  mem : List MemObs := []
  deriving DecidableEq, Repr

/-- A GFP frame as the demapper meets it (R172): cHEC right, one bit wrong, or worse (0 to 2); tHEC uncorrectable; PTI, PFI, UPI; pFCS
wrong; the client frame. -/
structure GfpObs where
  chec : Fin 3
  thecBad : Bool
  pti : Nat
  pfi : Bool
  upi : Nat
  pfcsBad : Bool
  payload : List Byte
  deriving DecidableEq, Repr
/-- What a hitless selector finds at a due time (R196, R198): per copy, W then P, whether its frames carry valid keys, whether the frame
is good there, and its slack in ns. -/
structure HlObs where
  keyW : Bool
  keyP : Bool
  goodW : Bool
  goodP : Bool
  slackW : Int
  slackP : Int
  /-- ODU mode: EXT and the octets of the ODU frame as each copy holds it -/
  extW : Nat := 0
  extP : Nat := 0
  frameW : List Byte := []
  frameP : List Byte := []
  deriving DecidableEq, Repr

/-- How a batt-store cell comes back from memory (R269 to R271, R276): codewords with errors in check symbols only, codewords with
corrected data, an uncorrectable codeword, a decoded cell whose CRC fails, a read that is late; frames back from the present
one (hitless paths); latency in ns; µs the cell waited; bursts outstanding. -/
structure BattObs where
  chk : Nat
  corr : Nat
  ue : Option Nat
  crcBad : Bool
  late : Bool
  back : Nat
  latency : Nat
  waited : Nat
  infl : Nat
  deriving DecidableEq, Repr

/-- A superframe as a Gelvy port receives it (R336, R339, R340): the lane markers found on all lanes, the skew in ns, the SM block's CRC
and receive SFN, a column past its time, corrected and uncorrectable codewords, the through-slots with a byte in an uncorrectable
one, and per through-slot its fill mark and bytes. -/
structure SuperObs where
  lm : Bool
  skew : Nat
  smCrc : Bool
  sfn : Nat
  late : Bool
  corr : Nat
  ucw : Nat
  ucwSlots : List Nat
  slots : List (Nat × Nat × List Byte)
  /-- when the start marker's first bit has crossed the ball of lane 0, after the state's own time, in 2^-16 ns (R219) -/
  at_ : Nat := 0
  deriving DecidableEq, Repr

/-- What an Ethernet channel has sent in the system frame that ends: the blocks, the bytes that its PCS has encoded, and the places among
them of bytes that R232 marks (R285). -/
structure EgObs where
  c : Nat
  blocks : Nat
  bytes : List Byte
  skip : List Nat := []
  deriving DecidableEq, Repr

/-- What the line frames of a system frame have brought of a path (R159): channel, first slot, the bytes of its SPE in order; where the
pointer interpreter has accepted a new pointer, the place of J1 among them. -/
structure SpeObs where
  c : Nat
  idx : Nat
  bytes : List Byte
  j1 : Option Nat := none
  deriving DecidableEq, Repr

/-- The octets that a system frame has brought of an ingress container (R164, R167, R171): channel, entry; of an ODU with its frame
alignment overhead, of an Ethernet client in an ODU the client's. -/
structure OduArr where
  c : Nat
  e : Nat
  bytes : List Byte
  deriving DecidableEq, Repr

/-- What the datapath brings to a frame tick. Of the frame that has ended: the bytes that entered the elastic stores and the ODU stores, the
VCAT sinks, what the Ethernet channels sent, latency samples (egress slot, ns; R404), the length in CCLK cycles (R11), the
receivers where signal detect appeared (R72). And times after the state's own, in 2^-16 ns: at which egress frames with MFAS = 0 crossed
the timestamp points of channels with export on (channel, time; R204), and at which the start markers of the superframes that the tick
sends leave (port, time; R219, R339). -/
structure FrameObs where
  stores : List SpeObs := []
  odus : List OduArr := []
  vcats : List VcatObs := []
  eg : List EgObs := []
  lat : List (Nat × Nat) := []
  cyc : Nat
  det : List Nat := []
  dep : List (Nat × Nat) := []
  lm : List (Nat × Nat) := []
  deriving DecidableEq, Repr


/-- The commands, in the order of the table; each docstring names the row and the rule that governs it. -/
inductive Instr where
  /-- POWER_ON (R375) -/
  | powerOn (bothDown : Bool)
  /-- RESET_N_ASSERT (R375) -/
  | resetNAssert (ns : Nat)
  /-- BROWN_OUT (R376) -/
  | brownOut
  /-- SEQ_VIOLATION (R374) -/
  | seqViolation (kind : Fin 5) (inService : Bool)
  /-- INTERNAL_RESET_END (R375) -/
  | internalResetEnd (s1 s2 s3 : BitVec 9) (refs : BitVec 5)
  /-- FUSE_READ_COMPLETE (R396) -/
  | fuseReadComplete (crcOk : Bool) (fact : List (Nat × Int))
  /-- CORE_CFG_WRITE (R19) -/
  | coreCfgWrite (m : Fin 8) (v : Word)
  /-- CORE_PLL_RELOCK (R19) -/
  | corePllRelock
  /-- CORE_CLOCK_LOCK_LOSS (R20) -/
  | coreClockLockLoss (cclk eclk sclk : Bool)
  /-- MCLK_LOCK_LOSS (R20) -/
  | mclkLockLoss
  /-- REF_LOSS (R20) -/
  | refLoss (input : Fin 5)
  /-- MEM_PLL_LOCK_LOSS (R275) -/
  | memPllLockLoss
  /-- CROSSING_OVERFLOW (R18) -/
  | crossingOverflow (xid : Fin 32) (index : Fin 256)
  /-- FRAME_TICK (R12) -/
  | frameTick (o : FrameObs)
  /-- US_TICK (R210) -/
  | usTick
  /-- REGISTER_WRITE (R25) -/
  | registerWrite (m : Fin 8) (a : Nat) (v : Word) (be : Fin 16) (late : Bool) (hw : Option HwWrite)
  /-- LG_POSTED_WRITE (R35) -/
  | lgPostedWrite (m : Fin 8) (lg : Fin 16) (l : List (Nat × Word × Nat))
  /-- POSTED_WRITE_LAND (R35) -/
  | postedWriteLand (lg : Fin 16) (late : Bool)
  /-- LG_READ_COMPLETE (R35) -/
  | lgReadComplete (m : Fin 8) (lg : Fin 16) (off : Fin 0x10000) (late : Bool)
  /-- PAGE_LOCK (R26) -/
  | pageLock (m : Fin 8) (page : Fin 576)
  /-- PAR_ACT_WRITE (R38) -/
  | parActWrite (m : Fin 8) (page : Fin 576) (v : Word)
  /-- PARITY_SCAN_PASS (R288) -/
  | parityScanPass (us : Nat) (bad : List Nat)
  /-- PAGE_SRST (R377) -/
  | pageSrst (m : Fin 8) (page : Fin 576)
  /-- CNT_CLR (R40) -/
  | cntClr (m : Fin 8) (page : Fin 576)
  /-- COUNTER_PRESET (R40) -/
  | counterPreset (m : Fin 8) (a : Nat) (v : Word) (n : Word)
  /-- OCC_ACK_WRITE (R42) -/
  | occAckWrite (m : Fin 8) (a : Nat) (ack : Fin 0x10000)
  /-- COUNTER_LOW_READ (R41) -/
  | counterLowRead (m : Fin 8) (a : Nat)
  /-- SNAP_TAKE (R45) -/
  | snapTake (m : Fin 8) (late : Bool)
  /-- ST_ITEM_B_WRITE (R58) -/
  | stItemBWrite (m : Fin 8) (arg : Word)
  /-- ADMIT (R53) -/
  | admitCmd (m : Fin 8)
  /-- CANCEL (R62) -/
  | cancel (m : Fin 8)
  /-- CLEAR (R58) -/
  | clear (m : Fin 8)
  /-- PLANK_DISPATCH (R59) -/
  | plankDispatch (sfn tick : Nat) (refused : List (Nat × Nat × Nat))
  /-- RD_IDX_WRITE (R66) -/
  | rdIdxWrite (m : Fin 8) (idx : Word)
  /-- FIND (R67) -/
  | find (m : Fin 8)
  /-- FIND_COMPLETE (R67) -/
  | findComplete (m : Fin 8)
  /-- ACTION_MESSAGE_RX (R56) -/
  | actionMessageRx (e : Env) (a : ActMsg) (check : List Nat)
  /-- SIGNAL_DETECT (R76) -/
  | signalDetect (c : Fin 192)
  /-- SIGNAL_DETECT_LOSS (R76) -/
  | signalDetectLoss (c : Fin 192) (held : Bool)
  /-- RATE_DWELL_EXPIRY (R77) -/
  | rateDwellExpiry (c : Fin 192)
  /-- CDR_LOCK (R77) -/
  | cdrLock (c : Fin 192)
  /-- FRAME_HUNT_TIMEOUT (R78) -/
  | frameHuntTimeout (c : Fin 192)
  /-- TRACE_WAIT_EXPIRY (R78) -/
  | traceWaitExpiry (c : Fin 192)
  /-- ADMIT_GO (R80) -/
  | admitGo (m : Fin 8) (c : Fin 192) (late : Bool)
  /-- ADMITTED_EXPIRY (R82) -/
  | admittedExpiry (c : Fin 192)
  /-- REHUNT_EXPIRY (R84) -/
  | rehuntExpiry (c : Fin 192)
  /-- HOLD_OFF_EXPIRY (R84) -/
  | holdOffExpiry (c : Fin 192)
  /-- START (R87) -/
  | start (m : Fin 8) (lg : Fin 16)
  /-- EYE_MEASURE_DONE (R87) -/
  | eyeMeasureDone (lg : Fin 16) (free : Bool) (width height : Nat)
  /-- LINE_FRAME (R95) -/
  | lineFrame (c : Fin 192) (o : LineObs)
  /-- TIE_WINDOW_CLOSE (R92) -/
  | tieWindowClose (c : Fin 192)
  /-- LOF_DECLARE (R96) -/
  | lofDeclare (c : Fin 192)
  /-- LOF_CLEAR (R96) -/
  | lofClear (c : Fin 192)
  /-- LOM_DECLARE (R97) -/
  | lomDeclare (c : Fin 192)
  /-- LOM_CLEAR (R97) -/
  | lomClear (c : Fin 192)
  /-- LOL_DECLARE (R99) -/
  | lolDeclare (c : Fin 192)
  /-- LOL_CLEAR (R99) -/
  | lolClear (c : Fin 192)
  /-- BLOCK_LOCK_CHANGE (R100) -/
  | blockLockChange (c : Fin 192) (lock : Bool)
  /-- LOS_DECLARE (R110) -/
  | losDeclare (lane : Fin 192) (energyOnly : Bool)
  /-- LOS_CLEAR (R110) -/
  | losClear (lane : Fin 192)
  /-- DEFECT_DECLARE (R110) -/
  | defectDeclare (e : Ent) (d : Defect)
  /-- DEFECT_CLEAR (R110) -/
  | defectClear (e : Ent) (d : Defect)
  /-- OTN_DEFECT_DECLARE (R111) -/
  | otnDefectDeclare (e : Ent) (d : Defect)
  /-- OTN_DEFECT_CLEAR (R111) -/
  | otnDefectClear (e : Ent) (d : Defect)
  /-- ETH_DEFECT_CHANGE (R112) -/
  | ethDefectChange (c : Fin 192) (d : Fin 3) (on : Bool)
  /-- TRIB_DEFECT_DECLARE (R123) -/
  | tribDefectDeclare (lg : Fin 16) (kind : Fin 2) (num : Fin 252) (d : Fin 4) (on : Bool)
  /-- PW_READ (R125) -/
  | pwRead (m : Fin 8) (lg : Fin 16)
  /-- PW_WRITE (R125) -/
  | pwWrite (m : Fin 8) (lg : Fin 16) (late : Bool)
  /-- TM_READ (R125) -/
  | tmRead (m : Fin 8) (lg : Fin 16)
  /-- TM_WRITE (R125) -/
  | tmWrite (m : Fin 8) (lg : Fin 16) (late : Bool)
  /-- TSI_WINDOW_WRITE (R137) -/
  | tsiWindowWrite (m : Fin 8) (off : Fin 0x80000) (v : Word)
  /-- SEAL (R138) -/
  | seal (m : Fin 8)
  /-- SEAL_DONE (R138) -/
  | sealDone
  /-- ABANDON (R139) -/
  | abandon (m : Fin 8) (copied : Fin 0x100000)
  /-- COPY_ACTIVE (R140) -/
  | copyActive (m : Fin 8)
  /-- COPY_ACTIVE_DONE (R140) -/
  | copyActiveDone
  /-- LOX_WINDOW_WRITE (R149) -/
  | loxWindowWrite (m : Fin 8) (off : Fin 0x40000) (v : Word)
  /-- LOX_SEAL (R150) -/
  | loxSeal (m : Fin 8)
  /-- LOX_SEAL_DONE (R150) -/
  | loxSealDone
  /-- LOX_ABANDON (R149) -/
  | loxAbandon (m : Fin 8) (copied : Fin 0x100000)
  /-- LOX_COPY_ACTIVE (R149) -/
  | loxCopyActive (m : Fin 8)
  /-- LOX_COPY_ACTIVE_DONE (R149) -/
  | loxCopyActiveDone
  /-- MW_READ (R179) -/
  | mwRead (m : Fin 8) (lg : Fin 16)
  /-- MW_WRITE (R154) -/
  | mwWrite (m : Fin 8) (lg : Fin 16)
  /-- CHECK (R156) -/
  | check (m : Fin 8) (lg : Fin 16)
  /-- CHECK_DONE (R156) -/
  | checkDone (lg : Fin 16)
  /-- VG_READ (R181) -/
  | vgRead (m : Fin 8) (lg : Fin 16)
  /-- VG_WRITE (R181) -/
  | vgWrite (m : Fin 8) (lg : Fin 16) (late : Bool)
  /-- CONTAINER_ACQUIRED (R155) -/
  | containerAcquired (c : Fin 192) (e : Fin 255) (tx : Bool)
  /-- CLIENT_FRAME_MAP (R172) -/
  | clientFrameMap (c : Fin 192) (frame : List Byte) (raw : Nat)
  /-- GFP_FRAME_RX (R172) -/
  | gfpFrameRx (c : Fin 192) (o : GfpObs) (raw : Nat)
  /-- CSF_SEND (R173) -/
  | csfSend (c : Fin 192)
  /-- LCAS_MEMBER_FAIL (R175) -/
  | lcasMemberFail (lg : Fin 16) (g : Fin 16) (mem : Fin 64)
  /-- LCAS_MEMBER_RESTORE (R175) -/
  | lcasMemberRestore (lg : Fin 16) (g : Fin 16) (mem : Fin 64)
  /-- SELECTOR_ADMIT (R190) -/
  | selectorAdmit (n : Fin 4096)
  /-- SELECTOR_ADMIT_RETRY (R190) -/
  | selectorAdmitRetry (n : Fin 4096)
  /-- WTR_EXPIRY (R188) -/
  | wtrExpiry (n : Fin 4096)
  /-- SW_READ (R207) -/
  | swRead (m : Fin 8) (lg : Fin 16)
  /-- SW_WRITE (R205) -/
  | swWrite (m : Fin 8) (lg : Fin 16) (late : Bool)
  /-- HITLESS_ACQUIRED (R197) -/
  | hitlessAcquired (n : Fin 4096) (diffs : List Int) (period : Nat)
  /-- HITLESS_FRAME_DUE (R198) -/
  | hitlessFrameDue (n : Fin 4096) (o : HlObs)
  /-- DELAY_STEP (R199) -/
  | delayStep (n : Fin 4096) (copyP : Bool) (slacks : List Int)
  /-- REALIGN_AUTO (R201) -/
  | realignAuto (n : Fin 4096)
  /-- LOAD (R211) -/
  | load (m : Fin 8)
  /-- NOW_NS_READ (R212) -/
  | nowNsRead (m : Fin 8)
  /-- TB_INC_WRITE (R213) -/
  | tbIncWrite (m : Fin 8) (v : Word)
  /-- SLEW_STEP (R215) -/
  | slewStep
  /-- HOLDOVER (R216) -/
  | holdover
  /-- PORT_TIMESTAMP (R224) -/
  | portTimestamp (port : Fin 1024) (tx : Bool) (id kind raw deskew : Nat)
  /-- RX_POP (R225) -/
  | rxPop (m : Fin 8)
  /-- TX_POP (R225) -/
  | txPop (m : Fin 8)
  /-- TIMING_PORT_FRAME_TX (R227) -/
  | timingPortFrameTx (p : Fin 4) (ctrl : Word) (frame : List Byte) (raw : Nat)
  /-- TIMING_PORT_FRAME_RX (R227) -/
  | timingPortFrameRx (p : Fin 4) (frame : List Byte) (raw : Nat)
  /-- TT_STAMP_RX (R233) -/
  | ttStampRx (e : Env) (k departure arrival : Nat) (valid : Bool) (ownDeparture ownArrival : Nat)
  /-- TT_RESULT (R233) -/
  | ttResult (p : Fin 8)
  /-- PPS_IN_EDGE (R234) -/
  | ppsInEdge (falling : Bool) (raw : Nat)
  /-- PPS_PULSE_START (R235) -/
  | ppsPulseStart
  /-- PPS_PULSE_END (R235) -/
  | ppsPulseEnd
  /-- ARM (R236) -/
  | arm (m : Fin 8)
  /-- TOD_SEND_START (R236) -/
  | todSendStart
  /-- TOD_SEND_DONE (R236) -/
  | todSendDone
  /-- TX_ABANDON (R236) -/
  | txAbandon
  /-- TOD_RX_MESSAGE (R236) -/
  | todRxMessage (bytes : List Byte) (raw : Nat)
  /-- ADD (R243) -/
  | feAdd (e : Fin 64)
  /-- SUB (R243) -/
  | feSub (e : Fin 64)
  /-- AND (R243) -/
  | feAnd (e : Fin 64)
  /-- OR (R243) -/
  | feOr (e : Fin 64)
  /-- XOR (R243) -/
  | feXor (e : Fin 64)
  /-- SHL (R243) -/
  | feShl (e : Fin 64)
  /-- SHR (R243) -/
  | feShr (e : Fin 64)
  /-- SHA (R243) -/
  | feSha (e : Fin 64)
  /-- CLT (R243) -/
  | feClt (e : Fin 64)
  /-- CLTU (R243) -/
  | feCltu (e : Fin 64)
  /-- MUL (R243) -/
  | feMul (e : Fin 64)
  /-- MULHI (R243) -/
  | feMulhi (e : Fin 64)
  /-- ADDK (R243) -/
  | feAddk (e : Fin 64)
  /-- ANDK (R243) -/
  | feAndk (e : Fin 64)
  /-- ORK (R243) -/
  | feOrk (e : Fin 64)
  /-- XORK (R243) -/
  | feXork (e : Fin 64)
  /-- CLTK (R243) -/
  | feCltk (e : Fin 64)
  /-- KHI (R243) -/
  | feKhi (e : Fin 64)
  /-- SHLK (R243) -/
  | feShlk (e : Fin 64)
  /-- SHRK (R243) -/
  | feShrk (e : Fin 64)
  /-- SHAK (R243) -/
  | feShak (e : Fin 64)
  /-- LDW (R243) -/
  | feLdw (e : Fin 64)
  /-- LDH (R243) -/
  | feLdh (e : Fin 64)
  /-- LDHU (R243) -/
  | feLdhu (e : Fin 64)
  /-- LDB (R243) -/
  | feLdb (e : Fin 64)
  /-- LDBU (R243) -/
  | feLdbu (e : Fin 64)
  /-- STW (R243) -/
  | feStw (e : Fin 64)
  /-- STH (R243) -/
  | feSth (e : Fin 64)
  /-- STB (R243) -/
  | feStb (e : Fin 64)
  /-- OLDW (R252) -/
  | feOldw (e : Fin 64)
  /-- OLDBU (R252) -/
  | feOldbu (e : Fin 64)
  /-- OSTW (R252) -/
  | feOstw (e : Fin 64)
  /-- OSTB (R252) -/
  | feOstb (e : Fin 64)
  /-- BLD (R245) -/
  | feBld (e : Fin 64)
  /-- BST (R245) -/
  | feBst (e : Fin 64)
  /-- BUS_OP_COMPLETE (R245) -/
  | busOpComplete (e : Fin 64)
  /-- BSYNC (R243) -/
  | feBsync (e : Fin 64)
  /-- BREQ (R243) -/
  | feBreq (e : Fin 64)
  /-- BRNE (R243) -/
  | feBrne (e : Fin 64)
  /-- BRLT (R243) -/
  | feBrlt (e : Fin 64)
  /-- BRGE (R243) -/
  | feBrge (e : Fin 64)
  /-- BRLO (R243) -/
  | feBrlo (e : Fin 64)
  /-- BRHS (R243) -/
  | feBrhs (e : Fin 64)
  /-- CALL (R243) -/
  | feCall (e : Fin 64)
  /-- JMP (R243) -/
  | feJmp (e : Fin 64)
  /-- WAIT (R243) -/
  | feWait (e : Fin 64)
  /-- RDC (R247) -/
  | feRdc (e : Fin 64)
  /-- WRC (R247) -/
  | feWrc (e : Fin 64)
  /-- CRCB (R244) -/
  | feCrcb (e : Fin 64)
  /-- CRCW (R244) -/
  | feCrcw (e : Fin 64)
  /-- HALT (R259) -/
  | feHalt (e : Fin 64)
  /-- FE_WATCHDOG (R262) -/
  | feWatchdog (e : Fin 64)
  /-- FE_TIMER_EXPIRY (R250) -/
  | feTimerExpiry (e : Fin 64)
  /-- HDLC_RX_PASS (R254) -/
  | hdlcRxPass (e : Fin 64)
  /-- HDLC_TX_PASS (R255) -/
  | hdlcTxPass (e : Fin 64) (caps : List Nat) (stamps : List Nat)
  /-- H_IN_DB_WRITE (R257) -/
  | hInDbWrite (m : Fin 8) (e : Fin 64) (v : Word) (core : Bool)
  /-- H_OUT_ACK_WRITE (R257) -/
  | hOutAckWrite (m : Fin 8) (e : Fin 64) (v : Word) (core : Bool)
  /-- H_IN_D_WRITE (R257) -/
  | hInDWrite (m : Fin 8) (e : Fin 64) (d : Fin 16) (v : Word) (core : Bool)
  /-- FE_START (R259) -/
  | feStart (m : Fin 8) (e : Fin 64)
  /-- FE_STOP (R259) -/
  | feStop (m : Fin 8) (e : Fin 64)
  /-- FE_STOP_DONE (R259) -/
  | feStopDone (e : Fin 64)
  /-- FE_CHECK (R258) -/
  | feCheck (m : Fin 8) (e : Fin 64)
  /-- FE_CHECK_DONE (R258) -/
  | feCheckDone (e : Fin 64)
  /-- FE_WINDOW_WRITE (R259) -/
  | feWindowWrite (m : Fin 8) (e : Fin 64) (off : Fin 0x10000) (v : Word)
  /-- FE_SCRUB (R263) -/
  | feScrub (e : Fin 64) (w : Fin 24576)
  /-- BATT_READ_RETURN (R276) -/
  | battReadReturn (p : Fin 4096) (n : Fin 2048) (o : BattObs)
  /-- BATT_SCRUB_READ (R278) -/
  | battScrubRead (ch : Fin 16) (cw : Fin 14913080) (cls : Fin 4) (passMs : Option Nat)
  /-- PATH_READ (R280) -/
  | pathRead (m : Fin 8)
  /-- PATH_WRITE (R274) -/
  | pathWrite (m : Fin 8) (late : Bool)
  /-- BATT_WINDOW_ACCESS (R279) -/
  | battWindowAccess (m : Fin 8) (off : Fin 0x1000000) (w : Option Word) (cls : Fin 4)
  /-- MEM_CHANNEL_TRAINED (R275) -/
  | memChannelTrained (ch : Fin 16) (ok : Bool)
  /-- POUNCE_UNIT_COMPLETE (R284) -/
  | pounceUnitComplete (u : Fin 32) (bytes : List Byte) (carried : Word) (fcs32 : Bool)
  /-- GO (R289) -/
  | go (m : Fin 8) (late : Bool)
  /-- STOP (R294) -/
  | stop (m : Fin 8) (late : Bool)
  /-- HEARTBEAT_SEND (R300) -/
  | heartbeatSend
  /-- HEARTBEAT (R301) -/
  | heartbeat (e : Env) (b : Beat)
  /-- MIRROR_LINK_LOSS (R301) -/
  | mirrorLinkLoss
  /-- FWD_WRITE (R302) -/
  | fwdWrite (e : Env) (addr : Nat) (val mask : Word) (master sfn : Nat)
  /-- DIGEST (R310) -/
  | digest (e : Env) (first : Bool) (n : Nat) (d : Digests)
  /-- COPY (R306) -/
  | copy (e : Env) (region gen sfn offset : Nat) (data : List (Nat × Nat)) (last : Bool)
  /-- COPY_ACK (R300) -/
  | copyAck (e : Env) (region gen : Nat)
  /-- JOIN (R304) -/
  | join (m : Fin 8)
  /-- JOIN_RX (R304) -/
  | joinRx (e : Env) (pairId version : Nat)
  /-- ACCEPT (R304) -/
  | accept (e : Env) (c : Nat)
  /-- REFUSE (R304) -/
  | refuse (e : Env) (code : Nat)
  /-- JOIN_TIMEOUT (R304) -/
  | joinTimeout
  /-- SERVE (R299) -/
  | serve (m : Fin 8)
  /-- LEAVE (R299) -/
  | leave (m : Fin 8)
  /-- FORCE_TAKEOVER (R316) -/
  | forceTakeover (m : Fin 8)
  /-- CLAIM_IN_CHANGE (R296) -/
  | claimInChange (level : Bool)
  /-- TAKEOVER_DECISION (R313) -/
  | takeoverDecision
  /-- TAKEOVER (R314) -/
  | takeover
  /-- CLAIM_CONFLICT (R317) -/
  | claimConflict
  /-- TVW_END (R320) -/
  | tvwEnd (swing : Nat)
  /-- CONV_TIMEOUT (R309) -/
  | convTimeout
  /-- HELLO_SEND (R327) -/
  | helloSend (p : Fin 8)
  /-- HELLO (R327) -/
  | hello (e : Env) (h : Hello)
  /-- MEMBER_DEPART (R328) -/
  | memberDepart (n : Fin 8)
  /-- RESULT (R330) -/
  | result (e : Env) (origin status reason applied index : Nat)
  /-- GROUP_CANCEL_RX (R330) -/
  | groupCancelRx (e : Env) (origin : Nat)
  /-- PROXY_ACCESS (R333) -/
  | proxyAccess (m : Fin 8) (off : Fin 0x4000000) (write : Bool) (be : Fin 16) (data : Word)
  /-- RRA_REQ (R333) -/
  | rraReq (e : Env) (tag off : Nat) (write : Bool) (be : Fin 16) (data : Word)
  /-- RRA_RSP (R333) -/
  | rraRsp (e : Env) (tag status : Nat) (data : Word)
  /-- PROXY_TIMEOUT (R333) -/
  | proxyTimeout (tag : Nat)
  /-- SUPERFRAME_RX (R340) -/
  | superframeRx (p : Fin 8) (o : SuperObs)
  /-- RETRY_TIMEOUT (R342) -/
  | retryTimeout (p : Fin 8) (bulk : Bool)
  /-- PTP_MESSAGE_RX (R341) -/
  | ptpMessageRx (e : Env) (ctrl : Nat) (frame : List Byte)
  /-- GELVY_LANE_LOS (R343) -/
  | gelvyLaneLos (p : Fin 8)
  /-- GELVY_TRAINED (R343) -/
  | gelvyTrained (p : Fin 8)
  /-- PCIE_WRITE_TLP (R348) -/
  | pcieWriteTlp (sp : PcieSpace) (addr : Nat) (l : List (Word × Nat)) (late : Bool)
  /-- PCIE_READ_TLP (R348) -/
  | pcieReadTlp (sp : PcieSpace) (addr n : Nat) (late : Bool) (cls : Fin 4)
  /-- PCIE_RESET (R349) -/
  | pcieReset (kind : PcieResetKind) (p d : Option Partial)
  /-- DMA_TAIL_WRITE (R350) -/
  | dmaTailWrite (m : Fin 8) (c : Fin 8) (tail : Fin 4096)
  /-- DMA_DESCRIPTOR_DONE (R350) -/
  | dmaDescriptorDone (c : Fin 8) (addr : Nat) (len : Fin 0x10000) (ctrl : Word) (frame : List Byte) (raw : Nat) (err : Bool)
  /-- WR_DIRECT (R352) -/
  | wrDirect (code : Fin 256) (off : Fin 0x10000) (v : Word) (pecOk : Bool) (count : Fin 256) (late : Bool)
  /-- RD_DIRECT (R352) -/
  | rdDirect (code : Fin 256) (off : Fin 0x10000) (count : Fin 256)
  /-- SET_ADDR (R352) -/
  | setAddr (a : Word) (pecOk : Bool) (count : Fin 256)
  /-- WR_IND (R352) -/
  | wrInd (v : Word) (pecOk : Bool) (count : Fin 256) (late slow : Bool)
  /-- RD_IND (R352) -/
  | rdInd (late slow : Bool) (cls : Fin 4)
  /-- STATUS (R352) -/
  | status
  /-- SMBUS_STRETCH_LIMIT (R353) -/
  | smbusStretchLimit
  /-- SMBUS_TIMEOUT (R353) -/
  | smbusTimeout (p : Option Partial)
  /-- MASTER_RESET (R360) -/
  | masterReset (m : Fin 8) (p : Option Partial)
  /-- JTAG_BUS_ACCESS (R354) -/
  | jtagBusAccess (a : Word) (write : Bool) (be : Fin 16) (v : Word) (late : Bool) (cls : Fin 4)
  /-- EXTEST (R425) -/
  | extest (on : Bool)
  /-- HATTER_BOOT (R362) -/
  | hatterBoot
  /-- HATTER_BOOT_TIMEOUT (R362) -/
  | hatterBootTimeout
  /-- HATTER_WATCHDOG (R364) -/
  | hatterWatchdog (older : Bool)
  /-- RESTART (R364) -/
  | restart (m : Fin 8)
  /-- H2C_DB_WRITE (R363) -/
  | h2cDbWrite (m : Fin 8) (v : Word)
  /-- GET_INFO (R363) -/
  | getInfo
  /-- IMG_WRITE (R363) -/
  | imgWrite (ok : Bool) (upto : Nat)
  /-- IMG_ERASE (R363) -/
  | imgErase (ok : Bool) (upto : Nat)
  /-- IMG_COMMIT (R363) -/
  | imgCommit (ok : Bool)
  /-- FE_LOAD (R363) -/
  | feLoad
  /-- C2H_ACK_WRITE (R363) -/
  | c2hAckWrite (m : Fin 8) (v : Word)
  /-- REMAP_SWAP (R355) -/
  | remapSwap (m : Fin 8) (v : Word)
  /-- EOI (R368) -/
  | eoi (m : Fin 8) (v : Word)
  /-- MSIX_UNMASK (R368) -/
  | msixUnmask (v : Fin 32)
  /-- BRINGUP (R378) -/
  | bringup (m : Fin 8)
  /-- SOLO (R381) -/
  | solo (m : Fin 8) (late : Bool)
  /-- QUARANTINE (R381) -/
  | quarantine (m : Fin 8) (late : Bool)
  /-- RELEASE (R381) -/
  | release (m : Fin 8) (late : Bool)
  /-- PAGE_READY (R379) -/
  | pageReady (page : Fin 576) (ok : Bool)
  /-- FATAL_CAUSE (R383) -/
  | fatalCause (bit : Fin 3)
  /-- REGION_MEASURE (R385) -/
  | regionMeasure (temps : List Int) (volts : List Nat)
  /-- LCAL_RUN (R390) -/
  | lcalRun (m : Fin 8) (lg : Fin 16)
  /-- TCAL_RUN (R390) -/
  | tcalRun (m : Fin 8)
  /-- MCAL_RUN (R390) -/
  | mcalRun (m : Fin 8)
  /-- CAL_PERIOD_EXPIRY (R390) -/
  | calPeriodExpiry (kind : Fin 5) (target : Fin 1024)
  /-- BLOCKING_RUN_START (R389) -/
  | blockingRunStart (kind : Fin 5) (target : Fin 1024)
  /-- BLOCKING_RUN_COMPLETE (R393) -/
  | blockingRunComplete (kind : Fin 5) (target : Fin 1024) (rx tx : Int) (dq : List Nat) (fig0 fig1 : Nat)
  /-- BLOCKING_RUN_ABORT (R391) -/
  | blockingRunAbort (kind : Fin 5) (target : Fin 1024) (code : Fin 10)
  /-- MISMATCH (R393) -/
  | mismatch (lane : Fin 192)
  /-- PROG (R399) -/
  | prog (m : Fin 8) (low : Bool)
  /-- FUSE_PROG_DONE (R399) -/
  | fuseProgDone (ok : Bool)
  /-- FUSE_PROG_ABORT (R400) -/
  | fuseProgAbort (n : Fin 16) (part : Word)
  /-- GAUGE_CLEAR (R406) -/
  | gaugeClear (m : Fin 8)
  /-- G_WR (R404) -/
  | gWr (m : Fin 8) (v : Word)
  /-- TRACE_START (R410) -/
  | traceStart (m : Fin 8)
  /-- TRACE_STOP (R410) -/
  | traceStop (m : Fin 8)
  /-- TRACE_RESET (R410) -/
  | traceReset (m : Fin 8)
  /-- T_RD_IDX_WRITE (R410) -/
  | tRdIdxWrite (m : Fin 8) (idx : Word)
  /-- INSTR_TAG_RECORD (R411) -/
  | instrTagRecord (e : Fin 64) (pc : Nat) (instr cycle : Word) (stall causes complete : Nat) (fault : Bool)
  /-- POP (R411) -/
  | pop (m : Fin 8)
  /-- SCLK_REFRESH (R34) -/
  | sclkRefresh
  /-- RAIL_TOLERANCE_CHANGE (R388) -/
  | railToleranceChange (w : Supply) (l : Level)
  /-- PLL_RELOCK (R383) -/
  | pllRelock (p : Pll)
  /-- TX_PLL_LOCK_LOSS (R320) -/
  | txPllLockLoss (p : Pll)
  /-- REF_RETURN (R19) -/
  | refReturn (input : Fin 5)
  /-- REF_OOR_CHANGE (R19) -/
  | refOorChange (input : Fin 5) (oor : Bool)
  /-- GELVY_SIGNAL_DETECT (R343) -/
  | gelvySignalDetect (p : Fin 8)
  /-- HELLO_TIMEOUT (R343) -/
  | helloTimeout (p : Fin 8)
  /-- TIMING_PORT_LINK_CHANGE (R239) -/
  | timingPortLinkChange (p : Fin 4) (link lf rf : Bool)
  /-- HATTER_RUN (R362) -/
  | hatterRun
  /-- MEM_CHANNEL_FAIL (R268) -/
  | memChannelFail (ch : Fin 16)
  deriving DecidableEq, Repr

end Sys2Proof
end

