-- ==== Sys2Proof/Decode.lean ====
section
/-!
DEFINITION. The block takes commands, not encoded instructions: no row of the table gives its command bits, so no word spells one.
-/

namespace Sys2Proof

/-- The command that a word spells by the table's bits: none, since every row's list of fields is empty. -/
def decodeTableWord (_nbits _w : Nat) : Option Instr := none

end Sys2Proof
end

