-- ==== Sys2Proof/Config.lean ====
section
/-!
DEFINITION. What the spec leaves open and no rule fixes: opaque constants, so that nothing can be proved of their values. Beside the
drawn value they are the datapath's (notes/assumptions/77.md): what the standards that 08_mapping.md names put into a signal and the spec
does not repeat, and the size of an ODU store.
-/

namespace Sys2Proof

/-- A word the spec does not state, drawn by the model's own counter (notes/assumptions/6.md). It has no body: every statement
holds whatever its values. -/
opaque Config.freeValue : Nat → Word

/-- The bytes that the ODU store of a container of so many slots holds (R164). -/
opaque Config.oduStore : Nat → Nat

/-- The octets of an ODU by the client mapping of G.709 (R171): container type, place in the ODU stream, the client's octets; and of the
replacement signal that G.709 specifies for the mapping (R173). -/
opaque Config.clientMap : Nat → Nat → List Byte → List Byte
opaque Config.clientFail : Nat → Nat → Byte

/-- The client's octets from the octets of its ODU (R168, R171), by container type. -/
opaque Config.clientDemap : Nat → List Byte → List Byte

/-- The OPU octets of an originated HO ODU (R168, GMP or AMP of G.709): header format, frame number, the ODU octets of each LO ODU in
this system frame by its tributary port. -/
opaque Config.muxPayload : Nat → Nat → List (Nat × List Byte) → List Byte

/-- The octets of an asynchronous DS3 (`e3` false) or E3 AIS mapping in VC-3 (R161, G.707), by system frame. -/
opaque Config.pdhAis : Bool → Nat → List Byte

/-- The LCAS nibbles of H4 and the sequence number that the LCAS source protocol assigns (R175, G.7042): LG, descriptor, member, multiframe
number. -/
opaque Config.lcasNibble : Nat → Nat → Nat → Nat → Nat

/-- The octets of a retimed tributary (R148): the octets of the input's slots, tributary, system frame. -/
opaque Config.vtOctets : List (List Byte) → Nat → Nat → List Byte

/-- Zorval's PCI-SIG vendor identifier (Table 16-1). -/
opaque Config.vendorId : BitVec 16

/-- The state-copy region whose image a codeword of the state-copy memory holds (R272, R277): channel, codeword. -/
opaque Config.copyRegion : Nat → Nat → Nat

end Sys2Proof
end

