-- ==== Sys2Proof/Machine/Octets.lean ====
section
/-!
DEFINITION. Check codes and scramblers of the octet streams that the datapath sends: the CRC-8 of Table 8-6, bit-interleaved parity
(06_overhead_defects_pm.md R103, R114), the header checks of GFP (08_mapping.md R172), the Reed-Solomon codes of the OTU (R103) and of Gelvy
(15_group_gelvy.md R338), the scramblers. What the spec leaves to the standards it names is taken from them (PRESUMED, log 62).
-/

namespace Sys2Proof.Machine

open Sys2Proof

/-! ### Parity and CRC -/

/-- BIP-8: the exclusive or of the octets. -/
def bip8 (l : List Byte) : Byte := l.foldl (· ^^^ ·) 0

/-- One bit of a division by a polynomial of degree `w`, most significant bit first. -/
def crcBit (w poly r : Nat) (b : Bool) : Nat :=
  let out := r.testBit (w - 1) != b
  let x := r * 2 % 2 ^ w
  if out then x ^^^ poly else x

/-- A CRC of width `w`, most significant bit first, without final inversion. -/
def crcMsb (w poly init : Nat) (l : List Byte) : Nat :=
  l.foldl (fun r b => (List.range 8).foldl (fun r i => crcBit w poly r (b.getLsbD (7 - i))) r) init

/-- CRC-8, x^8 + x^2 + x + 1, initial 0x00, no final inversion (Table 8-6). -/
def crc8 (l : List Byte) : Byte := BitVec.ofNat 8 (crcMsb 8 0x07 0 l)

/-- CRC-16 of GFP headers, x^16 + x^12 + x^5 + 1, initial 0. -/
def hec16 (l : List Byte) : Nat := crcMsb 16 0x1021 0 l

/-! ### Reed-Solomon codes -/

/-- The product in the field of 2^m elements with polynomial `p`. -/
def gfMul (m p a b : Nat) : Nat :=
  (List.range m).foldl (fun acc i =>
    let x := acc * 2
    let x := if 2 ^ m ≤ x then x ^^^ p else x
    if b.testBit (m - 1 - i) then x ^^^ a else x) 0

/-- The generator polynomial with the roots 1, α, ..., α^(t-1), highest power first. -/
def rsGenerator (m p t : Nat) : List Nat :=
  ((List.range t).foldl (fun (r : List Nat × Nat) _ =>
    (List.zipWith (· ^^^ ·) (r.1 ++ [0]) (0 :: r.1.map (gfMul m p r.2)), gfMul m p r.2 2)) ([1], 1)).1

/-- The `t` parity symbols of a systematic code word over the data symbols. -/
def rsParity (m p t : Nat) (data : List Nat) : List Nat :=
  let g := (rsGenerator m p t).tail
  data.foldl (fun r d =>
    let fb := d ^^^ r.headD 0
    List.zipWith (fun x y => x ^^^ gfMul m p fb y) (r.tail ++ [0]) g) (List.replicate t 0)

/-- The FEC octets of one OTU row of 3,824 octets: 16 interleaved RS(255,239) code words (G.709 Annex A). -/
def otuFecRow (row : List Byte) : List Byte :=
  let word (i : Nat) : List Nat := rsParity 8 0x11D 16 ((List.range 239).map (fun j => ((row.getD (16 * j + i) 0).toNat)))
  let words := (List.range 16).map word
  (List.range 256).map (fun k => BitVec.ofNat 8 ((words.getD (k % 16) []).getD (k / 16) 0))

/-- A code word of RS(544,514) (R338): 514 data symbols of 10 bits, then 30 parity symbols; field polynomial x^10 + x^3 + 1. -/
def kp4Word (data : List Nat) : List Nat := data ++ rsParity 10 0x409 30 data

/-! ### Scramblers -/

/-- A frame-synchronous key stream: a register of `w` bits, all ones at the start, whose feedback is the exclusive or of its bits `w - 1` and
those in `taps`; the stream is its top bit, most significant first. -/
def keyStream (w : Nat) (taps : List Nat) : Nat → Nat → List Byte
  | _, 0 => []
  | r, n + 1 =>
    let x := (List.range 8).foldl (fun (p : Nat × Nat) _ =>
      (2 * p.1 + bit (p.2.testBit (w - 1)),
        p.2 * 2 % 2 ^ w + bit (taps.foldl (fun a t => a != p.2.testBit t) (p.2.testBit (w - 1))))) (0, r)
    BitVec.ofNat 8 x.1 :: keyStream w taps x.2 n

/-- A SONET/SDH frame as its scrambler sends it (x^7 + x^6 + 1): the first row's section bytes, `n` triples, stay as they are. -/
def sdhScramble (n : Nat) (frame : List Byte) : List Byte :=
  frame.take (3 * n) ++ List.zipWith (· ^^^ ·) (frame.drop (3 * n)) (keyStream 7 [5] 0x7F (frame.length - 3 * n))

/-- A self-synchronous scrambler over bits, x^a + 1 or x^a + x^b + 1 by its list of exponents: each bit is sent with those sent so many
bits before; the register holds the last 58 bits sent, latest first. -/
def selfScramble (taps : List Nat) : List Bool → List Bool → List Bool × List Bool
  | reg, [] => ([], reg)
  | reg, d :: r =>
    let x := taps.foldl (fun a t => a != reg.getD (t - 1) false) d
    let t := selfScramble taps ((x :: reg).take 58) r
    (x :: t.1, t.2)

/-- The bits of an octet, most significant first, and the octet of eight bits. -/
def octetBits (b : Byte) : List Bool := (List.range 8).map (fun i => b.getLsbD (7 - i))
def bitsOctet (l : List Bool) : Byte := BitVec.ofNat 8 (l.foldl (fun n b => 2 * n + bit b) 0)

end Sys2Proof.Machine
end

