-- ==== Sys2Proof/Machine/RegFields.lean ====
section
/-!
DEFINITION. Every field of every register table of the spec, by name: the register's key, its lowest bit and its width
(02_register_conventions.md and each chapter's register tables; the BAR 0 map of R28). A register that the spec banks per
bus-matrix master, or that shows one of several units behind a selector, takes the bank `b` as its first argument: its key
is its BAR 0 address plus 2^32 times (b + 1).
-/

namespace Sys2Proof.Machine

/-- Page CHc of channel `c` (R28, Table 2-4): LG `c / 12`, page 1 + `c % 12`. -/
def chBase (c : Nat) : Nat := 0x100000 + 0x10000 * (c / 12) + 0x1000 * (1 + c % 12)

/-- The first page of LG `n` (R28). -/
def lgBase (n : Nat) : Nat := 0x100000 + 0x10000 * n

/-- The interchange page, and the lower-order stage's page of the same layout (R146, R149). -/
def tsiPage : Nat := 0x9000
def loxPage : Nat := 0xA000

/-- page header and trailer.PG_ID, 0x000 (02_register_conventions.md, R26). -/
def PG_ID_ID (pg : Nat) : Fld := ⟨pg + 0x0, 0, 32⟩
/-- page header and trailer.PG_VER, 0x004 (02_register_conventions.md, R26). -/
def PG_VER_MINOR (pg : Nat) : Fld := ⟨pg + 0x4, 0, 8⟩
def PG_VER_MAJOR (pg : Nat) : Fld := ⟨pg + 0x4, 8, 8⟩
def PG_VER_SCLK_SEQ (pg : Nat) : Fld := ⟨pg + 0x4, 16, 16⟩
/-- page header and trailer.PG_CAP, 0x008 (02_register_conventions.md, R26). -/
def PG_CAP_CAP (pg : Nat) : Fld := ⟨pg + 0x8, 0, 32⟩
/-- page header and trailer.PG_READY, 0x00C (02_register_conventions.md, R26). -/
def PG_READY_READY (pg : Nat) : Fld := ⟨pg + 0xC, 0, 1⟩
def PG_READY_FAILED (pg : Nat) : Fld := ⟨pg + 0xC, 1, 1⟩
/-- page header and trailer.PG_SUM, 0x010 (02_register_conventions.md, R26). -/
def PG_SUM_SUM (pg : Nat) : Fld := ⟨pg + 0x10, 0, 31⟩
def PG_SUM_ANY (pg : Nat) : Fld := ⟨pg + 0x10, 31, 1⟩
/-- page header and trailer.PG_LOCK, 0x014 (02_register_conventions.md, R26). -/
def PG_LOCK_LOCK (pg : Nat) : Fld := ⟨pg + 0x14, 0, 1⟩
/-- page header and trailer.PG_PAR, 0x018 (02_register_conventions.md, R26). -/
def PG_PAR_ERR (pg : Nat) : Fld := ⟨pg + 0x18, 0, 1⟩
def PG_PAR_HOLD (pg : Nat) : Fld := ⟨pg + 0x18, 1, 1⟩
def PG_PAR_PAR_ACT (pg : Nat) : Fld := ⟨pg + 0x18, 2, 1⟩
def PG_PAR_WORD (pg : Nat) : Fld := ⟨pg + 0x18, 8, 8⟩
def PG_PAR_COUNT (pg : Nat) : Fld := ⟨pg + 0x18, 16, 8⟩
/-- page header and trailer.PG_CMD, 0x01C (02_register_conventions.md, R26). -/
def PG_CMD_SRST (pg : Nat) : Fld := ⟨pg + 0x1C, 0, 1⟩
def PG_CMD_CNT_CLR (pg : Nat) : Fld := ⟨pg + 0x1C, 1, 1⟩
def PG_CMD_PEND (pg : Nat) : Fld := ⟨pg + 0x1C, 30, 1⟩
def PG_CMD_BUSY (pg : Nat) : Fld := ⟨pg + 0x1C, 31, 1⟩
/-- page header and trailer.PG_WLOST, 0x3E0 (02_register_conventions.md, R27). -/
def PG_WLOST_COUNT (pg : Nat) : Fld := ⟨pg + 0x3E0, 0, 16⟩
def PG_WLOST_ACK (pg : Nat) : Fld := ⟨pg + 0x3E0, 16, 16⟩
/-- page header and trailer.PG_HWLOST, 0x3E4 (02_register_conventions.md, R27). -/
def PG_HWLOST_COUNT (pg : Nat) : Fld := ⟨pg + 0x3E4, 0, 16⟩
def PG_HWLOST_ACK (pg : Nat) : Fld := ⟨pg + 0x3E4, 16, 16⟩
/-- page header and trailer.PG_LOCK_VIOL, 0x3E8 (02_register_conventions.md, R27). -/
def PG_LOCK_VIOL_COUNT (pg : Nat) : Fld := ⟨pg + 0x3E8, 0, 16⟩
def PG_LOCK_VIOL_ACK (pg : Nat) : Fld := ⟨pg + 0x3E8, 16, 16⟩
/-- page header and trailer.PG_BUSY_VIOL, 0x3EC (02_register_conventions.md, R27). -/
def PG_BUSY_VIOL_COUNT (pg : Nat) : Fld := ⟨pg + 0x3EC, 0, 16⟩
def PG_BUSY_VIOL_ACK (pg : Nat) : Fld := ⟨pg + 0x3EC, 16, 16⟩
/-- page header and trailer.PG_WADDR, 0x3F0 (02_register_conventions.md, R27). -/
def PG_WADDR_OFFSET (pg : Nat) : Fld := ⟨pg + 0x3F0, 0, 12⟩
def PG_WADDR_MASTER (pg : Nat) : Fld := ⟨pg + 0x3F0, 12, 3⟩
/-- page header and trailer.PG_VADDR, 0x3F4 (02_register_conventions.md, R27). -/
def PG_VADDR_OFFSET (pg : Nat) : Fld := ⟨pg + 0x3F4, 0, 12⟩
def PG_VADDR_MASTER (pg : Nat) : Fld := ⟨pg + 0x3F4, 12, 3⟩
def PG_VADDR_KIND (pg : Nat) : Fld := ⟨pg + 0x3F4, 15, 1⟩
/-- page header and trailer.PG_OCCL, 0x3F8 (02_register_conventions.md, R27). -/
def PG_OCCL_OCC_LOST (pg : Nat) : Fld := ⟨pg + 0x3F8, 0, 4⟩
/-- DEV.MODE, 0x020 (17_power_reset_modes.md, R387). -/
def DEV_MODE_MODE : Fld := ⟨0x20, 0, 3⟩
def DEV_MODE_PREV : Fld := ⟨0x20, 3, 3⟩
/-- DEV.CMD, 0x024 (02_register_conventions.md, R45). -/
def DEV_CMD_BRINGUP : Fld := ⟨0x24, 0, 1⟩
def DEV_CMD_SOLO : Fld := ⟨0x24, 1, 1⟩
def DEV_CMD_QUARANTINE : Fld := ⟨0x24, 2, 1⟩
def DEV_CMD_RELEASE : Fld := ⟨0x24, 3, 1⟩
/-- DEV.CMD_CTRL, 0x028 (17_power_reset_modes.md, R387). -/
def DEV_CMD_CTRL_VALID : Fld := ⟨0x28, 0, 1⟩
def DEV_CMD_CTRL_BUSY : Fld := ⟨0x28, 1, 1⟩
def DEV_CMD_CTRL_LAST_FAILED : Fld := ⟨0x28, 2, 1⟩
def DEV_CMD_CTRL_SEQ : Fld := ⟨0x28, 16, 16⟩
/-- DEV.CMD_CODE, 0x02C (17_power_reset_modes.md, R387). -/
def DEV_CMD_CODE_CODE : Fld := ⟨0x2C, 0, 8⟩
def DEV_CMD_CODE_CMD : Fld := ⟨0x2C, 8, 2⟩
/-- DEV.RST_CAUSE, 0x030 (17_power_reset_modes.md, R387). -/
def DEV_RST_CAUSE_CAUSE : Fld := ⟨0x30, 0, 2⟩
def DEV_RST_CAUSE_COUNT : Fld := ⟨0x30, 16, 16⟩
/-- DEV.Q_CAUSE, 0x034 (17_power_reset_modes.md, R387). -/
def DEV_Q_CAUSE_CLK_LOSS : Fld := ⟨0x34, 0, 1⟩
def DEV_Q_CAUSE_RAIL : Fld := ⟨0x34, 1, 1⟩
def DEV_Q_CAUSE_THERM : Fld := ⟨0x34, 2, 1⟩
def DEV_Q_CAUSE_HOST : Fld := ⟨0x34, 3, 1⟩
def DEV_Q_CAUSE_FIRST : Fld := ⟨0x34, 8, 3⟩
/-- DEV.CFG, 0x038 (17_power_reset_modes.md, R387). -/
def DEV_CFG_Q_OUT : Fld := ⟨0x38, 0, 1⟩
/-- DEV.SNAP, 0x040 (02_register_conventions.md, R45). -/
def DEV_SNAP_TAKE : Fld := ⟨0x40, 0, 1⟩
def DEV_SNAP_SNAP_SEQ : Fld := ⟨0x40, 16, 16⟩
/-- DEV.SNAP_SFN_LO, 0x044 (02_register_conventions.md, R45). -/
def DEV_SNAP_SFN_LO_SFN_LO : Fld := ⟨0x44, 0, 32⟩
/-- DEV.SNAP_SFN_HI, 0x048 (02_register_conventions.md, R45). -/
def DEV_SNAP_SFN_HI_SFN_HI : Fld := ⟨0x48, 0, 29⟩
/-- DEV.RDY_G, 0x060 (17_power_reset_modes.md, R387). -/
def DEV_RDY_G_READY : Fld := ⟨0x60, 0, 32⟩
/-- DEV.RDY_G1, 0x064 (17_power_reset_modes.md, R387). -/
def DEV_RDY_G1_READY : Fld := ⟨0x64, 0, 1⟩
/-- DEV.RDY_LG, 0x068 (17_power_reset_modes.md, R387). -/
def DEV_RDY_LG_READY : Fld := ⟨0x68, 0, 16⟩
/-- DEV.FAIL_G, 0x06C (17_power_reset_modes.md, R387). -/
def DEV_FAIL_G_FAILED : Fld := ⟨0x6C, 0, 32⟩
/-- DEV.FAIL_G1, 0x070 (17_power_reset_modes.md, R387). -/
def DEV_FAIL_G1_FAILED : Fld := ⟨0x70, 0, 1⟩
/-- DEV.FAIL_LG, 0x074 (17_power_reset_modes.md, R387). -/
def DEV_FAIL_LG_FAILED : Fld := ⟨0x74, 0, 16⟩
/-- PWR.RAIL, 0x020 (17_power_reset_modes.md, R388). -/
def PWR_RAIL_OK : Fld := ⟨0x1020, 0, 8⟩
def PWR_RAIL_UV : Fld := ⟨0x1020, 8, 8⟩
def PWR_RAIL_OV : Fld := ⟨0x1020, 16, 8⟩
/-- PWR.ISL_UV, 0x024 (17_power_reset_modes.md, R388). -/
def PWR_ISL_UV_UV : Fld := ⟨0x1024, 0, 16⟩
/-- PWR.GRAD, 0x028 (17_power_reset_modes.md, R388). -/
def PWR_GRAD_THERM_GRAD : Fld := ⟨0x1028, 0, 16⟩
def PWR_GRAD_VGRAD : Fld := ⟨0x1028, 16, 16⟩
/-- PWR.TJ, 0x02C (17_power_reset_modes.md, R388). -/
def PWR_TJ_MAX : Fld := ⟨0x102C, 0, 10⟩
def PWR_TJ_WARN_C : Fld := ⟨0x102C, 10, 8⟩
def PWR_TJ_WARN : Fld := ⟨0x102C, 18, 1⟩
def PWR_TJ_OVER : Fld := ⟨0x102C, 19, 1⟩
/-- PWR.LG_MEAS, 0x040 (17_power_reset_modes.md, R388). -/
def PWR_LG_MEAS_TEMP (i : Nat) : Fld := ⟨0x1040 + 4 * i, 0, 10⟩
def PWR_LG_MEAS_VISL (i : Nat) : Fld := ⟨0x1040 + 4 * i, 16, 10⟩
/-- PWR.SEQ_LOG, 0x080 (17_power_reset_modes.md, R388). -/
def PWR_SEQ_LOG_COUNT : Fld := ⟨0x1080, 0, 8⟩
def PWR_SEQ_LOG_KIND : Fld := ⟨0x1080, 8, 4⟩
/-- PWR.UV_OCC, 0x084 (17_power_reset_modes.md, R388). -/
def PWR_UV_OCC_COUNT : Fld := ⟨0x1084, 0, 16⟩
def PWR_UV_OCC_ACK : Fld := ⟨0x1084, 16, 16⟩
/-- PWR.GRAD_OCC, 0x088 (17_power_reset_modes.md, R388). -/
def PWR_GRAD_OCC_COUNT : Fld := ⟨0x1088, 0, 16⟩
def PWR_GRAD_OCC_ACK : Fld := ⟨0x1088, 16, 16⟩
/-- PWR.OCCL, 0x08C (17_power_reset_modes.md, R388). -/
def PWR_OCCL_OCC_LOST : Fld := ⟨0x108C, 0, 2⟩
/-- CLK.CORE_CFG, 0x020 (01_architecture.md, R19). -/
def CLK_CORE_CFG_REF_SEL : Fld := ⟨0x2020, 0, 3⟩
def CLK_CORE_CFG_LOCKED : Fld := ⟨0x2020, 31, 1⟩
/-- CLK.PLL_STAT, 0x024 (01_architecture.md, R19). -/
def CLK_PLL_STAT_CCLK_LK : Fld := ⟨0x2024, 0, 1⟩
def CLK_PLL_STAT_ECLK_LK : Fld := ⟨0x2024, 1, 1⟩
def CLK_PLL_STAT_MCLK_LK : Fld := ⟨0x2024, 2, 1⟩
def CLK_PLL_STAT_SCLK_LK : Fld := ⟨0x2024, 3, 1⟩
def CLK_PLL_STAT_TCLK_LK : Fld := ⟨0x2024, 4, 1⟩
def CLK_PLL_STAT_G6_LK : Fld := ⟨0x2024, 5, 1⟩
def CLK_PLL_STAT_PCIE_LK : Fld := ⟨0x2024, 6, 1⟩
def CLK_PLL_STAT_GP_LK : Fld := ⟨0x2024, 8, 8⟩
/-- CLK.REF_STAT, 0x028 (01_architecture.md, R19). -/
def CLK_REF_STAT_PRESENT : Fld := ⟨0x2028, 0, 5⟩
def CLK_REF_STAT_OOR : Fld := ⟨0x2028, 8, 5⟩
/-- CLK.FRAME_CYC, 0x02C (01_architecture.md, R19). -/
def CLK_FRAME_CYC_CYC : Fld := ⟨0x202C, 0, 18⟩
def CLK_FRAME_CYC_CCLK_RANGE : Fld := ⟨0x202C, 31, 1⟩
/-- CLK.XING_OCC, 0x030 (01_architecture.md, R19). -/
def CLK_XING_OCC_COUNT : Fld := ⟨0x2030, 0, 16⟩
def CLK_XING_OCC_ACK : Fld := ⟨0x2030, 16, 16⟩
/-- CLK.XING_LAST, 0x034 (01_architecture.md, R19). -/
def CLK_XING_LAST_XID : Fld := ⟨0x2034, 0, 8⟩
def CLK_XING_LAST_INDEX : Fld := ⟨0x2034, 8, 8⟩
def CLK_XING_LAST_OCC_LOST : Fld := ⟨0x2034, 16, 1⟩
/-- CLK.REF_OCC, 0x040 (01_architecture.md, R19). -/
def CLK_REF_OCC_COUNT : Fld := ⟨0x2040, 0, 16⟩
def CLK_REF_OCC_ACK : Fld := ⟨0x2040, 16, 16⟩
/-- CLK.REF_LAST, 0x044 (01_architecture.md, R19). -/
def CLK_REF_LAST_INPUT : Fld := ⟨0x2044, 0, 5⟩
def CLK_REF_LAST_OCC_LOST : Fld := ⟨0x2044, 5, 1⟩
/-- TB.STAT, 0x020 (10_time_base_timestamping.md, R238). -/
def TB_STAT_RUN : Fld := ⟨0x3020, 0, 1⟩
def TB_STAT_HOLDOVER : Fld := ⟨0x3020, 1, 1⟩
def TB_STAT_STEP_ACT : Fld := ⟨0x3020, 2, 1⟩
/-- TB.CFG, 0x024 (10_time_base_timestamping.md, R238). -/
def TB_CFG_HO_WIN : Fld := ⟨0x3024, 0, 8⟩
/-- TB.NOW_NS, 0x028 (10_time_base_timestamping.md, R238). -/
def TB_NOW_NS_NS (b : Nat) : Fld := ⟨0x3028 + 0x100000000 * (b + 1), 0, 30⟩
/-- TB.NOW_SEC_LO, 0x02C (10_time_base_timestamping.md, R238). -/
def TB_NOW_SEC_LO_SEC_LO (b : Nat) : Fld := ⟨0x302C + 0x100000000 * (b + 1), 0, 32⟩
/-- TB.NOW_SEC_HI, 0x030 (10_time_base_timestamping.md, R238). -/
def TB_NOW_SEC_HI_SEC_HI (b : Nat) : Fld := ⟨0x3030 + 0x100000000 * (b + 1), 0, 16⟩
def TB_NOW_SEC_HI_FRAC (b : Nat) : Fld := ⟨0x3030 + 0x100000000 * (b + 1), 16, 16⟩
/-- TB.TB_INC_FRAC, 0x038 (10_time_base_timestamping.md, R238). -/
def TB_TB_INC_FRAC_FRAC : Fld := ⟨0x3038, 0, 32⟩
/-- TB.TB_INC, 0x03C (10_time_base_timestamping.md, R238). -/
def TB_TB_INC_NS : Fld := ⟨0x303C, 0, 4⟩
/-- TB.STEP_REM, 0x040 (10_time_base_timestamping.md, R238). -/
def TB_STEP_REM_REM : Fld := ⟨0x3040, 0, 32⟩
/-- TB.LOAD_NS, 0x044 (10_time_base_timestamping.md, R238). -/
def TB_LOAD_NS_NS : Fld := ⟨0x3044, 0, 30⟩
/-- TB.LOAD_SEC_LO, 0x048 (10_time_base_timestamping.md, R238). -/
def TB_LOAD_SEC_LO_SEC_LO : Fld := ⟨0x3048, 0, 32⟩
/-- TB.LOAD_SEC_HI, 0x04C (10_time_base_timestamping.md, R238). -/
def TB_LOAD_SEC_HI_SEC_HI : Fld := ⟨0x304C, 0, 16⟩
/-- TB.CMD, 0x050 (10_time_base_timestamping.md, R238). -/
def TB_CMD_LOAD : Fld := ⟨0x3050, 0, 1⟩
/-- TB.PPS_CFG, 0x060 (10_time_base_timestamping.md, R238). -/
def TB_PPS_CFG_IN_EN : Fld := ⟨0x3060, 0, 1⟩
def TB_PPS_CFG_IN_POL : Fld := ⟨0x3060, 1, 1⟩
def TB_PPS_CFG_OUT_ADV : Fld := ⟨0x3060, 4, 12⟩
/-- TB.PPS_IN_CTRL, 0x064 (10_time_base_timestamping.md, R238). -/
def TB_PPS_IN_CTRL_VALID : Fld := ⟨0x3064, 0, 1⟩
def TB_PPS_IN_CTRL_BUSY : Fld := ⟨0x3064, 1, 1⟩
def TB_PPS_IN_CTRL_LAST_FAILED : Fld := ⟨0x3064, 2, 1⟩
def TB_PPS_IN_CTRL_SEQ : Fld := ⟨0x3064, 16, 16⟩
/-- TB.PPS_IN_E0, 0x068 (10_time_base_timestamping.md, R238). -/
def TB_PPS_IN_E0_NS : Fld := ⟨0x3068, 0, 30⟩
/-- TB.PPS_IN_E1, 0x06C (10_time_base_timestamping.md, R238). -/
def TB_PPS_IN_E1_SEC_LO : Fld := ⟨0x306C, 0, 32⟩
/-- TB.PPS_IN_E2, 0x070 (10_time_base_timestamping.md, R238). -/
def TB_PPS_IN_E2_SEC_HI : Fld := ⟨0x3070, 0, 16⟩
def TB_PPS_IN_E2_FRAC : Fld := ⟨0x3070, 16, 16⟩
/-- TB.PPS_IN_OCC, 0x074 (10_time_base_timestamping.md, R238). -/
def TB_PPS_IN_OCC_COUNT : Fld := ⟨0x3074, 0, 16⟩
def TB_PPS_IN_OCC_ACK : Fld := ⟨0x3074, 16, 16⟩
/-- TB.PPS_OUT_STAT, 0x078 (10_time_base_timestamping.md, R238). -/
def TB_PPS_OUT_STAT_LEVEL : Fld := ⟨0x3078, 0, 1⟩
/-- TB.RCLK, 0x080 (10_time_base_timestamping.md, R238). -/
def TB_RCLK_SRC (i : Nat) : Fld := ⟨0x3080 + 4 * i, 0, 9⟩
def TB_RCLK_DIV (i : Nat) : Fld := ⟨0x3080 + 4 * i, 9, 16⟩
def TB_RCLK_SQ_SF (i : Nat) : Fld := ⟨0x3080 + 4 * i, 25, 1⟩
def TB_RCLK_SQUELCHED (i : Nat) : Fld := ⟨0x3080 + 4 * i, 26, 1⟩
/-- TB.TOD_CFG, 0x090 (10_time_base_timestamping.md, R238). -/
def TB_TOD_CFG_BAUD : Fld := ⟨0x3090, 0, 3⟩
def TB_TOD_CFG_TX_DLY : Fld := ⟨0x3090, 3, 20⟩
def TB_TOD_CFG_TX_LEN : Fld := ⟨0x3090, 23, 7⟩
/-- TB.TOD_CMD, 0x094 (10_time_base_timestamping.md, R238). -/
def TB_TOD_CMD_ARM : Fld := ⟨0x3094, 0, 1⟩
/-- TB.TOD_STAT, 0x098 (10_time_base_timestamping.md, R238). -/
def TB_TOD_STAT_TX_ABANDON : Fld := ⟨0x3098, 0, 1⟩
/-- TB.TOD_RX_CTRL, 0x09C (10_time_base_timestamping.md, R238). -/
def TB_TOD_RX_CTRL_VALID : Fld := ⟨0x309C, 0, 1⟩
def TB_TOD_RX_CTRL_BUSY : Fld := ⟨0x309C, 1, 1⟩
def TB_TOD_RX_CTRL_LAST_FAILED : Fld := ⟨0x309C, 2, 1⟩
def TB_TOD_RX_CTRL_SEQ : Fld := ⟨0x309C, 16, 16⟩
/-- TB.TOD_RX_E0, 0x0A0 (10_time_base_timestamping.md, R238). -/
def TB_TOD_RX_E0_NS : Fld := ⟨0x30A0, 0, 30⟩
/-- TB.TOD_RX_E1, 0x0A4 (10_time_base_timestamping.md, R238). -/
def TB_TOD_RX_E1_SEC_LO : Fld := ⟨0x30A4, 0, 32⟩
/-- TB.TOD_RX_E2, 0x0A8 (10_time_base_timestamping.md, R238). -/
def TB_TOD_RX_E2_SEC_HI : Fld := ⟨0x30A8, 0, 16⟩
def TB_TOD_RX_E2_FRAC : Fld := ⟨0x30A8, 16, 16⟩
/-- TB.TOD_RX_INFO, 0x0AC (10_time_base_timestamping.md, R238). -/
def TB_TOD_RX_INFO_LEN : Fld := ⟨0x30AC, 0, 7⟩
def TB_TOD_RX_INFO_OVERRUN : Fld := ⟨0x30AC, 7, 1⟩
/-- TB.TOD_TXBUF, 0x0C0 (10_time_base_timestamping.md, R238). -/
def TB_TOD_TXBUF_BYTES (i : Nat) : Fld := ⟨0x30C0 + 4 * i, 0, 32⟩
/-- TB.TOD_RXBUF, 0x100 (10_time_base_timestamping.md, R238). -/
def TB_TOD_RXBUF_BYTES (i : Nat) : Fld := ⟨0x3100 + 4 * i, 0, 32⟩
/-- TB.PT_SEL, 0x140 (10_time_base_timestamping.md, R238). -/
def TB_PT_SEL_PORT (b : Nat) : Fld := ⟨0x3140 + 0x100000000 * (b + 1), 0, 10⟩
/-- TB.PT_CFG, 0x144 (10_time_base_timestamping.md, R238). -/
def TB_PT_CFG_RX_CAP (b : Nat) : Fld := ⟨0x3144 + 0x100000000 * (b + 1), 0, 2⟩
def TB_PT_CFG_TX_CAP (b : Nat) : Fld := ⟨0x3144 + 0x100000000 * (b + 1), 2, 1⟩
def TB_PT_CFG_ONE_STEP (b : Nat) : Fld := ⟨0x3144 + 0x100000000 * (b + 1), 3, 1⟩
def TB_PT_CFG_TC (b : Nat) : Fld := ⟨0x3144 + 0x100000000 * (b + 1), 4, 1⟩
/-- TB.PT_ASYM, 0x148 (10_time_base_timestamping.md, R238). -/
def TB_PT_ASYM_A (b : Nat) : Fld := ⟨0x3148 + 0x100000000 * (b + 1), 0, 32⟩
/-- TB.PT_LAT, 0x14C (10_time_base_timestamping.md, R238). -/
def TB_PT_LAT_RX (b : Nat) : Fld := ⟨0x314C + 0x100000000 * (b + 1), 0, 16⟩
def TB_PT_LAT_TX (b : Nat) : Fld := ⟨0x314C + 0x100000000 * (b + 1), 16, 16⟩
/-- TB.PT_CMD, 0x150 (10_time_base_timestamping.md, R238). -/
def TB_PT_CMD_RX_POP (b : Nat) : Fld := ⟨0x3150 + 0x100000000 * (b + 1), 0, 1⟩
def TB_PT_CMD_TX_POP (b : Nat) : Fld := ⟨0x3150 + 0x100000000 * (b + 1), 1, 1⟩
/-- TB.PT_STAT, 0x154 (10_time_base_timestamping.md, R238). -/
def TB_PT_STAT_RX_LEVEL (b : Nat) : Fld := ⟨0x3154 + 0x100000000 * (b + 1), 0, 7⟩
def TB_PT_STAT_TX_LEVEL (b : Nat) : Fld := ⟨0x3154 + 0x100000000 * (b + 1), 8, 7⟩
/-- TB.PT_LOST_OCC, 0x158 (10_time_base_timestamping.md, R238). -/
def TB_PT_LOST_OCC_COUNT (b : Nat) : Fld := ⟨0x3158 + 0x100000000 * (b + 1), 0, 16⟩
def TB_PT_LOST_OCC_ACK (b : Nat) : Fld := ⟨0x3158 + 0x100000000 * (b + 1), 16, 16⟩
/-- TB.PT_OCCL, 0x15C (10_time_base_timestamping.md, R238). -/
def TB_PT_OCCL_OCC_LOST (b : Nat) : Fld := ⟨0x315C + 0x100000000 * (b + 1), 0, 1⟩
/-- TB.PT_RXE, 0x160 (10_time_base_timestamping.md, R238). -/
def TB_PT_RXE_E (b i : Nat) : Fld := ⟨0x3160 + 4 * i + 0x100000000 * (b + 1), 0, 32⟩
/-- TB.PT_TXE, 0x170 (10_time_base_timestamping.md, R238). -/
def TB_PT_TXE_E (b i : Nat) : Fld := ⟨0x3170 + 4 * i + 0x100000000 * (b + 1), 0, 32⟩
/-- TB.TT_SEL, 0x180 (10_time_base_timestamping.md, R238). -/
def TB_TT_SEL_PORT (b : Nat) : Fld := ⟨0x3180 + 0x100000000 * (b + 1), 0, 3⟩
/-- TB.TT_CFG, 0x184 (10_time_base_timestamping.md, R238). -/
def TB_TT_CFG_AVG_LOG2 (b : Nat) : Fld := ⟨0x3184 + 0x100000000 * (b + 1), 0, 4⟩
/-- TB.TT_CTRL, 0x188 (10_time_base_timestamping.md, R238). -/
def TB_TT_CTRL_VALID (b : Nat) : Fld := ⟨0x3188 + 0x100000000 * (b + 1), 0, 1⟩
def TB_TT_CTRL_BUSY (b : Nat) : Fld := ⟨0x3188 + 0x100000000 * (b + 1), 1, 1⟩
def TB_TT_CTRL_LAST_FAILED (b : Nat) : Fld := ⟨0x3188 + 0x100000000 * (b + 1), 2, 1⟩
def TB_TT_CTRL_SEQ (b : Nat) : Fld := ⟨0x3188 + 0x100000000 * (b + 1), 16, 16⟩
/-- TB.TT_OFF_NS, 0x18C (10_time_base_timestamping.md, R238). -/
def TB_TT_OFF_NS_OFF (b : Nat) : Fld := ⟨0x318C + 0x100000000 * (b + 1), 0, 32⟩
/-- TB.TT_FRAC, 0x190 (10_time_base_timestamping.md, R238). -/
def TB_TT_FRAC_OFF_FRAC (b : Nat) : Fld := ⟨0x3190 + 0x100000000 * (b + 1), 0, 16⟩
def TB_TT_FRAC_DLY_FRAC (b : Nat) : Fld := ⟨0x3190 + 0x100000000 * (b + 1), 16, 16⟩
/-- TB.TT_DLY_NS, 0x194 (10_time_base_timestamping.md, R238). -/
def TB_TT_DLY_NS_DLY (b : Nat) : Fld := ⟨0x3194 + 0x100000000 * (b + 1), 0, 32⟩
/-- TB.TT_INFO, 0x198 (10_time_base_timestamping.md, R238). -/
def TB_TT_INFO_SAMPLES (b : Nat) : Fld := ⟨0x3198 + 0x100000000 * (b + 1), 0, 11⟩
def TB_TT_INFO_PEER_OK (b : Nat) : Fld := ⟨0x3198 + 0x100000000 * (b + 1), 11, 1⟩
/-- PLK.STAT, 0x020 (03_plank_and_determinism.md, R58). -/
def PLK_STAT_PEND_USED : Fld := ⟨0x4020, 0, 13⟩
/-- PLK.LEAD, 0x024 (03_plank_and_determinism.md, R58). -/
def PLK_LEAD_LOCAL_US : Fld := ⟨0x4024, 0, 16⟩
def PLK_LEAD_WIDE_US : Fld := ⟨0x4024, 16, 16⟩
/-- PLK.ST_EPOCH_NS, 0x028 (03_plank_and_determinism.md, R58). -/
def PLK_ST_EPOCH_NS_NS (b : Nat) : Fld := ⟨0x4028 + 0x100000000 * (b + 1), 0, 30⟩
/-- PLK.ST_EPOCH_SEC, 0x02C (03_plank_and_determinism.md, R58). -/
def PLK_ST_EPOCH_SEC_SEC (b : Nat) : Fld := ⟨0x402C + 0x100000000 * (b + 1), 0, 32⟩
/-- PLK.ST_HDR, 0x030 (03_plank_and_determinism.md, R58). -/
def PLK_ST_HDR_LATE_POL (b : Nat) : Fld := ⟨0x4030 + 0x100000000 * (b + 1), 0, 1⟩
def PLK_ST_HDR_GROUP (b : Nat) : Fld := ⟨0x4030 + 0x100000000 * (b + 1), 1, 1⟩
def PLK_ST_HDR_NOMIRROR (b : Nat) : Fld := ⟨0x4030 + 0x100000000 * (b + 1), 2, 1⟩
def PLK_ST_HDR_GMASK (b : Nat) : Fld := ⟨0x4030 + 0x100000000 * (b + 1), 3, 8⟩
def PLK_ST_HDR_TAG (b : Nat) : Fld := ⟨0x4030 + 0x100000000 * (b + 1), 16, 16⟩
/-- PLK.ST_IDX, 0x034 (03_plank_and_determinism.md, R58). -/
def PLK_ST_IDX_IDX (b : Nat) : Fld := ⟨0x4034 + 0x100000000 * (b + 1), 0, 8⟩
def PLK_ST_IDX_COUNT (b : Nat) : Fld := ⟨0x4034 + 0x100000000 * (b + 1), 8, 9⟩
/-- PLK.ST_ITEM_A, 0x038 (03_plank_and_determinism.md, R58). -/
def PLK_ST_ITEM_A_KIND (b : Nat) : Fld := ⟨0x4038 + 0x100000000 * (b + 1), 0, 8⟩
def PLK_ST_ITEM_A_TARGET (b : Nat) : Fld := ⟨0x4038 + 0x100000000 * (b + 1), 8, 24⟩
/-- PLK.ST_ITEM_B, 0x03C (03_plank_and_determinism.md, R58). -/
def PLK_ST_ITEM_B_ARG (b : Nat) : Fld := ⟨0x403C + 0x100000000 * (b + 1), 0, 32⟩
/-- PLK.CMD, 0x040 (03_plank_and_determinism.md, R58). -/
def PLK_CMD_ADMIT (b : Nat) : Fld := ⟨0x4040 + 0x100000000 * (b + 1), 0, 1⟩
def PLK_CMD_CANCEL (b : Nat) : Fld := ⟨0x4040 + 0x100000000 * (b + 1), 1, 1⟩
def PLK_CMD_CLEAR (b : Nat) : Fld := ⟨0x4040 + 0x100000000 * (b + 1), 2, 1⟩
/-- PLK.CANCEL_SEQ, 0x044 (03_plank_and_determinism.md, R58). -/
def PLK_CANCEL_SEQ_SEQ (b : Nat) : Fld := ⟨0x4044 + 0x100000000 * (b + 1), 0, 32⟩
/-- PLK.RES_CTRL, 0x050 (03_plank_and_determinism.md, R58). -/
def PLK_RES_CTRL_VALID (b : Nat) : Fld := ⟨0x4050 + 0x100000000 * (b + 1), 0, 1⟩
def PLK_RES_CTRL_BUSY (b : Nat) : Fld := ⟨0x4050 + 0x100000000 * (b + 1), 1, 1⟩
def PLK_RES_CTRL_LAST_FAILED (b : Nat) : Fld := ⟨0x4050 + 0x100000000 * (b + 1), 2, 1⟩
def PLK_RES_CTRL_SEQ (b : Nat) : Fld := ⟨0x4050 + 0x100000000 * (b + 1), 16, 16⟩
/-- PLK.RES_CODE, 0x054 (03_plank_and_determinism.md, R58). -/
def PLK_RES_CODE_CODE (b : Nat) : Fld := ⟨0x4054 + 0x100000000 * (b + 1), 0, 8⟩
def PLK_RES_CODE_ITEM (b : Nat) : Fld := ⟨0x4054 + 0x100000000 * (b + 1), 8, 9⟩
/-- PLK.RES_SEQ, 0x058 (03_plank_and_determinism.md, R58). -/
def PLK_RES_SEQ_SEQ (b : Nat) : Fld := ⟨0x4058 + 0x100000000 * (b + 1), 0, 32⟩
/-- PLK.RES_SFN_LO, 0x05C (03_plank_and_determinism.md, R58). -/
def PLK_RES_SFN_LO_SFN_LO (b : Nat) : Fld := ⟨0x405C + 0x100000000 * (b + 1), 0, 32⟩
/-- PLK.RES_SFN_HI, 0x060 (03_plank_and_determinism.md, R58). -/
def PLK_RES_SFN_HI_SFN_HI (b : Nat) : Fld := ⟨0x4060 + 0x100000000 * (b + 1), 0, 29⟩
/-- PLK.RES_TICK, 0x064 (03_plank_and_determinism.md, R58). -/
def PLK_RES_TICK_TICK (b : Nat) : Fld := ⟨0x4064 + 0x100000000 * (b + 1), 0, 7⟩
/-- PLK.LATE_OCC, 0x070 (03_plank_and_determinism.md, R58). -/
def PLK_LATE_OCC_COUNT : Fld := ⟨0x4070, 0, 16⟩
def PLK_LATE_OCC_ACK : Fld := ⟨0x4070, 16, 16⟩
/-- PLK.FAULT_OCC, 0x074 (03_plank_and_determinism.md, R58). -/
def PLK_FAULT_OCC_COUNT : Fld := ⟨0x4074, 0, 16⟩
def PLK_FAULT_OCC_ACK : Fld := ⟨0x4074, 16, 16⟩
/-- PLK.REFUSE_OCC, 0x078 (03_plank_and_determinism.md, R58). -/
def PLK_REFUSE_OCC_COUNT : Fld := ⟨0x4078, 0, 16⟩
def PLK_REFUSE_OCC_ACK : Fld := ⟨0x4078, 16, 16⟩
/-- PLK.OCCL, 0x07C (03_plank_and_determinism.md, R58). -/
def PLK_OCCL_OCC_LOST : Fld := ⟨0x407C, 0, 3⟩
/-- JNL.HEAD, 0x020 (03_plank_and_determinism.md, R67). -/
def JNL_HEAD_HEAD : Fld := ⟨0x5020, 0, 32⟩
/-- JNL.RD_IDX, 0x024 (03_plank_and_determinism.md, R67). -/
def JNL_RD_IDX_IDX (b : Nat) : Fld := ⟨0x5024 + 0x100000000 * (b + 1), 0, 32⟩
/-- JNL.REC_CTRL, 0x028 (03_plank_and_determinism.md, R67). -/
def JNL_REC_CTRL_VALID (b : Nat) : Fld := ⟨0x5028 + 0x100000000 * (b + 1), 0, 1⟩
def JNL_REC_CTRL_GONE (b : Nat) : Fld := ⟨0x5028 + 0x100000000 * (b + 1), 1, 1⟩
def JNL_REC_CTRL_AHEAD (b : Nat) : Fld := ⟨0x5028 + 0x100000000 * (b + 1), 2, 1⟩
/-- JNL.REC_SEQ, 0x02C (03_plank_and_determinism.md, R67). -/
def JNL_REC_SEQ_SEQ (b : Nat) : Fld := ⟨0x502C + 0x100000000 * (b + 1), 0, 32⟩
/-- JNL.REC_SFN_LO, 0x030 (03_plank_and_determinism.md, R67). -/
def JNL_REC_SFN_LO_SFN_LO (b : Nat) : Fld := ⟨0x5030 + 0x100000000 * (b + 1), 0, 32⟩
/-- JNL.REC_SFN_HI, 0x034 (03_plank_and_determinism.md, R67). -/
def JNL_REC_SFN_HI_SFN_HI (b : Nat) : Fld := ⟨0x5034 + 0x100000000 * (b + 1), 0, 29⟩
/-- JNL.REC_INFO, 0x038 (03_plank_and_determinism.md, R67). -/
def JNL_REC_INFO_STATUS (b : Nat) : Fld := ⟨0x5038 + 0x100000000 * (b + 1), 0, 4⟩
def JNL_REC_INFO_TICK (b : Nat) : Fld := ⟨0x5038 + 0x100000000 * (b + 1), 4, 7⟩
def JNL_REC_INFO_ITEMS (b : Nat) : Fld := ⟨0x5038 + 0x100000000 * (b + 1), 11, 9⟩
def JNL_REC_INFO_INDEX (b : Nat) : Fld := ⟨0x5038 + 0x100000000 * (b + 1), 20, 8⟩
def JNL_REC_INFO_MASTER (b : Nat) : Fld := ⟨0x5038 + 0x100000000 * (b + 1), 28, 3⟩
def JNL_REC_INFO_LATE_POL (b : Nat) : Fld := ⟨0x5038 + 0x100000000 * (b + 1), 31, 1⟩
/-- JNL.REC_AUX, 0x03C (03_plank_and_determinism.md, R67). -/
def JNL_REC_AUX_APPLIED (b : Nat) : Fld := ⟨0x503C + 0x100000000 * (b + 1), 0, 9⟩
def JNL_REC_AUX_FAILED_MEMBERS (b : Nat) : Fld := ⟨0x503C + 0x100000000 * (b + 1), 16, 8⟩
def JNL_REC_AUX_REASON (b : Nat) : Fld := ⟨0x503C + 0x100000000 * (b + 1), 24, 8⟩
/-- JNL.REC_TAG, 0x040 (03_plank_and_determinism.md, R67). -/
def JNL_REC_TAG_TAG (b : Nat) : Fld := ⟨0x5040 + 0x100000000 * (b + 1), 0, 16⟩
def JNL_REC_TAG_MIRRORED_IN (b : Nat) : Fld := ⟨0x5040 + 0x100000000 * (b + 1), 16, 1⟩
def JNL_REC_TAG_MIRROR_OUT (b : Nat) : Fld := ⟨0x5040 + 0x100000000 * (b + 1), 17, 1⟩
def JNL_REC_TAG_UNMIRRORED (b : Nat) : Fld := ⟨0x5040 + 0x100000000 * (b + 1), 18, 1⟩
def JNL_REC_TAG_GROUP (b : Nat) : Fld := ⟨0x5040 + 0x100000000 * (b + 1), 19, 1⟩
/-- JNL.REC_PEER, 0x044 (03_plank_and_determinism.md, R67). -/
def JNL_REC_PEER_PEER_SEQ (b : Nat) : Fld := ⟨0x5044 + 0x100000000 * (b + 1), 0, 32⟩
/-- JNL.PMAP_SEQ, 0x050 (03_plank_and_determinism.md, R67). -/
def JNL_PMAP_SEQ_SEQ : Fld := ⟨0x5050, 0, 32⟩
/-- JNL.PMAP, 0x054 (03_plank_and_determinism.md, R67). -/
def JNL_PMAP_MAP (i : Nat) : Fld := ⟨0x5054 + 4 * i, 0, 32⟩
/-- JNL.FIND_SEQ, 0x080 (03_plank_and_determinism.md, R67). -/
def JNL_FIND_SEQ_SEQ (b : Nat) : Fld := ⟨0x5080 + 0x100000000 * (b + 1), 0, 32⟩
/-- JNL.JCMD, 0x084 (03_plank_and_determinism.md, R67). -/
def JNL_JCMD_FIND (b : Nat) : Fld := ⟨0x5084 + 0x100000000 * (b + 1), 0, 1⟩
/-- JNL.FIND_CTRL, 0x088 (03_plank_and_determinism.md, R67). -/
def JNL_FIND_CTRL_VALID (b : Nat) : Fld := ⟨0x5088 + 0x100000000 * (b + 1), 0, 1⟩
def JNL_FIND_CTRL_BUSY (b : Nat) : Fld := ⟨0x5088 + 0x100000000 * (b + 1), 1, 1⟩
def JNL_FIND_CTRL_LAST_FAILED (b : Nat) : Fld := ⟨0x5088 + 0x100000000 * (b + 1), 2, 1⟩
def JNL_FIND_CTRL_SEQ (b : Nat) : Fld := ⟨0x5088 + 0x100000000 * (b + 1), 16, 16⟩
/-- JNL.FIND_IDX, 0x08C (03_plank_and_determinism.md, R67). -/
def JNL_FIND_IDX_IDX (b : Nat) : Fld := ⟨0x508C + 0x100000000 * (b + 1), 0, 32⟩
/-- JNL.NDONE_OCC, 0x090 (03_plank_and_determinism.md, R67). -/
def JNL_NDONE_OCC_COUNT : Fld := ⟨0x5090, 0, 16⟩
def JNL_NDONE_OCC_ACK : Fld := ⟨0x5090, 16, 16⟩
/-- JNL.OCCL, 0x094 (03_plank_and_determinism.md, R67). -/
def JNL_OCCL_OCC_LOST : Fld := ⟨0x5094, 0, 1⟩
/-- IRQ.STAT, 0x020 (16_host_bus_interrupts.md, R371). -/
def IRQ_STAT_STAT (i : Nat) : Fld := ⟨0x6020 + 4 * i, 0, 32⟩
/-- IRQ.EN, 0x060 (16_host_bus_interrupts.md, R371). -/
def IRQ_EN_EN (i : Nat) : Fld := ⟨0x6060 + 4 * i, 0, 32⟩
/-- IRQ.VEC_LVL, 0x0A0 (16_host_bus_interrupts.md, R371). -/
def IRQ_VEC_LVL_LVL : Fld := ⟨0x60A0, 0, 32⟩
/-- IRQ.HC_LVL, 0x0A4 (16_host_bus_interrupts.md, R371). -/
def IRQ_HC_LVL_LVL : Fld := ⟨0x60A4, 0, 1⟩
/-- IRQ.INTN_MASK, 0x0A8 (16_host_bus_interrupts.md, R371). -/
def IRQ_INTN_MASK_MASK : Fld := ⟨0x60A8, 0, 32⟩
/-- IRQ.EOI, 0x0AC (16_host_bus_interrupts.md, R371). -/
def IRQ_EOI_EOI : Fld := ⟨0x60AC, 0, 32⟩
/-- IRQ.SWI, 0x0B0 (16_host_bus_interrupts.md, R371). -/
def IRQ_SWI_SWI : Fld := ⟨0x60B0, 0, 8⟩
/-- IRQ.ROUTE, 0x200 (16_host_bus_interrupts.md, R371). -/
def IRQ_ROUTE_R0 (i : Nat) : Fld := ⟨0x6200 + 4 * i, 0, 6⟩
def IRQ_ROUTE_R1 (i : Nat) : Fld := ⟨0x6200 + 4 * i, 6, 6⟩
def IRQ_ROUTE_R2 (i : Nat) : Fld := ⟨0x6200 + 4 * i, 12, 6⟩
def IRQ_ROUTE_R3 (i : Nat) : Fld := ⟨0x6200 + 4 * i, 18, 6⟩
def IRQ_ROUTE_R4 (i : Nat) : Fld := ⟨0x6200 + 4 * i, 24, 6⟩
/-- BMX.PRIO0, 0x020 (16_host_bus_interrupts.md, R361). -/
def BMX_PRIO0_T0 : Fld := ⟨0x7020, 0, 3⟩
def BMX_PRIO0_T1 : Fld := ⟨0x7020, 3, 3⟩
def BMX_PRIO0_T2 : Fld := ⟨0x7020, 6, 3⟩
def BMX_PRIO0_T3 : Fld := ⟨0x7020, 9, 3⟩
def BMX_PRIO0_T4 : Fld := ⟨0x7020, 12, 3⟩
def BMX_PRIO0_T5 : Fld := ⟨0x7020, 15, 3⟩
def BMX_PRIO0_T6 : Fld := ⟨0x7020, 18, 3⟩
def BMX_PRIO0_T7 : Fld := ⟨0x7020, 21, 3⟩
/-- BMX.PRIO1, 0x024 (16_host_bus_interrupts.md, R361). -/
def BMX_PRIO1_T0 : Fld := ⟨0x7024, 0, 3⟩
def BMX_PRIO1_T1 : Fld := ⟨0x7024, 3, 3⟩
def BMX_PRIO1_T2 : Fld := ⟨0x7024, 6, 3⟩
def BMX_PRIO1_T3 : Fld := ⟨0x7024, 9, 3⟩
def BMX_PRIO1_T4 : Fld := ⟨0x7024, 12, 3⟩
def BMX_PRIO1_T5 : Fld := ⟨0x7024, 15, 3⟩
def BMX_PRIO1_T6 : Fld := ⟨0x7024, 18, 3⟩
def BMX_PRIO1_T7 : Fld := ⟨0x7024, 21, 3⟩
/-- BMX.PRIO2, 0x028 (16_host_bus_interrupts.md, R361). -/
def BMX_PRIO2_T0 : Fld := ⟨0x7028, 0, 3⟩
def BMX_PRIO2_T1 : Fld := ⟨0x7028, 3, 3⟩
def BMX_PRIO2_T2 : Fld := ⟨0x7028, 6, 3⟩
def BMX_PRIO2_T3 : Fld := ⟨0x7028, 9, 3⟩
def BMX_PRIO2_T4 : Fld := ⟨0x7028, 12, 3⟩
def BMX_PRIO2_T5 : Fld := ⟨0x7028, 15, 3⟩
def BMX_PRIO2_T6 : Fld := ⟨0x7028, 18, 3⟩
def BMX_PRIO2_T7 : Fld := ⟨0x7028, 21, 3⟩
/-- BMX.PRIO3, 0x02C (16_host_bus_interrupts.md, R361). -/
def BMX_PRIO3_T0 : Fld := ⟨0x702C, 0, 3⟩
def BMX_PRIO3_T1 : Fld := ⟨0x702C, 3, 3⟩
def BMX_PRIO3_T2 : Fld := ⟨0x702C, 6, 3⟩
def BMX_PRIO3_T3 : Fld := ⟨0x702C, 9, 3⟩
def BMX_PRIO3_T4 : Fld := ⟨0x702C, 12, 3⟩
def BMX_PRIO3_T5 : Fld := ⟨0x702C, 15, 3⟩
def BMX_PRIO3_T6 : Fld := ⟨0x702C, 18, 3⟩
def BMX_PRIO3_T7 : Fld := ⟨0x702C, 21, 3⟩
/-- BMX.PRIO4, 0x030 (16_host_bus_interrupts.md, R361). -/
def BMX_PRIO4_T0 : Fld := ⟨0x7030, 0, 3⟩
def BMX_PRIO4_T1 : Fld := ⟨0x7030, 3, 3⟩
def BMX_PRIO4_T2 : Fld := ⟨0x7030, 6, 3⟩
def BMX_PRIO4_T3 : Fld := ⟨0x7030, 9, 3⟩
def BMX_PRIO4_T4 : Fld := ⟨0x7030, 12, 3⟩
def BMX_PRIO4_T5 : Fld := ⟨0x7030, 15, 3⟩
def BMX_PRIO4_T6 : Fld := ⟨0x7030, 18, 3⟩
def BMX_PRIO4_T7 : Fld := ⟨0x7030, 21, 3⟩
/-- BMX.PRIO5, 0x034 (16_host_bus_interrupts.md, R361). -/
def BMX_PRIO5_T0 : Fld := ⟨0x7034, 0, 3⟩
def BMX_PRIO5_T1 : Fld := ⟨0x7034, 3, 3⟩
def BMX_PRIO5_T2 : Fld := ⟨0x7034, 6, 3⟩
def BMX_PRIO5_T3 : Fld := ⟨0x7034, 9, 3⟩
def BMX_PRIO5_T4 : Fld := ⟨0x7034, 12, 3⟩
def BMX_PRIO5_T5 : Fld := ⟨0x7034, 15, 3⟩
def BMX_PRIO5_T6 : Fld := ⟨0x7034, 18, 3⟩
def BMX_PRIO5_T7 : Fld := ⟨0x7034, 21, 3⟩
/-- BMX.PRIO6, 0x038 (16_host_bus_interrupts.md, R361). -/
def BMX_PRIO6_T0 : Fld := ⟨0x7038, 0, 3⟩
def BMX_PRIO6_T1 : Fld := ⟨0x7038, 3, 3⟩
def BMX_PRIO6_T2 : Fld := ⟨0x7038, 6, 3⟩
def BMX_PRIO6_T3 : Fld := ⟨0x7038, 9, 3⟩
def BMX_PRIO6_T4 : Fld := ⟨0x7038, 12, 3⟩
def BMX_PRIO6_T5 : Fld := ⟨0x7038, 15, 3⟩
def BMX_PRIO6_T6 : Fld := ⟨0x7038, 18, 3⟩
def BMX_PRIO6_T7 : Fld := ⟨0x7038, 21, 3⟩
/-- BMX.PRIO7, 0x03C (16_host_bus_interrupts.md, R361). -/
def BMX_PRIO7_T0 : Fld := ⟨0x703C, 0, 3⟩
def BMX_PRIO7_T1 : Fld := ⟨0x703C, 3, 3⟩
def BMX_PRIO7_T2 : Fld := ⟨0x703C, 6, 3⟩
def BMX_PRIO7_T3 : Fld := ⟨0x703C, 9, 3⟩
def BMX_PRIO7_T4 : Fld := ⟨0x703C, 12, 3⟩
def BMX_PRIO7_T5 : Fld := ⟨0x703C, 15, 3⟩
def BMX_PRIO7_T6 : Fld := ⟨0x703C, 18, 3⟩
def BMX_PRIO7_T7 : Fld := ⟨0x703C, 21, 3⟩
/-- BMX.ORD, 0x040 (16_host_bus_interrupts.md, R361). -/
def BMX_ORD_COMPAT : Fld := ⟨0x7040, 0, 8⟩
/-- BMX.AGE, 0x044 (16_host_bus_interrupts.md, R361). -/
def BMX_AGE_AGE_LIM : Fld := ⟨0x7044, 0, 6⟩
/-- BMX.PARK, 0x048 (16_host_bus_interrupts.md, R361). -/
def BMX_PARK_T0 : Fld := ⟨0x7048, 0, 3⟩
def BMX_PARK_T1 : Fld := ⟨0x7048, 3, 3⟩
def BMX_PARK_T2 : Fld := ⟨0x7048, 6, 3⟩
def BMX_PARK_T3 : Fld := ⟨0x7048, 9, 3⟩
def BMX_PARK_T4 : Fld := ⟨0x7048, 12, 3⟩
def BMX_PARK_T5 : Fld := ⟨0x7048, 15, 3⟩
def BMX_PARK_T6 : Fld := ⟨0x7048, 18, 3⟩
def BMX_PARK_T7 : Fld := ⟨0x7048, 21, 3⟩
/-- BMX.DEF_OCC, 0x050 (16_host_bus_interrupts.md, R361). -/
def BMX_DEF_OCC_COUNT : Fld := ⟨0x7050, 0, 16⟩
def BMX_DEF_OCC_ACK : Fld := ⟨0x7050, 16, 16⟩
/-- BMX.WERR_OCC, 0x054 (16_host_bus_interrupts.md, R361). -/
def BMX_WERR_OCC_COUNT : Fld := ⟨0x7054, 0, 16⟩
def BMX_WERR_OCC_ACK : Fld := ⟨0x7054, 16, 16⟩
/-- BMX.ABORT_OCC, 0x058 (16_host_bus_interrupts.md, R361). -/
def BMX_ABORT_OCC_COUNT : Fld := ⟨0x7058, 0, 16⟩
def BMX_ABORT_OCC_ACK : Fld := ⟨0x7058, 16, 16⟩
/-- BMX.OCCL, 0x05C (16_host_bus_interrupts.md, R361). -/
def BMX_OCCL_OCC_LOST : Fld := ⟨0x705C, 0, 3⟩
/-- BMX.DEF_LAST, 0x060 (16_host_bus_interrupts.md, R361). -/
def BMX_DEF_LAST_ADDR : Fld := ⟨0x7060, 0, 32⟩
/-- BMX.DEF_INFO, 0x064 (16_host_bus_interrupts.md, R361). -/
def BMX_DEF_INFO_MASTER : Fld := ⟨0x7064, 0, 3⟩
def BMX_DEF_INFO_WRITE : Fld := ⟨0x7064, 3, 1⟩
/-- BMX.ABORT_LAST, 0x068 (16_host_bus_interrupts.md, R361). -/
def BMX_ABORT_LAST_ADDR : Fld := ⟨0x7068, 0, 32⟩
/-- BMX.ABORT_INFO, 0x06C (16_host_bus_interrupts.md, R361). -/
def BMX_ABORT_INFO_MASTER : Fld := ⟨0x706C, 0, 3⟩
def BMX_ABORT_INFO_BYTES : Fld := ⟨0x706C, 3, 9⟩
/-- BMX.DMA_RLO, 0x100 (16_host_bus_interrupts.md, R361). -/
def BMX_DMA_RLO_RING_LO (i : Nat) : Fld := ⟨0x7100 + 16 * i, 4, 28⟩
/-- BMX.DMA_RHI, 0x104 (16_host_bus_interrupts.md, R361). -/
def BMX_DMA_RHI_RING_HI (i : Nat) : Fld := ⟨0x7104 + 16 * i, 0, 32⟩
/-- BMX.DMA_CFG, 0x108 (16_host_bus_interrupts.md, R361). -/
def BMX_DMA_CFG_EN (i : Nat) : Fld := ⟨0x7108 + 16 * i, 0, 1⟩
def BMX_DMA_CFG_SIZE_LOG2 (i : Nat) : Fld := ⟨0x7108 + 16 * i, 1, 4⟩
/-- BMX.DMA_PTR, 0x10C (16_host_bus_interrupts.md, R361). -/
def BMX_DMA_PTR_TAIL (i : Nat) : Fld := ⟨0x710C + 16 * i, 0, 12⟩
def BMX_DMA_PTR_HEAD (i : Nat) : Fld := ⟨0x710C + 16 * i, 16, 12⟩
/-- BMX.DONE_OCC, 0x180 (16_host_bus_interrupts.md, R361). -/
def BMX_DONE_OCC_COUNT (i : Nat) : Fld := ⟨0x7180 + 4 * i, 0, 16⟩
def BMX_DONE_OCC_ACK (i : Nat) : Fld := ⟨0x7180 + 4 * i, 16, 16⟩
/-- BMX.DROP_OCC, 0x1A0 (16_host_bus_interrupts.md, R361). -/
def BMX_DROP_OCC_COUNT (i : Nat) : Fld := ⟨0x71A0 + 4 * i, 0, 16⟩
def BMX_DROP_OCC_ACK (i : Nat) : Fld := ⟨0x71A0 + 4 * i, 16, 16⟩
/-- BMX.DMA_OCCL, 0x1C0 (16_host_bus_interrupts.md, R361). -/
def BMX_DMA_OCCL_OCC_LOST : Fld := ⟨0x71C0, 0, 16⟩
/-- HTR.STAT, 0x020 (16_host_bus_interrupts.md, R365). -/
def HTR_STAT_STATE : Fld := ⟨0x8020, 0, 2⟩
def HTR_STAT_IMAGE : Fld := ⟨0x8020, 2, 1⟩
def HTR_STAT_FALLBACK : Fld := ⟨0x8020, 3, 1⟩
def HTR_STAT_REMAP : Fld := ⟨0x8020, 4, 1⟩
/-- HTR.VERSION, 0x024 (16_host_bus_interrupts.md, R365). -/
def HTR_VERSION_VERSION : Fld := ⟨0x8024, 0, 32⟩
/-- HTR.GEN, 0x028 (16_host_bus_interrupts.md, R365). -/
def HTR_GEN_GEN_A : Fld := ⟨0x8028, 0, 16⟩
def HTR_GEN_GEN_B : Fld := ⟨0x8028, 16, 16⟩
/-- HTR.CMD, 0x02C (16_host_bus_interrupts.md, R365). -/
def HTR_CMD_RESTART : Fld := ⟨0x802C, 0, 1⟩
/-- HTR.CMD_CTRL, 0x030 (16_host_bus_interrupts.md, R365). -/
def HTR_CMD_CTRL_VALID : Fld := ⟨0x8030, 0, 1⟩
def HTR_CMD_CTRL_BUSY : Fld := ⟨0x8030, 1, 1⟩
def HTR_CMD_CTRL_LAST_FAILED : Fld := ⟨0x8030, 2, 1⟩
def HTR_CMD_CTRL_SEQ : Fld := ⟨0x8030, 16, 16⟩
/-- HTR.CMD_CODE, 0x034 (16_host_bus_interrupts.md, R365). -/
def HTR_CMD_CODE_CODE : Fld := ⟨0x8034, 0, 8⟩
/-- HTR.REMAP, 0x038 (16_host_bus_interrupts.md, R365). -/
def HTR_REMAP_SWAP : Fld := ⟨0x8038, 0, 1⟩
/-- HTR.WDOG_OCC, 0x040 (16_host_bus_interrupts.md, R365). -/
def HTR_WDOG_OCC_COUNT : Fld := ⟨0x8040, 0, 16⟩
def HTR_WDOG_OCC_ACK : Fld := ⟨0x8040, 16, 16⟩
/-- HTR.OCCL, 0x044 (16_host_bus_interrupts.md, R365). -/
def HTR_OCCL_OCC_LOST : Fld := ⟨0x8044, 0, 1⟩
/-- HTR.H2C_D, 0x080 (16_host_bus_interrupts.md, R365). -/
def HTR_H2C_D_DATA (i : Nat) : Fld := ⟨0x8080 + 4 * i, 0, 32⟩
/-- HTR.H2C_DB, 0x0C0 (16_host_bus_interrupts.md, R365). -/
def HTR_H2C_DB_SEQ : Fld := ⟨0x80C0, 0, 16⟩
/-- HTR.H2C_ACK, 0x0C4 (16_host_bus_interrupts.md, R365). -/
def HTR_H2C_ACK_ACK : Fld := ⟨0x80C4, 0, 16⟩
/-- HTR.C2H_D, 0x0C8 (16_host_bus_interrupts.md, R365). -/
def HTR_C2H_D_DATA (i : Nat) : Fld := ⟨0x80C8 + 4 * i, 0, 32⟩
/-- HTR.C2H_DB, 0x108 (16_host_bus_interrupts.md, R365). -/
def HTR_C2H_DB_SEQ : Fld := ⟨0x8108, 0, 16⟩
/-- HTR.C2H_ACK, 0x10C (16_host_bus_interrupts.md, R365). -/
def HTR_C2H_ACK_ACK : Fld := ⟨0x810C, 0, 16⟩
/-- TSI and LOX.STAT, 0x020 (07_slot_interchange.md, R146). -/
def IC_STAT_ACTIVE (pb : Nat) : Fld := ⟨pb + 0x20, 0, 1⟩
def IC_STAT_STBY_STATE (pb : Nat) : Fld := ⟨pb + 0x20, 1, 3⟩
def IC_STAT_ENT_ERR (pb : Nat) : Fld := ⟨pb + 0x20, 4, 1⟩
def IC_STAT_BPATH_MISS (pb : Nat) : Fld := ⟨pb + 0x20, 5, 1⟩
/-- TSI and LOX.ACT_SUM, 0x024 (07_slot_interchange.md, R146). -/
def IC_ACT_SUM_SUM (pb : Nat) : Fld := ⟨pb + 0x24, 0, 32⟩
/-- TSI and LOX.STBY_SUM, 0x028 (07_slot_interchange.md, R146). -/
def IC_STBY_SUM_SUM (pb : Nat) : Fld := ⟨pb + 0x28, 0, 32⟩
/-- TSI and LOX.SWAP_SFN_LO, 0x02C (07_slot_interchange.md, R146). -/
def IC_SWAP_SFN_LO_SFN_LO (pb : Nat) : Fld := ⟨pb + 0x2C, 0, 32⟩
/-- TSI and LOX.SWAP_SFN_HI, 0x030 (07_slot_interchange.md, R146). -/
def IC_SWAP_SFN_HI_SFN_HI (pb : Nat) : Fld := ⟨pb + 0x30, 0, 29⟩
/-- TSI and LOX.SWAP_SEQ, 0x034 (07_slot_interchange.md, R146). -/
def IC_SWAP_SEQ_SEQ (pb : Nat) : Fld := ⟨pb + 0x34, 0, 16⟩
/-- TSI and LOX.BPATH_SLOT, 0x038 (07_slot_interchange.md, R146). -/
def IC_BPATH_SLOT_SLOT (pb : Nat) : Fld := ⟨pb + 0x38, 0, 17⟩
/-- TSI and LOX.CMD, 0x040 (07_slot_interchange.md, R146). -/
def IC_CMD_SEAL (pb : Nat) : Fld := ⟨pb + 0x40, 0, 1⟩
def IC_CMD_ABANDON (pb : Nat) : Fld := ⟨pb + 0x40, 1, 1⟩
def IC_CMD_COPY_ACTIVE (pb : Nat) : Fld := ⟨pb + 0x40, 2, 1⟩
/-- TSI and LOX.CMD_CTRL, 0x044 (07_slot_interchange.md, R146). -/
def IC_CMD_CTRL_VALID (pb : Nat) : Fld := ⟨pb + 0x44, 0, 1⟩
def IC_CMD_CTRL_BUSY (pb : Nat) : Fld := ⟨pb + 0x44, 1, 1⟩
def IC_CMD_CTRL_LAST_FAILED (pb : Nat) : Fld := ⟨pb + 0x44, 2, 1⟩
def IC_CMD_CTRL_SEQ (pb : Nat) : Fld := ⟨pb + 0x44, 16, 16⟩
/-- TSI and LOX.CMD_CODE, 0x048 (07_slot_interchange.md, R146). -/
def IC_CMD_CODE_CODE (pb : Nat) : Fld := ⟨pb + 0x48, 0, 8⟩
def IC_CMD_CODE_CMD (pb : Nat) : Fld := ⟨pb + 0x48, 8, 2⟩
/-- TSI and LOX.CMD_ENT, 0x04C (07_slot_interchange.md, R146). -/
def IC_CMD_ENT_WORD (pb : Nat) : Fld := ⟨pb + 0x4C, 0, 17⟩
/-- TSI and LOX.CMD_SUM, 0x050 (07_slot_interchange.md, R146). -/
def IC_CMD_SUM_SUM (pb : Nat) : Fld := ⟨pb + 0x50, 0, 32⟩
/-- TSI and LOX.ACT_SEL, 0x060 (07_slot_interchange.md, R146). -/
def IC_ACT_SEL_SLOT (pb : Nat) : Fld := ⟨pb + 0x60, 0, 17⟩
/-- TSI and LOX.ACT_ENT, 0x064 (07_slot_interchange.md, R146). -/
def IC_ACT_ENT_ENTRY (pb : Nat) : Fld := ⟨pb + 0x64, 0, 32⟩
/-- TSI and LOX.WIN_VIOL_OCC, 0x070 (07_slot_interchange.md, R146). -/
def IC_WIN_VIOL_OCC_COUNT (pb : Nat) : Fld := ⟨pb + 0x70, 0, 16⟩
def IC_WIN_VIOL_OCC_ACK (pb : Nat) : Fld := ⟨pb + 0x70, 16, 16⟩
/-- TSI and LOX.ENT_ERR_OCC, 0x074 (07_slot_interchange.md, R146). -/
def IC_ENT_ERR_OCC_COUNT (pb : Nat) : Fld := ⟨pb + 0x74, 0, 16⟩
def IC_ENT_ERR_OCC_ACK (pb : Nat) : Fld := ⟨pb + 0x74, 16, 16⟩
/-- TSI and LOX.ENT_CORR_OCC, 0x078 (07_slot_interchange.md, R146). -/
def IC_ENT_CORR_OCC_COUNT (pb : Nat) : Fld := ⟨pb + 0x78, 0, 16⟩
def IC_ENT_CORR_OCC_ACK (pb : Nat) : Fld := ⟨pb + 0x78, 16, 16⟩
/-- TSI and LOX.ERR_LAST, 0x07C (07_slot_interchange.md, R146). -/
def IC_ERR_LAST_SLOT (pb : Nat) : Fld := ⟨pb + 0x7C, 0, 17⟩
def IC_ERR_LAST_PAGE (pb : Nat) : Fld := ⟨pb + 0x7C, 17, 1⟩
/-- TSI and LOX.OCCL, 0x080 (07_slot_interchange.md, R146). -/
def IC_OCCL_OCC_LOST (pb : Nat) : Fld := ⟨pb + 0x80, 0, 3⟩
/-- BAT.STAT, 0x020 (12_batt_store.md, R280). -/
def BAT_STAT_UE : Fld := ⟨0xB020, 0, 1⟩
/-- BAT.RSV, 0x024 (12_batt_store.md, R280). -/
def BAT_RSV_FREE : Fld := ⟨0xB024, 0, 15⟩
def BAT_RSV_USED : Fld := ⟨0xB024, 16, 15⟩
/-- BAT.PATH_SEL, 0x030 (12_batt_store.md, R280). -/
def BAT_PATH_SEL_PATH : Fld := ⟨0xB030, 0, 12⟩
/-- BAT.PATH_CMD, 0x034 (12_batt_store.md, R280). -/
def BAT_PATH_CMD_READ : Fld := ⟨0xB034, 0, 1⟩
def BAT_PATH_CMD_WRITE : Fld := ⟨0xB034, 1, 1⟩
/-- BAT.PATH_CTRL, 0x038 (12_batt_store.md, R280). -/
def BAT_PATH_CTRL_VALID : Fld := ⟨0xB038, 0, 1⟩
def BAT_PATH_CTRL_BUSY : Fld := ⟨0xB038, 1, 1⟩
def BAT_PATH_CTRL_LAST_FAILED : Fld := ⟨0xB038, 2, 1⟩
def BAT_PATH_CTRL_SEQ : Fld := ⟨0xB038, 16, 16⟩
/-- BAT.PATH_CODE, 0x03C (12_batt_store.md, R280). -/
def BAT_PATH_CODE_CODE : Fld := ⟨0xB03C, 0, 8⟩
/-- BAT.PATH_D0, 0x040 (12_batt_store.md, R280). -/
def BAT_PATH_D0_FIRST : Fld := ⟨0xB040, 0, 17⟩
def BAT_PATH_D0_NSLOT : Fld := ⟨0xB040, 17, 11⟩
/-- BAT.PATH_D1, 0x044 (12_batt_store.md, R280). -/
def BAT_PATH_D1_EN : Fld := ⟨0xB044, 0, 1⟩
def BAT_PATH_D1_MODE : Fld := ⟨0xB044, 1, 1⟩
def BAT_PATH_D1_DELAY_FR : Fld := ⟨0xB044, 2, 10⟩
/-- BAT.PATH_D2, 0x048 (12_batt_store.md, R280). -/
def BAT_PATH_D2_RING0 : Fld := ⟨0xB048, 0, 15⟩
def BAT_PATH_D2_ALLOC : Fld := ⟨0xB048, 15, 1⟩
/-- BAT.PATH_D3, 0x04C (12_batt_store.md, R280). -/
def BAT_PATH_D3_DEPTH : Fld := ⟨0xB04C, 0, 10⟩
/-- BAT.CORR, 0x080 (12_batt_store.md, R280). -/
def BAT_CORR_COUNT : Fld := ⟨0xB080, 0, 32⟩
/-- BAT.CORR_HI, 0x084 (12_batt_store.md, R280). -/
def BAT_CORR_HI_COUNT : Fld := ⟨0xB084, 0, 16⟩
def BAT_CORR_HI_OVF : Fld := ⟨0xB084, 16, 1⟩
/-- BAT.CHK_ONLY, 0x088 (12_batt_store.md, R280). -/
def BAT_CHK_ONLY_COUNT : Fld := ⟨0xB088, 0, 32⟩
/-- BAT.CHK_ONLY_HI, 0x08C (12_batt_store.md, R280). -/
def BAT_CHK_ONLY_HI_COUNT : Fld := ⟨0xB08C, 0, 16⟩
def BAT_CHK_ONLY_HI_OVF : Fld := ⟨0xB08C, 16, 1⟩
/-- BAT.UE_OCC, 0x0A0 (12_batt_store.md, R280). -/
def BAT_UE_OCC_COUNT : Fld := ⟨0xB0A0, 0, 16⟩
def BAT_UE_OCC_ACK : Fld := ⟨0xB0A0, 16, 16⟩
/-- BAT.LATE_OCC, 0x0A4 (12_batt_store.md, R280). -/
def BAT_LATE_OCC_COUNT : Fld := ⟨0xB0A4, 0, 16⟩
def BAT_LATE_OCC_ACK : Fld := ⟨0xB0A4, 16, 16⟩
/-- BAT.SCRUB_UE_OCC, 0x0A8 (12_batt_store.md, R280). -/
def BAT_SCRUB_UE_OCC_COUNT : Fld := ⟨0xB0A8, 0, 16⟩
def BAT_SCRUB_UE_OCC_ACK : Fld := ⟨0xB0A8, 16, 16⟩
/-- BAT.CELL_CRC_OCC, 0x0AC (12_batt_store.md, R280). -/
def BAT_CELL_CRC_OCC_COUNT : Fld := ⟨0xB0AC, 0, 16⟩
def BAT_CELL_CRC_OCC_ACK : Fld := ⟨0xB0AC, 16, 16⟩
/-- BAT.OCCL, 0x0B0 (12_batt_store.md, R280). -/
def BAT_OCCL_OCC_LOST : Fld := ⟨0xB0B0, 0, 4⟩
/-- BAT.UE_LAST, 0x0B4 (12_batt_store.md, R280). -/
def BAT_UE_LAST_PATH : Fld := ⟨0xB0B4, 0, 12⟩
def BAT_UE_LAST_SLOT : Fld := ⟨0xB0B4, 12, 17⟩
/-- BAT.UE_SFN_LO, 0x0B8 (12_batt_store.md, R280). -/
def BAT_UE_SFN_LO_SFN : Fld := ⟨0xB0B8, 0, 32⟩
/-- BAT.UE_SFN_HI, 0x0BC (12_batt_store.md, R280). -/
def BAT_UE_SFN_HI_SFN : Fld := ⟨0xB0BC, 0, 29⟩
/-- BAT.UE_CW, 0x0C0 (12_batt_store.md, R280). -/
def BAT_UE_CW_CW : Fld := ⟨0xB0C0, 0, 24⟩
def BAT_UE_CW_CH : Fld := ⟨0xB0C0, 24, 4⟩
/-- BAT.WIN_CFG, 0x0E0 (12_batt_store.md, R280). -/
def BAT_WIN_CFG_CH : Fld := ⟨0xB0E0, 0, 4⟩
def BAT_WIN_CFG_DBASE : Fld := ⟨0xB0E0, 4, 6⟩
/-- MEM.STAT, 0x020 (12_batt_store.md, R281). -/
def MEM_STAT_TRAINED : Fld := ⟨0xC020, 0, 16⟩
def MEM_STAT_FAIL : Fld := ⟨0xC020, 16, 16⟩
/-- MEM.INFL, 0x024 (12_batt_store.md, R281). -/
def MEM_INFL_NOW : Fld := ⟨0xC024, 0, 12⟩
def MEM_INFL_PEAK : Fld := ⟨0xC024, 12, 12⟩
/-- MEM.SCRUB, 0x028 (12_batt_store.md, R281). -/
def MEM_SCRUB_LAST_MS : Fld := ⟨0xC028, 0, 16⟩
def MEM_SCRUB_PASSES : Fld := ⟨0xC028, 16, 16⟩
/-- TWN.CFG, 0x020 (14_twin_operation.md, R323). -/
def TWN_CFG_TWIN_EN : Fld := ⟨0xD020, 0, 1⟩
def TWN_CFG_EGRESS : Fld := ⟨0xD020, 1, 1⟩
def TWN_CFG_ACCEPT : Fld := ⟨0xD020, 2, 1⟩
def TWN_CFG_AUTO_TAKE : Fld := ⟨0xD020, 3, 1⟩
def TWN_CFG_AUTO_REJOIN : Fld := ⟨0xD020, 4, 1⟩
def TWN_CFG_DIV_BLOCK : Fld := ⟨0xD020, 5, 1⟩
def TWN_CFG_TB_FOLLOW : Fld := ⟨0xD020, 6, 1⟩
def TWN_CFG_PORT : Fld := ⟨0xD020, 8, 3⟩
def TWN_CFG_PAIR_ID : Fld := ⟨0xD020, 16, 16⟩
/-- TWN.DIV_CFG, 0x024 (14_twin_operation.md, R323). -/
def TWN_DIV_CFG_DIV_N : Fld := ⟨0xD024, 0, 4⟩
def TWN_DIV_CFG_DIV_M : Fld := ⟨0xD024, 4, 4⟩
def TWN_DIV_CFG_HB_MISS : Fld := ⟨0xD024, 8, 8⟩
def TWN_DIV_CFG_TVW_MS : Fld := ⟨0xD024, 16, 8⟩
def TWN_DIV_CFG_CONV_LIM : Fld := ⟨0xD024, 24, 8⟩
/-- TWN.STAT, 0x028 (14_twin_operation.md, R323). -/
def TWN_STAT_STATE : Fld := ⟨0xD028, 0, 3⟩
def TWN_STAT_PEER_STATE : Fld := ⟨0xD028, 3, 3⟩
def TWN_STAT_LINK_UP : Fld := ⟨0xD028, 6, 1⟩
def TWN_STAT_CLAIM_OUT : Fld := ⟨0xD028, 7, 1⟩
def TWN_STAT_CLAIM_IN : Fld := ⟨0xD028, 8, 1⟩
def TWN_STAT_PREFER : Fld := ⟨0xD028, 9, 1⟩
def TWN_STAT_ELIGIBLE : Fld := ⟨0xD028, 10, 1⟩
def TWN_STAT_DIVERGED : Fld := ⟨0xD028, 11, 1⟩
def TWN_STAT_COPY_INCOMPLETE : Fld := ⟨0xD028, 12, 1⟩
def TWN_STAT_TB_SKEW : Fld := ⟨0xD028, 13, 1⟩
def TWN_STAT_TVW_RUN : Fld := ⟨0xD028, 14, 1⟩
def TWN_STAT_CLAIM_CONFLICT : Fld := ⟨0xD028, 15, 1⟩
def TWN_STAT_CONV_TIMEOUT : Fld := ⟨0xD028, 16, 1⟩
def TWN_STAT_MISSED : Fld := ⟨0xD028, 17, 1⟩
def TWN_STAT_CLAIM_FAULT : Fld := ⟨0xD028, 18, 1⟩
/-- TWN.CMD, 0x02C (14_twin_operation.md, R323). -/
def TWN_CMD_JOIN : Fld := ⟨0xD02C, 0, 1⟩
def TWN_CMD_SERVE : Fld := ⟨0xD02C, 1, 1⟩
def TWN_CMD_LEAVE : Fld := ⟨0xD02C, 2, 1⟩
def TWN_CMD_FORCE_TAKEOVER : Fld := ⟨0xD02C, 3, 1⟩
/-- TWN.CMD_CTRL, 0x030 (14_twin_operation.md, R323). -/
def TWN_CMD_CTRL_VALID : Fld := ⟨0xD030, 0, 1⟩
def TWN_CMD_CTRL_BUSY : Fld := ⟨0xD030, 1, 1⟩
def TWN_CMD_CTRL_LAST_FAILED : Fld := ⟨0xD030, 2, 1⟩
def TWN_CMD_CTRL_SEQ : Fld := ⟨0xD030, 16, 16⟩
/-- TWN.CMD_CODE, 0x034 (14_twin_operation.md, R323). -/
def TWN_CMD_CODE_CODE : Fld := ⟨0xD034, 0, 8⟩
def TWN_CMD_CODE_CMD : Fld := ⟨0xD034, 8, 2⟩
/-- TWN.HANDOVER, 0x038 (14_twin_operation.md, R323). -/
def TWN_HANDOVER_GO : Fld := ⟨0xD038, 0, 1⟩
/-- TWN.ELIG_SFN_LO, 0x03C (14_twin_operation.md, R323). -/
def TWN_ELIG_SFN_LO_SFN : Fld := ⟨0xD03C, 0, 32⟩
/-- TWN.ELIG_SFN_HI, 0x040 (14_twin_operation.md, R323). -/
def TWN_ELIG_SFN_HI_SFN : Fld := ⟨0xD040, 0, 29⟩
/-- TWN.COPY_SFN_LO, 0x044 (14_twin_operation.md, R323). -/
def TWN_COPY_SFN_LO_SFN : Fld := ⟨0xD044, 0, 32⟩
/-- TWN.COPY_SFN_HI, 0x048 (14_twin_operation.md, R323). -/
def TWN_COPY_SFN_HI_SFN : Fld := ⟨0xD048, 0, 29⟩
/-- TWN.MATCH_RUN, 0x04C (14_twin_operation.md, R323). -/
def TWN_MATCH_RUN_RUN : Fld := ⟨0xD04C, 0, 16⟩
/-- TWN.RGN_SEL, 0x050 (14_twin_operation.md, R323). -/
def TWN_RGN_SEL_REGION (b : Nat) : Fld := ⟨0xD050 + 0x100000000 * (b + 1), 0, 7⟩
/-- TWN.RGN_INFO, 0x054 (14_twin_operation.md, R323). -/
def TWN_RGN_INFO_GEN (b : Nat) : Fld := ⟨0xD054 + 0x100000000 * (b + 1), 0, 16⟩
def TWN_RGN_INFO_COMPLETE (b : Nat) : Fld := ⟨0xD054 + 0x100000000 * (b + 1), 16, 1⟩
def TWN_RGN_INFO_STAGED (b : Nat) : Fld := ⟨0xD054 + 0x100000000 * (b + 1), 17, 1⟩
/-- TWN.RGN_SFN_LO, 0x058 (14_twin_operation.md, R323). -/
def TWN_RGN_SFN_LO_SFN (b : Nat) : Fld := ⟨0xD058 + 0x100000000 * (b + 1), 0, 32⟩
/-- TWN.RGN_SFN_HI, 0x05C (14_twin_operation.md, R323). -/
def TWN_RGN_SFN_HI_SFN (b : Nat) : Fld := ⟨0xD05C + 0x100000000 * (b + 1), 0, 29⟩
/-- TWN.CMPL, 0x060 (14_twin_operation.md, R323). -/
def TWN_CMPL_MAP (i : Nat) : Fld := ⟨0xD060 + 4 * i, 0, 32⟩
/-- TWN.DIV_LAST, 0x070 (14_twin_operation.md, R323). -/
def TWN_DIV_LAST_CH : Fld := ⟨0xD070, 0, 8⟩
/-- TWN.DIV_SFN_LO, 0x074 (14_twin_operation.md, R323). -/
def TWN_DIV_SFN_LO_SFN : Fld := ⟨0xD074, 0, 32⟩
/-- TWN.DIV_SFN_HI, 0x078 (14_twin_operation.md, R323). -/
def TWN_DIV_SFN_HI_SFN : Fld := ⟨0xD078, 0, 29⟩
/-- TWN.MISMATCH, 0x080 (14_twin_operation.md, R323). -/
def TWN_MISMATCH_COUNT : Fld := ⟨0xD080, 0, 32⟩
/-- TWN.MISMATCH_HI, 0x084 (14_twin_operation.md, R323). -/
def TWN_MISMATCH_HI_COUNT : Fld := ⟨0xD084, 0, 16⟩
def TWN_MISMATCH_HI_OVF : Fld := ⟨0xD084, 16, 1⟩
/-- TWN.DIGEST_LOST, 0x088 (14_twin_operation.md, R323). -/
def TWN_DIGEST_LOST_COUNT : Fld := ⟨0xD088, 0, 32⟩
/-- TWN.DIGEST_LOST_HI, 0x08C (14_twin_operation.md, R323). -/
def TWN_DIGEST_LOST_HI_COUNT : Fld := ⟨0xD08C, 0, 16⟩
def TWN_DIGEST_LOST_HI_OVF : Fld := ⟨0xD08C, 16, 1⟩
/-- TWN.DIV_OCC, 0x0A0 (14_twin_operation.md, R323). -/
def TWN_DIV_OCC_COUNT : Fld := ⟨0xD0A0, 0, 16⟩
def TWN_DIV_OCC_ACK : Fld := ⟨0xD0A0, 16, 16⟩
/-- TWN.HB_LOSS_OCC, 0x0A4 (14_twin_operation.md, R323). -/
def TWN_HB_LOSS_OCC_COUNT : Fld := ⟨0xD0A4, 0, 16⟩
def TWN_HB_LOSS_OCC_ACK : Fld := ⟨0xD0A4, 16, 16⟩
/-- TWN.TAKEOVER_OCC, 0x0A8 (14_twin_operation.md, R323). -/
def TWN_TAKEOVER_OCC_COUNT : Fld := ⟨0xD0A8, 0, 16⟩
def TWN_TAKEOVER_OCC_ACK : Fld := ⟨0xD0A8, 16, 16⟩
/-- TWN.UNMIRRORED_OCC, 0x0AC (14_twin_operation.md, R323). -/
def TWN_UNMIRRORED_OCC_COUNT : Fld := ⟨0xD0AC, 0, 16⟩
def TWN_UNMIRRORED_OCC_ACK : Fld := ⟨0xD0AC, 16, 16⟩
/-- TWN.UNFWD_OCC, 0x0B0 (14_twin_operation.md, R323). -/
def TWN_UNFWD_OCC_COUNT : Fld := ⟨0xD0B0, 0, 16⟩
def TWN_UNFWD_OCC_ACK : Fld := ⟨0xD0B0, 16, 16⟩
/-- TWN.LWR_VIOL_OCC, 0x0B4 (14_twin_operation.md, R323). -/
def TWN_LWR_VIOL_OCC_COUNT : Fld := ⟨0xD0B4, 0, 16⟩
def TWN_LWR_VIOL_OCC_ACK : Fld := ⟨0xD0B4, 16, 16⟩
/-- TWN.OCCL, 0x0B8 (14_twin_operation.md, R323). -/
def TWN_OCCL_OCC_LOST : Fld := ⟨0xD0B8, 0, 6⟩
/-- TWN.TVW_CTRL, 0x0C0 (14_twin_operation.md, R323). -/
def TWN_TVW_CTRL_VALID : Fld := ⟨0xD0C0, 0, 1⟩
def TWN_TVW_CTRL_BUSY : Fld := ⟨0xD0C0, 1, 1⟩
def TWN_TVW_CTRL_LAST_FAILED : Fld := ⟨0xD0C0, 2, 1⟩
def TWN_TVW_CTRL_SEQ : Fld := ⟨0xD0C0, 16, 16⟩
/-- TWN.TVW_RES, 0x0C4 (14_twin_operation.md, R323). -/
def TWN_TVW_RES_CHECKED : Fld := ⟨0xD0C4, 0, 16⟩
def TWN_TVW_RES_FAILED : Fld := ⟨0xD0C4, 16, 16⟩
/-- TWN.TVW_MAP, 0x0C8 (14_twin_operation.md, R323). -/
def TWN_TVW_MAP_MAP (i : Nat) : Fld := ⟨0xD0C8 + 4 * i, 0, 32⟩
/-- TWN.FE_CONV, 0x100 (14_twin_operation.md, R323). -/
def TWN_FE_CONV_CONV_FR (i : Nat) : Fld := ⟨0xD100 + 4 * i, 0, 32⟩
/-- GRP.CFG, 0x020 (15_group_gelvy.md, R344). -/
def GRP_CFG_ROLE : Fld := ⟨0xE020, 0, 2⟩
def GRP_CFG_ID : Fld := ⟨0xE020, 2, 3⟩
def GRP_CFG_TIME : Fld := ⟨0xE020, 5, 2⟩
def GRP_CFG_GROUP_TAG : Fld := ⟨0xE020, 16, 16⟩
/-- GRP.STAT, 0x024 (15_group_gelvy.md, R344). -/
def GRP_STAT_ROLE : Fld := ⟨0xE024, 0, 2⟩
def GRP_STAT_ID : Fld := ⟨0xE024, 2, 3⟩
def GRP_STAT_ID_BAD : Fld := ⟨0xE024, 5, 1⟩
def GRP_STAT_MGR_UP : Fld := ⟨0xE024, 6, 1⟩
def GRP_STAT_MGR_PORT : Fld := ⟨0xE024, 7, 3⟩
def GRP_STAT_TB_SKEW : Fld := ⟨0xE024, 10, 1⟩
def GRP_STAT_MEMBERS : Fld := ⟨0xE024, 11, 7⟩
/-- GRP.MEMBER, 0x044 (15_group_gelvy.md, R344). -/
def GRP_MEMBER_PORT (i : Nat) : Fld := ⟨0xE044 + 4 * i, 0, 3⟩
def GRP_MEMBER_PRESENT (i : Nat) : Fld := ⟨0xE044 + 4 * i, 3, 1⟩
def GRP_MEMBER_ALT_VALID (i : Nat) : Fld := ⟨0xE044 + 4 * i, 4, 1⟩
def GRP_MEMBER_ALT_PORT (i : Nat) : Fld := ⟨0xE044 + 4 * i, 5, 3⟩
def GRP_MEMBER_USE_ALT (i : Nat) : Fld := ⟨0xE044 + 4 * i, 8, 1⟩
/-- GRP.PX_SEL, 0x080 (15_group_gelvy.md, R344). -/
def GRP_PX_SEL_ID (i : Nat) : Fld := ⟨0xE080 + 4 * i, 0, 3⟩
def GRP_PX_SEL_BASE (i : Nat) : Fld := ⟨0xE080 + 4 * i, 3, 2⟩
/-- GRP.PX_TMO, 0x0A0 (15_group_gelvy.md, R344). -/
def GRP_PX_TMO_US : Fld := ⟨0xE0A0, 0, 16⟩
/-- GRP.PX_ERR_OCC, 0x0B0 (15_group_gelvy.md, R344). -/
def GRP_PX_ERR_OCC_COUNT : Fld := ⟨0xE0B0, 0, 16⟩
def GRP_PX_ERR_OCC_ACK : Fld := ⟨0xE0B0, 16, 16⟩
/-- GRP.DEPART_OCC, 0x0B4 (15_group_gelvy.md, R344). -/
def GRP_DEPART_OCC_COUNT : Fld := ⟨0xE0B4, 0, 16⟩
def GRP_DEPART_OCC_ACK : Fld := ⟨0xE0B4, 16, 16⟩
/-- GRP.DUP_OCC, 0x0B8 (15_group_gelvy.md, R344). -/
def GRP_DUP_OCC_COUNT : Fld := ⟨0xE0B8, 0, 16⟩
def GRP_DUP_OCC_ACK : Fld := ⟨0xE0B8, 16, 16⟩
/-- GRP.OCCL, 0x0BC (15_group_gelvy.md, R344). -/
def GRP_OCCL_OCC_LOST : Fld := ⟨0xE0BC, 0, 3⟩
/-- GRP.PX_LAST, 0x0C0 (15_group_gelvy.md, R344). -/
def GRP_PX_LAST_ADDR : Fld := ⟨0xE0C0, 0, 25⟩
def GRP_PX_LAST_ID : Fld := ⟨0xE0C0, 25, 3⟩
/-- GLV.CFG, 0x020 (15_group_gelvy.md, R345). -/
def GLV_CFG_HELLO_MS : Fld := ⟨0xF020, 0, 4⟩
def GLV_CFG_RETRY_US : Fld := ⟨0xF020, 4, 8⟩
def GLV_CFG_RETRY_MAX : Fld := ⟨0xF020, 12, 4⟩
/-- GP.CFG, 0x020 (15_group_gelvy.md, R346). -/
def GP_CFG_EN (p : Nat) : Fld := ⟨0x10000 + 0x1000 * p + 0x20, 0, 1⟩
def GP_CFG_SLOT_EN (p : Nat) : Fld := ⟨0x10000 + 0x1000 * p + 0x20, 1, 1⟩
def GP_CFG_RX_INV (p : Nat) : Fld := ⟨0x10000 + 0x1000 * p + 0x20, 2, 4⟩
/-- GP.STAT, 0x024 (15_group_gelvy.md, R346). -/
def GP_STAT_STATE (p : Nat) : Fld := ⟨0x10000 + 0x1000 * p + 0x24, 0, 3⟩
def GP_STAT_PEER_ID (p : Nat) : Fld := ⟨0x10000 + 0x1000 * p + 0x24, 3, 3⟩
def GP_STAT_PEER_ROLE (p : Nat) : Fld := ⟨0x10000 + 0x1000 * p + 0x24, 6, 2⟩
def GP_STAT_PEER_MODE (p : Nat) : Fld := ⟨0x10000 + 0x1000 * p + 0x24, 8, 3⟩
def GP_STAT_PEER_SLOT_EN (p : Nat) : Fld := ⟨0x10000 + 0x1000 * p + 0x24, 11, 1⟩
def GP_STAT_PEER_TWIN (p : Nat) : Fld := ⟨0x10000 + 0x1000 * p + 0x24, 12, 1⟩
def GP_STAT_SKEW_NS (p : Nat) : Fld := ⟨0x10000 + 0x1000 * p + 0x24, 13, 8⟩
def GP_STAT_CTRL_FAIL (p : Nat) : Fld := ⟨0x10000 + 0x1000 * p + 0x24, 21, 1⟩
/-- GP.PEER_TAG, 0x028 (15_group_gelvy.md, R346). -/
def GP_PEER_TAG_GROUP_TAG (p : Nat) : Fld := ⟨0x10000 + 0x1000 * p + 0x28, 0, 16⟩
def GP_PEER_TAG_PAIR_ID (p : Nat) : Fld := ⟨0x10000 + 0x1000 * p + 0x28, 16, 16⟩
/-- GP.FEC_CORR, 0x040 (15_group_gelvy.md, R346). -/
def GP_FEC_CORR_COUNT (p : Nat) : Fld := ⟨0x10000 + 0x1000 * p + 0x40, 0, 32⟩
/-- GP.FEC_CORR_HI, 0x044 (15_group_gelvy.md, R346). -/
def GP_FEC_CORR_HI_COUNT (p : Nat) : Fld := ⟨0x10000 + 0x1000 * p + 0x44, 0, 16⟩
def GP_FEC_CORR_HI_OVF (p : Nat) : Fld := ⟨0x10000 + 0x1000 * p + 0x44, 16, 1⟩
/-- GP.FEC_UCW, 0x048 (15_group_gelvy.md, R346). -/
def GP_FEC_UCW_COUNT (p : Nat) : Fld := ⟨0x10000 + 0x1000 * p + 0x48, 0, 32⟩
/-- GP.FEC_UCW_HI, 0x04C (15_group_gelvy.md, R346). -/
def GP_FEC_UCW_HI_COUNT (p : Nat) : Fld := ⟨0x10000 + 0x1000 * p + 0x4C, 0, 16⟩
def GP_FEC_UCW_HI_OVF (p : Nat) : Fld := ⟨0x10000 + 0x1000 * p + 0x4C, 16, 1⟩
/-- GP.RETRY_OCC, 0x060 (15_group_gelvy.md, R346). -/
def GP_RETRY_OCC_COUNT (p : Nat) : Fld := ⟨0x10000 + 0x1000 * p + 0x60, 0, 16⟩
def GP_RETRY_OCC_ACK (p : Nat) : Fld := ⟨0x10000 + 0x1000 * p + 0x60, 16, 16⟩
/-- GP.CRC_ERR_OCC, 0x064 (15_group_gelvy.md, R346). -/
def GP_CRC_ERR_OCC_COUNT (p : Nat) : Fld := ⟨0x10000 + 0x1000 * p + 0x64, 0, 16⟩
def GP_CRC_ERR_OCC_ACK (p : Nat) : Fld := ⟨0x10000 + 0x1000 * p + 0x64, 16, 16⟩
/-- GP.SM_ERR_OCC, 0x068 (15_group_gelvy.md, R346). -/
def GP_SM_ERR_OCC_COUNT (p : Nat) : Fld := ⟨0x10000 + 0x1000 * p + 0x68, 0, 16⟩
def GP_SM_ERR_OCC_ACK (p : Nat) : Fld := ⟨0x10000 + 0x1000 * p + 0x68, 16, 16⟩
/-- GP.LATE_SF_OCC, 0x06C (15_group_gelvy.md, R346). -/
def GP_LATE_SF_OCC_COUNT (p : Nat) : Fld := ⟨0x10000 + 0x1000 * p + 0x6C, 0, 16⟩
def GP_LATE_SF_OCC_ACK (p : Nat) : Fld := ⟨0x10000 + 0x1000 * p + 0x6C, 16, 16⟩
/-- GP.DOWN_OCC, 0x070 (15_group_gelvy.md, R346). -/
def GP_DOWN_OCC_COUNT (p : Nat) : Fld := ⟨0x10000 + 0x1000 * p + 0x70, 0, 16⟩
def GP_DOWN_OCC_ACK (p : Nat) : Fld := ⟨0x10000 + 0x1000 * p + 0x70, 16, 16⟩
/-- GP.TAG_MIS_OCC, 0x074 (15_group_gelvy.md, R346). -/
def GP_TAG_MIS_OCC_COUNT (p : Nat) : Fld := ⟨0x10000 + 0x1000 * p + 0x74, 0, 16⟩
def GP_TAG_MIS_OCC_ACK (p : Nat) : Fld := ⟨0x10000 + 0x1000 * p + 0x74, 16, 16⟩
/-- GP.OCCL, 0x078 (15_group_gelvy.md, R346). -/
def GP_OCCL_OCC_LOST (p : Nat) : Fld := ⟨0x10000 + 0x1000 * p + 0x78, 0, 6⟩
/-- TPT.CFG, 0x020 (10_time_base_timestamping.md, R239). -/
def TPT_CFG_EN (t : Nat) : Fld := ⟨0x18000 + 0x1000 * t + 0x20, 0, 1⟩
def TPT_CFG_RATE (t : Nat) : Fld := ⟨0x18000 + 0x1000 * t + 0x20, 1, 2⟩
def TPT_CFG_LREF_SEL (t : Nat) : Fld := ⟨0x18000 + 0x1000 * t + 0x20, 3, 2⟩
/-- TPT.STAT, 0x024 (10_time_base_timestamping.md, R239). -/
def TPT_STAT_PLL_LK (t : Nat) : Fld := ⟨0x18000 + 0x1000 * t + 0x24, 0, 1⟩
def TPT_STAT_LINK (t : Nat) : Fld := ⟨0x18000 + 0x1000 * t + 0x24, 1, 1⟩
def TPT_STAT_LF (t : Nat) : Fld := ⟨0x18000 + 0x1000 * t + 0x24, 2, 1⟩
def TPT_STAT_RF (t : Nat) : Fld := ⟨0x18000 + 0x1000 * t + 0x24, 3, 1⟩
/-- TPT.ONESTEP_SKIP_OCC, 0x030 (10_time_base_timestamping.md, R239). -/
def TPT_ONESTEP_SKIP_OCC_COUNT (t : Nat) : Fld := ⟨0x18000 + 0x1000 * t + 0x30, 0, 16⟩
def TPT_ONESTEP_SKIP_OCC_ACK (t : Nat) : Fld := ⟨0x18000 + 0x1000 * t + 0x30, 16, 16⟩
/-- TPT.FCS_ERR_OCC, 0x034 (10_time_base_timestamping.md, R239). -/
def TPT_FCS_ERR_OCC_COUNT (t : Nat) : Fld := ⟨0x18000 + 0x1000 * t + 0x34, 0, 16⟩
def TPT_FCS_ERR_OCC_ACK (t : Nat) : Fld := ⟨0x18000 + 0x1000 * t + 0x34, 16, 16⟩
/-- TPT.OCCL, 0x038 (10_time_base_timestamping.md, R239). -/
def TPT_OCCL_OCC_LOST (t : Nat) : Fld := ⟨0x18000 + 0x1000 * t + 0x38, 0, 2⟩
/-- PNC.U_SEL, 0x020 (13_integrity_injection.md, R293). -/
def PNC_U_SEL_UNIT : Fld := ⟨0x1C020, 0, 5⟩
/-- PNC.U_CFG, 0x024 (13_integrity_injection.md, R293). -/
def PNC_U_CFG_EN (b : Nat) : Fld := ⟨0x1C024 + 0x100000000 * (b + 1), 0, 1⟩
def PNC_U_CFG_SRC_KIND (b : Nat) : Fld := ⟨0x1C024 + 0x100000000 * (b + 1), 1, 3⟩
def PNC_U_CFG_SRC_IDX (b : Nat) : Fld := ⟨0x1C024 + 0x100000000 * (b + 1), 4, 12⟩
def PNC_U_CFG_POLY (b : Nat) : Fld := ⟨0x1C024 + 0x100000000 * (b + 1), 16, 2⟩
def PNC_U_CFG_FRAMING (b : Nat) : Fld := ⟨0x1C024 + 0x100000000 * (b + 1), 18, 2⟩
def PNC_U_CFG_RAW (b : Nat) : Fld := ⟨0x1C024 + 0x100000000 * (b + 1), 20, 1⟩
def PNC_U_CFG_CHECK (b : Nat) : Fld := ⟨0x1C024 + 0x100000000 * (b + 1), 21, 1⟩
/-- PNC.U_BLOCK, 0x028 (13_integrity_injection.md, R293). -/
def PNC_U_BLOCK_BLOCK (b : Nat) : Fld := ⟨0x1C028 + 0x100000000 * (b + 1), 0, 16⟩
/-- PNC.U_CTRL, 0x02C (13_integrity_injection.md, R293). -/
def PNC_U_CTRL_VALID (b : Nat) : Fld := ⟨0x1C02C + 0x100000000 * (b + 1), 0, 1⟩
def PNC_U_CTRL_BUSY (b : Nat) : Fld := ⟨0x1C02C + 0x100000000 * (b + 1), 1, 1⟩
def PNC_U_CTRL_LAST_FAILED (b : Nat) : Fld := ⟨0x1C02C + 0x100000000 * (b + 1), 2, 1⟩
def PNC_U_CTRL_SEQ (b : Nat) : Fld := ⟨0x1C02C + 0x100000000 * (b + 1), 16, 16⟩
/-- PNC.U_VAL, 0x030 (13_integrity_injection.md, R293). -/
def PNC_U_VAL_VAL (b : Nat) : Fld := ⟨0x1C030 + 0x100000000 * (b + 1), 0, 32⟩
/-- PNC.U_CARRIED, 0x034 (13_integrity_injection.md, R293). -/
def PNC_U_CARRIED_VAL (b : Nat) : Fld := ⟨0x1C034 + 0x100000000 * (b + 1), 0, 32⟩
/-- PNC.U_INFO, 0x038 (13_integrity_injection.md, R293). -/
def PNC_U_INFO_LEN (b : Nat) : Fld := ⟨0x1C038 + 0x100000000 * (b + 1), 0, 16⟩
def PNC_U_INFO_MATCH (b : Nat) : Fld := ⟨0x1C038 + 0x100000000 * (b + 1), 16, 1⟩
def PNC_U_INFO_CFG_BAD (b : Nat) : Fld := ⟨0x1C038 + 0x100000000 * (b + 1), 17, 1⟩
/-- PNC.U_UNITS, 0x03C (13_integrity_injection.md, R293). -/
def PNC_U_UNITS_COUNT (b : Nat) : Fld := ⟨0x1C03C + 0x100000000 * (b + 1), 0, 32⟩
/-- PNC.U_MIS_OCC, 0x040 (13_integrity_injection.md, R293). -/
def PNC_U_MIS_OCC_COUNT (b : Nat) : Fld := ⟨0x1C040 + 0x100000000 * (b + 1), 0, 16⟩
def PNC_U_MIS_OCC_ACK (b : Nat) : Fld := ⟨0x1C040 + 0x100000000 * (b + 1), 16, 16⟩
/-- PNC.U_OCCL, 0x044 (13_integrity_injection.md, R293). -/
def PNC_U_OCCL_OCC_LOST (b : Nat) : Fld := ⟨0x1C044 + 0x100000000 * (b + 1), 0, 1⟩
/-- PNC.DIG_SEL, 0x060 (13_integrity_injection.md, R293). -/
def PNC_DIG_SEL_CH : Fld := ⟨0x1C060, 0, 8⟩
/-- PNC.DIG_CTRL, 0x064 (13_integrity_injection.md, R293). -/
def PNC_DIG_CTRL_VALID (b : Nat) : Fld := ⟨0x1C064 + 0x100000000 * (b + 1), 0, 1⟩
def PNC_DIG_CTRL_BUSY (b : Nat) : Fld := ⟨0x1C064 + 0x100000000 * (b + 1), 1, 1⟩
def PNC_DIG_CTRL_LAST_FAILED (b : Nat) : Fld := ⟨0x1C064 + 0x100000000 * (b + 1), 2, 1⟩
def PNC_DIG_CTRL_SEQ (b : Nat) : Fld := ⟨0x1C064 + 0x100000000 * (b + 1), 16, 16⟩
/-- PNC.DIG_VAL, 0x068 (13_integrity_injection.md, R293). -/
def PNC_DIG_VAL_DIGEST (b : Nat) : Fld := ⟨0x1C068 + 0x100000000 * (b + 1), 0, 32⟩
/-- PNC.DIG_SFN_LO, 0x06C (13_integrity_injection.md, R293). -/
def PNC_DIG_SFN_LO_SFN_LO (b : Nat) : Fld := ⟨0x1C06C + 0x100000000 * (b + 1), 0, 32⟩
/-- PNC.DIG_SFN_HI, 0x070 (13_integrity_injection.md, R293). -/
def PNC_DIG_SFN_HI_SFN_HI (b : Nat) : Fld := ⟨0x1C070 + 0x100000000 * (b + 1), 0, 29⟩
/-- PNC.DIG_FLAGS, 0x074 (13_integrity_injection.md, R293). -/
def PNC_DIG_FLAGS_EDGE (b : Nat) : Fld := ⟨0x1C074 + 0x100000000 * (b + 1), 0, 1⟩
def PNC_DIG_FLAGS_EXCL (b : Nat) : Fld := ⟨0x1C074 + 0x100000000 * (b + 1), 1, 1⟩
def PNC_DIG_FLAGS_UNCOV (b : Nat) : Fld := ⟨0x1C074 + 0x100000000 * (b + 1), 2, 1⟩
def PNC_DIG_FLAGS_ABSENT (b : Nat) : Fld := ⟨0x1C074 + 0x100000000 * (b + 1), 3, 1⟩
/-- PNC.PAR_SCAN, 0x080 (13_integrity_injection.md, R293). -/
def PNC_PAR_SCAN_LAST_US : Fld := ⟨0x1C080, 0, 16⟩
def PNC_PAR_SCAN_PASSES : Fld := ⟨0x1C080, 16, 16⟩
/-- PNC.PAR_OCC, 0x084 (13_integrity_injection.md, R293). -/
def PNC_PAR_OCC_COUNT : Fld := ⟨0x1C084, 0, 16⟩
def PNC_PAR_OCC_ACK : Fld := ⟨0x1C084, 16, 16⟩
/-- PNC.PAR_LAST, 0x088 (13_integrity_injection.md, R293). -/
def PNC_PAR_LAST_ADDR : Fld := ⟨0x1C088, 0, 24⟩
/-- PNC.PAR_OCCL, 0x08C (13_integrity_injection.md, R293). -/
def PNC_PAR_OCCL_OCC_LOST : Fld := ⟨0x1C08C, 0, 1⟩
/-- CAL.CFG, 0x020 (18_calibration_fuses.md, R402). -/
def CAL_CFG_BG_EN : Fld := ⟨0x1D020, 0, 3⟩
def CAL_CFG_TRIG_C : Fld := ⟨0x1D020, 3, 5⟩
def CAL_CFG_PERIOD_MIN : Fld := ⟨0x1D020, 8, 8⟩
def CAL_CFG_MIN_MARGIN : Fld := ⟨0x1D020, 16, 8⟩
/-- CAL.TCAL_SEL, 0x030 (18_calibration_fuses.md, R402). -/
def CAL_TCAL_SEL_PORT : Fld := ⟨0x1D030, 0, 10⟩
/-- CAL.TCAL_CMD, 0x034 (18_calibration_fuses.md, R402). -/
def CAL_TCAL_CMD_RUN : Fld := ⟨0x1D034, 0, 1⟩
/-- CAL.TCAL_CTRL, 0x038 (18_calibration_fuses.md, R402). -/
def CAL_TCAL_CTRL_VALID : Fld := ⟨0x1D038, 0, 1⟩
def CAL_TCAL_CTRL_BUSY : Fld := ⟨0x1D038, 1, 1⟩
def CAL_TCAL_CTRL_LAST_FAILED : Fld := ⟨0x1D038, 2, 1⟩
def CAL_TCAL_CTRL_SEQ : Fld := ⟨0x1D038, 16, 16⟩
/-- CAL.TCAL_RES, 0x03C (18_calibration_fuses.md, R402). -/
def CAL_TCAL_RES_CODE : Fld := ⟨0x1D03C, 0, 8⟩
def CAL_TCAL_RES_FLAG : Fld := ⟨0x1D03C, 8, 2⟩
def CAL_TCAL_RES_RESID : Fld := ⟨0x1D03C, 16, 16⟩
/-- CAL.MCAL_SEL, 0x040 (18_calibration_fuses.md, R402). -/
def CAL_MCAL_SEL_CH : Fld := ⟨0x1D040, 0, 4⟩
/-- CAL.MCAL_CMD, 0x044 (18_calibration_fuses.md, R402). -/
def CAL_MCAL_CMD_RUN : Fld := ⟨0x1D044, 0, 1⟩
/-- CAL.MCAL_CTRL, 0x048 (18_calibration_fuses.md, R402). -/
def CAL_MCAL_CTRL_VALID : Fld := ⟨0x1D048, 0, 1⟩
def CAL_MCAL_CTRL_BUSY : Fld := ⟨0x1D048, 1, 1⟩
def CAL_MCAL_CTRL_LAST_FAILED : Fld := ⟨0x1D048, 2, 1⟩
def CAL_MCAL_CTRL_SEQ : Fld := ⟨0x1D048, 16, 16⟩
/-- CAL.MCAL_RES, 0x04C (18_calibration_fuses.md, R402). -/
def CAL_MCAL_RES_CODE : Fld := ⟨0x1D04C, 0, 8⟩
def CAL_MCAL_RES_FLAG : Fld := ⟨0x1D04C, 8, 2⟩
def CAL_MCAL_RES_MARGIN : Fld := ⟨0x1D04C, 16, 16⟩
/-- CAL.FUSE_STAT, 0x060 (18_calibration_fuses.md, R402). -/
def CAL_FUSE_STAT_FACT_BAD : Fld := ⟨0x1D060, 0, 1⟩
def CAL_FUSE_STAT_USED : Fld := ⟨0x1D060, 8, 6⟩
def CAL_FUSE_STAT_COMMITTED : Fld := ⟨0x1D060, 16, 6⟩
/-- CAL.FR_BAD, 0x064 (18_calibration_fuses.md, R402). -/
def CAL_FR_BAD_MAP : Fld := ⟨0x1D064, 0, 32⟩
/-- CAL.TR_D, 0x080 (18_calibration_fuses.md, R402). -/
def CAL_TR_D_DATA (i : Nat) : Fld := ⟨0x1D080 + 4 * i, 0, 32⟩
/-- CAL.FCMD, 0x0C0 (18_calibration_fuses.md, R402). -/
def CAL_FCMD_PROG : Fld := ⟨0x1D0C0, 0, 1⟩
/-- CAL.FR_CTRL, 0x0C4 (18_calibration_fuses.md, R402). -/
def CAL_FR_CTRL_VALID : Fld := ⟨0x1D0C4, 0, 1⟩
def CAL_FR_CTRL_BUSY : Fld := ⟨0x1D0C4, 1, 1⟩
def CAL_FR_CTRL_LAST_FAILED : Fld := ⟨0x1D0C4, 2, 1⟩
def CAL_FR_CTRL_SEQ : Fld := ⟨0x1D0C4, 16, 16⟩
/-- CAL.FR_CODE, 0x0C8 (18_calibration_fuses.md, R402). -/
def CAL_FR_CODE_CODE : Fld := ⟨0x1D0C8, 0, 8⟩
def CAL_FR_CODE_SLOT : Fld := ⟨0x1D0C8, 8, 5⟩
/-- CAL.FR_SEL, 0x0D0 (18_calibration_fuses.md, R402). -/
def CAL_FR_SEL_SLOT : Fld := ⟨0x1D0D0, 0, 5⟩
/-- CAL.FR_RD, 0x100 (18_calibration_fuses.md, R402). -/
def CAL_FR_RD_DATA (i : Nat) : Fld := ⟨0x1D100 + 4 * i, 0, 32⟩
/-- MON.G_SEL, 0x020 (19_monitors_counters.md, R407). -/
def MON_G_SEL_GAUGE : Fld := ⟨0x1E020, 0, 4⟩
/-- MON.G_CFG, 0x024 (19_monitors_counters.md, R407). -/
def MON_G_CFG_SRC (b : Nat) : Fld := ⟨0x1E024 + 0x100000000 * (b + 1), 0, 3⟩
def MON_G_CFG_IDX (b : Nat) : Fld := ⟨0x1E024 + 0x100000000 * (b + 1), 3, 17⟩
def MON_G_CFG_SHIFT (b : Nat) : Fld := ⟨0x1E024 + 0x100000000 * (b + 1), 20, 5⟩
/-- MON.G_EDGE0, 0x028 (19_monitors_counters.md, R407). -/
def MON_G_EDGE0_EDGE0 (b : Nat) : Fld := ⟨0x1E028 + 0x100000000 * (b + 1), 0, 32⟩
/-- MON.G_STEP, 0x02C (19_monitors_counters.md, R407). -/
def MON_G_STEP_STEP (b : Nat) : Fld := ⟨0x1E02C + 0x100000000 * (b + 1), 0, 32⟩
/-- MON.G_CMD, 0x030 (19_monitors_counters.md, R407). -/
def MON_G_CMD_CLEAR (b : Nat) : Fld := ⟨0x1E030 + 0x100000000 * (b + 1), 0, 1⟩
/-- MON.G_WR, 0x034 (19_monitors_counters.md, R407). -/
def MON_G_WR_VAL (b : Nat) : Fld := ⟨0x1E034 + 0x100000000 * (b + 1), 0, 32⟩
/-- MON.MON_CFG, 0x038 (19_monitors_counters.md, R407). -/
def MON_MON_CFG_CLR_ON_SNAP : Fld := ⟨0x1E038, 0, 1⟩
/-- MON.G_STAT, 0x03C (19_monitors_counters.md, R407). -/
def MON_G_STAT_CFG_BAD (b : Nat) : Fld := ⟨0x1E03C + 0x100000000 * (b + 1), 0, 1⟩
/-- MON.G_MIN, 0x080 (19_monitors_counters.md, R407). -/
def MON_G_MIN_MIN (b : Nat) : Fld := ⟨0x1E080 + 0x100000000 * (b + 1), 0, 32⟩
/-- MON.G_MAX, 0x084 (19_monitors_counters.md, R407). -/
def MON_G_MAX_MAX (b : Nat) : Fld := ⟨0x1E084 + 0x100000000 * (b + 1), 0, 32⟩
/-- MON.G_N, 0x088 (19_monitors_counters.md, R407). -/
def MON_G_N_N (b : Nat) : Fld := ⟨0x1E088 + 0x100000000 * (b + 1), 0, 32⟩
/-- MON.G_BIN, 0x090 (19_monitors_counters.md, R407). -/
def MON_G_BIN_COUNT (b i : Nat) : Fld := ⟨0x1E090 + 4 * i + 0x100000000 * (b + 1), 0, 32⟩
/-- MON.G_SAT, 0x110 (19_monitors_counters.md, R407). -/
def MON_G_SAT_BIN_SAT (b : Nat) : Fld := ⟨0x1E110 + 0x100000000 * (b + 1), 0, 32⟩
/-- MON.G_SAT2, 0x114 (19_monitors_counters.md, R407). -/
def MON_G_SAT2_N_SAT (b : Nat) : Fld := ⟨0x1E114 + 0x100000000 * (b + 1), 0, 1⟩
/-- PRF.P_SEL, 0x020 (19_monitors_counters.md, R412). -/
def PRF_P_SEL_CTR : Fld := ⟨0x1F020, 0, 6⟩
/-- PRF.P_CFG, 0x024 (19_monitors_counters.md, R412). -/
def PRF_P_CFG_EN (b : Nat) : Fld := ⟨0x1F024 + 0x100000000 * (b + 1), 0, 1⟩
def PRF_P_CFG_LEVEL (b : Nat) : Fld := ⟨0x1F024 + 0x100000000 * (b + 1), 1, 1⟩
def PRF_P_CFG_EVENT (b : Nat) : Fld := ⟨0x1F024 + 0x100000000 * (b + 1), 2, 6⟩
def PRF_P_CFG_INDEX (b : Nat) : Fld := ⟨0x1F024 + 0x100000000 * (b + 1), 8, 8⟩
/-- PRF.P_CTL, 0x028 (19_monitors_counters.md, R412). -/
def PRF_P_CTL_RUN : Fld := ⟨0x1F028, 0, 1⟩
/-- PRF.P_VAL, 0x040 (19_monitors_counters.md, R412). -/
def PRF_P_VAL_COUNT (b : Nat) : Fld := ⟨0x1F040 + 0x100000000 * (b + 1), 0, 32⟩
/-- PRF.P_VAL_HI, 0x044 (19_monitors_counters.md, R412). -/
def PRF_P_VAL_HI_COUNT (b : Nat) : Fld := ⟨0x1F044 + 0x100000000 * (b + 1), 0, 16⟩
def PRF_P_VAL_HI_OVF (b : Nat) : Fld := ⟨0x1F044 + 0x100000000 * (b + 1), 16, 1⟩
/-- PRF.OVF_MAP0, 0x050 (19_monitors_counters.md, R412). -/
def PRF_OVF_MAP0_OVF : Fld := ⟨0x1F050, 0, 32⟩
/-- PRF.OVF_MAP1, 0x054 (19_monitors_counters.md, R412). -/
def PRF_OVF_MAP1_OVF : Fld := ⟨0x1F054, 0, 32⟩
/-- PRF.T_CFG, 0x060 (19_monitors_counters.md, R412). -/
def PRF_T_CFG_MASTERS : Fld := ⟨0x1F060, 0, 8⟩
def PRF_T_CFG_TARGETS : Fld := ⟨0x1F060, 8, 8⟩
def PRF_T_CFG_WRAP : Fld := ⟨0x1F060, 16, 1⟩
def PRF_T_CFG_ERR_ONLY : Fld := ⟨0x1F060, 17, 1⟩
/-- PRF.T_ALO, 0x064 (19_monitors_counters.md, R412). -/
def PRF_T_ALO_ADDR : Fld := ⟨0x1F064, 0, 32⟩
/-- PRF.T_AHI, 0x068 (19_monitors_counters.md, R412). -/
def PRF_T_AHI_ADDR : Fld := ⟨0x1F068, 0, 32⟩
/-- PRF.T_CMD, 0x06C (19_monitors_counters.md, R412). -/
def PRF_T_CMD_START : Fld := ⟨0x1F06C, 0, 1⟩
def PRF_T_CMD_STOP : Fld := ⟨0x1F06C, 1, 1⟩
def PRF_T_CMD_RESET : Fld := ⟨0x1F06C, 2, 1⟩
/-- PRF.T_CMD_CODE, 0x070 (19_monitors_counters.md, R412). -/
def PRF_T_CMD_CODE_CODE : Fld := ⟨0x1F070, 0, 8⟩
/-- PRF.T_STAT, 0x074 (19_monitors_counters.md, R412). -/
def PRF_T_STAT_RUN : Fld := ⟨0x1F074, 0, 1⟩
def PRF_T_STAT_FULL : Fld := ⟨0x1F074, 1, 1⟩
def PRF_T_STAT_LEVEL : Fld := ⟨0x1F074, 2, 10⟩
/-- PRF.T_HEAD, 0x078 (19_monitors_counters.md, R412). -/
def PRF_T_HEAD_HEAD : Fld := ⟨0x1F078, 0, 32⟩
/-- PRF.T_RD_IDX, 0x07C (19_monitors_counters.md, R412). -/
def PRF_T_RD_IDX_IDX (b : Nat) : Fld := ⟨0x1F07C + 0x100000000 * (b + 1), 0, 32⟩
/-- PRF.T_REC_CTRL, 0x080 (19_monitors_counters.md, R412). -/
def PRF_T_REC_CTRL_VALID (b : Nat) : Fld := ⟨0x1F080 + 0x100000000 * (b + 1), 0, 1⟩
def PRF_T_REC_CTRL_GONE (b : Nat) : Fld := ⟨0x1F080 + 0x100000000 * (b + 1), 1, 1⟩
def PRF_T_REC_CTRL_AHEAD (b : Nat) : Fld := ⟨0x1F080 + 0x100000000 * (b + 1), 2, 1⟩
/-- PRF.T_REC, 0x084 (19_monitors_counters.md, R412). -/
def PRF_T_REC_DATA (b i : Nat) : Fld := ⟨0x1F084 + 4 * i + 0x100000000 * (b + 1), 0, 32⟩
/-- PRF.E_CFG, 0x0A0 (19_monitors_counters.md, R412). -/
def PRF_E_CFG_EN : Fld := ⟨0x1F0A0, 0, 1⟩
def PRF_E_CFG_MEAN_LOG2 : Fld := ⟨0x1F0A0, 1, 5⟩
/-- PRF.E_MASK0, 0x0A4 (19_monitors_counters.md, R412). -/
def PRF_E_MASK0_MASK : Fld := ⟨0x1F0A4, 0, 32⟩
/-- PRF.E_MASK1, 0x0A8 (19_monitors_counters.md, R412). -/
def PRF_E_MASK1_MASK : Fld := ⟨0x1F0A8, 0, 32⟩
/-- PRF.E_SEED, 0x0AC (19_monitors_counters.md, R412). -/
def PRF_E_SEED_SEED : Fld := ⟨0x1F0AC, 0, 32⟩
/-- PRF.E_STAT, 0x0B0 (19_monitors_counters.md, R412). -/
def PRF_E_STAT_LEVEL : Fld := ⟨0x1F0B0, 0, 7⟩
/-- PRF.E_CMD, 0x0B4 (19_monitors_counters.md, R412). -/
def PRF_E_CMD_POP : Fld := ⟨0x1F0B4, 0, 1⟩
/-- PRF.E_REC, 0x0C0 (19_monitors_counters.md, R412). -/
def PRF_E_REC_DATA (i : Nat) : Fld := ⟨0x1F0C0 + 4 * i, 0, 32⟩
/-- PRF.TAG_LOST_OCC, 0x0D0 (19_monitors_counters.md, R412). -/
def PRF_TAG_LOST_OCC_COUNT : Fld := ⟨0x1F0D0, 0, 16⟩
def PRF_TAG_LOST_OCC_ACK : Fld := ⟨0x1F0D0, 16, 16⟩
/-- PRF.OCCL, 0x0D4 (19_monitors_counters.md, R412). -/
def PRF_OCCL_OCC_LOST : Fld := ⟨0x1F0D4, 0, 1⟩
/-- INJ.IJ_SEL, 0x020 (13_integrity_injection.md, R294). -/
def INJ_IJ_SEL_SLOT : Fld := ⟨0x20020, 0, 6⟩
/-- INJ.IJ_D0, 0x024 (13_integrity_injection.md, R294). -/
def INJ_IJ_D0_POINT (b : Nat) : Fld := ⟨0x20024 + 0x100000000 * (b + 1), 0, 8⟩
def INJ_IJ_D0_DIR (b : Nat) : Fld := ⟨0x20024 + 0x100000000 * (b + 1), 8, 1⟩
/-- INJ.IJ_D1, 0x028 (13_integrity_injection.md, R294). -/
def INJ_IJ_D1_INSTANCE (b : Nat) : Fld := ⟨0x20028 + 0x100000000 * (b + 1), 0, 24⟩
/-- INJ.IJ_D2, 0x02C (13_integrity_injection.md, R294). -/
def INJ_IJ_D2_PARAM (b : Nat) : Fld := ⟨0x2002C + 0x100000000 * (b + 1), 0, 32⟩
/-- INJ.IJ_STAT, 0x030 (13_integrity_injection.md, R294). -/
def INJ_IJ_STAT_ACTIVE (b : Nat) : Fld := ⟨0x20030 + 0x100000000 * (b + 1), 0, 1⟩
def INJ_IJ_STAT_MODE (b : Nat) : Fld := ⟨0x20030 + 0x100000000 * (b + 1), 1, 2⟩
def INJ_IJ_STAT_SHADOWED (b : Nat) : Fld := ⟨0x20030 + 0x100000000 * (b + 1), 3, 1⟩
def INJ_IJ_STAT_PAUSED (b : Nat) : Fld := ⟨0x20030 + 0x100000000 * (b + 1), 4, 1⟩
def INJ_IJ_STAT_REMAIN (b : Nat) : Fld := ⟨0x20030 + 0x100000000 * (b + 1), 16, 16⟩
/-- INJ.IJ_ARG, 0x034 (13_integrity_injection.md, R294). -/
def INJ_IJ_ARG_ARG : Fld := ⟨0x20034, 0, 32⟩
/-- INJ.IJ_CMD, 0x038 (13_integrity_injection.md, R294). -/
def INJ_IJ_CMD_GO : Fld := ⟨0x20038, 0, 1⟩
def INJ_IJ_CMD_STOP : Fld := ⟨0x20038, 1, 1⟩
/-- INJ.IJ_CTRL, 0x03C (13_integrity_injection.md, R294). -/
def INJ_IJ_CTRL_VALID : Fld := ⟨0x2003C, 0, 1⟩
def INJ_IJ_CTRL_BUSY : Fld := ⟨0x2003C, 1, 1⟩
def INJ_IJ_CTRL_LAST_FAILED : Fld := ⟨0x2003C, 2, 1⟩
def INJ_IJ_CTRL_SEQ : Fld := ⟨0x2003C, 16, 16⟩
/-- INJ.IJ_CODE, 0x040 (13_integrity_injection.md, R294). -/
def INJ_IJ_CODE_CODE : Fld := ⟨0x20040, 0, 8⟩
/-- INJ.ACT_MAP0, 0x050 (13_integrity_injection.md, R294). -/
def INJ_ACT_MAP0_MAP : Fld := ⟨0x20050, 0, 32⟩
/-- INJ.ACT_MAP1, 0x054 (13_integrity_injection.md, R294). -/
def INJ_ACT_MAP1_MAP : Fld := ⟨0x20054, 0, 32⟩
/-- INJ.VIOL_OCC, 0x058 (13_integrity_injection.md, R294). -/
def INJ_VIOL_OCC_COUNT : Fld := ⟨0x20058, 0, 16⟩
def INJ_VIOL_OCC_ACK : Fld := ⟨0x20058, 16, 16⟩
/-- INJ.OCCL, 0x05C (13_integrity_injection.md, R294). -/
def INJ_OCCL_OCC_LOST : Fld := ⟨0x2005C, 0, 1⟩
/-- LGC.MW_SEL, 0x0A0 (08_mapping.md, R179). -/
def LGC_MW_SEL_CH (n : Nat) : Fld := ⟨lgBase n + 0xA0, 0, 4⟩
def LGC_MW_SEL_BANK (n : Nat) : Fld := ⟨lgBase n + 0xA0, 4, 1⟩
def LGC_MW_SEL_IDX (n : Nat) : Fld := ⟨lgBase n + 0xA0, 5, 8⟩
def LGC_MW_SEL_SRC (n : Nat) : Fld := ⟨lgBase n + 0xA0, 13, 1⟩
/-- LGC.MW_CMD, 0x0A4 (08_mapping.md, R179). -/
def LGC_MW_CMD_READ (n : Nat) : Fld := ⟨lgBase n + 0xA4, 0, 1⟩
def LGC_MW_CMD_WRITE (n : Nat) : Fld := ⟨lgBase n + 0xA4, 1, 1⟩
def LGC_MW_CMD_CHECK (n : Nat) : Fld := ⟨lgBase n + 0xA4, 2, 1⟩
/-- LGC.MW_CTRL, 0x0A8 (08_mapping.md, R179). -/
def LGC_MW_CTRL_VALID (n : Nat) : Fld := ⟨lgBase n + 0xA8, 0, 1⟩
def LGC_MW_CTRL_BUSY (n : Nat) : Fld := ⟨lgBase n + 0xA8, 1, 1⟩
def LGC_MW_CTRL_LAST_FAILED (n : Nat) : Fld := ⟨lgBase n + 0xA8, 2, 1⟩
def LGC_MW_CTRL_SEQ (n : Nat) : Fld := ⟨lgBase n + 0xA8, 16, 16⟩
/-- LGC.MW_CODE, 0x0AC (08_mapping.md, R179). -/
def LGC_MW_CODE_CODE (n : Nat) : Fld := ⟨lgBase n + 0xAC, 0, 8⟩
def LGC_MW_CODE_ENT (n : Nat) : Fld := ⟨lgBase n + 0xAC, 8, 8⟩
/-- LGC.MW_D, 0x0B0 (08_mapping.md, R179). -/
def LGC_MW_D_DATA (n i : Nat) : Fld := ⟨lgBase n + 0xB0 + 4 * i, 0, 32⟩
/-- LGC.VG_SEL, 0x0E0 (08_mapping.md, R179). -/
def LGC_VG_SEL_GRP (n : Nat) : Fld := ⟨lgBase n + 0xE0, 0, 4⟩
/-- LGC.VG_CMD, 0x0E4 (08_mapping.md, R179). -/
def LGC_VG_CMD_READ (n : Nat) : Fld := ⟨lgBase n + 0xE4, 0, 1⟩
def LGC_VG_CMD_WRITE (n : Nat) : Fld := ⟨lgBase n + 0xE4, 1, 1⟩
/-- LGC.VG_CTRL, 0x0E8 (08_mapping.md, R179). -/
def LGC_VG_CTRL_VALID (n : Nat) : Fld := ⟨lgBase n + 0xE8, 0, 1⟩
def LGC_VG_CTRL_BUSY (n : Nat) : Fld := ⟨lgBase n + 0xE8, 1, 1⟩
def LGC_VG_CTRL_LAST_FAILED (n : Nat) : Fld := ⟨lgBase n + 0xE8, 2, 1⟩
def LGC_VG_CTRL_SEQ (n : Nat) : Fld := ⟨lgBase n + 0xE8, 16, 16⟩
/-- LGC.VG_CODE, 0x0EC (08_mapping.md, R179). -/
def LGC_VG_CODE_CODE (n : Nat) : Fld := ⟨lgBase n + 0xEC, 0, 8⟩
/-- LGC.VG_D, 0x0F0 (08_mapping.md, R179). -/
def LGC_VG_D_DATA (n i : Nat) : Fld := ⟨lgBase n + 0xF0 + 4 * i, 0, 32⟩
/-- LGC.BANK_STAT, 0x120 (08_mapping.md, R179). -/
def LGC_BANK_STAT_CHECKED (n : Nat) : Fld := ⟨lgBase n + 0x120, 0, 24⟩
/-- CH.DISC_CFG, 0x020 (04_lanes_and_discovery.md, R86). -/
def CH_DISC_CFG_RATE_MASK (c : Nat) : Fld := ⟨chBase c + 0x20, 0, 12⟩
def CH_DISC_CFG_START_HINT (c : Nat) : Fld := ⟨chBase c + 0x20, 12, 1⟩
def CH_DISC_CFG_FLAV_DEF (c : Nat) : Fld := ⟨chBase c + 0x20, 13, 1⟩
/-- CH.DISC_TIME, 0x024 (04_lanes_and_discovery.md, R86). -/
def CH_DISC_TIME_HOLD_MS (c : Nat) : Fld := ⟨chBase c + 0x24, 0, 10⟩
def CH_DISC_TIME_TRACE_WAIT (c : Nat) : Fld := ⟨chBase c + 0x24, 10, 6⟩
def CH_DISC_TIME_ADM_FRAMES (c : Nat) : Fld := ⟨chBase c + 0x24, 16, 8⟩
def CH_DISC_TIME_REHUNT (c : Nat) : Fld := ⟨chBase c + 0x24, 24, 8⟩
/-- CH.AUTO_ADMIT, 0x028 (04_lanes_and_discovery.md, R86). -/
def CH_AUTO_ADMIT_FMT_MASK (c : Nat) : Fld := ⟨chBase c + 0x28, 0, 16⟩
/-- CH.DISC_STAT, 0x02C (04_lanes_and_discovery.md, R86). -/
def CH_DISC_STAT_STATE (c : Nat) : Fld := ⟨chBase c + 0x2C, 0, 4⟩
def CH_DISC_STAT_FMT (c : Nat) : Fld := ⟨chBase c + 0x2C, 4, 5⟩
def CH_DISC_STAT_RATE (c : Nat) : Fld := ⟨chBase c + 0x2C, 9, 4⟩
def CH_DISC_STAT_TRACE_VALID (c : Nat) : Fld := ⟨chBase c + 0x2C, 13, 1⟩
def CH_DISC_STAT_RATE_FAIL (c : Nat) : Fld := ⟨chBase c + 0x2C, 14, 1⟩
def CH_DISC_STAT_BOND_BLOCKED (c : Nat) : Fld := ⟨chBase c + 0x2C, 15, 1⟩
def CH_DISC_STAT_FLAV_DEFAULTED (c : Nat) : Fld := ⟨chBase c + 0x2C, 16, 1⟩
def CH_DISC_STAT_TRACE_LEN (c : Nat) : Fld := ⟨chBase c + 0x2C, 17, 2⟩
def CH_DISC_STAT_ADM_FMT (c : Nat) : Fld := ⟨chBase c + 0x2C, 19, 5⟩
/-- CH.DISC_OCC, 0x030 (04_lanes_and_discovery.md, R86). -/
def CH_DISC_OCC_COUNT (c : Nat) : Fld := ⟨chBase c + 0x30, 0, 16⟩
def CH_DISC_OCC_ACK (c : Nat) : Fld := ⟨chBase c + 0x30, 16, 16⟩
/-- CH.GONE_OCC, 0x034 (04_lanes_and_discovery.md, R86). -/
def CH_GONE_OCC_COUNT (c : Nat) : Fld := ⟨chBase c + 0x34, 0, 16⟩
def CH_GONE_OCC_ACK (c : Nat) : Fld := ⟨chBase c + 0x34, 16, 16⟩
/-- CH.OCCL, 0x038 (04_lanes_and_discovery.md, R86). -/
def CH_OCCL_OCC_LOST (c : Nat) : Fld := ⟨chBase c + 0x38, 0, 2⟩
/-- CH.ADMIT, 0x03C (04_lanes_and_discovery.md, R86). -/
def CH_ADMIT_FMT (c : Nat) : Fld := ⟨chBase c + 0x3C, 0, 5⟩
def CH_ADMIT_GO (c : Nat) : Fld := ⟨chBase c + 0x3C, 8, 1⟩
/-- CH.ADM_CTRL, 0x040 (04_lanes_and_discovery.md, R86). -/
def CH_ADM_CTRL_VALID (c : Nat) : Fld := ⟨chBase c + 0x40, 0, 1⟩
def CH_ADM_CTRL_BUSY (c : Nat) : Fld := ⟨chBase c + 0x40, 1, 1⟩
def CH_ADM_CTRL_LAST_FAILED (c : Nat) : Fld := ⟨chBase c + 0x40, 2, 1⟩
def CH_ADM_CTRL_SEQ (c : Nat) : Fld := ⟨chBase c + 0x40, 16, 16⟩
/-- CH.ADM_CODE, 0x044 (04_lanes_and_discovery.md, R86). -/
def CH_ADM_CODE_CODE (c : Nat) : Fld := ⟨chBase c + 0x44, 0, 8⟩
def CH_ADM_CODE_SOURCE (c : Nat) : Fld := ⟨chBase c + 0x44, 8, 2⟩
/-- CH.ADM_SFN_LO, 0x048 (04_lanes_and_discovery.md, R86). -/
def CH_ADM_SFN_LO_SFN_LO (c : Nat) : Fld := ⟨chBase c + 0x48, 0, 32⟩
/-- CH.ADM_SFN_HI, 0x04C (04_lanes_and_discovery.md, R86). -/
def CH_ADM_SFN_HI_SFN_HI (c : Nat) : Fld := ⟨chBase c + 0x4C, 0, 29⟩
/-- CH.TX_CFG, 0x050 (04_lanes_and_discovery.md, R86). -/
def CH_TX_CFG_TX_FMT (c : Nat) : Fld := ⟨chBase c + 0x50, 0, 5⟩
/-- CH.TRACE, 0x060 (04_lanes_and_discovery.md, R86). -/
def CH_TRACE_BYTES (c i : Nat) : Fld := ⟨chBase c + 0x60 + 4 * i, 0, 32⟩
/-- CH.ALN_CFG, 0x0A0 (05_frame_alignment.md, R102). -/
def CH_ALN_CFG_OOF_N_SDH (c : Nat) : Fld := ⟨chBase c + 0xA0, 0, 4⟩
def CH_ALN_CFG_OOF_N_OTN (c : Nat) : Fld := ⟨chBase c + 0xA0, 4, 4⟩
def CH_ALN_CFG_IF_GOOD (c : Nat) : Fld := ⟨chBase c + 0xA0, 8, 3⟩
def CH_ALN_CFG_TIE_BRK (c : Nat) : Fld := ⟨chBase c + 0xA0, 11, 1⟩
def CH_ALN_CFG_OOM_N (c : Nat) : Fld := ⟨chBase c + 0xA0, 12, 4⟩
def CH_ALN_CFG_IM_GOOD (c : Nat) : Fld := ⟨chBase c + 0xA0, 16, 3⟩
/-- CH.ALN_TIME, 0x0A4 (05_frame_alignment.md, R102). -/
def CH_ALN_TIME_LOF_SET (c : Nat) : Fld := ⟨chBase c + 0xA4, 0, 6⟩
def CH_ALN_TIME_LOF_CLR (c : Nat) : Fld := ⟨chBase c + 0xA4, 8, 6⟩
def CH_ALN_TIME_LOM_SET (c : Nat) : Fld := ⟨chBase c + 0xA4, 16, 6⟩
def CH_ALN_TIME_LOM_CLR (c : Nat) : Fld := ⟨chBase c + 0xA4, 24, 6⟩
/-- CH.ALN_STAT, 0x0A8 (05_frame_alignment.md, R102). -/
def CH_ALN_STAT_CAR_STATE (c : Nat) : Fld := ⟨chBase c + 0xA8, 0, 3⟩
def CH_ALN_STAT_OOF (c : Nat) : Fld := ⟨chBase c + 0xA8, 3, 1⟩
def CH_ALN_STAT_LOF (c : Nat) : Fld := ⟨chBase c + 0xA8, 4, 1⟩
def CH_ALN_STAT_OOM (c : Nat) : Fld := ⟨chBase c + 0xA8, 5, 1⟩
def CH_ALN_STAT_LOM (c : Nat) : Fld := ⟨chBase c + 0xA8, 6, 1⟩
def CH_ALN_STAT_LOL (c : Nat) : Fld := ⟨chBase c + 0xA8, 7, 1⟩
def CH_ALN_STAT_BLOCK_LOCK (c : Nat) : Fld := ⟨chBase c + 0xA8, 8, 1⟩
def CH_ALN_STAT_MIMIC_AMBIG (c : Nat) : Fld := ⟨chBase c + 0xA8, 9, 1⟩
def CH_ALN_STAT_CAND_N (c : Nat) : Fld := ⟨chBase c + 0xA8, 10, 4⟩
def CH_ALN_STAT_CAND_PEAK (c : Nat) : Fld := ⟨chBase c + 0xA8, 14, 4⟩
/-- CH.ALN_SKEW, 0x0AC (05_frame_alignment.md, R102). -/
def CH_ALN_SKEW_SKEW_NS (c : Nat) : Fld := ⟨chBase c + 0xAC, 0, 8⟩
def CH_ALN_SKEW_SKEW_EXC (c : Nat) : Fld := ⟨chBase c + 0xAC, 8, 1⟩
/-- CH.LANE_MAP0, 0x0B0 (05_frame_alignment.md, R102). -/
def CH_LANE_MAP0_MAP (c : Nat) : Fld := ⟨chBase c + 0xB0, 0, 32⟩
/-- CH.LANE_MAP1, 0x0B4 (05_frame_alignment.md, R102). -/
def CH_LANE_MAP1_MAP (c : Nat) : Fld := ⟨chBase c + 0xB4, 0, 8⟩
/-- CH.OOF_OCC, 0x0B8 (05_frame_alignment.md, R102). -/
def CH_OOF_OCC_COUNT (c : Nat) : Fld := ⟨chBase c + 0xB8, 0, 16⟩
def CH_OOF_OCC_ACK (c : Nat) : Fld := ⟨chBase c + 0xB8, 16, 16⟩
/-- CH.MIMIC_OCC, 0x0BC (05_frame_alignment.md, R102). -/
def CH_MIMIC_OCC_COUNT (c : Nat) : Fld := ⟨chBase c + 0xBC, 0, 16⟩
def CH_MIMIC_OCC_ACK (c : Nat) : Fld := ⟨chBase c + 0xBC, 16, 16⟩
/-- CH.REALIGN_OCC, 0x0C0 (05_frame_alignment.md, R102). -/
def CH_REALIGN_OCC_COUNT (c : Nat) : Fld := ⟨chBase c + 0xC0, 0, 16⟩
def CH_REALIGN_OCC_ACK (c : Nat) : Fld := ⟨chBase c + 0xC0, 16, 16⟩
/-- CH.ALN_OCCL, 0x0C4 (05_frame_alignment.md, R102). -/
def CH_ALN_OCCL_OCC_LOST (c : Nat) : Fld := ⟨chBase c + 0xC4, 0, 3⟩
/-- CH.DEF_CFG, 0x0D0 (06_overhead_defects_pm.md, R124). -/
def CH_DEF_CFG_LOS_T (c : Nat) : Fld := ⟨chBase c + 0xD0, 0, 10⟩
def CH_DEF_CFG_LOS_NRG (c : Nat) : Fld := ⟨chBase c + 0xD0, 10, 1⟩
def CH_DEF_CFG_SF_TIM (c : Nat) : Fld := ⟨chBase c + 0xD0, 11, 1⟩
def CH_DEF_CFG_SF_PLM (c : Nat) : Fld := ⟨chBase c + 0xD0, 12, 1⟩
def CH_DEF_CFG_PM_BLOCK (c : Nat) : Fld := ⟨chBase c + 0xD0, 13, 1⟩
def CH_DEF_CFG_AIS_N (c : Nat) : Fld := ⟨chBase c + 0xD0, 16, 4⟩
def CH_DEF_CFG_RDI_N (c : Nat) : Fld := ⟨chBase c + 0xD0, 20, 4⟩
def CH_DEF_CFG_LOP_N (c : Nat) : Fld := ⟨chBase c + 0xD0, 24, 4⟩
/-- CH.BER_CFG, 0x0D4 (06_overhead_defects_pm.md, R124). -/
def CH_BER_CFG_SF_EXP (c : Nat) : Fld := ⟨chBase c + 0xD4, 0, 4⟩
def CH_BER_CFG_SD_EXP (c : Nat) : Fld := ⟨chBase c + 0xD4, 4, 4⟩
def CH_BER_CFG_SFBER_EN (c : Nat) : Fld := ⟨chBase c + 0xD4, 8, 1⟩
/-- CH.CA_MASK, 0x0D8 (06_overhead_defects_pm.md, R124). -/
def CH_CA_MASK_MASK (c : Nat) : Fld := ⟨chBase c + 0xD8, 0, 10⟩
/-- CH.EXP_CFG, 0x0DC (06_overhead_defects_pm.md, R124). -/
def CH_EXP_CFG_EXP_PT (c : Nat) : Fld := ⟨chBase c + 0xDC, 0, 8⟩
def CH_EXP_CFG_PLM_EN (c : Nat) : Fld := ⟨chBase c + 0xDC, 8, 1⟩
def CH_EXP_CFG_TIM_MODE (c : Nat) : Fld := ⟨chBase c + 0xDC, 9, 2⟩
def CH_EXP_CFG_ODU_TIM_MODE (c : Nat) : Fld := ⟨chBase c + 0xDC, 11, 2⟩
/-- CH.TCM_CFG, 0x0E0 (06_overhead_defects_pm.md, R124). -/
def CH_TCM_CFG_MODE1 (c : Nat) : Fld := ⟨chBase c + 0xE0, 0, 2⟩
def CH_TCM_CFG_MODE2 (c : Nat) : Fld := ⟨chBase c + 0xE0, 2, 2⟩
def CH_TCM_CFG_MODE3 (c : Nat) : Fld := ⟨chBase c + 0xE0, 4, 2⟩
def CH_TCM_CFG_MODE4 (c : Nat) : Fld := ⟨chBase c + 0xE0, 6, 2⟩
def CH_TCM_CFG_MODE5 (c : Nat) : Fld := ⟨chBase c + 0xE0, 8, 2⟩
def CH_TCM_CFG_MODE6 (c : Nat) : Fld := ⟨chBase c + 0xE0, 10, 2⟩
/-- CH.TX_OH, 0x0E4 (06_overhead_defects_pm.md, R124). -/
def CH_TX_OH_TRACE (c : Nat) : Fld := ⟨chBase c + 0xE4, 0, 2⟩
def CH_TX_OH_APS (c : Nat) : Fld := ⟨chBase c + 0xE4, 2, 2⟩
def CH_TX_OH_SYNC (c : Nat) : Fld := ⟨chBase c + 0xE4, 4, 2⟩
def CH_TX_OH_ORDERWIRE (c : Nat) : Fld := ⟨chBase c + 0xE4, 6, 2⟩
def CH_TX_OH_STREAM (c : Nat) : Fld := ⟨chBase c + 0xE4, 8, 2⟩
def CH_TX_OH_STREAM_SEL (c : Nat) : Fld := ⟨chBase c + 0xE4, 10, 3⟩
/-- CH.TX_K1K2, 0x0E8 (06_overhead_defects_pm.md, R124). -/
def CH_TX_K1K2_K1 (c : Nat) : Fld := ⟨chBase c + 0xE8, 0, 8⟩
def CH_TX_K1K2_K2 (c : Nat) : Fld := ⟨chBase c + 0xE8, 8, 8⟩
def CH_TX_K1K2_S1 (c : Nat) : Fld := ⟨chBase c + 0xE8, 16, 8⟩
/-- CH.DEF_STAT, 0x0F0 (06_overhead_defects_pm.md, R124). -/
def CH_DEF_STAT_LOS (c : Nat) : Fld := ⟨chBase c + 0xF0, 0, 1⟩
def CH_DEF_STAT_OOF (c : Nat) : Fld := ⟨chBase c + 0xF0, 1, 1⟩
def CH_DEF_STAT_LOF (c : Nat) : Fld := ⟨chBase c + 0xF0, 2, 1⟩
def CH_DEF_STAT_LOM (c : Nat) : Fld := ⟨chBase c + 0xF0, 3, 1⟩
def CH_DEF_STAT_LOL (c : Nat) : Fld := ⟨chBase c + 0xF0, 4, 1⟩
def CH_DEF_STAT_AIS (c : Nat) : Fld := ⟨chBase c + 0xF0, 5, 1⟩
def CH_DEF_STAT_RDI (c : Nat) : Fld := ⟨chBase c + 0xF0, 6, 1⟩
def CH_DEF_STAT_TIM (c : Nat) : Fld := ⟨chBase c + 0xF0, 7, 1⟩
def CH_DEF_STAT_BLK_LOSS (c : Nat) : Fld := ⟨chBase c + 0xF0, 8, 1⟩
def CH_DEF_STAT_HI_BER (c : Nat) : Fld := ⟨chBase c + 0xF0, 9, 1⟩
def CH_DEF_STAT_LF (c : Nat) : Fld := ⟨chBase c + 0xF0, 10, 1⟩
def CH_DEF_STAT_RF (c : Nat) : Fld := ⟨chBase c + 0xF0, 11, 1⟩
def CH_DEF_STAT_ODU_AIS (c : Nat) : Fld := ⟨chBase c + 0xF0, 12, 1⟩
def CH_DEF_STAT_ODU_OCI (c : Nat) : Fld := ⟨chBase c + 0xF0, 13, 1⟩
def CH_DEF_STAT_ODU_LCK (c : Nat) : Fld := ⟨chBase c + 0xF0, 14, 1⟩
def CH_DEF_STAT_ODU_BDI (c : Nat) : Fld := ⟨chBase c + 0xF0, 15, 1⟩
def CH_DEF_STAT_ODU_TIM (c : Nat) : Fld := ⟨chBase c + 0xF0, 16, 1⟩
def CH_DEF_STAT_ODU_PLM (c : Nat) : Fld := ⟨chBase c + 0xF0, 17, 1⟩
/-- CH.TCM_STAT, 0x0F4 (06_overhead_defects_pm.md, R124). -/
def CH_TCM_STAT_LTC1 (c : Nat) : Fld := ⟨chBase c + 0xF4, 0, 1⟩
def CH_TCM_STAT_AIS1 (c : Nat) : Fld := ⟨chBase c + 0xF4, 1, 1⟩
def CH_TCM_STAT_OCI_LCK1 (c : Nat) : Fld := ⟨chBase c + 0xF4, 2, 1⟩
def CH_TCM_STAT_BDI1 (c : Nat) : Fld := ⟨chBase c + 0xF4, 3, 1⟩
def CH_TCM_STAT_LTC2 (c : Nat) : Fld := ⟨chBase c + 0xF4, 4, 1⟩
def CH_TCM_STAT_AIS2 (c : Nat) : Fld := ⟨chBase c + 0xF4, 5, 1⟩
def CH_TCM_STAT_OCI_LCK2 (c : Nat) : Fld := ⟨chBase c + 0xF4, 6, 1⟩
def CH_TCM_STAT_BDI2 (c : Nat) : Fld := ⟨chBase c + 0xF4, 7, 1⟩
def CH_TCM_STAT_LTC3 (c : Nat) : Fld := ⟨chBase c + 0xF4, 8, 1⟩
def CH_TCM_STAT_AIS3 (c : Nat) : Fld := ⟨chBase c + 0xF4, 9, 1⟩
def CH_TCM_STAT_OCI_LCK3 (c : Nat) : Fld := ⟨chBase c + 0xF4, 10, 1⟩
def CH_TCM_STAT_BDI3 (c : Nat) : Fld := ⟨chBase c + 0xF4, 11, 1⟩
def CH_TCM_STAT_LTC4 (c : Nat) : Fld := ⟨chBase c + 0xF4, 12, 1⟩
def CH_TCM_STAT_AIS4 (c : Nat) : Fld := ⟨chBase c + 0xF4, 13, 1⟩
def CH_TCM_STAT_OCI_LCK4 (c : Nat) : Fld := ⟨chBase c + 0xF4, 14, 1⟩
def CH_TCM_STAT_BDI4 (c : Nat) : Fld := ⟨chBase c + 0xF4, 15, 1⟩
def CH_TCM_STAT_LTC5 (c : Nat) : Fld := ⟨chBase c + 0xF4, 16, 1⟩
def CH_TCM_STAT_AIS5 (c : Nat) : Fld := ⟨chBase c + 0xF4, 17, 1⟩
def CH_TCM_STAT_OCI_LCK5 (c : Nat) : Fld := ⟨chBase c + 0xF4, 18, 1⟩
def CH_TCM_STAT_BDI5 (c : Nat) : Fld := ⟨chBase c + 0xF4, 19, 1⟩
def CH_TCM_STAT_LTC6 (c : Nat) : Fld := ⟨chBase c + 0xF4, 20, 1⟩
def CH_TCM_STAT_AIS6 (c : Nat) : Fld := ⟨chBase c + 0xF4, 21, 1⟩
def CH_TCM_STAT_OCI_LCK6 (c : Nat) : Fld := ⟨chBase c + 0xF4, 22, 1⟩
def CH_TCM_STAT_BDI6 (c : Nat) : Fld := ⟨chBase c + 0xF4, 23, 1⟩
/-- CH.SFSD, 0x0F8 (06_overhead_defects_pm.md, R124). -/
def CH_SFSD_SF (c : Nat) : Fld := ⟨chBase c + 0xF8, 0, 1⟩
def CH_SFSD_SD (c : Nat) : Fld := ⟨chBase c + 0xF8, 1, 1⟩
def CH_SFSD_ODU_SF (c : Nat) : Fld := ⟨chBase c + 0xF8, 2, 1⟩
def CH_SFSD_ODU_SD (c : Nat) : Fld := ⟨chBase c + 0xF8, 3, 1⟩
def CH_SFSD_TCM_SF (c : Nat) : Fld := ⟨chBase c + 0xF8, 4, 6⟩
def CH_SFSD_TCM_SD (c : Nat) : Fld := ⟨chBase c + 0xF8, 10, 6⟩
/-- CH.ACC, 0x0FC (06_overhead_defects_pm.md, R124). -/
def CH_ACC_ACC_S1_PT (c : Nat) : Fld := ⟨chBase c + 0xFC, 0, 8⟩
def CH_ACC_ACC_K1 (c : Nat) : Fld := ⟨chBase c + 0xFC, 8, 8⟩
def CH_ACC_ACC_K2 (c : Nat) : Fld := ⟨chBase c + 0xFC, 16, 8⟩
def CH_ACC_TR_ACC (c : Nat) : Fld := ⟨chBase c + 0xFC, 24, 1⟩
/-- CH.MAP_CFG, 0x100 (08_mapping.md, R178). -/
def CH_MAP_CFG_RX_BANK (c : Nat) : Fld := ⟨chBase c + 0x100, 0, 1⟩
def CH_MAP_CFG_TX_BANK (c : Nat) : Fld := ⟨chBase c + 0x100, 1, 1⟩
/-- CH.MAP_STAT, 0x104 (08_mapping.md, R178). -/
def CH_MAP_STAT_RX_IN_FORCE (c : Nat) : Fld := ⟨chBase c + 0x104, 0, 1⟩
def CH_MAP_STAT_TX_IN_FORCE (c : Nat) : Fld := ⟨chBase c + 0x104, 1, 1⟩
def CH_MAP_STAT_RX_FMT_MIS (c : Nat) : Fld := ⟨chBase c + 0x104, 2, 1⟩
def CH_MAP_STAT_TX_FMT_MIS (c : Nat) : Fld := ⟨chBase c + 0x104, 3, 1⟩
def CH_MAP_STAT_CONT_FAULT (c : Nat) : Fld := ⟨chBase c + 0x104, 4, 1⟩
/-- CH.MAP_OCC, 0x108 (08_mapping.md, R178). -/
def CH_MAP_OCC_COUNT (c : Nat) : Fld := ⟨chBase c + 0x108, 0, 16⟩
def CH_MAP_OCC_ACK (c : Nat) : Fld := ⟨chBase c + 0x108, 16, 16⟩
/-- CH.MAP_OCCL, 0x10C (08_mapping.md, R178). -/
def CH_MAP_OCCL_OCC_LOST (c : Nat) : Fld := ⟨chBase c + 0x10C, 0, 1⟩
/-- CH.CL_CFG, 0x110 (08_mapping.md, R178). -/
def CH_CL_CFG_MAPPER (c : Nat) : Fld := ⟨chBase c + 0x110, 0, 2⟩
def CH_CL_CFG_SRC_GRP (c : Nat) : Fld := ⟨chBase c + 0x110, 2, 4⟩
def CH_CL_CFG_SNK_GRP (c : Nat) : Fld := ⟨chBase c + 0x110, 6, 4⟩
def CH_CL_CFG_PFCS (c : Nat) : Fld := ⟨chBase c + 0x110, 10, 1⟩
def CH_CL_CFG_CSF_EN (c : Nat) : Fld := ⟨chBase c + 0x110, 11, 1⟩
/-- CH.CL_STAT, 0x114 (08_mapping.md, R178). -/
def CH_CL_STAT_NO_MAPPER (c : Nat) : Fld := ⟨chBase c + 0x114, 0, 1⟩
def CH_CL_STAT_GFP_LOF (c : Nat) : Fld := ⟨chBase c + 0x114, 1, 1⟩
def CH_CL_STAT_CSF_RX (c : Nat) : Fld := ⟨chBase c + 0x114, 2, 1⟩
def CH_CL_STAT_GRP_FAIL (c : Nat) : Fld := ⟨chBase c + 0x114, 3, 1⟩
def CH_CL_STAT_Q_FULL (c : Nat) : Fld := ⟨chBase c + 0x114, 4, 1⟩
/-- CH.PMC, 0x140 (06_overhead_defects_pm.md, R124). -/
def CH_PMC_COUNT (c i : Nat) : Fld := ⟨chBase c + 0x140 + 4 * i, 0, 32⟩
/-- CH.DEF_HIST, 0x180 (06_overhead_defects_pm.md, R124). -/
def CH_DEF_HIST_HIST (c : Nat) : Fld := ⟨chBase c + 0x180, 0, 18⟩
/-- CH.TCM_HIST, 0x184 (06_overhead_defects_pm.md, R124). -/
def CH_TCM_HIST_HIST (c : Nat) : Fld := ⟨chBase c + 0x184, 0, 24⟩
/-- CH.PM_SAT, 0x188 (06_overhead_defects_pm.md, R124). -/
def CH_PM_SAT_SAT (c : Nat) : Fld := ⟨chBase c + 0x188, 0, 16⟩
/-- CH.CL_CNT, 0x190 (08_mapping.md, R178). -/
def CH_CL_CNT_COUNT (c i : Nat) : Fld := ⟨chBase c + 0x190 + 4 * i, 0, 32⟩
/-- CH.CL_SAT, 0x1A0 (08_mapping.md, R178). -/
def CH_CL_SAT_SAT (c : Nat) : Fld := ⟨chBase c + 0x1A0, 0, 4⟩
/-- CH.EXP_TR, 0x260 (06_overhead_defects_pm.md, R124). -/
def CH_EXP_TR_BYTES (c i : Nat) : Fld := ⟨chBase c + 0x260 + 4 * i, 0, 32⟩
/-- CH.TX_TR, 0x2E0 (06_overhead_defects_pm.md, R124). -/
def CH_TX_TR_BYTES (c i : Nat) : Fld := ⟨chBase c + 0x2E0 + 4 * i, 0, 32⟩
/-- LGS.QCFG, 0x020 (04_lanes_and_discovery.md, R87). -/
def LGS_QCFG_LREF_SEL (n i : Nat) : Fld := ⟨lgBase n + 0xD000 + 0x20 + 4 * i, 0, 2⟩
def LGS_QCFG_TXPLL_LK (n i : Nat) : Fld := ⟨lgBase n + 0xD000 + 0x20 + 4 * i, 2, 1⟩
/-- LGS.LANE_EQ, 0x030 (04_lanes_and_discovery.md, R87). -/
def LGS_LANE_EQ_CTLE (n i : Nat) : Fld := ⟨lgBase n + 0xD000 + 0x30 + 4 * i, 0, 5⟩
def LGS_LANE_EQ_DFE_ON (n i : Nat) : Fld := ⟨lgBase n + 0xD000 + 0x30 + 4 * i, 5, 1⟩
def LGS_LANE_EQ_SLICE (n i : Nat) : Fld := ⟨lgBase n + 0xD000 + 0x30 + 4 * i, 6, 2⟩
def LGS_LANE_EQ_CDR_LK (n i : Nat) : Fld := ⟨lgBase n + 0xD000 + 0x30 + 4 * i, 8, 1⟩
def LGS_LANE_EQ_SIG_DET (n i : Nat) : Fld := ⟨lgBase n + 0xD000 + 0x30 + 4 * i, 9, 1⟩
/-- LGS.EYE_SEL, 0x060 (04_lanes_and_discovery.md, R87). -/
def LGS_EYE_SEL_LANE (n : Nat) : Fld := ⟨lgBase n + 0xD000 + 0x60, 0, 4⟩
def LGS_EYE_SEL_START (n : Nat) : Fld := ⟨lgBase n + 0xD000 + 0x60, 4, 1⟩
/-- LGS.EYE_CTRL, 0x064 (04_lanes_and_discovery.md, R87). -/
def LGS_EYE_CTRL_VALID (n : Nat) : Fld := ⟨lgBase n + 0xD000 + 0x64, 0, 1⟩
def LGS_EYE_CTRL_BUSY (n : Nat) : Fld := ⟨lgBase n + 0xD000 + 0x64, 1, 1⟩
def LGS_EYE_CTRL_LAST_FAILED (n : Nat) : Fld := ⟨lgBase n + 0xD000 + 0x64, 2, 1⟩
def LGS_EYE_CTRL_SEQ (n : Nat) : Fld := ⟨lgBase n + 0xD000 + 0x64, 16, 16⟩
/-- LGS.EYE_VAL, 0x068 (04_lanes_and_discovery.md, R87). -/
def LGS_EYE_VAL_WIDTH (n : Nat) : Fld := ⟨lgBase n + 0xD000 + 0x68, 0, 16⟩
def LGS_EYE_VAL_HEIGHT (n : Nat) : Fld := ⟨lgBase n + 0xD000 + 0x68, 16, 16⟩
/-- LGS.EYE_LANE, 0x06C (04_lanes_and_discovery.md, R87). -/
def LGS_EYE_LANE_LANE (n : Nat) : Fld := ⟨lgBase n + 0xD000 + 0x6C, 0, 4⟩
/-- LGS.LCAL_SEL, 0x080 (18_calibration_fuses.md, R401). -/
def LGS_LCAL_SEL_LANE (n : Nat) : Fld := ⟨lgBase n + 0xD000 + 0x80, 0, 4⟩
def LGS_LCAL_SEL_KIND (n : Nat) : Fld := ⟨lgBase n + 0xD000 + 0x80, 4, 1⟩
/-- LGS.LCAL_CMD, 0x084 (18_calibration_fuses.md, R401). -/
def LGS_LCAL_CMD_RUN (n : Nat) : Fld := ⟨lgBase n + 0xD000 + 0x84, 0, 1⟩
/-- LGS.LCAL_CTRL, 0x088 (18_calibration_fuses.md, R401). -/
def LGS_LCAL_CTRL_VALID (n : Nat) : Fld := ⟨lgBase n + 0xD000 + 0x88, 0, 1⟩
def LGS_LCAL_CTRL_BUSY (n : Nat) : Fld := ⟨lgBase n + 0xD000 + 0x88, 1, 1⟩
def LGS_LCAL_CTRL_LAST_FAILED (n : Nat) : Fld := ⟨lgBase n + 0xD000 + 0x88, 2, 1⟩
def LGS_LCAL_CTRL_SEQ (n : Nat) : Fld := ⟨lgBase n + 0xD000 + 0x88, 16, 16⟩
/-- LGS.LCAL_RES, 0x08C (18_calibration_fuses.md, R401). -/
def LGS_LCAL_RES_CODE (n : Nat) : Fld := ⟨lgBase n + 0xD000 + 0x8C, 0, 8⟩
def LGS_LCAL_RES_LANE (n : Nat) : Fld := ⟨lgBase n + 0xD000 + 0x8C, 8, 4⟩
def LGS_LCAL_RES_KIND (n : Nat) : Fld := ⟨lgBase n + 0xD000 + 0x8C, 12, 1⟩
/-- LGS.LCAL_FIG, 0x090 (18_calibration_fuses.md, R401). -/
def LGS_LCAL_FIG_WIDTH (n : Nat) : Fld := ⟨lgBase n + 0xD000 + 0x90, 0, 16⟩
def LGS_LCAL_FIG_HEIGHT (n : Nat) : Fld := ⟨lgBase n + 0xD000 + 0x90, 16, 16⟩
/-- LGS.LCAL_OCC, 0x094 (18_calibration_fuses.md, R401). -/
def LGS_LCAL_OCC_COUNT (n : Nat) : Fld := ⟨lgBase n + 0xD000 + 0x94, 0, 16⟩
def LGS_LCAL_OCC_ACK (n : Nat) : Fld := ⟨lgBase n + 0xD000 + 0x94, 16, 16⟩
/-- LGS.LCAL_OCCL, 0x098 (18_calibration_fuses.md, R401). -/
def LGS_LCAL_OCCL_OCC_LOST (n : Nat) : Fld := ⟨lgBase n + 0xD000 + 0x98, 0, 1⟩
/-- LGS.LCAL_ST, 0x0A0 (18_calibration_fuses.md, R401). -/
def LGS_LCAL_ST_RX_FLAG (n i : Nat) : Fld := ⟨lgBase n + 0xD000 + 0xA0 + 4 * i, 0, 2⟩
def LGS_LCAL_ST_TS_FLAG (n i : Nat) : Fld := ⟨lgBase n + 0xD000 + 0xA0 + 4 * i, 2, 2⟩
def LGS_LCAL_ST_RX_WIDTH (n i : Nat) : Fld := ⟨lgBase n + 0xD000 + 0xA0 + 4 * i, 16, 16⟩
/-- LGM.SNAP_CFG, 0x020 (06_overhead_defects_pm.md, R125). -/
def LGM_SNAP_CFG_CLR_ON_SNAP (n : Nat) : Fld := ⟨lgBase n + 0xE000 + 0x20, 0, 1⟩
/-- LGM.PW_SEL, 0x024 (06_overhead_defects_pm.md, R125). -/
def LGM_PW_SEL_CH (n : Nat) : Fld := ⟨lgBase n + 0xE000 + 0x24, 0, 4⟩
def LGM_PW_SEL_IDX (n : Nat) : Fld := ⟨lgBase n + 0xE000 + 0x24, 4, 11⟩
def LGM_PW_SEL_TRIB (n : Nat) : Fld := ⟨lgBase n + 0xE000 + 0x24, 15, 5⟩
def LGM_PW_SEL_SRC (n : Nat) : Fld := ⟨lgBase n + 0xE000 + 0x24, 20, 1⟩
/-- LGM.PW_CMD, 0x028 (06_overhead_defects_pm.md, R125). -/
def LGM_PW_CMD_READ (n : Nat) : Fld := ⟨lgBase n + 0xE000 + 0x28, 0, 1⟩
def LGM_PW_CMD_WRITE (n : Nat) : Fld := ⟨lgBase n + 0xE000 + 0x28, 1, 1⟩
/-- LGM.PW_CTRL, 0x02C (06_overhead_defects_pm.md, R125). -/
def LGM_PW_CTRL_VALID (n : Nat) : Fld := ⟨lgBase n + 0xE000 + 0x2C, 0, 1⟩
def LGM_PW_CTRL_BUSY (n : Nat) : Fld := ⟨lgBase n + 0xE000 + 0x2C, 1, 1⟩
def LGM_PW_CTRL_LAST_FAILED (n : Nat) : Fld := ⟨lgBase n + 0xE000 + 0x2C, 2, 1⟩
def LGM_PW_CTRL_SEQ (n : Nat) : Fld := ⟨lgBase n + 0xE000 + 0x2C, 16, 16⟩
/-- LGM.PW_CODE, 0x030 (06_overhead_defects_pm.md, R125). -/
def LGM_PW_CODE_CODE (n : Nat) : Fld := ⟨lgBase n + 0xE000 + 0x30, 0, 8⟩
/-- LGM.TM_SEL, 0x034 (06_overhead_defects_pm.md, R125). -/
def LGM_TM_SEL_KIND (n : Nat) : Fld := ⟨lgBase n + 0xE000 + 0x34, 0, 1⟩
def LGM_TM_SEL_NUM (n : Nat) : Fld := ⟨lgBase n + 0xE000 + 0x34, 1, 8⟩
def LGM_TM_SEL_SRC (n : Nat) : Fld := ⟨lgBase n + 0xE000 + 0x34, 9, 1⟩
/-- LGM.TM_CMD, 0x038 (06_overhead_defects_pm.md, R125). -/
def LGM_TM_CMD_READ (n : Nat) : Fld := ⟨lgBase n + 0xE000 + 0x38, 0, 1⟩
def LGM_TM_CMD_WRITE (n : Nat) : Fld := ⟨lgBase n + 0xE000 + 0x38, 1, 1⟩
/-- LGM.TM_CTRL, 0x03C (06_overhead_defects_pm.md, R125). -/
def LGM_TM_CTRL_VALID (n : Nat) : Fld := ⟨lgBase n + 0xE000 + 0x3C, 0, 1⟩
def LGM_TM_CTRL_BUSY (n : Nat) : Fld := ⟨lgBase n + 0xE000 + 0x3C, 1, 1⟩
def LGM_TM_CTRL_LAST_FAILED (n : Nat) : Fld := ⟨lgBase n + 0xE000 + 0x3C, 2, 1⟩
def LGM_TM_CTRL_SEQ (n : Nat) : Fld := ⟨lgBase n + 0xE000 + 0x3C, 16, 16⟩
/-- LGM.TM_CODE, 0x040 (06_overhead_defects_pm.md, R125). -/
def LGM_TM_CODE_CODE (n : Nat) : Fld := ⟨lgBase n + 0xE000 + 0x40, 0, 8⟩
/-- LGM.OHB_LATE_OCC, 0x050 (06_overhead_defects_pm.md, R125). -/
def LGM_OHB_LATE_OCC_COUNT (n : Nat) : Fld := ⟨lgBase n + 0xE000 + 0x50, 0, 16⟩
def LGM_OHB_LATE_OCC_ACK (n : Nat) : Fld := ⟨lgBase n + 0xE000 + 0x50, 16, 16⟩
/-- LGM.OHB_OVR_OCC, 0x054 (06_overhead_defects_pm.md, R125). -/
def LGM_OHB_OVR_OCC_COUNT (n : Nat) : Fld := ⟨lgBase n + 0xE000 + 0x54, 0, 16⟩
def LGM_OHB_OVR_OCC_ACK (n : Nat) : Fld := ⟨lgBase n + 0xE000 + 0x54, 16, 16⟩
/-- LGM.OHB_OCCL, 0x058 (06_overhead_defects_pm.md, R125). -/
def LGM_OHB_OCCL_OCC_LOST (n : Nat) : Fld := ⟨lgBase n + 0xE000 + 0x58, 0, 2⟩
/-- LGM.PW_D, 0x080 (06_overhead_defects_pm.md, R125). -/
def LGM_PW_D_DATA (n i : Nat) : Fld := ⟨lgBase n + 0xE000 + 0x80 + 4 * i, 0, 32⟩
/-- LGM.TM_D, 0x150 (06_overhead_defects_pm.md, R125). -/
def LGM_TM_D_DATA (n i : Nat) : Fld := ⟨lgBase n + 0xE000 + 0x150 + 4 * i, 0, 32⟩
/-- LGP.SW_SEL, 0x020 (09_protection_hitless.md, R207). -/
def LGP_SW_SEL_IDX (n : Nat) : Fld := ⟨lgBase n + 0xF000 + 0x20, 0, 8⟩
def LGP_SW_SEL_SRC (n : Nat) : Fld := ⟨lgBase n + 0xF000 + 0x20, 8, 1⟩
/-- LGP.SW_CMD, 0x024 (09_protection_hitless.md, R207). -/
def LGP_SW_CMD_READ (n : Nat) : Fld := ⟨lgBase n + 0xF000 + 0x24, 0, 1⟩
def LGP_SW_CMD_WRITE (n : Nat) : Fld := ⟨lgBase n + 0xF000 + 0x24, 1, 1⟩
/-- LGP.SW_CTRL, 0x028 (09_protection_hitless.md, R207). -/
def LGP_SW_CTRL_VALID (n : Nat) : Fld := ⟨lgBase n + 0xF000 + 0x28, 0, 1⟩
def LGP_SW_CTRL_BUSY (n : Nat) : Fld := ⟨lgBase n + 0xF000 + 0x28, 1, 1⟩
def LGP_SW_CTRL_LAST_FAILED (n : Nat) : Fld := ⟨lgBase n + 0xF000 + 0x28, 2, 1⟩
def LGP_SW_CTRL_SEQ (n : Nat) : Fld := ⟨lgBase n + 0xF000 + 0x28, 16, 16⟩
/-- LGP.SW_CODE, 0x02C (09_protection_hitless.md, R207). -/
def LGP_SW_CODE_CODE (n : Nat) : Fld := ⟨lgBase n + 0xF000 + 0x2C, 0, 8⟩
/-- LGP.TAG_EXP, 0x030 (09_protection_hitless.md, R207). -/
def LGP_TAG_EXP_EXP (n : Nat) : Fld := ⟨lgBase n + 0xF000 + 0x30, 0, 12⟩
/-- LGP.SWITCH_OCC, 0x040 (09_protection_hitless.md, R207). -/
def LGP_SWITCH_OCC_COUNT (n : Nat) : Fld := ⟨lgBase n + 0xF000 + 0x40, 0, 16⟩
def LGP_SWITCH_OCC_ACK (n : Nat) : Fld := ⟨lgBase n + 0xF000 + 0x40, 16, 16⟩
/-- LGP.DSTEP_OCC, 0x044 (09_protection_hitless.md, R207). -/
def LGP_DSTEP_OCC_COUNT (n : Nat) : Fld := ⟨lgBase n + 0xF000 + 0x44, 0, 16⟩
def LGP_DSTEP_OCC_ACK (n : Nat) : Fld := ⟨lgBase n + 0xF000 + 0x44, 16, 16⟩
/-- LGP.REALIGN_OCC, 0x048 (09_protection_hitless.md, R207). -/
def LGP_REALIGN_OCC_COUNT (n : Nat) : Fld := ⟨lgBase n + 0xF000 + 0x48, 0, 16⟩
def LGP_REALIGN_OCC_ACK (n : Nat) : Fld := ⟨lgBase n + 0xF000 + 0x48, 16, 16⟩
/-- LGP.HLOST_OCC, 0x04C (09_protection_hitless.md, R207). -/
def LGP_HLOST_OCC_COUNT (n : Nat) : Fld := ⟨lgBase n + 0xF000 + 0x4C, 0, 16⟩
def LGP_HLOST_OCC_ACK (n : Nat) : Fld := ⟨lgBase n + 0xF000 + 0x4C, 16, 16⟩
/-- LGP.OCCL, 0x050 (09_protection_hitless.md, R207). -/
def LGP_OCCL_OCC_LOST (n : Nat) : Fld := ⟨lgBase n + 0xF000 + 0x50, 0, 4⟩
/-- LGP.DSTEP_LAST, 0x054 (09_protection_hitless.md, R207). -/
def LGP_DSTEP_LAST_SEL (n : Nat) : Fld := ⟨lgBase n + 0xF000 + 0x54, 0, 8⟩
/-- LGP.DEP_KEY, 0x080 (09_protection_hitless.md, R207). -/
def LGP_DEP_KEY_KEY (n i : Nat) : Fld := ⟨lgBase n + 0xF000 + 0x80 + 8 * i, 0, 15⟩
def LGP_DEP_KEY_VALID (n i : Nat) : Fld := ⟨lgBase n + 0xF000 + 0x80 + 8 * i, 15, 1⟩
/-- LGP.DEP_TS, 0x084 (09_protection_hitless.md, R207). -/
def LGP_DEP_TS_TS (n i : Nat) : Fld := ⟨lgBase n + 0xF000 + 0x84 + 8 * i, 0, 32⟩
/-- LGP.SW_D, 0x100 (09_protection_hitless.md, R207). -/
def LGP_SW_D_DATA (n i : Nat) : Fld := ⟨lgBase n + 0xF000 + 0x100 + 4 * i, 0, 32⟩
/-- FE.STAT, 0x020 (11_fuller_engines.md, R265). -/
def FE_STAT_STATE (e : Nat) : Fld := ⟨0x200000 + 0x1000 * e + 0x20, 0, 2⟩
def FE_STAT_ACT_BANK (e : Nat) : Fld := ⟨0x200000 + 0x1000 * e + 0x20, 2, 1⟩
def FE_STAT_VALID0 (e : Nat) : Fld := ⟨0x200000 + 0x1000 * e + 0x20, 3, 1⟩
def FE_STAT_VALID1 (e : Nat) : Fld := ⟨0x200000 + 0x1000 * e + 0x20, 4, 1⟩
def FE_STAT_SWAP_PEND (e : Nat) : Fld := ⟨0x200000 + 0x1000 * e + 0x20, 5, 1⟩
def FE_STAT_OUTST (e : Nat) : Fld := ⟨0x200000 + 0x1000 * e + 0x20, 8, 4⟩
/-- FE.CTL, 0x024 (11_fuller_engines.md, R265). -/
def FE_CTL_IWIN (e : Nat) : Fld := ⟨0x200000 + 0x1000 * e + 0x24, 0, 1⟩
def FE_CTL_OWN (e : Nat) : Fld := ⟨0x200000 + 0x1000 * e + 0x24, 1, 12⟩
def FE_CTL_WDOG_FR (e : Nat) : Fld := ⟨0x200000 + 0x1000 * e + 0x24, 13, 8⟩
/-- FE.BANK_SEL, 0x028 (11_fuller_engines.md, R265). -/
def FE_BANK_SEL_BANK (e : Nat) : Fld := ⟨0x200000 + 0x1000 * e + 0x28, 0, 1⟩
/-- FE.CMD, 0x02C (11_fuller_engines.md, R265). -/
def FE_CMD_START (e : Nat) : Fld := ⟨0x200000 + 0x1000 * e + 0x2C, 0, 1⟩
def FE_CMD_STOP (e : Nat) : Fld := ⟨0x200000 + 0x1000 * e + 0x2C, 1, 1⟩
def FE_CMD_CHECK (e : Nat) : Fld := ⟨0x200000 + 0x1000 * e + 0x2C, 2, 1⟩
/-- FE.CMD_CTRL, 0x030 (11_fuller_engines.md, R265). -/
def FE_CMD_CTRL_VALID (e : Nat) : Fld := ⟨0x200000 + 0x1000 * e + 0x30, 0, 1⟩
def FE_CMD_CTRL_BUSY (e : Nat) : Fld := ⟨0x200000 + 0x1000 * e + 0x30, 1, 1⟩
def FE_CMD_CTRL_LAST_FAILED (e : Nat) : Fld := ⟨0x200000 + 0x1000 * e + 0x30, 2, 1⟩
def FE_CMD_CTRL_SEQ (e : Nat) : Fld := ⟨0x200000 + 0x1000 * e + 0x30, 16, 16⟩
/-- FE.CMD_CODE, 0x034 (11_fuller_engines.md, R265). -/
def FE_CMD_CODE_CODE (e : Nat) : Fld := ⟨0x200000 + 0x1000 * e + 0x34, 0, 8⟩
def FE_CMD_CODE_CMD (e : Nat) : Fld := ⟨0x200000 + 0x1000 * e + 0x34, 8, 2⟩
/-- FE.IDLE_CRC, 0x038 (11_fuller_engines.md, R265). -/
def FE_IDLE_CRC_CRC (e : Nat) : Fld := ⟨0x200000 + 0x1000 * e + 0x38, 0, 32⟩
/-- FE.ACT_CRC, 0x03C (11_fuller_engines.md, R265). -/
def FE_ACT_CRC_CRC (e : Nat) : Fld := ⟨0x200000 + 0x1000 * e + 0x3C, 0, 32⟩
/-- FE.FAULT, 0x040 (11_fuller_engines.md, R265). -/
def FE_FAULT_CAUSE (e : Nat) : Fld := ⟨0x200000 + 0x1000 * e + 0x40, 0, 4⟩
/-- FE.FAULT_PC, 0x044 (11_fuller_engines.md, R265). -/
def FE_FAULT_PC_PC (e : Nat) : Fld := ⟨0x200000 + 0x1000 * e + 0x44, 0, 32⟩
/-- FE.PC, 0x048 (11_fuller_engines.md, R265). -/
def FE_PC_PC (e : Nat) : Fld := ⟨0x200000 + 0x1000 * e + 0x48, 0, 32⟩
/-- FE.EVPEND, 0x04C (11_fuller_engines.md, R265). -/
def FE_EVPEND_EV (e : Nat) : Fld := ⟨0x200000 + 0x1000 * e + 0x4C, 0, 8⟩
/-- FE.FAULT_OCC, 0x050 (11_fuller_engines.md, R265). -/
def FE_FAULT_OCC_COUNT (e : Nat) : Fld := ⟨0x200000 + 0x1000 * e + 0x50, 0, 16⟩
def FE_FAULT_OCC_ACK (e : Nat) : Fld := ⟨0x200000 + 0x1000 * e + 0x50, 16, 16⟩
/-- FE.BERR_OCC, 0x054 (11_fuller_engines.md, R265). -/
def FE_BERR_OCC_COUNT (e : Nat) : Fld := ⟨0x200000 + 0x1000 * e + 0x54, 0, 16⟩
def FE_BERR_OCC_ACK (e : Nat) : Fld := ⟨0x200000 + 0x1000 * e + 0x54, 16, 16⟩
/-- FE.MBX_OVR_OCC, 0x058 (11_fuller_engines.md, R265). -/
def FE_MBX_OVR_OCC_COUNT (e : Nat) : Fld := ⟨0x200000 + 0x1000 * e + 0x58, 0, 16⟩
def FE_MBX_OVR_OCC_ACK (e : Nat) : Fld := ⟨0x200000 + 0x1000 * e + 0x58, 16, 16⟩
/-- FE.ECC_OCC, 0x05C (11_fuller_engines.md, R265). -/
def FE_ECC_OCC_COUNT (e : Nat) : Fld := ⟨0x200000 + 0x1000 * e + 0x5C, 0, 16⟩
def FE_ECC_OCC_ACK (e : Nat) : Fld := ⟨0x200000 + 0x1000 * e + 0x5C, 16, 16⟩
/-- FE.OCCL, 0x060 (11_fuller_engines.md, R265). -/
def FE_OCCL_OCC_LOST (e : Nat) : Fld := ⟨0x200000 + 0x1000 * e + 0x60, 0, 4⟩
/-- FE.BERR_ADDR, 0x064 (11_fuller_engines.md, R265). -/
def FE_BERR_ADDR_ADDR (e : Nat) : Fld := ⟨0x200000 + 0x1000 * e + 0x64, 0, 32⟩
/-- FE.H_IN_D, 0x080 (11_fuller_engines.md, R265). -/
def FE_H_IN_D_DATA (e i : Nat) : Fld := ⟨0x200000 + 0x1000 * e + 0x80 + 4 * i, 0, 32⟩
/-- FE.H_IN_DB, 0x0C0 (11_fuller_engines.md, R265). -/
def FE_H_IN_DB_SEQ (e : Nat) : Fld := ⟨0x200000 + 0x1000 * e + 0xC0, 0, 16⟩
/-- FE.H_IN_ACK, 0x0C4 (11_fuller_engines.md, R265). -/
def FE_H_IN_ACK_ACK (e : Nat) : Fld := ⟨0x200000 + 0x1000 * e + 0xC4, 0, 16⟩
/-- FE.H_OUT_D, 0x0C8 (11_fuller_engines.md, R265). -/
def FE_H_OUT_D_DATA (e i : Nat) : Fld := ⟨0x200000 + 0x1000 * e + 0xC8 + 4 * i, 0, 32⟩
/-- FE.H_OUT_DB, 0x108 (11_fuller_engines.md, R265). -/
def FE_H_OUT_DB_SEQ (e : Nat) : Fld := ⟨0x200000 + 0x1000 * e + 0x108, 0, 16⟩
/-- FE.H_OUT_ACK, 0x10C (11_fuller_engines.md, R265). -/
def FE_H_OUT_ACK_ACK (e : Nat) : Fld := ⟨0x200000 + 0x1000 * e + 0x10C, 0, 16⟩

end Sys2Proof.Machine
end

