-- ==== Sys2Proof/Machine/RegMap.lean ====
section
/-!
DEFINITION. What kind of register stands at each offset of each page: reset value and, per access type of Table 2-5 (R29),
the mask of the bits that have it. `imm` are the bits that take effect immediately (R37, Table 2-8 and the fields marked
"Immediate"), `ing` the ingress-side channel bits (R36); every other configuration bit takes effect at the next system frame.
-/

namespace Sys2Proof.Machine

/-- The page layouts of the BAR 0 map (R28). -/
inductive PageKind where
  | dev | pwr | clk | tb | plk | jnl | irq | bmx | htr | ic | bat | mem | twn | grp | glv | gp | tpt | pnc | cal | mon | prf
  | inj | lgc | ch | lgs | lgm | lgp | fe
  deriving DecidableEq, Repr

/-- One row of a register table: `n` registers from offset `off`, `stride` bytes apart. -/
structure RegDesc where
  off : Nat
  n : Nat
  stride : Nat
  reset : Nat
  rw : Nat
  rwh : Nat
  rws : Nat
  lck : Nat
  cmd : Nat
  imm : Nat
  ing : Nat
  banked : Bool
  held : Bool
  deriving DecidableEq, Repr

/-- The register table of the common page header and trailer (Tables 2-2 and 2-3). -/
def descHeader : List RegDesc :=
  [⟨0x0, 1, 4, 0x0, 0x0, 0x0, 0x0, 0x0, 0x0, 0x0, 0x0, false, false⟩,
   ⟨0x4, 1, 4, 0x0, 0x0, 0x0, 0x0, 0x0, 0x0, 0x0, 0x0, false, false⟩,
   ⟨0x8, 1, 4, 0x0, 0x0, 0x0, 0x0, 0x0, 0x0, 0x0, 0x0, false, false⟩,
   ⟨0xC, 1, 4, 0x0, 0x0, 0x0, 0x0, 0x0, 0x0, 0x0, 0x0, false, false⟩,
   ⟨0x10, 1, 4, 0x0, 0x0, 0x0, 0x0, 0x0, 0x0, 0x0, 0x0, false, false⟩,
   ⟨0x14, 1, 4, 0x0, 0x0, 0x0, 0x0, 0x1, 0x0, 0x1, 0x0, false, false⟩,
   ⟨0x18, 1, 4, 0x0, 0x4, 0x0, 0x0, 0x0, 0x0, 0x4, 0x0, false, false⟩,
   ⟨0x1C, 1, 4, 0x0, 0x0, 0x0, 0x0, 0x0, 0x3, 0x3, 0x0, false, false⟩,
   ⟨0x3E0, 1, 4, 0x0, 0xFFFF0000, 0x0, 0x0, 0x0, 0x0, 0xFFFF0000, 0x0, false, false⟩,
   ⟨0x3E4, 1, 4, 0x0, 0xFFFF0000, 0x0, 0x0, 0x0, 0x0, 0xFFFF0000, 0x0, false, false⟩,
   ⟨0x3E8, 1, 4, 0x0, 0xFFFF0000, 0x0, 0x0, 0x0, 0x0, 0xFFFF0000, 0x0, false, false⟩,
   ⟨0x3EC, 1, 4, 0x0, 0xFFFF0000, 0x0, 0x0, 0x0, 0x0, 0xFFFF0000, 0x0, false, false⟩,
   ⟨0x3F0, 1, 4, 0x0, 0x0, 0x0, 0x0, 0x0, 0x0, 0x0, 0x0, false, false⟩,
   ⟨0x3F4, 1, 4, 0x0, 0x0, 0x0, 0x0, 0x0, 0x0, 0x0, 0x0, false, false⟩,
   ⟨0x3F8, 1, 4, 0x0, 0x0, 0x0, 0x0, 0x0, 0x0, 0x0, 0x0, false, false⟩]

/-- The register table of page DEV. -/
def descDev : List RegDesc :=
  [⟨0x20, 1, 4, 0x0, 0x0, 0x0, 0x0, 0x0, 0x0, 0x0, 0x0, false, false⟩,
   ⟨0x24, 1, 4, 0x0, 0x0, 0x0, 0x0, 0x0, 0xF, 0xF, 0x0, false, false⟩,
   ⟨0x28, 1, 4, 0x0, 0x0, 0x0, 0x0, 0x0, 0x0, 0x0, 0x0, false, false⟩,
   ⟨0x2C, 1, 4, 0x0, 0x0, 0x0, 0x0, 0x0, 0x0, 0x0, 0x0, false, false⟩,
   ⟨0x30, 1, 4, 0x0, 0x0, 0x0, 0x0, 0x0, 0x0, 0x0, 0x0, false, false⟩,
   ⟨0x34, 1, 4, 0x700, 0x0, 0x0, 0x0, 0x0, 0x0, 0x0, 0x0, false, false⟩,
   ⟨0x38, 1, 4, 0x0, 0x1, 0x0, 0x0, 0x0, 0x0, 0x0, 0x0, false, false⟩,
   ⟨0x40, 1, 4, 0x0, 0x0, 0x0, 0x0, 0x0, 0x1, 0x1, 0x0, false, false⟩,
   ⟨0x44, 1, 4, 0x0, 0x0, 0x0, 0x0, 0x0, 0x0, 0x0, 0x0, false, false⟩,
   ⟨0x48, 1, 4, 0x0, 0x0, 0x0, 0x0, 0x0, 0x0, 0x0, 0x0, false, false⟩,
   ⟨0x60, 1, 4, 0x0, 0x0, 0x0, 0x0, 0x0, 0x0, 0x0, 0x0, false, false⟩,
   ⟨0x64, 1, 4, 0x0, 0x0, 0x0, 0x0, 0x0, 0x0, 0x0, 0x0, false, false⟩,
   ⟨0x68, 1, 4, 0x0, 0x0, 0x0, 0x0, 0x0, 0x0, 0x0, 0x0, false, false⟩,
   ⟨0x6C, 1, 4, 0x0, 0x0, 0x0, 0x0, 0x0, 0x0, 0x0, 0x0, false, false⟩,
   ⟨0x70, 1, 4, 0x0, 0x0, 0x0, 0x0, 0x0, 0x0, 0x0, 0x0, false, false⟩,
   ⟨0x74, 1, 4, 0x0, 0x0, 0x0, 0x0, 0x0, 0x0, 0x0, 0x0, false, false⟩]

/-- The register table of page PWR. -/
def descPwr : List RegDesc :=
  [⟨0x20, 1, 4, 0x0, 0x0, 0x0, 0x0, 0x0, 0x0, 0x0, 0x0, false, false⟩,
   ⟨0x24, 1, 4, 0x0, 0x0, 0x0, 0x0, 0x0, 0x0, 0x0, 0x0, false, false⟩,
   ⟨0x28, 1, 4, 0x0, 0x0, 0x0, 0x0, 0x0, 0x0, 0x0, 0x0, false, false⟩,
   ⟨0x2C, 1, 4, 0x19000, 0x3FC00, 0x0, 0x0, 0x0, 0x0, 0x0, 0x0, false, false⟩,
   ⟨0x40, 16, 4, 0x0, 0x0, 0x0, 0x0, 0x0, 0x0, 0x0, 0x0, false, false⟩,
   ⟨0x80, 1, 4, 0x0, 0x0, 0x0, 0x0, 0x0, 0x0, 0x0, 0x0, false, false⟩,
   ⟨0x84, 1, 4, 0x0, 0xFFFF0000, 0x0, 0x0, 0x0, 0x0, 0xFFFF0000, 0x0, false, false⟩,
   ⟨0x88, 1, 4, 0x0, 0xFFFF0000, 0x0, 0x0, 0x0, 0x0, 0xFFFF0000, 0x0, false, false⟩,
   ⟨0x8C, 1, 4, 0x0, 0x0, 0x0, 0x0, 0x0, 0x0, 0x0, 0x0, false, false⟩]

/-- The register table of page CLK. -/
def descClk : List RegDesc :=
  [⟨0x20, 1, 4, 0x0, 0x0, 0x0, 0x0, 0x80000007, 0x0, 0x80000007, 0x0, false, false⟩,
   ⟨0x24, 1, 4, 0x0, 0x0, 0x0, 0x0, 0x0, 0x0, 0x0, 0x0, false, false⟩,
   ⟨0x28, 1, 4, 0x0, 0x0, 0x0, 0x0, 0x0, 0x0, 0x0, 0x0, false, false⟩,
   ⟨0x2C, 1, 4, 0x0, 0x0, 0x0, 0x0, 0x0, 0x0, 0x0, 0x0, false, false⟩,
   ⟨0x30, 1, 4, 0x0, 0xFFFF0000, 0x0, 0x0, 0x0, 0x0, 0xFFFF0000, 0x0, false, false⟩,
   ⟨0x34, 1, 4, 0x0, 0x0, 0x0, 0x0, 0x0, 0x0, 0x0, 0x0, false, false⟩,
   ⟨0x40, 1, 4, 0x0, 0xFFFF0000, 0x0, 0x0, 0x0, 0x0, 0xFFFF0000, 0x0, false, false⟩,
   ⟨0x44, 1, 4, 0x0, 0x0, 0x0, 0x0, 0x0, 0x0, 0x0, 0x0, false, false⟩]

/-- The register table of page TB. -/
def descTb : List RegDesc :=
  [⟨0x20, 1, 4, 0x0, 0x0, 0x0, 0x0, 0x0, 0x0, 0x0, 0x0, false, false⟩,
   ⟨0x24, 1, 4, 0x4, 0xFF, 0x0, 0x0, 0x0, 0x0, 0xFF, 0x0, false, false⟩,
   ⟨0x28, 1, 4, 0x0, 0x0, 0x0, 0x0, 0x0, 0x0, 0x0, 0x0, true, false⟩,
   ⟨0x2C, 1, 4, 0x0, 0x0, 0x0, 0x0, 0x0, 0x0, 0x0, 0x0, true, false⟩,
   ⟨0x30, 1, 4, 0x0, 0x0, 0x0, 0x0, 0x0, 0x0, 0x0, 0x0, true, false⟩,
   ⟨0x38, 1, 4, 0x0, 0xFFFFFFFF, 0x0, 0x0, 0x0, 0x0, 0xFFFFFFFF, 0x0, false, false⟩,
   ⟨0x3C, 1, 4, 0x2, 0xF, 0x0, 0x0, 0x0, 0x0, 0xF, 0x0, false, false⟩,
   ⟨0x40, 1, 4, 0x0, 0x0, 0x0, 0x0, 0x0, 0x0, 0x0, 0x0, false, false⟩,
   ⟨0x44, 1, 4, 0x0, 0x3FFFFFFF, 0x0, 0x0, 0x0, 0x0, 0x3FFFFFFF, 0x0, false, false⟩,
   ⟨0x48, 1, 4, 0x0, 0xFFFFFFFF, 0x0, 0x0, 0x0, 0x0, 0xFFFFFFFF, 0x0, false, false⟩,
   ⟨0x4C, 1, 4, 0x0, 0xFFFF, 0x0, 0x0, 0x0, 0x0, 0xFFFF, 0x0, false, false⟩,
   ⟨0x50, 1, 4, 0x0, 0x0, 0x0, 0x0, 0x0, 0x1, 0x1, 0x0, false, false⟩,
   ⟨0x60, 1, 4, 0x0, 0xFFF3, 0x0, 0x0, 0x0, 0x0, 0xFFF3, 0x0, false, false⟩,
   ⟨0x64, 1, 4, 0x0, 0x0, 0x0, 0x0, 0x0, 0x0, 0x0, 0x0, false, false⟩,
   ⟨0x68, 1, 4, 0x0, 0x0, 0x0, 0x0, 0x0, 0x0, 0x0, 0x0, false, false⟩,
   ⟨0x6C, 1, 4, 0x0, 0x0, 0x0, 0x0, 0x0, 0x0, 0x0, 0x0, false, false⟩] ++
  [⟨0x70, 1, 4, 0x0, 0x0, 0x0, 0x0, 0x0, 0x0, 0x0, 0x0, false, false⟩,
   ⟨0x74, 1, 4, 0x0, 0xFFFF0000, 0x0, 0x0, 0x0, 0x0, 0xFFFF0000, 0x0, false, false⟩,
   ⟨0x78, 1, 4, 0x0, 0x0, 0x0, 0x0, 0x0, 0x0, 0x0, 0x0, false, false⟩,
   ⟨0x80, 4, 4, 0x1FF, 0x0, 0x0, 0x0, 0x0, 0x0, 0x0, 0x0, false, false⟩,
   ⟨0x90, 1, 4, 0x4, 0x3FFFFFFF, 0x0, 0x0, 0x0, 0x0, 0x3FFFFFFF, 0x0, false, false⟩,
   ⟨0x94, 1, 4, 0x0, 0x0, 0x0, 0x0, 0x0, 0x1, 0x1, 0x0, false, false⟩,
   ⟨0x98, 1, 4, 0x0, 0x0, 0x0, 0x0, 0x0, 0x0, 0x0, 0x0, false, false⟩,
   ⟨0x9C, 1, 4, 0x0, 0x0, 0x0, 0x0, 0x0, 0x0, 0x0, 0x0, false, false⟩,
   ⟨0xA0, 1, 4, 0x0, 0x0, 0x0, 0x0, 0x0, 0x0, 0x0, 0x0, false, false⟩,
   ⟨0xA4, 1, 4, 0x0, 0x0, 0x0, 0x0, 0x0, 0x0, 0x0, 0x0, false, false⟩,
   ⟨0xA8, 1, 4, 0x0, 0x0, 0x0, 0x0, 0x0, 0x0, 0x0, 0x0, false, false⟩,
   ⟨0xAC, 1, 4, 0x0, 0x0, 0x0, 0x0, 0x0, 0x0, 0x0, 0x0, false, false⟩,
   ⟨0xC0, 16, 4, 0x0, 0xFFFFFFFF, 0x0, 0x0, 0x0, 0x0, 0xFFFFFFFF, 0x0, false, false⟩,
   ⟨0x100, 16, 4, 0x0, 0x0, 0x0, 0x0, 0x0, 0x0, 0x0, 0x0, false, false⟩,
   ⟨0x140, 1, 4, 0x0, 0x3FF, 0x0, 0x0, 0x0, 0x0, 0x3FF, 0x0, true, false⟩,
   ⟨0x144, 1, 4, 0x0, 0x1F, 0x0, 0x0, 0x0, 0x0, 0x0, 0x0, true, false⟩] ++
  [⟨0x148, 1, 4, 0x0, 0x0, 0x0, 0x0, 0x0, 0x0, 0x0, 0x0, true, false⟩,
   ⟨0x14C, 1, 4, 0x0, 0x0, 0x0, 0x0, 0x0, 0x0, 0x0, 0x0, true, false⟩,
   ⟨0x150, 1, 4, 0x0, 0x0, 0x0, 0x0, 0x0, 0x3, 0x3, 0x0, true, false⟩,
   ⟨0x154, 1, 4, 0x0, 0x0, 0x0, 0x0, 0x0, 0x0, 0x0, 0x0, true, false⟩,
   ⟨0x158, 1, 4, 0x0, 0xFFFF0000, 0x0, 0x0, 0x0, 0x0, 0xFFFF0000, 0x0, true, false⟩,
   ⟨0x15C, 1, 4, 0x0, 0x0, 0x0, 0x0, 0x0, 0x0, 0x0, 0x0, true, false⟩,
   ⟨0x160, 4, 4, 0x0, 0x0, 0x0, 0x0, 0x0, 0x0, 0x0, 0x0, true, false⟩,
   ⟨0x170, 4, 4, 0x0, 0x0, 0x0, 0x0, 0x0, 0x0, 0x0, 0x0, true, false⟩,
   ⟨0x180, 1, 4, 0x0, 0x7, 0x0, 0x0, 0x0, 0x0, 0x7, 0x0, true, false⟩,
   ⟨0x184, 1, 4, 0x6, 0xF, 0x0, 0x0, 0x0, 0x0, 0xF, 0x0, true, false⟩,
   ⟨0x188, 1, 4, 0x0, 0x0, 0x0, 0x0, 0x0, 0x0, 0x0, 0x0, true, false⟩,
   ⟨0x18C, 1, 4, 0x0, 0x0, 0x0, 0x0, 0x0, 0x0, 0x0, 0x0, true, false⟩,
   ⟨0x190, 1, 4, 0x0, 0x0, 0x0, 0x0, 0x0, 0x0, 0x0, 0x0, true, false⟩,
   ⟨0x194, 1, 4, 0x0, 0x0, 0x0, 0x0, 0x0, 0x0, 0x0, 0x0, true, false⟩,
   ⟨0x198, 1, 4, 0x0, 0x0, 0x0, 0x0, 0x0, 0x0, 0x0, 0x0, true, false⟩]

/-- The register table of page PLK. -/
def descPlk : List RegDesc :=
  [⟨0x20, 1, 4, 0x0, 0x0, 0x0, 0x0, 0x0, 0x0, 0x0, 0x0, false, false⟩,
   ⟨0x24, 1, 4, 0x1000040, 0x0, 0x0, 0x0, 0x0, 0x0, 0x0, 0x0, false, false⟩,
   ⟨0x28, 1, 4, 0x0, 0x3FFFFFFF, 0x0, 0x0, 0x0, 0x0, 0x3FFFFFFF, 0x0, true, false⟩,
   ⟨0x2C, 1, 4, 0x0, 0xFFFFFFFF, 0x0, 0x0, 0x0, 0x0, 0xFFFFFFFF, 0x0, true, false⟩,
   ⟨0x30, 1, 4, 0x0, 0xFFFF07FF, 0x0, 0x0, 0x0, 0x0, 0xFFFF07FF, 0x0, true, false⟩,
   ⟨0x34, 1, 4, 0x0, 0xFF, 0x0, 0x0, 0x0, 0x0, 0xFF, 0x0, true, false⟩,
   ⟨0x38, 1, 4, 0x0, 0xFFFFFFFF, 0x0, 0x0, 0x0, 0x0, 0xFFFFFFFF, 0x0, true, false⟩,
   ⟨0x3C, 1, 4, 0x0, 0xFFFFFFFF, 0x0, 0x0, 0x0, 0x0, 0xFFFFFFFF, 0x0, true, false⟩,
   ⟨0x40, 1, 4, 0x0, 0x0, 0x0, 0x0, 0x0, 0x7, 0x7, 0x0, true, false⟩,
   ⟨0x44, 1, 4, 0x0, 0xFFFFFFFF, 0x0, 0x0, 0x0, 0x0, 0xFFFFFFFF, 0x0, true, false⟩,
   ⟨0x50, 1, 4, 0x0, 0x0, 0x0, 0x0, 0x0, 0x0, 0x0, 0x0, true, false⟩,
   ⟨0x54, 1, 4, 0x0, 0x0, 0x0, 0x0, 0x0, 0x0, 0x0, 0x0, true, false⟩,
   ⟨0x58, 1, 4, 0x0, 0x0, 0x0, 0x0, 0x0, 0x0, 0x0, 0x0, true, false⟩,
   ⟨0x5C, 1, 4, 0x0, 0x0, 0x0, 0x0, 0x0, 0x0, 0x0, 0x0, true, false⟩,
   ⟨0x60, 1, 4, 0x0, 0x0, 0x0, 0x0, 0x0, 0x0, 0x0, 0x0, true, false⟩,
   ⟨0x64, 1, 4, 0x0, 0x0, 0x0, 0x0, 0x0, 0x0, 0x0, 0x0, true, false⟩] ++
  [⟨0x70, 1, 4, 0x0, 0xFFFF0000, 0x0, 0x0, 0x0, 0x0, 0xFFFF0000, 0x0, false, false⟩,
   ⟨0x74, 1, 4, 0x0, 0xFFFF0000, 0x0, 0x0, 0x0, 0x0, 0xFFFF0000, 0x0, false, false⟩,
   ⟨0x78, 1, 4, 0x0, 0xFFFF0000, 0x0, 0x0, 0x0, 0x0, 0xFFFF0000, 0x0, false, false⟩,
   ⟨0x7C, 1, 4, 0x0, 0x0, 0x0, 0x0, 0x0, 0x0, 0x0, 0x0, false, false⟩]

/-- The register table of page JNL. -/
def descJnl : List RegDesc :=
  [⟨0x20, 1, 4, 0x0, 0x0, 0x0, 0x0, 0x0, 0x0, 0x0, 0x0, false, false⟩,
   ⟨0x24, 1, 4, 0x0, 0xFFFFFFFF, 0x0, 0x0, 0x0, 0x0, 0xFFFFFFFF, 0x0, true, false⟩,
   ⟨0x28, 1, 4, 0x0, 0x0, 0x0, 0x0, 0x0, 0x0, 0x0, 0x0, true, false⟩,
   ⟨0x2C, 1, 4, 0x0, 0x0, 0x0, 0x0, 0x0, 0x0, 0x0, 0x0, true, false⟩,
   ⟨0x30, 1, 4, 0x0, 0x0, 0x0, 0x0, 0x0, 0x0, 0x0, 0x0, true, false⟩,
   ⟨0x34, 1, 4, 0x0, 0x0, 0x0, 0x0, 0x0, 0x0, 0x0, 0x0, true, false⟩,
   ⟨0x38, 1, 4, 0x0, 0x0, 0x0, 0x0, 0x0, 0x0, 0x0, 0x0, true, false⟩,
   ⟨0x3C, 1, 4, 0x0, 0x0, 0x0, 0x0, 0x0, 0x0, 0x0, 0x0, true, false⟩,
   ⟨0x40, 1, 4, 0x0, 0x0, 0x0, 0x0, 0x0, 0x0, 0x0, 0x0, true, false⟩,
   ⟨0x44, 1, 4, 0x0, 0x0, 0x0, 0x0, 0x0, 0x0, 0x0, 0x0, true, false⟩,
   ⟨0x50, 1, 4, 0x0, 0x0, 0x0, 0x0, 0x0, 0x0, 0x0, 0x0, false, false⟩,
   ⟨0x54, 8, 4, 0x0, 0x0, 0x0, 0x0, 0x0, 0x0, 0x0, 0x0, false, false⟩,
   ⟨0x80, 1, 4, 0x0, 0xFFFFFFFF, 0x0, 0x0, 0x0, 0x0, 0xFFFFFFFF, 0x0, true, false⟩,
   ⟨0x84, 1, 4, 0x0, 0x0, 0x0, 0x0, 0x0, 0x1, 0x1, 0x0, true, false⟩,
   ⟨0x88, 1, 4, 0x0, 0x0, 0x0, 0x0, 0x0, 0x0, 0x0, 0x0, true, false⟩,
   ⟨0x8C, 1, 4, 0x0, 0x0, 0x0, 0x0, 0x0, 0x0, 0x0, 0x0, true, false⟩] ++
  [⟨0x90, 1, 4, 0x0, 0xFFFF0000, 0x0, 0x0, 0x0, 0x0, 0xFFFF0000, 0x0, false, false⟩,
   ⟨0x94, 1, 4, 0x0, 0x0, 0x0, 0x0, 0x0, 0x0, 0x0, 0x0, false, false⟩]

/-- The register table of page IRQ. -/
def descIrq : List RegDesc :=
  [⟨0x20, 16, 4, 0x0, 0x0, 0x0, 0x0, 0x0, 0x0, 0x0, 0x0, false, false⟩,
   ⟨0x60, 16, 4, 0x0, 0xFFFFFFFF, 0x0, 0x0, 0x0, 0x0, 0xFFFFFFFF, 0x0, false, false⟩,
   ⟨0xA0, 1, 4, 0x0, 0x0, 0x0, 0x0, 0x0, 0x0, 0x0, 0x0, false, false⟩,
   ⟨0xA4, 1, 4, 0x0, 0x0, 0x0, 0x0, 0x0, 0x0, 0x0, 0x0, false, false⟩,
   ⟨0xA8, 1, 4, 0x0, 0xFFFFFFFF, 0x0, 0x0, 0x0, 0x0, 0xFFFFFFFF, 0x0, false, false⟩,
   ⟨0xAC, 1, 4, 0x0, 0x0, 0x0, 0x0, 0x0, 0xFFFFFFFF, 0xFFFFFFFF, 0x0, false, false⟩,
   ⟨0xB0, 1, 4, 0x0, 0xFF, 0x0, 0x0, 0x0, 0x0, 0xFF, 0x0, false, false⟩,
   ⟨0x200, 100, 4, 0x0, 0x3FFFFFFF, 0x0, 0x0, 0x0, 0x0, 0x3FFFFFFF, 0x0, false, false⟩]

/-- The register table of page BMX. -/
def descBmx : List RegDesc :=
  [⟨0x20, 1, 4, 0x924924, 0xFFFFFF, 0x0, 0x0, 0x0, 0x0, 0xFFFFFF, 0x0, false, false⟩,
   ⟨0x24, 1, 4, 0xB6DB6D, 0xFFFFFF, 0x0, 0x0, 0x0, 0x0, 0xFFFFFF, 0x0, false, false⟩,
   ⟨0x28, 1, 4, 0x6DB6DB, 0xFFFFFF, 0x0, 0x0, 0x0, 0x0, 0xFFFFFF, 0x0, false, false⟩,
   ⟨0x2C, 1, 4, 0x924924, 0xFFFFFF, 0x0, 0x0, 0x0, 0x0, 0xFFFFFF, 0x0, false, false⟩,
   ⟨0x30, 1, 4, 0x249249, 0xFFFFFF, 0x0, 0x0, 0x0, 0x0, 0xFFFFFF, 0x0, false, false⟩,
   ⟨0x34, 1, 4, 0xDB6DB6, 0xFFFFFF, 0x0, 0x0, 0x0, 0x0, 0xFFFFFF, 0x0, false, false⟩,
   ⟨0x38, 1, 4, 0x492492, 0xFFFFFF, 0x0, 0x0, 0x0, 0x0, 0xFFFFFF, 0x0, false, false⟩,
   ⟨0x3C, 1, 4, 0xFFFFFF, 0xFFFFFF, 0x0, 0x0, 0x0, 0x0, 0xFFFFFF, 0x0, false, false⟩,
   ⟨0x40, 1, 4, 0x0, 0xFF, 0x0, 0x0, 0x0, 0x0, 0xFF, 0x0, false, false⟩,
   ⟨0x44, 1, 4, 0x10, 0x3F, 0x0, 0x0, 0x0, 0x0, 0x3F, 0x0, false, false⟩,
   ⟨0x48, 1, 4, 0x0, 0x0, 0x0, 0x0, 0x0, 0x0, 0x0, 0x0, false, false⟩,
   ⟨0x50, 1, 4, 0x0, 0xFFFF0000, 0x0, 0x0, 0x0, 0x0, 0xFFFF0000, 0x0, false, false⟩,
   ⟨0x54, 1, 4, 0x0, 0xFFFF0000, 0x0, 0x0, 0x0, 0x0, 0xFFFF0000, 0x0, false, false⟩,
   ⟨0x58, 1, 4, 0x0, 0xFFFF0000, 0x0, 0x0, 0x0, 0x0, 0xFFFF0000, 0x0, false, false⟩,
   ⟨0x5C, 1, 4, 0x0, 0x0, 0x0, 0x0, 0x0, 0x0, 0x0, 0x0, false, false⟩,
   ⟨0x60, 1, 4, 0x0, 0x0, 0x0, 0x0, 0x0, 0x0, 0x0, 0x0, false, false⟩] ++
  [⟨0x64, 1, 4, 0x0, 0x0, 0x0, 0x0, 0x0, 0x0, 0x0, 0x0, false, false⟩,
   ⟨0x68, 1, 4, 0x0, 0x0, 0x0, 0x0, 0x0, 0x0, 0x0, 0x0, false, false⟩,
   ⟨0x6C, 1, 4, 0x0, 0x0, 0x0, 0x0, 0x0, 0x0, 0x0, 0x0, false, false⟩,
   ⟨0x100, 8, 16, 0x0, 0xFFFFFFF0, 0x0, 0x0, 0x0, 0x0, 0xFFFFFFF0, 0x0, false, false⟩,
   ⟨0x104, 8, 16, 0x0, 0xFFFFFFFF, 0x0, 0x0, 0x0, 0x0, 0xFFFFFFFF, 0x0, false, false⟩,
   ⟨0x108, 8, 16, 0x6, 0x1F, 0x0, 0x0, 0x0, 0x0, 0x1F, 0x0, false, false⟩,
   ⟨0x10C, 8, 16, 0x0, 0xFFF, 0x0, 0x0, 0x0, 0x0, 0xFFF, 0x0, false, false⟩,
   ⟨0x180, 8, 4, 0x0, 0xFFFF0000, 0x0, 0x0, 0x0, 0x0, 0xFFFF0000, 0x0, false, false⟩,
   ⟨0x1A0, 8, 4, 0x0, 0xFFFF0000, 0x0, 0x0, 0x0, 0x0, 0xFFFF0000, 0x0, false, false⟩,
   ⟨0x1C0, 1, 4, 0x0, 0x0, 0x0, 0x0, 0x0, 0x0, 0x0, 0x0, false, false⟩]

/-- The register table of page HTR. -/
def descHtr : List RegDesc :=
  [⟨0x20, 1, 4, 0x0, 0x0, 0x0, 0x0, 0x0, 0x0, 0x0, 0x0, false, false⟩,
   ⟨0x24, 1, 4, 0x0, 0x0, 0x0, 0x0, 0x0, 0x0, 0x0, 0x0, false, false⟩,
   ⟨0x28, 1, 4, 0x0, 0x0, 0x0, 0x0, 0x0, 0x0, 0x0, 0x0, false, false⟩,
   ⟨0x2C, 1, 4, 0x0, 0x0, 0x0, 0x0, 0x0, 0x1, 0x1, 0x0, false, false⟩,
   ⟨0x30, 1, 4, 0x0, 0x0, 0x0, 0x0, 0x0, 0x0, 0x0, 0x0, false, false⟩,
   ⟨0x34, 1, 4, 0x0, 0x0, 0x0, 0x0, 0x0, 0x0, 0x0, 0x0, false, false⟩,
   ⟨0x38, 1, 4, 0x0, 0x0, 0x0, 0x0, 0x1, 0x0, 0x1, 0x0, false, false⟩,
   ⟨0x40, 1, 4, 0x0, 0xFFFF0000, 0x0, 0x0, 0x0, 0x0, 0xFFFF0000, 0x0, false, false⟩,
   ⟨0x44, 1, 4, 0x0, 0x0, 0x0, 0x0, 0x0, 0x0, 0x0, 0x0, false, false⟩,
   ⟨0x80, 16, 4, 0x0, 0xFFFFFFFF, 0x0, 0x0, 0x0, 0x0, 0xFFFFFFFF, 0x0, false, false⟩,
   ⟨0xC0, 1, 4, 0x0, 0xFFFF, 0x0, 0x0, 0x0, 0x0, 0xFFFF, 0x0, false, false⟩,
   ⟨0xC4, 1, 4, 0x0, 0x0, 0x0, 0x0, 0x0, 0x0, 0x0, 0x0, false, false⟩,
   ⟨0xC8, 16, 4, 0x0, 0x0, 0x0, 0x0, 0x0, 0x0, 0x0, 0x0, false, false⟩,
   ⟨0x108, 1, 4, 0x0, 0x0, 0x0, 0x0, 0x0, 0x0, 0x0, 0x0, false, false⟩,
   ⟨0x10C, 1, 4, 0x0, 0xFFFF, 0x0, 0x0, 0x0, 0x0, 0xFFFF, 0x0, false, false⟩]

/-- The register table of page TSI. -/
def descIc : List RegDesc :=
  [⟨0x20, 1, 4, 0x0, 0x0, 0x0, 0x0, 0x0, 0x0, 0x0, 0x0, false, false⟩,
   ⟨0x24, 1, 4, 0x0, 0x0, 0x0, 0x0, 0x0, 0x0, 0x0, 0x0, false, false⟩,
   ⟨0x28, 1, 4, 0x0, 0x0, 0x0, 0x0, 0x0, 0x0, 0x0, 0x0, false, false⟩,
   ⟨0x2C, 1, 4, 0x0, 0x0, 0x0, 0x0, 0x0, 0x0, 0x0, 0x0, false, false⟩,
   ⟨0x30, 1, 4, 0x0, 0x0, 0x0, 0x0, 0x0, 0x0, 0x0, 0x0, false, false⟩,
   ⟨0x34, 1, 4, 0x0, 0x0, 0x0, 0x0, 0x0, 0x0, 0x0, 0x0, false, false⟩,
   ⟨0x38, 1, 4, 0x0, 0x0, 0x0, 0x0, 0x0, 0x0, 0x0, 0x0, false, false⟩,
   ⟨0x40, 1, 4, 0x0, 0x0, 0x0, 0x0, 0x0, 0x7, 0x7, 0x0, false, false⟩,
   ⟨0x44, 1, 4, 0x0, 0x0, 0x0, 0x0, 0x0, 0x0, 0x0, 0x0, false, false⟩,
   ⟨0x48, 1, 4, 0x0, 0x0, 0x0, 0x0, 0x0, 0x0, 0x0, 0x0, false, false⟩,
   ⟨0x4C, 1, 4, 0x0, 0x0, 0x0, 0x0, 0x0, 0x0, 0x0, 0x0, false, false⟩,
   ⟨0x50, 1, 4, 0x0, 0x0, 0x0, 0x0, 0x0, 0x0, 0x0, 0x0, false, false⟩,
   ⟨0x60, 1, 4, 0x0, 0x1FFFF, 0x0, 0x0, 0x0, 0x0, 0x1FFFF, 0x0, false, false⟩,
   ⟨0x64, 1, 4, 0x20000, 0x0, 0x0, 0x0, 0x0, 0x0, 0x0, 0x0, false, false⟩,
   ⟨0x70, 1, 4, 0x0, 0xFFFF0000, 0x0, 0x0, 0x0, 0x0, 0xFFFF0000, 0x0, false, false⟩,
   ⟨0x74, 1, 4, 0x0, 0xFFFF0000, 0x0, 0x0, 0x0, 0x0, 0xFFFF0000, 0x0, false, false⟩] ++
  [⟨0x78, 1, 4, 0x0, 0xFFFF0000, 0x0, 0x0, 0x0, 0x0, 0xFFFF0000, 0x0, false, false⟩,
   ⟨0x7C, 1, 4, 0x0, 0x0, 0x0, 0x0, 0x0, 0x0, 0x0, 0x0, false, false⟩,
   ⟨0x80, 1, 4, 0x0, 0x0, 0x0, 0x0, 0x0, 0x0, 0x0, 0x0, false, false⟩]

/-- The register table of page BAT. -/
def descBat : List RegDesc :=
  [⟨0x20, 1, 4, 0x0, 0x0, 0x0, 0x0, 0x0, 0x0, 0x0, 0x0, false, false⟩,
   ⟨0x24, 1, 4, 0x6000, 0x0, 0x0, 0x0, 0x0, 0x0, 0x0, 0x0, false, false⟩,
   ⟨0x30, 1, 4, 0x0, 0xFFF, 0x0, 0x0, 0x0, 0x0, 0xFFF, 0x0, false, false⟩,
   ⟨0x34, 1, 4, 0x0, 0x0, 0x0, 0x0, 0x0, 0x3, 0x3, 0x0, false, false⟩,
   ⟨0x38, 1, 4, 0x0, 0x0, 0x0, 0x0, 0x0, 0x0, 0x0, 0x0, false, false⟩,
   ⟨0x3C, 1, 4, 0x0, 0x0, 0x0, 0x0, 0x0, 0x0, 0x0, 0x0, false, false⟩,
   ⟨0x40, 1, 4, 0x0, 0xFFFFFFF, 0x0, 0x0, 0x0, 0x0, 0xFFFFFFF, 0x0, false, false⟩,
   ⟨0x44, 1, 4, 0x0, 0xFFF, 0x0, 0x0, 0x0, 0x0, 0xFFF, 0x0, false, false⟩,
   ⟨0x48, 1, 4, 0x0, 0x0, 0x0, 0x0, 0x0, 0x0, 0x0, 0x0, false, false⟩,
   ⟨0x4C, 1, 4, 0x0, 0x0, 0x0, 0x0, 0x0, 0x0, 0x0, 0x0, false, false⟩,
   ⟨0x80, 1, 4, 0x0, 0x0, 0x0, 0x0, 0x0, 0x0, 0x0, 0x0, false, true⟩,
   ⟨0x84, 1, 4, 0x0, 0x0, 0x0, 0x0, 0x0, 0x0, 0x0, 0x0, false, true⟩,
   ⟨0x88, 1, 4, 0x0, 0x0, 0x0, 0x0, 0x0, 0x0, 0x0, 0x0, false, true⟩,
   ⟨0x8C, 1, 4, 0x0, 0x0, 0x0, 0x0, 0x0, 0x0, 0x0, 0x0, false, true⟩,
   ⟨0xA0, 1, 4, 0x0, 0xFFFF0000, 0x0, 0x0, 0x0, 0x0, 0xFFFF0000, 0x0, false, false⟩,
   ⟨0xA4, 1, 4, 0x0, 0xFFFF0000, 0x0, 0x0, 0x0, 0x0, 0xFFFF0000, 0x0, false, false⟩] ++
  [⟨0xA8, 1, 4, 0x0, 0xFFFF0000, 0x0, 0x0, 0x0, 0x0, 0xFFFF0000, 0x0, false, false⟩,
   ⟨0xAC, 1, 4, 0x0, 0xFFFF0000, 0x0, 0x0, 0x0, 0x0, 0xFFFF0000, 0x0, false, false⟩,
   ⟨0xB0, 1, 4, 0x0, 0x0, 0x0, 0x0, 0x0, 0x0, 0x0, 0x0, false, false⟩,
   ⟨0xB4, 1, 4, 0x0, 0x0, 0x0, 0x0, 0x0, 0x0, 0x0, 0x0, false, false⟩,
   ⟨0xB8, 1, 4, 0x0, 0x0, 0x0, 0x0, 0x0, 0x0, 0x0, 0x0, false, false⟩,
   ⟨0xBC, 1, 4, 0x0, 0x0, 0x0, 0x0, 0x0, 0x0, 0x0, 0x0, false, false⟩,
   ⟨0xC0, 1, 4, 0x0, 0x0, 0x0, 0x0, 0x0, 0x0, 0x0, 0x0, false, false⟩,
   ⟨0xE0, 1, 4, 0x0, 0x3FF, 0x0, 0x0, 0x0, 0x0, 0x3FF, 0x0, false, false⟩]

/-- The register table of page MEM. -/
def descMem : List RegDesc :=
  [⟨0x20, 1, 4, 0x0, 0x0, 0x0, 0x0, 0x0, 0x0, 0x0, 0x0, false, false⟩,
   ⟨0x24, 1, 4, 0x0, 0x0, 0x0, 0xFFF000, 0x0, 0x0, 0xFFF000, 0x0, false, false⟩,
   ⟨0x28, 1, 4, 0x0, 0x0, 0x0, 0x0, 0x0, 0x0, 0x0, 0x0, false, false⟩]

/-- The register table of page TWN. -/
def descTwn : List RegDesc :=
  [⟨0x20, 1, 4, 0x758, 0xFFFF077F, 0x0, 0x0, 0x0, 0x0, 0xFFFF077F, 0x0, false, false⟩,
   ⟨0x24, 1, 4, 0xA0A0582, 0xFFFFFFFF, 0x0, 0x0, 0x0, 0x0, 0xFFFFFFFF, 0x0, false, false⟩,
   ⟨0x28, 1, 4, 0x0, 0x0, 0x0, 0x0, 0x0, 0x0, 0x0, 0x0, false, false⟩,
   ⟨0x2C, 1, 4, 0x0, 0x0, 0x0, 0x0, 0x0, 0xF, 0xF, 0x0, false, false⟩,
   ⟨0x30, 1, 4, 0x0, 0x0, 0x0, 0x0, 0x0, 0x0, 0x0, 0x0, false, false⟩,
   ⟨0x34, 1, 4, 0x0, 0x0, 0x0, 0x0, 0x0, 0x0, 0x0, 0x0, false, false⟩,
   ⟨0x38, 1, 4, 0x0, 0x1, 0x0, 0x0, 0x0, 0x0, 0x0, 0x0, false, false⟩,
   ⟨0x3C, 1, 4, 0x0, 0x0, 0x0, 0x0, 0x0, 0x0, 0x0, 0x0, false, false⟩,
   ⟨0x40, 1, 4, 0x0, 0x0, 0x0, 0x0, 0x0, 0x0, 0x0, 0x0, false, false⟩,
   ⟨0x44, 1, 4, 0x0, 0x0, 0x0, 0x0, 0x0, 0x0, 0x0, 0x0, false, false⟩,
   ⟨0x48, 1, 4, 0x0, 0x0, 0x0, 0x0, 0x0, 0x0, 0x0, 0x0, false, false⟩,
   ⟨0x4C, 1, 4, 0x0, 0x0, 0x0, 0x0, 0x0, 0x0, 0x0, 0x0, false, false⟩,
   ⟨0x50, 1, 4, 0x0, 0x7F, 0x0, 0x0, 0x0, 0x0, 0x7F, 0x0, true, false⟩,
   ⟨0x54, 1, 4, 0x0, 0x0, 0x0, 0x0, 0x0, 0x0, 0x0, 0x0, true, false⟩,
   ⟨0x58, 1, 4, 0x0, 0x0, 0x0, 0x0, 0x0, 0x0, 0x0, 0x0, true, false⟩,
   ⟨0x5C, 1, 4, 0x0, 0x0, 0x0, 0x0, 0x0, 0x0, 0x0, 0x0, true, false⟩] ++
  [⟨0x60, 4, 4, 0x0, 0x0, 0x0, 0x0, 0x0, 0x0, 0x0, 0x0, false, false⟩,
   ⟨0x70, 1, 4, 0x0, 0x0, 0x0, 0x0, 0x0, 0x0, 0x0, 0x0, false, false⟩,
   ⟨0x74, 1, 4, 0x0, 0x0, 0x0, 0x0, 0x0, 0x0, 0x0, 0x0, false, false⟩,
   ⟨0x78, 1, 4, 0x0, 0x0, 0x0, 0x0, 0x0, 0x0, 0x0, 0x0, false, false⟩,
   ⟨0x80, 1, 4, 0x0, 0x0, 0x0, 0x0, 0x0, 0x0, 0x0, 0x0, false, true⟩,
   ⟨0x84, 1, 4, 0x0, 0x0, 0x0, 0x0, 0x0, 0x0, 0x0, 0x0, false, true⟩,
   ⟨0x88, 1, 4, 0x0, 0x0, 0x0, 0x0, 0x0, 0x0, 0x0, 0x0, false, true⟩,
   ⟨0x8C, 1, 4, 0x0, 0x0, 0x0, 0x0, 0x0, 0x0, 0x0, 0x0, false, true⟩,
   ⟨0xA0, 1, 4, 0x0, 0xFFFF0000, 0x0, 0x0, 0x0, 0x0, 0xFFFF0000, 0x0, false, false⟩,
   ⟨0xA4, 1, 4, 0x0, 0xFFFF0000, 0x0, 0x0, 0x0, 0x0, 0xFFFF0000, 0x0, false, false⟩,
   ⟨0xA8, 1, 4, 0x0, 0xFFFF0000, 0x0, 0x0, 0x0, 0x0, 0xFFFF0000, 0x0, false, false⟩,
   ⟨0xAC, 1, 4, 0x0, 0xFFFF0000, 0x0, 0x0, 0x0, 0x0, 0xFFFF0000, 0x0, false, false⟩,
   ⟨0xB0, 1, 4, 0x0, 0xFFFF0000, 0x0, 0x0, 0x0, 0x0, 0xFFFF0000, 0x0, false, false⟩,
   ⟨0xB4, 1, 4, 0x0, 0xFFFF0000, 0x0, 0x0, 0x0, 0x0, 0xFFFF0000, 0x0, false, false⟩,
   ⟨0xB8, 1, 4, 0x0, 0x0, 0x0, 0x0, 0x0, 0x0, 0x0, 0x0, false, false⟩,
   ⟨0xC0, 1, 4, 0x0, 0x0, 0x0, 0x0, 0x0, 0x0, 0x0, 0x0, false, false⟩] ++
  [⟨0xC4, 1, 4, 0x0, 0x0, 0x0, 0x0, 0x0, 0x0, 0x0, 0x0, false, false⟩,
   ⟨0xC8, 6, 4, 0x0, 0x0, 0x0, 0x0, 0x0, 0x0, 0x0, 0x0, false, false⟩,
   ⟨0x100, 16, 4, 0x0, 0xFFFFFFFF, 0x0, 0x0, 0x0, 0x0, 0xFFFFFFFF, 0x0, false, false⟩]

/-- The register table of page GRP. -/
def descGrp : List RegDesc :=
  [⟨0x20, 1, 4, 0x0, 0xFFFF007F, 0x0, 0x0, 0x0, 0x0, 0xFFFF007F, 0x0, false, false⟩,
   ⟨0x24, 1, 4, 0x0, 0x0, 0x0, 0x0, 0x0, 0x0, 0x0, 0x0, false, false⟩,
   ⟨0x44, 7, 4, 0x0, 0x0, 0x100, 0x0, 0x0, 0x0, 0x0, 0x0, false, false⟩,
   ⟨0x80, 8, 4, 0x0, 0x1F, 0x0, 0x0, 0x0, 0x0, 0x1F, 0x0, false, false⟩,
   ⟨0xA0, 1, 4, 0x32, 0xFFFF, 0x0, 0x0, 0x0, 0x0, 0xFFFF, 0x0, false, false⟩,
   ⟨0xB0, 1, 4, 0x0, 0xFFFF0000, 0x0, 0x0, 0x0, 0x0, 0xFFFF0000, 0x0, false, false⟩,
   ⟨0xB4, 1, 4, 0x0, 0xFFFF0000, 0x0, 0x0, 0x0, 0x0, 0xFFFF0000, 0x0, false, false⟩,
   ⟨0xB8, 1, 4, 0x0, 0xFFFF0000, 0x0, 0x0, 0x0, 0x0, 0xFFFF0000, 0x0, false, false⟩,
   ⟨0xBC, 1, 4, 0x0, 0x0, 0x0, 0x0, 0x0, 0x0, 0x0, 0x0, false, false⟩,
   ⟨0xC0, 1, 4, 0x0, 0x0, 0x0, 0x0, 0x0, 0x0, 0x0, 0x0, false, false⟩]

/-- The register table of page GLV. -/
def descGlv : List RegDesc :=
  [⟨0x20, 1, 4, 0x8141, 0xFFFF, 0x0, 0x0, 0x0, 0x0, 0xFFFF, 0x0, false, false⟩]

/-- The register table of page GP. -/
def descGp : List RegDesc :=
  [⟨0x20, 1, 4, 0x0, 0x3F, 0x0, 0x0, 0x0, 0x0, 0x0, 0x0, false, false⟩,
   ⟨0x24, 1, 4, 0x0, 0x0, 0x0, 0x0, 0x0, 0x0, 0x0, 0x0, false, false⟩,
   ⟨0x28, 1, 4, 0x0, 0x0, 0x0, 0x0, 0x0, 0x0, 0x0, 0x0, false, false⟩,
   ⟨0x40, 1, 4, 0x0, 0x0, 0x0, 0x0, 0x0, 0x0, 0x0, 0x0, false, true⟩,
   ⟨0x44, 1, 4, 0x0, 0x0, 0x0, 0x0, 0x0, 0x0, 0x0, 0x0, false, true⟩,
   ⟨0x48, 1, 4, 0x0, 0x0, 0x0, 0x0, 0x0, 0x0, 0x0, 0x0, false, true⟩,
   ⟨0x4C, 1, 4, 0x0, 0x0, 0x0, 0x0, 0x0, 0x0, 0x0, 0x0, false, true⟩,
   ⟨0x60, 1, 4, 0x0, 0xFFFF0000, 0x0, 0x0, 0x0, 0x0, 0xFFFF0000, 0x0, false, false⟩,
   ⟨0x64, 1, 4, 0x0, 0xFFFF0000, 0x0, 0x0, 0x0, 0x0, 0xFFFF0000, 0x0, false, false⟩,
   ⟨0x68, 1, 4, 0x0, 0xFFFF0000, 0x0, 0x0, 0x0, 0x0, 0xFFFF0000, 0x0, false, false⟩,
   ⟨0x6C, 1, 4, 0x0, 0xFFFF0000, 0x0, 0x0, 0x0, 0x0, 0xFFFF0000, 0x0, false, false⟩,
   ⟨0x70, 1, 4, 0x0, 0xFFFF0000, 0x0, 0x0, 0x0, 0x0, 0xFFFF0000, 0x0, false, false⟩,
   ⟨0x74, 1, 4, 0x0, 0xFFFF0000, 0x0, 0x0, 0x0, 0x0, 0xFFFF0000, 0x0, false, false⟩,
   ⟨0x78, 1, 4, 0x0, 0x0, 0x0, 0x0, 0x0, 0x0, 0x0, 0x0, false, false⟩]

/-- The register table of page TPT. -/
def descTpt : List RegDesc :=
  [⟨0x20, 1, 4, 0x0, 0x1F, 0x0, 0x0, 0x0, 0x0, 0x0, 0x0, false, false⟩,
   ⟨0x24, 1, 4, 0x0, 0x0, 0x0, 0x0, 0x0, 0x0, 0x0, 0x0, false, false⟩,
   ⟨0x30, 1, 4, 0x0, 0xFFFF0000, 0x0, 0x0, 0x0, 0x0, 0xFFFF0000, 0x0, false, false⟩,
   ⟨0x34, 1, 4, 0x0, 0xFFFF0000, 0x0, 0x0, 0x0, 0x0, 0xFFFF0000, 0x0, false, false⟩,
   ⟨0x38, 1, 4, 0x0, 0x0, 0x0, 0x0, 0x0, 0x0, 0x0, 0x0, false, false⟩]

/-- The register table of page PNC. -/
def descPnc : List RegDesc :=
  [⟨0x20, 1, 4, 0x0, 0x1F, 0x0, 0x0, 0x0, 0x0, 0x1F, 0x0, true, false⟩,
   ⟨0x24, 1, 4, 0x0, 0x3FFFFF, 0x0, 0x0, 0x0, 0x0, 0x0, 0x0, true, false⟩,
   ⟨0x28, 1, 4, 0x400, 0xFFFF, 0x0, 0x0, 0x0, 0x0, 0x0, 0x0, true, false⟩,
   ⟨0x2C, 1, 4, 0x0, 0x0, 0x0, 0x0, 0x0, 0x0, 0x0, 0x0, true, false⟩,
   ⟨0x30, 1, 4, 0x0, 0x0, 0x0, 0x0, 0x0, 0x0, 0x0, 0x0, true, false⟩,
   ⟨0x34, 1, 4, 0x0, 0x0, 0x0, 0x0, 0x0, 0x0, 0x0, 0x0, true, false⟩,
   ⟨0x38, 1, 4, 0x0, 0x0, 0x0, 0x0, 0x0, 0x0, 0x0, 0x0, true, false⟩,
   ⟨0x3C, 1, 4, 0x0, 0x0, 0x0, 0x0, 0x0, 0x0, 0x0, 0x0, true, false⟩,
   ⟨0x40, 1, 4, 0x0, 0xFFFF0000, 0x0, 0x0, 0x0, 0x0, 0xFFFF0000, 0x0, true, false⟩,
   ⟨0x44, 1, 4, 0x0, 0x0, 0x0, 0x0, 0x0, 0x0, 0x0, 0x0, true, false⟩,
   ⟨0x60, 1, 4, 0x0, 0xFF, 0x0, 0x0, 0x0, 0x0, 0xFF, 0x0, true, false⟩,
   ⟨0x64, 1, 4, 0x0, 0x0, 0x0, 0x0, 0x0, 0x0, 0x0, 0x0, true, false⟩,
   ⟨0x68, 1, 4, 0x0, 0x0, 0x0, 0x0, 0x0, 0x0, 0x0, 0x0, true, false⟩,
   ⟨0x6C, 1, 4, 0x0, 0x0, 0x0, 0x0, 0x0, 0x0, 0x0, 0x0, true, false⟩,
   ⟨0x70, 1, 4, 0x0, 0x0, 0x0, 0x0, 0x0, 0x0, 0x0, 0x0, true, false⟩,
   ⟨0x74, 1, 4, 0x0, 0x0, 0x0, 0x0, 0x0, 0x0, 0x0, 0x0, true, false⟩] ++
  [⟨0x80, 1, 4, 0x0, 0x0, 0x0, 0x0, 0x0, 0x0, 0x0, 0x0, false, false⟩,
   ⟨0x84, 1, 4, 0x0, 0xFFFF0000, 0x0, 0x0, 0x0, 0x0, 0xFFFF0000, 0x0, false, false⟩,
   ⟨0x88, 1, 4, 0x0, 0x0, 0x0, 0x0, 0x0, 0x0, 0x0, 0x0, false, false⟩,
   ⟨0x8C, 1, 4, 0x0, 0x0, 0x0, 0x0, 0x0, 0x0, 0x0, 0x0, false, false⟩]

/-- The register table of page CAL. -/
def descCal : List RegDesc :=
  [⟨0x20, 1, 4, 0x143C37, 0xFFFFFF, 0x0, 0x0, 0x0, 0x0, 0x0, 0x0, false, false⟩,
   ⟨0x30, 1, 4, 0x0, 0x3FF, 0x0, 0x0, 0x0, 0x0, 0x3FF, 0x0, true, false⟩,
   ⟨0x34, 1, 4, 0x0, 0x0, 0x0, 0x0, 0x0, 0x1, 0x1, 0x0, false, false⟩,
   ⟨0x38, 1, 4, 0x0, 0x0, 0x0, 0x0, 0x0, 0x0, 0x0, 0x0, false, false⟩,
   ⟨0x3C, 1, 4, 0x300, 0x0, 0x0, 0x0, 0x0, 0x0, 0x0, 0x0, false, false⟩,
   ⟨0x40, 1, 4, 0x0, 0xF, 0x0, 0x0, 0x0, 0x0, 0xF, 0x0, true, false⟩,
   ⟨0x44, 1, 4, 0x0, 0x0, 0x0, 0x0, 0x0, 0x1, 0x1, 0x0, false, false⟩,
   ⟨0x48, 1, 4, 0x0, 0x0, 0x0, 0x0, 0x0, 0x0, 0x0, 0x0, false, false⟩,
   ⟨0x4C, 1, 4, 0x300, 0x0, 0x0, 0x0, 0x0, 0x0, 0x0, 0x0, false, false⟩,
   ⟨0x60, 1, 4, 0x0, 0x0, 0x0, 0x0, 0x0, 0x0, 0x0, 0x0, false, false⟩,
   ⟨0x64, 1, 4, 0x0, 0x0, 0x0, 0x0, 0x0, 0x0, 0x0, 0x0, false, false⟩,
   ⟨0x80, 14, 4, 0x0, 0xFFFFFFFF, 0x0, 0x0, 0x0, 0x0, 0xFFFFFFFF, 0x0, false, false⟩,
   ⟨0xC0, 1, 4, 0x0, 0x0, 0x0, 0x0, 0x0, 0x1, 0x1, 0x0, false, false⟩,
   ⟨0xC4, 1, 4, 0x0, 0x0, 0x0, 0x0, 0x0, 0x0, 0x0, 0x0, false, false⟩,
   ⟨0xC8, 1, 4, 0x0, 0x0, 0x0, 0x0, 0x0, 0x0, 0x0, 0x0, false, false⟩,
   ⟨0xD0, 1, 4, 0x0, 0x1F, 0x0, 0x0, 0x0, 0x0, 0x1F, 0x0, true, false⟩] ++
  [⟨0x100, 16, 4, 0x0, 0x0, 0x0, 0x0, 0x0, 0x0, 0x0, 0x0, false, false⟩]

/-- The register table of page MON. -/
def descMon : List RegDesc :=
  [⟨0x20, 1, 4, 0x0, 0xF, 0x0, 0x0, 0x0, 0x0, 0xF, 0x0, true, false⟩,
   ⟨0x24, 1, 4, 0x0, 0x1FFFFFF, 0x0, 0x0, 0x0, 0x0, 0x0, 0x0, true, false⟩,
   ⟨0x28, 1, 4, 0x0, 0xFFFFFFFF, 0x0, 0x0, 0x0, 0x0, 0x0, 0x0, true, false⟩,
   ⟨0x2C, 1, 4, 0x1, 0xFFFFFFFF, 0x0, 0x0, 0x0, 0x0, 0x0, 0x0, true, false⟩,
   ⟨0x30, 1, 4, 0x0, 0x0, 0x0, 0x0, 0x0, 0x1, 0x1, 0x0, true, false⟩,
   ⟨0x34, 1, 4, 0x0, 0xFFFFFFFF, 0x0, 0x0, 0x0, 0x0, 0xFFFFFFFF, 0x0, true, false⟩,
   ⟨0x38, 1, 4, 0x0, 0x1, 0x0, 0x0, 0x0, 0x0, 0x0, 0x0, false, false⟩,
   ⟨0x3C, 1, 4, 0x0, 0x0, 0x0, 0x0, 0x0, 0x0, 0x0, 0x0, true, false⟩,
   ⟨0x80, 1, 4, 0x7FFFFFFF, 0x0, 0x0, 0x0, 0x0, 0x0, 0x0, 0x0, true, true⟩,
   ⟨0x84, 1, 4, 0x80000000, 0x0, 0x0, 0x0, 0x0, 0x0, 0x0, 0x0, true, true⟩,
   ⟨0x88, 1, 4, 0x0, 0x0, 0x0, 0xFFFFFFFF, 0x0, 0x0, 0xFFFFFFFF, 0x0, true, true⟩,
   ⟨0x90, 32, 4, 0x0, 0x0, 0x0, 0xFFFFFFFF, 0x0, 0x0, 0xFFFFFFFF, 0x0, true, true⟩,
   ⟨0x110, 1, 4, 0x0, 0x0, 0x0, 0x0, 0x0, 0x0, 0x0, 0x0, true, false⟩,
   ⟨0x114, 1, 4, 0x0, 0x0, 0x0, 0x0, 0x0, 0x0, 0x0, 0x0, true, false⟩]

/-- The register table of page PRF. -/
def descPrf : List RegDesc :=
  [⟨0x20, 1, 4, 0x0, 0x3F, 0x0, 0x0, 0x0, 0x0, 0x3F, 0x0, true, false⟩,
   ⟨0x24, 1, 4, 0x0, 0xFFFF, 0x0, 0x0, 0x0, 0x0, 0x0, 0x0, true, false⟩,
   ⟨0x28, 1, 4, 0x0, 0x1, 0x0, 0x0, 0x0, 0x0, 0x1, 0x0, false, false⟩,
   ⟨0x40, 1, 4, 0x0, 0x0, 0x0, 0xFFFFFFFF, 0x0, 0x0, 0xFFFFFFFF, 0x0, true, true⟩,
   ⟨0x44, 1, 4, 0x0, 0x0, 0x0, 0x1FFFF, 0x0, 0x0, 0x1FFFF, 0x0, true, true⟩,
   ⟨0x50, 1, 4, 0x0, 0x0, 0x0, 0x0, 0x0, 0x0, 0x0, 0x0, false, false⟩,
   ⟨0x54, 1, 4, 0x0, 0x0, 0x0, 0x0, 0x0, 0x0, 0x0, 0x0, false, false⟩,
   ⟨0x60, 1, 4, 0x8FFF, 0x3FFFF, 0x0, 0x0, 0x0, 0x0, 0x3FFFF, 0x0, false, false⟩,
   ⟨0x64, 1, 4, 0x0, 0xFFFFFFFF, 0x0, 0x0, 0x0, 0x0, 0xFFFFFFFF, 0x0, false, false⟩,
   ⟨0x68, 1, 4, 0xFFFFFFFF, 0xFFFFFFFF, 0x0, 0x0, 0x0, 0x0, 0xFFFFFFFF, 0x0, false, false⟩,
   ⟨0x6C, 1, 4, 0x0, 0x0, 0x0, 0x0, 0x0, 0x7, 0x7, 0x0, false, false⟩,
   ⟨0x70, 1, 4, 0x0, 0x0, 0x0, 0x0, 0x0, 0x0, 0x0, 0x0, false, false⟩,
   ⟨0x74, 1, 4, 0x0, 0x0, 0x0, 0x0, 0x0, 0x0, 0x0, 0x0, false, false⟩,
   ⟨0x78, 1, 4, 0x0, 0x0, 0x0, 0x0, 0x0, 0x0, 0x0, 0x0, false, false⟩,
   ⟨0x7C, 1, 4, 0x0, 0xFFFFFFFF, 0x0, 0x0, 0x0, 0x0, 0xFFFFFFFF, 0x0, true, false⟩,
   ⟨0x80, 1, 4, 0x0, 0x0, 0x0, 0x0, 0x0, 0x0, 0x0, 0x0, true, false⟩] ++
  [⟨0x84, 4, 4, 0x0, 0x0, 0x0, 0x0, 0x0, 0x0, 0x0, 0x0, true, false⟩,
   ⟨0xA0, 1, 4, 0x14, 0x3F, 0x0, 0x0, 0x0, 0x0, 0x3F, 0x0, false, false⟩,
   ⟨0xA4, 1, 4, 0x0, 0xFFFFFFFF, 0x0, 0x0, 0x0, 0x0, 0xFFFFFFFF, 0x0, false, false⟩,
   ⟨0xA8, 1, 4, 0x0, 0xFFFFFFFF, 0x0, 0x0, 0x0, 0x0, 0xFFFFFFFF, 0x0, false, false⟩,
   ⟨0xAC, 1, 4, 0x1, 0xFFFFFFFF, 0x0, 0x0, 0x0, 0x0, 0xFFFFFFFF, 0x0, false, false⟩,
   ⟨0xB0, 1, 4, 0x0, 0x0, 0x0, 0x0, 0x0, 0x0, 0x0, 0x0, false, false⟩,
   ⟨0xB4, 1, 4, 0x0, 0x0, 0x0, 0x0, 0x0, 0x1, 0x1, 0x0, false, false⟩,
   ⟨0xC0, 4, 4, 0x0, 0x0, 0x0, 0x0, 0x0, 0x0, 0x0, 0x0, false, false⟩,
   ⟨0xD0, 1, 4, 0x0, 0xFFFF0000, 0x0, 0x0, 0x0, 0x0, 0xFFFF0000, 0x0, false, false⟩,
   ⟨0xD4, 1, 4, 0x0, 0x0, 0x0, 0x0, 0x0, 0x0, 0x0, 0x0, false, false⟩]

/-- The register table of page INJ. -/
def descInj : List RegDesc :=
  [⟨0x20, 1, 4, 0x0, 0x3F, 0x0, 0x0, 0x0, 0x0, 0x3F, 0x0, true, false⟩,
   ⟨0x24, 1, 4, 0x0, 0x1FF, 0x0, 0x0, 0x0, 0x0, 0x1FF, 0x0, true, false⟩,
   ⟨0x28, 1, 4, 0x0, 0xFFFFFF, 0x0, 0x0, 0x0, 0x0, 0xFFFFFF, 0x0, true, false⟩,
   ⟨0x2C, 1, 4, 0x0, 0xFFFFFFFF, 0x0, 0x0, 0x0, 0x0, 0xFFFFFFFF, 0x0, true, false⟩,
   ⟨0x30, 1, 4, 0x0, 0x0, 0x0, 0x0, 0x0, 0x0, 0x0, 0x0, true, false⟩,
   ⟨0x34, 1, 4, 0x0, 0xFFFFFFFF, 0x0, 0x0, 0x0, 0x0, 0xFFFFFFFF, 0x0, false, false⟩,
   ⟨0x38, 1, 4, 0x0, 0x0, 0x0, 0x0, 0x0, 0x3, 0x3, 0x0, false, false⟩,
   ⟨0x3C, 1, 4, 0x0, 0x0, 0x0, 0x0, 0x0, 0x0, 0x0, 0x0, false, false⟩,
   ⟨0x40, 1, 4, 0x0, 0x0, 0x0, 0x0, 0x0, 0x0, 0x0, 0x0, false, false⟩,
   ⟨0x50, 1, 4, 0x0, 0x0, 0x0, 0x0, 0x0, 0x0, 0x0, 0x0, false, false⟩,
   ⟨0x54, 1, 4, 0x0, 0x0, 0x0, 0x0, 0x0, 0x0, 0x0, 0x0, false, false⟩,
   ⟨0x58, 1, 4, 0x0, 0xFFFF0000, 0x0, 0x0, 0x0, 0x0, 0xFFFF0000, 0x0, false, false⟩,
   ⟨0x5C, 1, 4, 0x0, 0x0, 0x0, 0x0, 0x0, 0x0, 0x0, 0x0, false, false⟩]

/-- The register table of page LGC. -/
def descLgc : List RegDesc :=
  [⟨0xA0, 1, 4, 0x0, 0x3FFF, 0x0, 0x0, 0x0, 0x0, 0x3FFF, 0x0, false, false⟩,
   ⟨0xA4, 1, 4, 0x0, 0x0, 0x0, 0x0, 0x0, 0x7, 0x7, 0x0, false, false⟩,
   ⟨0xA8, 1, 4, 0x0, 0x0, 0x0, 0x0, 0x0, 0x0, 0x0, 0x0, false, false⟩,
   ⟨0xAC, 1, 4, 0x0, 0x0, 0x0, 0x0, 0x0, 0x0, 0x0, 0x0, false, false⟩,
   ⟨0xB0, 9, 4, 0x0, 0xFFFFFFFF, 0x0, 0x0, 0x0, 0x0, 0xFFFFFFFF, 0x0, false, false⟩,
   ⟨0xE0, 1, 4, 0x0, 0xF, 0x0, 0x0, 0x0, 0x0, 0xF, 0x0, false, false⟩,
   ⟨0xE4, 1, 4, 0x0, 0x0, 0x0, 0x0, 0x0, 0x3, 0x3, 0x0, false, false⟩,
   ⟨0xE8, 1, 4, 0x0, 0x0, 0x0, 0x0, 0x0, 0x0, 0x0, 0x0, false, false⟩,
   ⟨0xEC, 1, 4, 0x0, 0x0, 0x0, 0x0, 0x0, 0x0, 0x0, 0x0, false, false⟩,
   ⟨0xF0, 9, 4, 0x0, 0xFFFFFFFF, 0x0, 0x0, 0x0, 0x0, 0xFFFFFFFF, 0x0, false, false⟩,
   ⟨0x120, 1, 4, 0x0, 0x0, 0x0, 0x0, 0x0, 0x0, 0x0, 0x0, false, false⟩]

/-- The register table of page CH. -/
def descCh : List RegDesc :=
  [⟨0x20, 1, 4, 0x15FF, 0x3FFF, 0x0, 0x0, 0x0, 0x0, 0x0, 0x3FFF, false, false⟩,
   ⟨0x24, 1, 4, 0x108064, 0xFFFFFFFF, 0x0, 0x0, 0x0, 0x0, 0x0, 0xFFFFFFFF, false, false⟩,
   ⟨0x28, 1, 4, 0x0, 0xFFFF, 0x0, 0x0, 0x0, 0x0, 0x0, 0xFFFF, false, false⟩,
   ⟨0x2C, 1, 4, 0x0, 0x0, 0x0, 0x0, 0x0, 0x0, 0x0, 0x0, false, false⟩,
   ⟨0x30, 1, 4, 0x0, 0xFFFF0000, 0x0, 0x0, 0x0, 0x0, 0xFFFF0000, 0x0, false, false⟩,
   ⟨0x34, 1, 4, 0x0, 0xFFFF0000, 0x0, 0x0, 0x0, 0x0, 0xFFFF0000, 0x0, false, false⟩,
   ⟨0x38, 1, 4, 0x0, 0x0, 0x0, 0x0, 0x0, 0x0, 0x0, 0x0, false, false⟩,
   ⟨0x3C, 1, 4, 0x0, 0x1F, 0x0, 0x0, 0x0, 0x100, 0x11F, 0x0, false, false⟩,
   ⟨0x40, 1, 4, 0x0, 0x0, 0x0, 0x0, 0x0, 0x0, 0x0, 0x0, false, false⟩,
   ⟨0x44, 1, 4, 0x0, 0x0, 0x0, 0x0, 0x0, 0x0, 0x0, 0x0, false, false⟩,
   ⟨0x48, 1, 4, 0x0, 0x0, 0x0, 0x0, 0x0, 0x0, 0x0, 0x0, false, false⟩,
   ⟨0x4C, 1, 4, 0x0, 0x0, 0x0, 0x0, 0x0, 0x0, 0x0, 0x0, false, false⟩,
   ⟨0x50, 1, 4, 0x0, 0x0, 0x1F, 0x0, 0x0, 0x0, 0x0, 0x0, false, false⟩,
   ⟨0x60, 16, 4, 0x0, 0x0, 0x0, 0x0, 0x0, 0x0, 0x0, 0x0, false, false⟩,
   ⟨0xA0, 1, 4, 0x25A54, 0x7FFFF, 0x0, 0x0, 0x0, 0x0, 0x0, 0x7FFFF, false, false⟩,
   ⟨0xA4, 1, 4, 0x18181818, 0x3F3F3F3F, 0x0, 0x0, 0x0, 0x0, 0x0, 0x3F3F3F3F, false, false⟩] ++
  [⟨0xA8, 1, 4, 0x0, 0x0, 0x0, 0x3C000, 0x0, 0x0, 0x3C000, 0x0, false, false⟩,
   ⟨0xAC, 1, 4, 0x0, 0x0, 0x0, 0x0, 0x0, 0x0, 0x0, 0x0, false, false⟩,
   ⟨0xB0, 1, 4, 0x0, 0x0, 0x0, 0x0, 0x0, 0x0, 0x0, 0x0, false, false⟩,
   ⟨0xB4, 1, 4, 0x0, 0x0, 0x0, 0x0, 0x0, 0x0, 0x0, 0x0, false, false⟩,
   ⟨0xB8, 1, 4, 0x0, 0xFFFF0000, 0x0, 0x0, 0x0, 0x0, 0xFFFF0000, 0x0, false, false⟩,
   ⟨0xBC, 1, 4, 0x0, 0xFFFF0000, 0x0, 0x0, 0x0, 0x0, 0xFFFF0000, 0x0, false, false⟩,
   ⟨0xC0, 1, 4, 0x0, 0xFFFF0000, 0x0, 0x0, 0x0, 0x0, 0xFFFF0000, 0x0, false, false⟩,
   ⟨0xC4, 1, 4, 0x0, 0x0, 0x0, 0x0, 0x0, 0x0, 0x0, 0x0, false, false⟩,
   ⟨0xD0, 1, 4, 0x417, 0xFFF3FFF, 0x0, 0x0, 0x0, 0x0, 0x0, 0xFFF3FFF, false, false⟩,
   ⟨0xD4, 1, 4, 0x163, 0x1FF, 0x0, 0x0, 0x0, 0x0, 0x0, 0x1FF, false, false⟩,
   ⟨0xD8, 1, 4, 0x182, 0x3FF, 0x0, 0x0, 0x0, 0x0, 0x0, 0x0, false, false⟩,
   ⟨0xDC, 1, 4, 0x0, 0x1FFF, 0x0, 0x0, 0x0, 0x0, 0x0, 0x1FFF, false, false⟩,
   ⟨0xE0, 1, 4, 0x0, 0xFFF, 0x0, 0x0, 0x0, 0x0, 0x0, 0x555, false, false⟩,
   ⟨0xE4, 1, 4, 0x0, 0x1FFF, 0x0, 0x0, 0x0, 0x0, 0x0, 0x0, false, false⟩,
   ⟨0xE8, 1, 4, 0x0, 0xFFFFFF, 0x0, 0x0, 0x0, 0x0, 0x0, 0x0, false, false⟩,
   ⟨0xF0, 1, 4, 0x0, 0x0, 0x0, 0x0, 0x0, 0x0, 0x0, 0x0, false, false⟩] ++
  [⟨0xF4, 1, 4, 0x0, 0x0, 0x0, 0x0, 0x0, 0x0, 0x0, 0x0, false, false⟩,
   ⟨0xF8, 1, 4, 0x0, 0x0, 0x0, 0x0, 0x0, 0x0, 0x0, 0x0, false, false⟩,
   ⟨0xFC, 1, 4, 0x0, 0x0, 0x0, 0x0, 0x0, 0x0, 0x0, 0x0, false, false⟩,
   ⟨0x100, 1, 4, 0x0, 0x3, 0x0, 0x0, 0x0, 0x0, 0x0, 0x1, false, false⟩,
   ⟨0x104, 1, 4, 0x0, 0x0, 0x0, 0x0, 0x0, 0x0, 0x0, 0x0, false, false⟩,
   ⟨0x108, 1, 4, 0x0, 0xFFFF0000, 0x0, 0x0, 0x0, 0x0, 0xFFFF0000, 0x0, false, false⟩,
   ⟨0x10C, 1, 4, 0x0, 0x0, 0x0, 0x0, 0x0, 0x0, 0x0, 0x0, false, false⟩,
   ⟨0x110, 1, 4, 0x803, 0xFFF, 0x0, 0x0, 0x0, 0x0, 0x0, 0x0, false, false⟩,
   ⟨0x114, 1, 4, 0x0, 0x0, 0x0, 0x0, 0x0, 0x0, 0x0, 0x0, false, false⟩,
   ⟨0x140, 16, 4, 0x0, 0x0, 0x0, 0xFFFFFFFF, 0x0, 0x0, 0xFFFFFFFF, 0x0, false, true⟩,
   ⟨0x180, 1, 4, 0x0, 0x0, 0x0, 0x0, 0x0, 0x0, 0x0, 0x0, false, true⟩,
   ⟨0x184, 1, 4, 0x0, 0x0, 0x0, 0x0, 0x0, 0x0, 0x0, 0x0, false, true⟩,
   ⟨0x188, 1, 4, 0x0, 0x0, 0x0, 0x0, 0x0, 0x0, 0x0, 0x0, false, false⟩,
   ⟨0x190, 4, 4, 0x0, 0x0, 0x0, 0xFFFFFFFF, 0x0, 0x0, 0xFFFFFFFF, 0x0, false, true⟩,
   ⟨0x1A0, 1, 4, 0x0, 0x0, 0x0, 0x0, 0x0, 0x0, 0x0, 0x0, false, false⟩,
   ⟨0x260, 16, 4, 0x0, 0xFFFFFFFF, 0x0, 0x0, 0x0, 0x0, 0x0, 0xFFFFFFFF, false, false⟩] ++
  [⟨0x2E0, 16, 4, 0x0, 0xFFFFFFFF, 0x0, 0x0, 0x0, 0x0, 0x0, 0x0, false, false⟩]

/-- The register table of page LGS. -/
def descLgs : List RegDesc :=
  [⟨0x20, 3, 4, 0x0, 0x3, 0x0, 0x0, 0x0, 0x0, 0x0, 0x0, false, false⟩,
   ⟨0x30, 12, 4, 0x0, 0x0, 0x0, 0x0, 0x0, 0x0, 0x0, 0x0, false, false⟩,
   ⟨0x60, 1, 4, 0x0, 0xF, 0x0, 0x0, 0x0, 0x10, 0x10, 0x0, false, false⟩,
   ⟨0x64, 1, 4, 0x0, 0x0, 0x0, 0x0, 0x0, 0x0, 0x0, 0x0, false, false⟩,
   ⟨0x68, 1, 4, 0x0, 0x0, 0x0, 0x0, 0x0, 0x0, 0x0, 0x0, false, false⟩,
   ⟨0x6C, 1, 4, 0x0, 0x0, 0x0, 0x0, 0x0, 0x0, 0x0, 0x0, false, false⟩,
   ⟨0x80, 1, 4, 0x0, 0x1F, 0x0, 0x0, 0x0, 0x0, 0x1F, 0x0, true, false⟩,
   ⟨0x84, 1, 4, 0x0, 0x0, 0x0, 0x0, 0x0, 0x1, 0x1, 0x0, false, false⟩,
   ⟨0x88, 1, 4, 0x0, 0x0, 0x0, 0x0, 0x0, 0x0, 0x0, 0x0, false, false⟩,
   ⟨0x8C, 1, 4, 0x0, 0x0, 0x0, 0x0, 0x0, 0x0, 0x0, 0x0, false, false⟩,
   ⟨0x90, 1, 4, 0x0, 0x0, 0x0, 0x0, 0x0, 0x0, 0x0, 0x0, false, false⟩,
   ⟨0x94, 1, 4, 0x0, 0xFFFF0000, 0x0, 0x0, 0x0, 0x0, 0xFFFF0000, 0x0, false, false⟩,
   ⟨0x98, 1, 4, 0x0, 0x0, 0x0, 0x0, 0x0, 0x0, 0x0, 0x0, false, false⟩,
   ⟨0xA0, 12, 4, 0xF, 0x0, 0x0, 0x0, 0x0, 0x0, 0x0, 0x0, false, false⟩]

/-- The register table of page LGM. -/
def descLgm : List RegDesc :=
  [⟨0x20, 1, 4, 0x0, 0x1, 0x0, 0x0, 0x0, 0x0, 0x0, 0x0, false, false⟩,
   ⟨0x24, 1, 4, 0x0, 0x1FFFFF, 0x0, 0x0, 0x0, 0x0, 0x1FFFFF, 0x0, false, false⟩,
   ⟨0x28, 1, 4, 0x0, 0x0, 0x0, 0x0, 0x0, 0x3, 0x3, 0x0, false, false⟩,
   ⟨0x2C, 1, 4, 0x0, 0x0, 0x0, 0x0, 0x0, 0x0, 0x0, 0x0, false, false⟩,
   ⟨0x30, 1, 4, 0x0, 0x0, 0x0, 0x0, 0x0, 0x0, 0x0, 0x0, false, false⟩,
   ⟨0x34, 1, 4, 0x0, 0x3FF, 0x0, 0x0, 0x0, 0x0, 0x3FF, 0x0, false, false⟩,
   ⟨0x38, 1, 4, 0x0, 0x0, 0x0, 0x0, 0x0, 0x3, 0x3, 0x0, false, false⟩,
   ⟨0x3C, 1, 4, 0x0, 0x0, 0x0, 0x0, 0x0, 0x0, 0x0, 0x0, false, false⟩,
   ⟨0x40, 1, 4, 0x0, 0x0, 0x0, 0x0, 0x0, 0x0, 0x0, 0x0, false, false⟩,
   ⟨0x50, 1, 4, 0x0, 0xFFFF0000, 0x0, 0x0, 0x0, 0x0, 0xFFFF0000, 0x0, false, false⟩,
   ⟨0x54, 1, 4, 0x0, 0xFFFF0000, 0x0, 0x0, 0x0, 0x0, 0xFFFF0000, 0x0, false, false⟩,
   ⟨0x58, 1, 4, 0x0, 0x0, 0x0, 0x0, 0x0, 0x0, 0x0, 0x0, false, false⟩,
   ⟨0x80, 52, 4, 0x0, 0xFFFFFFFF, 0x0, 0x0, 0x0, 0x0, 0xFFFFFFFF, 0x0, false, false⟩,
   ⟨0x150, 7, 4, 0x0, 0xFFFFFFFF, 0x0, 0x0, 0x0, 0x0, 0xFFFFFFFF, 0x0, false, false⟩]

/-- The register table of page LGP. -/
def descLgp : List RegDesc :=
  [⟨0x20, 1, 4, 0x0, 0x1FF, 0x0, 0x0, 0x0, 0x0, 0x1FF, 0x0, false, false⟩,
   ⟨0x24, 1, 4, 0x0, 0x0, 0x0, 0x0, 0x0, 0x3, 0x3, 0x0, false, false⟩,
   ⟨0x28, 1, 4, 0x0, 0x0, 0x0, 0x0, 0x0, 0x0, 0x0, 0x0, false, false⟩,
   ⟨0x2C, 1, 4, 0x0, 0x0, 0x0, 0x0, 0x0, 0x0, 0x0, 0x0, false, false⟩,
   ⟨0x30, 1, 4, 0x0, 0xFFF, 0x0, 0x0, 0x0, 0x0, 0x0, 0x0, false, false⟩,
   ⟨0x40, 1, 4, 0x0, 0xFFFF0000, 0x0, 0x0, 0x0, 0x0, 0xFFFF0000, 0x0, false, false⟩,
   ⟨0x44, 1, 4, 0x0, 0xFFFF0000, 0x0, 0x0, 0x0, 0x0, 0xFFFF0000, 0x0, false, false⟩,
   ⟨0x48, 1, 4, 0x0, 0xFFFF0000, 0x0, 0x0, 0x0, 0x0, 0xFFFF0000, 0x0, false, false⟩,
   ⟨0x4C, 1, 4, 0x0, 0xFFFF0000, 0x0, 0x0, 0x0, 0x0, 0xFFFF0000, 0x0, false, false⟩,
   ⟨0x50, 1, 4, 0x0, 0x0, 0x0, 0x0, 0x0, 0x0, 0x0, 0x0, false, false⟩,
   ⟨0x54, 1, 4, 0x0, 0x0, 0x0, 0x0, 0x0, 0x0, 0x0, 0x0, false, false⟩,
   ⟨0x80, 12, 8, 0x0, 0x0, 0x0, 0x0, 0x0, 0x0, 0x0, 0x0, false, false⟩,
   ⟨0x84, 12, 8, 0x0, 0x0, 0x0, 0x0, 0x0, 0x0, 0x0, 0x0, false, false⟩,
   ⟨0x100, 32, 4, 0x0, 0xFFFFFFFF, 0x0, 0x0, 0x0, 0x0, 0xFFFFFFFF, 0x0, false, false⟩]

/-- The register table of page FE. -/
def descFe : List RegDesc :=
  [⟨0x20, 1, 4, 0x0, 0x0, 0x0, 0x0, 0x0, 0x0, 0x0, 0x0, false, false⟩,
   ⟨0x24, 1, 4, 0x10000, 0x1FFFFF, 0x0, 0x0, 0x0, 0x0, 0x1, 0x0, false, false⟩,
   ⟨0x28, 1, 4, 0x0, 0x1, 0x0, 0x0, 0x0, 0x0, 0x1, 0x0, false, false⟩,
   ⟨0x2C, 1, 4, 0x0, 0x0, 0x0, 0x0, 0x0, 0x7, 0x7, 0x0, false, false⟩,
   ⟨0x30, 1, 4, 0x0, 0x0, 0x0, 0x0, 0x0, 0x0, 0x0, 0x0, false, false⟩,
   ⟨0x34, 1, 4, 0x0, 0x0, 0x0, 0x0, 0x0, 0x0, 0x0, 0x0, false, false⟩,
   ⟨0x38, 1, 4, 0x0, 0x0, 0x0, 0x0, 0x0, 0x0, 0x0, 0x0, false, false⟩,
   ⟨0x3C, 1, 4, 0x0, 0x0, 0x0, 0x0, 0x0, 0x0, 0x0, 0x0, false, false⟩,
   ⟨0x40, 1, 4, 0x0, 0x0, 0x0, 0x0, 0x0, 0x0, 0x0, 0x0, false, false⟩,
   ⟨0x44, 1, 4, 0x0, 0x0, 0x0, 0x0, 0x0, 0x0, 0x0, 0x0, false, false⟩,
   ⟨0x48, 1, 4, 0x0, 0x0, 0x0, 0x0, 0x0, 0x0, 0x0, 0x0, false, false⟩,
   ⟨0x4C, 1, 4, 0x0, 0x0, 0x0, 0x0, 0x0, 0x0, 0x0, 0x0, false, false⟩,
   ⟨0x50, 1, 4, 0x0, 0xFFFF0000, 0x0, 0x0, 0x0, 0x0, 0xFFFF0000, 0x0, false, false⟩,
   ⟨0x54, 1, 4, 0x0, 0xFFFF0000, 0x0, 0x0, 0x0, 0x0, 0xFFFF0000, 0x0, false, false⟩,
   ⟨0x58, 1, 4, 0x0, 0xFFFF0000, 0x0, 0x0, 0x0, 0x0, 0xFFFF0000, 0x0, false, false⟩,
   ⟨0x5C, 1, 4, 0x0, 0xFFFF0000, 0x0, 0x0, 0x0, 0x0, 0xFFFF0000, 0x0, false, false⟩] ++
  [⟨0x60, 1, 4, 0x0, 0x0, 0x0, 0x0, 0x0, 0x0, 0x0, 0x0, false, false⟩,
   ⟨0x64, 1, 4, 0x0, 0x0, 0x0, 0x0, 0x0, 0x0, 0x0, 0x0, false, false⟩,
   ⟨0x80, 16, 4, 0x0, 0xFFFFFFFF, 0x0, 0x0, 0x0, 0x0, 0xFFFFFFFF, 0x0, false, false⟩,
   ⟨0xC0, 1, 4, 0x0, 0xFFFF, 0x0, 0x0, 0x0, 0x0, 0xFFFF, 0x0, false, false⟩,
   ⟨0xC4, 1, 4, 0x0, 0x0, 0x0, 0x0, 0x0, 0x0, 0x0, 0x0, false, false⟩,
   ⟨0xC8, 16, 4, 0x0, 0x0, 0x0, 0x0, 0x0, 0x0, 0x0, 0x0, false, false⟩,
   ⟨0x108, 1, 4, 0x0, 0x0, 0x0, 0x0, 0x0, 0x0, 0x0, 0x0, false, false⟩,
   ⟨0x10C, 1, 4, 0x0, 0xFFFF, 0x0, 0x0, 0x0, 0x0, 0xFFFF, 0x0, false, false⟩]

/-- The register table of a page, without header and trailer. -/
def pageDescs : PageKind → List RegDesc
  | .dev => descDev
  | .pwr => descPwr
  | .clk => descClk
  | .tb => descTb
  | .plk => descPlk
  | .jnl => descJnl
  | .irq => descIrq
  | .bmx => descBmx
  | .htr => descHtr
  | .ic => descIc
  | .bat => descBat
  | .mem => descMem
  | .twn => descTwn
  | .grp => descGrp
  | .glv => descGlv
  | .gp => descGp
  | .tpt => descTpt
  | .pnc => descPnc
  | .cal => descCal
  | .mon => descMon
  | .prf => descPrf
  | .inj => descInj
  | .lgc => descLgc
  | .ch => descCh
  | .lgs => descLgs
  | .lgm => descLgm
  | .lgp => descLgp
  | .fe => descFe

/-- The page a BAR 0 address lies in (R28, Table 2-4); `none` outside the pages. -/
def pageKind (a : Nat) : Option PageKind :=
  let p := a / 0x1000
  if p < 0x10 then
    match p with
    | 0 => some .dev | 1 => some .pwr | 2 => some .clk | 3 => some .tb | 4 => some .plk | 5 => some .jnl | 6 => some .irq
    | 7 => some .bmx | 8 => some .htr | 9 => some .ic | 10 => some .ic | 11 => some .bat | 12 => some .mem | 13 => some .twn
    | 14 => some .grp | _ => some .glv
  else if p < 0x18 then some .gp
  else if p < 0x1C then some .tpt
  else if p = 0x1C then some .pnc
  else if p = 0x1D then some .cal
  else if p = 0x1E then some .mon
  else if p = 0x1F then some .prf
  else if p = 0x20 then some .inj
  else if p < 0x100 then none
  else if p < 0x200 then
    match p % 16 with
    | 0 => some .lgc | 13 => some .lgs | 14 => some .lgm | 15 => some .lgp | _ => some .ch
  else if p < 0x240 then some .fe
  else none

/-- The row of a register table that an offset falls in. -/
def descAt (o : Nat) (l : List RegDesc) : Option RegDesc :=
  l.find? (fun d => decide (d.off ≤ o) && decide (o < d.off + d.n * d.stride) && decide ((o - d.off) % d.stride = 0))

/-- The row for an address, its alias taken off (R23, R25); the holding copies of R23 are found at their own offset. -/
def regDesc (a : Nat) : Option RegDesc :=
  match pageKind a with
  | none => none
  | some k =>
    let o := a % 0x400
    match descAt o descHeader with
    | some d => some d
    | none => descAt o (pageDescs k)

/-- The key of the first word of entry `i` of window space `sp`; an entry has at most 64 words. The spaces: 1 path entries
(R126), 2 tributary entries (R127), 3 container entries (R180), 4 VCAT descriptors (R181), 5 selector entries (R208), 6 batt
paths (R280); space + 16 holds their holding copies (R45). -/
def entryKey (sp i : Nat) : Nat := 0x100000000000000 * sp + 256 * i

/-- The reset words of window entries: path entries have SF_EXP 4 and SD_EXP 7 (R126); selector entries HEADROOM 250, DSTEP_THR 2
and no operator request held (R208). -/
def entryResetWord (k : Nat) : Word :=
  if k / 0x100000000000000 = 1 ∧ k % 256 = 4 then 0xE8
  else if k / 0x100000000000000 = 5 ∧ k % 256 = 16 then 0x000200FA
  else if k / 0x100000000000000 = 5 ∧ k % 256 = 20 then 0x00780000
  else 0

/-- The reset word of a register key, by the register tables; a key without a row reads 0. Four words differ from one page to
another: DEV.PG_ID (R2), DEV.RST_CAUSE after power-on (R387), LOX.ACT_ENT (R149: the lower-order reset entry is 0), and
DISC_CFG.RATE_MASK of a quad's lead lane, the one lane of four that hunts rates 9 and 11 (R86). -/
def resetWordOf (k : Nat) : Word :=
  if 0x100000000000000 ≤ k then entryResetWord k else
  let a := k % 0x100000000
  if a = 0 then 0x0D192000
  else if a = 0x30 then 0x00010000
  else if a = 0xA064 then 0
  else
    match regDesc a with
    | none => 0
    | some d =>
      if 0x100000 ≤ a ∧ a < 0x200000 ∧ a % 0x1000 = 0x20 ∧ a / 0x1000 % 16 ≠ 13 ∧ a / 0x1000 % 16 ≠ 14 ∧ a / 0x1000 % 16 ≠ 15
          ∧ a / 0x1000 % 16 % 4 = 1 then BitVec.ofNat 32 (d.reset + 0xA00)
      else BitVec.ofNat 32 d.reset

/-- The occurrence counters of a page: offset, how many, stride, and the offset and bit of the first one's OCC_LOST flag
(R39: "Each page defines where its SAT and OCC_LOST flags sit"). -/
structure OccDesc where
  off : Nat
  n : Nat
  stride : Nat
  lostOff : Nat
  lostBit : Nat
  deriving DecidableEq, Repr

def occHeader : List OccDesc := [⟨0x3E0, 1, 4, 0x3F8, 0⟩, ⟨0x3E4, 1, 4, 0x3F8, 1⟩, ⟨0x3E8, 1, 4, 0x3F8, 2⟩, ⟨0x3EC, 1, 4, 0x3F8, 3⟩]
def occPwr : List OccDesc := [⟨0x84, 1, 4, 0x8C, 0⟩, ⟨0x88, 1, 4, 0x8C, 1⟩]
def occClk : List OccDesc := [⟨0x30, 1, 4, 0x34, 16⟩, ⟨0x40, 1, 4, 0x44, 5⟩]
def occTb : List OccDesc := [⟨0x74, 1, 4, 0x1000000000074, 0⟩, ⟨0x158, 1, 4, 0x15C, 0⟩]
def occPlk : List OccDesc := [⟨0x70, 1, 4, 0x7C, 0⟩, ⟨0x74, 1, 4, 0x7C, 1⟩, ⟨0x78, 1, 4, 0x7C, 2⟩]
def occJnl : List OccDesc := [⟨0x90, 1, 4, 0x94, 0⟩]
def occBmx : List OccDesc := [⟨0x50, 1, 4, 0x5C, 0⟩, ⟨0x54, 1, 4, 0x5C, 1⟩, ⟨0x58, 1, 4, 0x5C, 2⟩, ⟨0x180, 8, 4, 0x1C0, 0⟩, ⟨0x1A0, 8, 4, 0x1C0, 8⟩]
def occHtr : List OccDesc := [⟨0x40, 1, 4, 0x44, 0⟩]
def occIc : List OccDesc := [⟨0x70, 1, 4, 0x80, 0⟩, ⟨0x74, 1, 4, 0x80, 1⟩, ⟨0x78, 1, 4, 0x80, 2⟩]
def occBat : List OccDesc := [⟨0xA0, 1, 4, 0xB0, 0⟩, ⟨0xA4, 1, 4, 0xB0, 1⟩, ⟨0xA8, 1, 4, 0xB0, 2⟩, ⟨0xAC, 1, 4, 0xB0, 3⟩]
def occTwn : List OccDesc := [⟨0xA0, 1, 4, 0xB8, 0⟩, ⟨0xA4, 1, 4, 0xB8, 1⟩, ⟨0xA8, 1, 4, 0xB8, 2⟩, ⟨0xAC, 1, 4, 0xB8, 3⟩, ⟨0xB0, 1, 4, 0xB8, 4⟩, ⟨0xB4, 1, 4, 0xB8, 5⟩]
def occGrp : List OccDesc := [⟨0xB0, 1, 4, 0xBC, 0⟩, ⟨0xB4, 1, 4, 0xBC, 1⟩, ⟨0xB8, 1, 4, 0xBC, 2⟩]
def occGp : List OccDesc := [⟨0x60, 1, 4, 0x78, 0⟩, ⟨0x64, 1, 4, 0x78, 1⟩, ⟨0x68, 1, 4, 0x78, 2⟩, ⟨0x6C, 1, 4, 0x78, 3⟩, ⟨0x70, 1, 4, 0x78, 4⟩, ⟨0x74, 1, 4, 0x78, 5⟩]
def occTpt : List OccDesc := [⟨0x30, 1, 4, 0x38, 0⟩, ⟨0x34, 1, 4, 0x38, 1⟩]
def occPnc : List OccDesc := [⟨0x40, 1, 4, 0x44, 0⟩, ⟨0x84, 1, 4, 0x8C, 0⟩]
def occPrf : List OccDesc := [⟨0xD0, 1, 4, 0xD4, 0⟩]
def occInj : List OccDesc := [⟨0x58, 1, 4, 0x5C, 0⟩]
def occCh : List OccDesc := [⟨0x30, 1, 4, 0x38, 0⟩, ⟨0x34, 1, 4, 0x38, 1⟩, ⟨0xB8, 1, 4, 0xC4, 0⟩, ⟨0xBC, 1, 4, 0xC4, 1⟩, ⟨0xC0, 1, 4, 0xC4, 2⟩, ⟨0x108, 1, 4, 0x10C, 0⟩]
def occLgs : List OccDesc := [⟨0x94, 1, 4, 0x98, 0⟩]
def occLgm : List OccDesc := [⟨0x50, 1, 4, 0x58, 0⟩, ⟨0x54, 1, 4, 0x58, 1⟩]
def occLgp : List OccDesc := [⟨0x40, 1, 4, 0x50, 0⟩, ⟨0x44, 1, 4, 0x50, 1⟩, ⟨0x48, 1, 4, 0x50, 2⟩, ⟨0x4C, 1, 4, 0x50, 3⟩]
def occFe : List OccDesc := [⟨0x50, 1, 4, 0x60, 0⟩, ⟨0x54, 1, 4, 0x60, 1⟩, ⟨0x58, 1, 4, 0x60, 2⟩, ⟨0x5C, 1, 4, 0x60, 3⟩]

/-- The occurrence counters of a page's own table. -/
def pageOccs : PageKind → List OccDesc
  | .dev => []
  | .pwr => occPwr
  | .clk => occClk
  | .tb => occTb
  | .plk => occPlk
  | .jnl => occJnl
  | .irq => []
  | .bmx => occBmx
  | .htr => occHtr
  | .ic => occIc
  | .bat => occBat
  | .mem => []
  | .twn => occTwn
  | .grp => occGrp
  | .glv => []
  | .gp => occGp
  | .tpt => occTpt
  | .pnc => occPnc
  | .cal => []
  | .mon => []
  | .prf => occPrf
  | .inj => occInj
  | .lgc => []
  | .ch => occCh
  | .lgs => occLgs
  | .lgm => occLgm
  | .lgp => occLgp
  | .fe => occFe

/-- The row of an occurrence counter at an offset. -/
def occAt (o : Nat) (l : List OccDesc) : Option OccDesc :=
  l.find? (fun d => decide (d.off ≤ o) && decide (o < d.off + d.n * d.stride))

/-- The row of the occurrence counter that a register key names, if it is one. -/
def occDesc (k : Nat) : Option OccDesc :=
  match pageKind (k % 0x100000000) with
  | none => none
  | some p =>
    match occAt (k % 0x400) occHeader with
    | some d => some d
    | none => occAt (k % 0x400) (pageOccs p)

/-- The OCC_LOST flag of the occurrence counter with key `k`; the bank of a banked counter stays. -/
def lostFld (k : Nat) : Fld :=
  match occDesc k with
  | none => ⟨k, 31, 0⟩
  | some d => ⟨k - k % 0x400 + d.lostOff, d.lostBit + (k % 0x400 - d.off) / d.stride, 1⟩

end Sys2Proof.Machine
end

