-- ==== Sys2Proof/Machine/State.lean ====
section
/-!
DEFINITION. The state of the block: every register, table, buffer, counter and pin the spec gives it, as plain data, and the queue
of the commands that wait. INVENTORY.md lists each with the rule that names it and its reset value.
-/

namespace Sys2Proof.Machine

/-- Why a command stops the block for good. No meaning of this model ends so: every command of the table has an effect or
leaves the block as it is. The constructor stands for an operand that names nothing the block has; safe, and no arm raises
it. -/
inductive Fault where
  | noSuchUnit (index : Nat)
  deriving DecidableEq, Repr

/-- Why a command has no meaning. `notModelled` is answered by an arm of the dispatch that has no meaning yet; safe. -/
inductive Refusal where
  | notModelled (mnemonic : String)
  deriving DecidableEq, Repr

/-- A buffered configuration write that waits for its boundary (R17, R36): the register's key, the bits that wait, what was in
force before, the channel whose line frame is the boundary (`none`: the system frame), how many boundaries still pass, and the
offset and master that PG_WADDR names where a scheduled item overrides it (R61). -/
structure PendW where
  addr : Nat
  mask : Word
  old : Word
  line : Option Nat
  wait : Nat
  off : Nat
  m : Nat
  deriving DecidableEq, Repr

/-- How the latest access of a bus master ended: with a bus error or not, and the words a read returned (R24, R359). -/
structure Resp where
  ok : Bool
  data : List Word
  deriving DecidableEq, Repr

/-- A word accepted into an LG's posted-write buffer (R35): master and its bank, BAR 0 address (alias included), value, the byte mask
that is left of it, and what hardware writes in the cycle in which it is applied (R30). -/
structure PostW where
  m : Nat
  bank : Nat
  addr : Nat
  val : Word
  mask : Word
  hw : Option HwWrite
  deriving DecidableEq, Repr

/-- An action in the Plank's pending queue (R53, R58): sequence number, resolved boundary, its items and header, the master that
admitted it, how it travels to the twin, the originator's number, and, on a manager, what the members reported (R64). -/
structure Action where
  seq : Nat
  sfn : Nat
  tick : Nat
  us : Bool
  items : List Item
  hdr : ActHdr
  master : Nat
  mirroredIn : Bool
  mirrorOut : Bool
  unmirrored : Bool
  groupIn : Bool
  late : Bool
  peerSeq : Nat
  /-- the check words of the message that brought it, one per item: STBY_SUM or idle-bank CRC (R145, R261) -/
  check : List Nat
  deriving DecidableEq, Repr

/-- A journal record (R64 to R67). -/
structure JRec where
  seq : Nat
  sfn : Nat
  status : Nat
  tick : Nat
  items : Nat
  index : Nat
  master : Nat
  latePol : Bool
  applied : Nat
  failed : Nat
  reason : Nat
  tag : Nat
  mirroredIn : Bool
  mirrorOut : Bool
  unmirrored : Bool
  group : Bool
  peerSeq : Nat
  /-- PARTIAL: the items applied, bit = index (R65) -/
  map : Nat
  deriving DecidableEq, Repr

/-- A group action held on its manager until every addressed member has reported (R64, R330): the action, the members that have
not reported, the mask of those that did not report DONE, the reason of the first, and this unit's own outcome once known. -/
structure GroupJob where
  act : Action
  waiting : List Nat
  failed : Nat
  reason : Nat
  own : Option JRec
  deriving DecidableEq, Repr

/-- The Plank and the journal (03_plank_and_determinism.md). -/
structure Plk where
  /-- staged items, key 256 × bank + index -/
  staged : Tab Item
  nextSeq : Nat
  /-- pending actions, in the order of their sequence numbers -/
  queue : List Action
  /-- actions dispatched to their units, waiting for the boundary -/
  sent : List Action
  groups : List GroupJob
  /-- the journal ring, key record number mod 1,024 -/
  ring : Tab JRec
  /-- a search in progress, key master: 1 and the record number for one found in the ring as sampled, else 0 (R67) -/
  find : Tab (Nat × Nat)
  deriving DecidableEq, Repr

/-- The time base (10_time_base_timestamping.md, R210 to R216): SEC, NS and FRAC as one count of 2^-32 ns, the increment in
force, the TCLK cycles since the latest slewed nanosecond, the time of the latest discipline event. -/
structure Tb where
  t : Nat
  inc : Nat
  slewCnt : Nat
  disc : Nat
  deriving DecidableEq, Repr

/-- A transition of DEV.MODE that waits for its boundary (R381): the command's number, and the boundaries to wait (R17). -/
structure ModeReq where
  cmd : Nat
  wait : Nat
  deriving DecidableEq, Repr

/-- Power, clocks and mode state that no register shows (17_power_reset_modes.md, 01_architecture.md). -/
structure Pwr where
  /-- the internal cold reset is held (R375) -/
  inReset : Bool
  /-- the bus clock has lost lock: only a cold reset recovers (R20) -/
  mclkLost : Bool
  /-- inputs present since cold reset (R19) -/
  refSeen : Nat
  modeReqs : List ModeReq
  /-- strap values sampled at the end of the internal reset (R421) -/
  straps : Nat
  /-- consecutive measurements beyond and within the limits, per LG: temperature beyond, within, voltage beyond, within -/
  rgn : Tab (List Nat)
  fusesRead : Bool
  /-- boundary scan drives the balls (R425) -/
  bscan : Bool
  deriving DecidableEq, Repr

/-- Host attachment (16_host_bus_interrupts.md): the SMBus target's address and status, the vectors' levels and arming, the
MSI-X table, the flash. -/
structure Hst where
  smbAddr : Nat
  smbStat : Nat
  /-- an indirect access whose clock stretching is running (R353) -/
  smbBusy : Bool
  /-- vector levels as last evaluated, and the vectors that have not sent since their EOI (R368) -/
  vecLvl : Nat
  armed : Nat
  msixEn : Bool
  fnMask : Bool
  vecMask : Nat
  vecPend : Nat
  /-- MSI-X table words 0 to 127 (R347, BAR 4) -/
  msix : Tab Word
  /-- SPI flash words, key word address (R362) -/
  flash : Tab Word
  /-- the Hatter core has booted an image that has not reported RUN yet -/
  booting : Bool
  /-- watchdog expiries within the current minute (R362) -/
  wdogRun : Nat
  /-- the bus-error status bit of the JTAG-to-bus data register (R359) -/
  jtagErr : Bool
  /-- per vector, one more than the ns at which its unacknowledged message was sent (R404, source 6) -/
  sentAt : Tab Nat
  /-- the working SRAM, key word number (R354, Table 16-5) -/
  sram : Tab Word
  /-- AER has logged a Completer Abort (R348) -/
  aer : Bool
  /-- REMAP.SWAP has been written since the latest Hatter boot (R355) -/
  remapLk : Bool
  /-- the INT_N pin is driven low (R369) -/
  intN : Bool := false
  /-- the base address words of the PCIe configuration space, words 4 to 9 (R347) -/
  bars : Tab Word := []
  deriving DecidableEq, Repr

/-- What the block sends out: an MSI-X message of a vector (R368), a message on a Gelvy control channel (R341), a frame of a timing
port (R227), a word written to host memory (R350), a frame to a client (R172), bytes of the ToD UART (R236), a frame of a
GFP-F mapper, one whose header checks point 0x10 has spoilt (PARAM), the line frames of a channel that began in a system frame, as they
enter the scrambler (R103, R285), a control message whose CRC an injection has spoilt (point 0x17), a superframe of a Gelvy port with its transmit SFN,
the codewords that point 0x18 spoils and by how many symbols, and the through-slots that do not carry AIS fill (R334, R335). -/
inductive Wire where
  | msix (v : Nat)
  | msg (port : Nat) (m : Msg)
  | badMsg (port : Nat) (m : Msg)
  | superframe (port sfn badCw symbols : Nat) (slots : List (Nat × Nat × List Byte))
  | tport (port : Nat) (frame : List Byte)
  | dma (addr : Nat) (words : List Word)
  | client (ch : Nat) (frame : List Byte)
  | gfp (ch : Nat) (frame : List Byte)
  | badGfp (ch how : Nat) (frame : List Byte)
  | line (ch sfn : Nat) (frames : List (List Byte))
  | tod (bytes : List Byte)
  deriving DecidableEq, Repr

/-- One Gelvy port (15_group_gelvy.md): per class the next SEQ to send, the SEQ expected, the unacknowledged messages, those that wait for room, the
retransmissions without progress (R342); good and bad SM blocks and superframes without LM in a row (Table 15-6); the
time-transfer sums (R233); what the current frame's through-slots carry. -/
structure GpSt where
  tx0 : Nat
  tx1 : Nat
  rx0 : Nat
  rx1 : Nat
  un0 : List (Nat × Msg)
  un1 : List (Nat × Msg)
  wait0 : List Msg
  wait1 : List Msg
  try0 : Nat
  try1 : Nat
  smGood : Nat
  smBad : Nat
  lmGood : Nat
  lmMiss : Nat
  ttN : Nat
  ttOff : Int
  ttDly : Int
  /-- the peer's HELLO has SLOT_EN set and matches -/
  match_ : Bool
  /-- sender's number of the frame whose slots were received, and the fill map: 0 data, 1 AIS, 2 unequipped per through-slot -/
  rxSfn : Nat
  rxFill : Tab Nat
  rxBytes : Tab (List Byte)
  /-- a HELLO has come within the last 3 HELLO periods (R327) -/
  hello : Bool
  /-- the member this port serves on a manager: i as its PORT, 8 + i as its ALT_PORT, 0 none (R327) -/
  member : Nat
  /-- the stamps of the latest superframes that have left and come, each under its SFN (R219, R233) -/
  deps : List (Nat × Nat) := []
  arrs : List (Nat × Nat) := []
  deriving DecidableEq, Repr

/-- What the detectors of a tributary monitor have read, the latest first (R123): the longest run of zeros, framing bits and M-frames in
error, zeros per interval of the AIS rule, alarms, the CRC-4 multiframe lost. -/
structure TribSt where
  zeros : Nat
  frame : List Bool
  mbits : List Bool
  ais : List Nat
  alarm : List Bool
  crc4 : Bool
  deriving DecidableEq, Repr

/-- Twin operation (14_twin_operation.md). -/
structure Twn where
  /-- sequence of the latest action mirrored or received; writes the pair forwarded, sent or left out, and performed (R300, R318) -/
  actSeq : Nat
  fwdSeq : Nat
  fwdDone : Nat
  /-- actions marked UNMIRRORED since the link last came up -/
  unmirrored : Nat
  /-- the peer's latest CRC-good heartbeat (R300, R315) -/
  beat : Option Beat
  /-- the state an ISOLATED standby left (Table 14-2) -/
  prev : Nat
  /-- boundary C, while the join waits for it (R304) -/
  joinAt : Option Nat
  /-- per region: generation captured or applied, capture SFN, generation and cells of the image in staging (R305, R306) -/
  gen : Tab Nat
  captureAt : Tab Nat
  staged : Tab (Nat × List (Nat × Nat))
  /-- a standby's own PM counters at the capture SFN of their region (R307) -/
  own : Tab (List (Nat × Nat))
  /-- regions COMPLETE and STAGED on this unit, as masks -/
  complete : Nat
  stagedMap : Nat
  /-- the region an active has announced or captured and the standby has not acknowledged, and its capture SFN (R306) -/
  flight : Option (Nat × Nat)
  /-- forwarded writes and mirrored items held until their region is applied (R306) -/
  held : List (Nat × Msg)
  /-- mismatch history of each channel, latest first: up to 15 compared frames (R311) -/
  hist : Tab (List Bool)
  /-- the claim was lost and the decision is to come (R313); a decided takeover waits for its boundary: 0 link up, 1 bound by
  ELIGIBLE, 2 forced (R314 to R316) -/
  lost : Bool
  takeover : Option Nat
  /-- SFN of the latest handover boundary dispatched (R321) -/
  handAt : Option Nat
  /-- own digests of the last frames, latest first (R310) -/
  digests : List (Nat × Digests)
  /-- the time base's ns at which CONVERGING was entered (R309), and the verification window started (R320) -/
  convAt : Nat
  tvwAt : Nat
  /-- lanes that have shown RDI, BDI or remote fault in every frame of the window's last quarter so far (R320) -/
  tvwRdi : Nat
  deriving DecidableEq, Repr

/-- A port's timestamp FIFOs (R224, R225): entries as words E0 to E3, oldest first, and the number of the next entry. -/
structure PtSt where
  rx : List (List Word)
  tx : List (List Word)
  rxNum : Nat
  txNum : Nat
  deriving DecidableEq, Repr

/-- A PPS_OUT pulse that waits for its start (R235): start instant in ns, width in µs, polarity. -/
structure PpsEdge where
  start : Nat
  width : Nat
  low : Bool
  seq : Nat
  deriving DecidableEq, Repr

/-- The time pins and the ToD UART (R235, R236), and the frames received on the timing ports that wait for a descriptor (R350). -/
structure Pin where
  pps : List PpsEdge
  /-- a pulse in progress: the level it returns to -/
  pulse : Option Bool
  /-- a PPS_OUT edge has followed ARM; the send has started -/
  todEdge : Bool
  todSending : Bool
  /-- per timing port: stamp words and frame -/
  tpRx : Tab (List (List Word × List Byte))
  /-- when the latest edge of PPS_IN was taken, in 2^-16 ns (R424) -/
  ppsIn : Option Nat
  deriving DecidableEq, Repr

/-- A candidate alignment of the carder (R90, R91): position, consecutive matches, MFAS of the latest, confirmed. -/
structure Cand where
  pos : Nat
  n : Nat
  mfas : Nat
  conf : Bool
  deriving DecidableEq, Repr

/-- A lane's discovery machine and a channel's carder and ingress, beyond what the registers show (chapters 04 to 06). -/
structure LaneSt where
  /-- rate of the latest IN_SERVICE partner (R77) -/
  lastRate : Option Nat
  /-- rates tried in this sweep, as a mask; a lock in it; a blocking member met in it (R77, R75) -/
  tried : Nat
  locked : Bool
  blocked : Bool
  /-- 8 ms have passed since entry into FRAME_HUNT (R78) -/
  late8 : Bool
  /-- trace capture: latest message, how many alike, the completed capture (R78) -/
  capMsg : List Byte
  capN : Nat
  cap : Option (List Byte)
  /-- SS bits: latest value, frames in a row; the flavour found, true = SDH (R78) -/
  ss : Nat
  ssN : Nat
  flav : Option Bool
  /-- a host admission waiting for its boundary: format captured, boundaries to wait (R80) -/
  adm : Option (Nat × Nat)
  /-- AUTO_ADMIT is to be looked at, at the next boundary (R80) -/
  auto : Bool
  /-- SFN of the admission (R82) -/
  admSfn : Nat
  /-- format whose replacement signal the line slots carry when not in service (Table 4-4) -/
  repl : Nat
  /-- the lead lane holds a bond (R75) -/
  bond : Bool
  /-- the lane is in LOS (R110) -/
  los : Bool
  cands : List Cand
  /-- the tie window is open; candidates in TIE with the outcome of their check (R92) -/
  tieOpen : Bool
  ties : List (Cand × Option Bool)
  lockPos : Nat
  errN : Nat
  mfas : Nat
  oomN : Nat
  imN : Nat
  /-- TRACE_WAIT has expired in this stay in FRAME_HUNT (R76, R78) -/
  twExp : Bool := false
  /-- position of the candidate whose confirmation opened the tie window; of the sole confirmed candidate that waits for its next
  expected pattern position after the window closed (R92) -/
  tiePos : Nat := 0
  sole : Option Nat := none
  /-- the logical lanes of a bond are framed, identified and deskewed (R98, R99) -/
  aligned : Bool := false
  /-- position of the previous in-frame period of this discovery run (R94) -/
  prevPos : Option Nat
  /-- hi_ber, local fault, remote fault as bits 0 to 2 (R112) -/
  eth : Nat
  /-- errored blocks of this system frame; LOS or block-lock loss in it (R119) -/
  ethErr : Nat
  ethDown : Bool
  /-- sequence extension: latest EXT and TV, frames in a row that keep and that break the rule, locked (R194) -/
  ext : Nat
  extGood : Nat
  extBad : Nat
  extLock : Bool
  /-- the latest B2 or SM BIP-8 error count, for REI-L and SM BEI (Table 6-7) -/
  back : Nat
  /-- the latest BIP-8 error counts of the HO ODU PM and of TCM1 to TCM6, for BEI of originated levels (R104, R168) -/
  backs : List Nat := []
  deriving DecidableEq, Repr

/-- A value under acceptance (R110, R111): the latest, frames in a row, the accepted one. -/
structure Acc where
  cand : Nat
  n : Nat
  acc : Option Nat
  deriving DecidableEq, Repr

/-- What watches one entity for defects (R109 to R114): per condition its present value and how many frames it has held; the latest
valid pointer and how many equal valid ones in a row, with normal NDF and with any; values and trace under acceptance; the
errors of past frames, latest first; declared defects (bit = number of the Defect constructor); BER SF and SD. -/
structure Mon where
  runs : List (Bool × Nat)
  ptr : Nat
  eqN : Nat
  eqA : Nat
  accs : List Acc
  msg : List Byte
  msgN : Nat
  msgAcc : Option (List Byte)
  errs : List Nat
  raw : Nat
  sf : Bool
  sd : Bool
  deriving DecidableEq, Repr

/-- The elastic store of an ingress path (R159): kept; the bytes it holds, oldest first; the place in the SPE of the first; it is to
recentre; the frames in which no internal justification is made. -/
structure Spe where
  live : Bool
  buf : List Byte
  phase : Nat
  fresh : Bool
  hold : Nat
  deriving DecidableEq, Repr

/-- The ODU store of an ingress container and its mapper (R164): kept; the octets it holds, oldest first; those that came in the latest
frame; CNT of the latest carrier frame and the count that this frame itself carried; the place in the replacement stream; the store
has filled to its centre. -/
structure OduSt where
  live : Bool
  buf : List Byte
  got : Nat
  cnt : Nat
  was : Nat
  pos : Nat
  run : Bool
  deriving DecidableEq, Repr

/-- What an egress channel sends: the line frames that begin in the present system frame, as they enter the scrambler (R285); the OPU
parities of the two OTU frames before the next (R103); the counts of the last 64 system frames, latest first, and 64 × 2^40 times the
octets per system frame at which the lane's divider runs (R168); its credit toward the next frame that it makes itself. -/
structure EgLine where
  frames : List (List Byte)
  bips : List Byte
  cnts : List Nat
  div : Nat
  due : Nat
  mfas : Nat
  deriving DecidableEq, Repr

/-- A two-page interchange memory (07_slot_interchange.md, R136, R149): entries, key page × 2^20 + word index; stored errors (1
single-bit, 2 uncorrectable, R144) under the same keys; those of the active page already found; the command that runs (1 SEAL,
3 COPY_ACTIVE); its copy progress is left to its completion. -/
structure Ic where
  ent : Tab Word
  bad : Tab Nat
  found : List Nat
  run : Nat
  deriving DecidableEq, Repr

/-- A start or stop of an injection slot that waits for its boundary (R289): slot, argument, boundaries to wait; the command bit. -/
structure InjReq where
  slot : Nat
  arg : Nat
  wait : Nat
  cmd : Nat
  deriving DecidableEq, Repr

/-- A cell of the batt store (R271): the frame it was written for, its fill mark (0 data, 1 AIS, 2 unequipped), its 810 bytes, and
how it reads (0 no valid data, 1 good, 2 correctable, 3 uncorrectable). -/
structure Cell where
  sfn : Nat
  fill : Nat
  data : List Byte
  good : Nat
  deriving DecidableEq, Repr

/-- What a slot carries in a system frame (R129, R133): bytes, AIS fill, unequipped fill. -/
inductive SlotData where
  | data (b : List Byte)
  | ais
  | unequipped
  deriving DecidableEq, Repr

/-- The remapper of one egress container (R165): consecutive frames without a correct CHK, with one, and clean frames; the count of the
latest carrier frame; the ODU octets that make no whole frame yet; frame alignment held, errored FAS in a row. -/
structure Car where
  bad : Nat
  good : Nat
  clean : Nat
  cnt : Nat := 0
  buf : List Byte := []
  sync : Bool := false
  errs : Nat := 0
  /-- TV and EXT of the carrier frame that brought the first octet held (R193) -/
  ext : Nat := 0
  deriving DecidableEq, Repr

/-- A client mapper's queue and GFP machine (R172): frames queued; octets of GFP frames that have begun to leave; the payload
scrambler; the delineation state (0 HUNT, 1 PRESYNC, 2 SYNC), client signal fail received, queue found full. -/
structure Gfp where
  q : List (List Byte)
  out : List Byte
  scr : List Bool
  sync : Nat
  csf : Bool
  full : Bool
  deriving DecidableEq, Repr

/-- A selector beyond its entry's words (R187 to R203): in force, boundaries in a row at which SF and SD of W were seen and boundaries
since SF of each copy, SFN at which WTR started, an admission that was refused (its argument), the position of a SET in SOLO for
one frame; hitless: slacks of the last on-reference frames of each copy, the frame period in ns, the copy the latest output
frame came from (0 W, 1 P, 2 AIS fill), how often that frame is still to be repeated (R201), in FRAME mode its SFN; in ODU mode its octets,
and the new slot carrier (R195): octets that wait, EXT of the latest frame begun, the count of the latest carrier frame, the slots
of the present one. SELECTED changed at the present boundary (R185). -/
structure SelSt where
  on : Bool
  sfN : Nat
  sdN : Nat
  freeW : Nat
  freeP : Nat
  wtrAt : Nat
  ask : Option Nat
  once : Option Nat
  lastW : List Int
  lastP : List Int
  period : Nat
  src : Nat
  rep : Nat := 0
  sent : Nat := 0
  last : List Byte := []
  out : List Byte := []
  ext : Nat := 0
  cnt : Nat := 0
  img : List (List Byte) := []
  moved : Bool := false
  deriving DecidableEq, Repr

/-- A bus operation of an engine (R245): BST or BLD, address, data, the register a BLD writes, whether its result is discarded. -/
structure BusOp where
  write : Bool
  addr : Nat
  data : Word
  dest : Nat
  drop : Bool
  deriving DecidableEq, Repr

/-- An HDLC context beyond its CSRs (R253 to R255): HC_CFG as the latest pass read it; receiving: in a frame, the octets so far (with
their FCS), escape seen, the bits of bit stuffing so far (latest first), ones in a row, too long, opening flag; sending: the
bits of a partial frame still to go. -/
structure Hdlc where
  cfg : Nat
  inFr : Bool
  rx : List Byte
  esc : Bool
  bits : List Bool
  ones : Nat
  long : Bool
  pos : Nat
  sfn6 : Nat
  tx : List Bool
  deriving DecidableEq, Repr

/-- A Fuller engine beyond its control page (R240): the registers; the memories (word keys: bank b at 8,192 × b, data from 16,384)
and their stored errors (1 single-bit, 2 uncorrectable, R263); the CSRs that no page register holds and, from 0x100, the Hatter
mailbox words, inbound then outbound (R257); bus operations, oldest first; the snapshot words, channels then selectors (R249);
HDLC contexts; a STOP or HALT in progress; TIMER has reached 0; ticks since the latest WAIT (Table 11-8); the bank under
CHECK plus 1; the silence of R262 is due. -/
structure Eng where
  gr : Tab Word
  mem : Tab Word
  ecc : Tab Nat
  csr : Tab Word
  ops : List BusOp
  snap : Tab Word
  hdlc : Tab Hdlc
  halting : Bool
  tmr : Bool
  wd : Nat
  chk : Nat
  mute : Bool
  deriving DecidableEq, Repr

/-- A proxy access of a manager to a member (R333): tag, member, master (8 once its master has been reset), BAR 2 offset in its window, write, byte enables, data; sent
or waiting for one of the 16 places; of a read of several words, the BAR 2 offsets of those that follow it and the words already read. -/
structure Prox where
  tag : Nat
  id : Nat
  m : Nat
  off : Nat
  write : Bool
  be : Nat
  data : Word
  sent : Bool
  more : List Nat := []
  got : List Word := []
  deriving DecidableEq, Repr

/-- A blocking run (R389): kind of Table 18-1, target, a host command among its triggers, the temperature at its start in quarter
degrees (R391), the spare slice it occupies (R73). -/
structure CalRun where
  kind : Nat
  target : Nat
  host : Bool
  temp : Int
  spare : Nat
  deriving DecidableEq, Repr

/-- Blocking runs and trim records (18_calibration_fuses.md): requests in order of arrival, runs in progress; per target (key 1,024 ×
kind + target) the flag of R394 (kinds 2 to 4) and the temperature at the last completed run (R390); per timestamp point in
1/64 ns the factory offset, the trim record's and the calibration correction (R398); DQ trims of each memory channel, in force
and aimed at (R393); slice swaps that wait for a boundary, lane and slice; the receiver start codes of trim records (Table
18-4); the record in programming, slot and words, and that a Hatter restart stops it (R400); the fuse words as last read. -/
structure CalSt where
  queue : List CalRun
  running : List CalRun
  flag : Tab Nat
  last : Tab (List Int)
  fact : Tab Int
  trim : Tab Int
  corr : Tab Int
  dq : Tab (List Nat)
  dqTo : Tab (List Nat)
  swap : List (Nat × Nat)
  ctle : Tab Nat
  prog : Option (Nat × List Word)
  halt : Bool
  fr : Tab Word
  deriving DecidableEq, Repr

/-- Trace and tag buffers (R410, R411): entries of four words, key number mod 512; the filter in force, T_CFG, T_ALO, T_AHI; tag
records, oldest first; the engines tagged, as a mask. -/
structure Prf where
  trace : Tab (List Word)
  cfg : Word
  alo : Word
  ahi : Word
  tags : List (List Word)
  mask : Nat
  deriving DecidableEq, Repr


/-- The whole block. -/
structure State where
  /-- every register of the BAR 0 pages, key: address, plus 2^32 × (bank + 1) for a banked one (RegFields); an unlisted one holds its reset value (R23 to R29) -/
  regs : Tab Word
  /-- buffered configuration writes waiting for their boundary (R17, R36) -/
  pend : List PendW
  /-- the latch per 48-bit counter and master (R41): key 8 × counter key + master; bits [47:32] and OVF -/
  latch : Tab Nat
  /-- the channel-page registers as copied at the latest SCLK refresh (R34) -/
  copy : Tab Word
  /-- keys of the registers that hold a parity fault (R38) -/
  parBad : List Nat
  /-- those of them that a read or the scanner has found (R38) -/
  parSeen : List Nat
  /-- pages whose function is in its safe state (R38) -/
  safe : List Nat
  /-- each LG's posted-write buffer; BUSY while it is not empty (R35) -/
  lgBuf : Tab (List PostW)
  /-- SCLK copy refreshes modulo 65,536 (R34) -/
  sclk : Nat
  /-- a requested snapshot waits for its boundary: how many boundaries still pass (R45, R17) -/
  snap : Option Nat
  /-- each master's latest completion (R24, R359) -/
  resp : Tab Resp
  /-- what the block has sent, latest first: messages, frames, interrupt messages (MODEL: a log of outputs) -/
  wire : List Wire
  /-- MODEL: counts the values drawn that the spec leaves open (Config.freeValue) -/
  free : Nat
  /-- the Plank and the journal -/
  plk : Plk
  /-- the time base -/
  tb : Tb
  /-- power, clocks, modes -/
  pwr : Pwr
  /-- host attachment and interrupts -/
  hst : Hst
  /-- crossings that overflowed in the current system frame: id and index; the frame of that channel or port is AIS (R18) -/
  xingAis : List (Nat × Nat)
  /-- the fuse array: 32 slots of 16 words, key 16 × slot + word (R397, R398); it survives every reset -/
  fuses : Tab Word
  /-- blocking runs and trim records -/
  cal : CalSt
  /-- transaction trace and instruction tags -/
  prf : Prf
  /-- lanes found failed in the running verification window, one bit per lane (R320) -/
  tvwFail : Nat
  /-- the eight Gelvy ports -/
  gp : Tab GpSt
  /-- twin operation -/
  twn : Twn
  /-- timestamp FIFOs, key port number (R224) -/
  pt : Tab PtSt
  /-- time pins, ToD UART, timing-port receive queues -/
  pin : Pin
  /-- timestamp-point calibration of each port in force, 2^-16 ns, key port number; receive; transmit at key + 1024 (R220, R393) -/
  calTs : Tab Int
  /-- discovery machine, carder and ingress of each lane (chapters 04 to 06) -/
  ln : Tab LaneSt
  /-- defect monitors (R109 to R114), key 8 × channel + layer (0 line or OTU, 1 HO ODU, 2 to 7 TCM1 to TCM6), or monKey of a path -/
  mon : Tab Mon
  /-- per LG the lane of the eye measurement in progress, plus 1, plus 32 for each spare slice that was taken at its start (R73, R87) -/
  eye : Tab Nat
  /-- status words as they stood 2 µs before the coming boundary (R116) -/
  seen : Tab Word
  /-- consequent actions in force per channel (Table 6-7 bits, R117), and per path under its entry key -/
  ca : Tab Nat
  /-- channels for which this system frame is an edge frame (R118, R202) -/
  edge : List Nat
  /-- overhead buffer bytes (R105, R106), key ((2 × LG + half) × 12 + channel) × 2,048 + offset -/
  ohb : Tab Byte
  /-- transmit bytes that a late write has left with their previous value, by key (R108) -/
  ohbStale : List Nat
  /-- which half of each LG's overhead buffer is on the line side (R105) -/
  ohbLine : Tab Nat
  /-- the slot interchange's pages (R136) -/
  tsi : Ic
  /-- the lower-order stage's pages (R149) -/
  lox : Ic
  /-- starts and stops of injection slots waiting for their boundary (R289) -/
  inj : List InjReq
  /-- status bits forced by injection in this system frame, key of the status word (R291, point 0x0B and 0x0E) -/
  forced : Tab Nat
  /-- what each ingress slot carries in the current system frame, at the interchange (R129); an unlisted line slot carries AIS-P, an
  unlisted through-slot AIS fill -/
  slotIn : Tab SlotData
  /-- elastic stores of ingress paths, key global slot number of the first slot (R159) -/
  spe : Tab Spe
  /-- ODU stores and mappers of ingress containers, same key (R164) -/
  odu : Tab OduSt
  /-- what the detectors of a tributary monitor have read last, key of its entry (R123) -/
  trib : Tab TribSt
  /-- what the lower-order outputs carry in the current system frame (R148) -/
  loOut : Tab (List Byte)
  /-- what each egress channel sends -/
  eg : Tab EgLine
  /-- rings of the batt store by owner: a batt path's number, or 0x10000 + 16 × LG + descriptor of a VCAT sink (R273) -/
  rings : Tab (List Nat)
  /-- stored cells, key 1,024 × ring + SFN mod 516 (R273) -/
  cells : Tab Cell
  /-- the bank whose CHECK runs in each LG: 2 × local channel + bank + 1 (R179) -/
  chk : Tab Nat
  /-- slot carrier checks per egress container, key of the container entry (R165) -/
  car : Tab Car
  /-- client mapper and GFP machine of each Ethernet channel (R172) -/
  gfp : Tab Gfp
  /-- selectors' running state, key selector number (chapter 09) -/
  sel : Tab SelSt
  /-- samples each gauge's source has delivered since its last clear (R404) -/
  gaug : Tab Nat
  /-- per channel, one more than the SFN of the latest frame outside the Same-Output Guarantee for a cause this unit detected (R286, UNCOV) -/
  uncov : Tab Nat
  /-- per channel, one more than the SFN of the latest frame with bytes that R232 marks (R286, EXCL) -/
  excl : Tab Nat
  /-- the Fuller engines (chapter 11) -/
  eng : Tab Eng
  /-- state-copy region of each GDDR6 channel (R272), key 0x2000000 × channel + word -/
  scopy : Tab Word
  /-- batt-path reads that were late in the current frame, 2,048 × path + slot (R276) -/
  battLate : List Nat
  /-- proxy accesses of a manager that have no response yet, in issue order (R333) -/
  prox : List Prox
  /-- MODEL: tag of the next proxy access -/
  proxTag : Nat
  /-- the commands that wait, first in, first out -/
  pending : List Instr
  deriving DecidableEq, Repr

/-- The block right after reset: held in the internal cold reset (R375), every register at its reset value (an empty table
reads as the reset values of the register tables), every table, queue and buffer empty, no command waiting. -/
def State.reset : State where
  regs := []
  pend := []
  latch := []
  copy := []
  parBad := []
  parSeen := []
  safe := []
  lgBuf := []
  sclk := 0
  snap := none
  resp := []
  wire := []
  free := 0
  plk := ⟨[], 1, [], [], [], [], []⟩
  tb := ⟨0, 0x200000000, 0, 0⟩
  pwr := ⟨true, false, 0, [], 0, [], false, false⟩
  hst := ⟨0, 0, false, 0, 0xFFFFFFFF, false, false, 0xFFFFFFFF, 0, [], [], false, 0, false, [], [], false, false, false, []⟩
  xingAis := []
  fuses := []
  cal := ⟨[], [], [], [], [], [], [], [], [], [], [], none, false, []⟩
  prf := ⟨[], 0x00008FFF, 0, 0xFFFFFFFF, [], 0⟩
  tvwFail := 0
  gp := []
  twn := ⟨0, 0, 0, 0, none, 0, none, [], [], [], [], 0, 0, none, [], [], false, none, none, [], 0, 0, 0⟩
  pt := []
  pin := ⟨[], none, false, false, [], none⟩
  calTs := []
  ln := []
  mon := []
  eye := []
  seen := []
  ca := []
  edge := []
  ohb := []
  ohbStale := []
  ohbLine := []
  tsi := ⟨[], [], [], 0⟩
  lox := ⟨[], [], [], 0⟩
  inj := []
  forced := []
  slotIn := []
  spe := []
  odu := []
  trib := []
  loOut := []
  eg := []
  rings := []
  cells := []
  chk := []
  car := []
  gfp := []
  sel := []
  gaug := []
  uncov := []
  excl := []
  eng := []
  scopy := []
  battLate := []
  prox := []
  proxTag := 0
  pending := []

end Sys2Proof.Machine
end

