-- ==== Sys2Proof/Machine/Carrier.lean ====
section
/-!
DEFINITION. What the slots of a container carry in a system frame (08_mapping.md R158 to R166): the image of a native path, the slot carrier
of an ODU, the path tag, the replacement signals of Table 8-4.
-/

namespace Sys2Proof.Machine

open Sys2Proof

/-- Every `n`-th element, the first after `k` others. -/
def everyNth {α : Type} (n : Nat) : Nat → List α → List α
  | _, [] => []
  | 0, b :: r => b :: everyNth n (n - 1) r
  | k + 1, _ :: r => everyNth n k r

/-- The rows of equally long columns: the first of each list, then the second of each, `len` times. -/
def interleave {α : Type} : Nat → List (List α) → List α
  | 0, _ => []
  | len + 1, l => l.filterMap List.head? ++ interleave len (l.map List.tail)

/-- A number as `n` bytes, most significant first. -/
def byte8 (n : Nat) : Byte := BitVec.ofNat 8 n

/-! ### The path tag (R166) -/

/-- T0 to T3 (Table 8-7): TSEQ, TV, TCRC. -/
def tagBytes (tseq : Nat) (tv : Bool) : List Byte :=
  let l := [byte8 (tseq / 256), byte8 tseq, if tv then 0x80 else 0]
  l ++ [crc8 l]

/-- A tag as a reader takes it: TSEQ, and TV unless TCRC fails. -/
def tagRead (l : List Byte) : Nat × Bool :=
  ((l.getD 0 0).toNat * 256 + (l.getD 1 0).toNat, (l.getD 2 0).msb && crc8 (l.take 3) == l.getD 3 0)

/-! ### Native paths (R158) -/

/-- The 810 bytes of one slot: byte j lies at row j / 90, column j mod 90 (R10). `h` are H1, H2 and H3 at j = 270 to 272, `tag` the bytes at
j = 90, 91, 92 and 180, `col` the 783 bytes of the SPE columns in line order; 0x00 in the other 20 places. -/
def nativeSlot (h tag col : List Byte) : List Byte :=
  (List.range 9).flatMap (fun r =>
    (if r = 1 then tag.take 3 else if r = 2 then tag.drop 3 ++ [0, 0] else if r = 3 then h else [0, 0, 0]) ++ (col.drop (87 * r)).take 87)

/-- The pointer word H1, H2 (Table 6-3): NDF enabled (0b1001) or normal, SS, the offset, its I bits inverted by a positive justification
(`just` > 0), its D bits by a negative one. -/
def pointerWord (ndf : Bool) (ss ptr : Nat) (just : Int) : List Byte :=
  let v := (if ndf then 0x9000 else 0x6000) + ss * 0x400 + (ptr ^^^ (if 0 < just then 0x2AA else if just < 0 then 0x155 else 0))
  [byte8 (v / 256), byte8 v]

/-- The slots of a native path of `n` slots (R158): `spe` are the bytes read for the frame in line order, 783 n, `n` more with a negative
justification (they stand in H3) or less with a positive one (stuff bytes stand after H3). The first slot carries the pointer, the others
the concatenation indication. -/
def nativeImage (n ptr : Nat) (ndf : Bool) (just : Int) (tag spe : List Byte) : List (List Byte) :=
  let h3 := if just < 0 then (spe.drop (261 * n)).take n else List.replicate n 0
  let rest := if 0 < just then List.replicate n 0 ++ spe.drop (261 * n) else if just < 0 then spe.drop (262 * n) else spe.drop (261 * n)
  let body := spe.take (261 * n) ++ rest
  (List.range n).map (fun i =>
    nativeSlot ((if i = 0 then pointerWord ndf 0 ptr just else [0x93, 0xFF]) ++ [h3.getD i 0]) tag (everyNth n i body))

/-- AIS-P in one slot (Table 8-4): H1, H2, H3 and every SPE byte all ones. -/
def aisSlot : List Byte := nativeSlot [0xFF, 0xFF, 0xFF] [0, 0, 0, 0] (List.replicate 783 0xFF)

/-- What a slot carries that the ingress tables do not list: a line slot AIS-P (R157, Table 4-4), a through-slot AIS fill (R129). -/
def slotDflt (g : Nat) : SlotData := if g < 98304 then .data aisSlot else .ais

/-- A generated path (R161): pointer 522, so that its frame begins in the first SPE column; nine path-overhead bytes (J1, B3, C2, G1, F2,
H4, F3, K3, N1), and in each row 87 n - 1 bytes of payload. -/
def madeImage (n : Nat) (poh payload : List Byte) : List (List Byte) :=
  nativeImage n 522 false 0 [0, 0, 0, 0]
    ((List.range 9).flatMap (fun r => poh.getD r 0 :: (List.range (87 * n - 1)).map (fun i => payload.getD ((87 * n - 1) * r + i) 0)))

/-- The bytes of the SPE of an image, from which B3 of the next frame is computed. -/
def speOf (image : List (List Byte)) : List Byte :=
  image.flatMap (fun slot => (slot.zipIdx.filter (fun p => decide (3 ≤ p.2 % 90))).map (fun p => p.1))

/-- An unequipped path (Table 8-4): a valid pointer, C2, J1 and payload 0x00, and its B3. -/
def unequippedImage (n : Nat) (b3 : Byte) : List (List Byte) := madeImage n [0, b3] []

/-- A path's slots in a frame, its elastic store after it, the internal justification made (1 positive, -1 negative), and whether the store
has overflowed or run dry. -/
structure SpeOut where
  slots : List (List Byte)
  next : Spe
  just : Int
  bad : Bool
  deriving DecidableEq, Repr

/-- The internal pointer of a frame of `n` slots whose first SPE byte is that at place `ph` of the SPE. -/
def spePtr (n ph : Nat) : Nat := (783 * n - (ph + 261 * n) % (783 * n)) % (783 * n) / n

/-- A frame is read out of an elastic store (R159), 783 bytes for each of `n` slots. A store that recentres is left at its target fill,
16 n bytes: what it holds too much goes, and where too little has come yet the bytes before are open (`open_`). An empty one gives AIS. -/
def speRead (n : Nat) (x : Spe) (open_ : Byte) (tag : List Byte) : SpeOut :=
  let z := 783 * n
  if x.buf.isEmpty then ⟨List.replicate n aisSlot, ⟨true, [], 0, true, 0⟩, 0, false⟩
  else if x.fresh then
    let skip := (x.buf.length - (z + 16 * n)) / n * n
    let pad := z + 16 * n - x.buf.length
    let l := List.replicate pad open_ ++ x.buf.drop skip
    let ph := (x.phase + skip + (z - pad % z)) % z
    ⟨nativeImage n (spePtr n ph) true 0 tag (l.take z), ⟨true, l.drop z, ph, false, 0⟩, 0, false⟩
  else
    let just : Int := if x.hold ≠ 0 ∨ (z + 8 * n ≤ x.buf.length ∧ x.buf.length ≤ z + 24 * n) then 0 else if x.buf.length < z + 8 * n then 1 else -1
    let k := if 0 < just then z - n else if just < 0 then z + n else z
    let left := x.buf.drop k
    let bad := decide (x.buf.length < k) || decide (32 * n < left.length)
    ⟨nativeImage n (spePtr n x.phase) false just tag (x.buf.take k),
      ⟨true, left, (x.phase + k) % z, bad, if just = 0 then x.hold - 1 else 3⟩, just, bad⟩

/-! ### The slot carrier (R162 to R164) -/

/-- Position `p` of `pp` carries a byte when the count is `c` (R163). -/
def carrierHas (c pp p : Nat) : Bool := decide (p * c / pp < (p + 1) * c / pp)

/-- The payload positions from `p` on, `k` of them, filled from the bytes (R163). -/
def carrierPlace (c pp : Nat) : Nat → Nat → List Byte → List Byte
  | 0, _, _ => []
  | k + 1, p, l => if carrierHas c pp p then l.headD 0 :: carrierPlace c pp k (p + 1) l.tail else 0 :: carrierPlace c pp k (p + 1) l

/-- The bytes that the payload positions from `p` on carry. -/
def carrierTake (c pp : Nat) : Nat → List Byte → List Byte
  | _, [] => []
  | p, b :: r => if carrierHas c pp p then b :: carrierTake c pp (p + 1) r else carrierTake c pp (p + 1) r

/-- Carrier bytes 0 to 5 of member `i` of `n` (Table 8-6). -/
def carrierHead (n cnt i : Nat) : List Byte :=
  let l := [byte8 (0x40 + cnt / 65536 % 32), byte8 (cnt / 256), byte8 cnt, byte8 (i / 8), byte8 (i % 8 * 32 + (if i + 1 = n then 16 else 0))]
  l ++ [crc8 l]

/-- The slots of an ODU of `n` slots: `c` is the count that the previous frame carried, `cnt` the one that this frame carries. -/
def carrierImage (n c cnt : Nat) (tag bytes : List Byte) : List (List Byte) :=
  let payload := carrierPlace c (800 * n) (800 * n) 0 bytes
  (List.range n).map (fun i => carrierHead n cnt i ++ tag ++ everyNth n i payload)

/-- The ODU bytes of a frame whose previous frame carried the count `c`. -/
def carrierBytes (c : Nat) (slots : List (List Byte)) : List Byte :=
  carrierTake c (800 * slots.length) 0 (interleave 800 (slots.map (fun l => l.drop 10)))

/-- The fields of a member's carrier bytes. -/
def carrierKind (l : List Byte) : Nat := (l.getD 0 0).toNat / 64
def carrierCnt (l : List Byte) : Nat := (l.getD 0 0).toNat % 32 * 65536 + (l.getD 1 0).toNat * 256 + (l.getD 2 0).toNat
def carrierCsq (l : List Byte) : Nat := (l.getD 3 0).toNat * 8 + (l.getD 4 0).toNat / 32
def carrierLast (l : List Byte) : Bool := (l.getD 4 0).getLsbD 4
def carrierChk (l : List Byte) : Bool := crc8 (l.take 5) == l.getD 5 0

/-! ### ODU signals (Table 8-4) -/

/-- The octets of an ODU frame with its frame alignment overhead: 4 rows of 3,824. -/
def oduLen : Nat := 15296

/-- An octet of ODU-AIS (`oci` false) or ODU-OCI at position `p` of the stream (G.709): FAS and MFAS, the OTU overhead positions 0x00, all
ones but FTFL, or 0x66 repeated. -/
def oduFill (oci : Bool) (p : Nat) : Byte :=
  let r := p % oduLen
  if r < 3 then 0xF6 else if r < 6 then 0x28 else if r = 6 then byte8 (p / oduLen) else if r < 14 then 0
  else if oci then 0x66 else if r = 3837 then 0 else 0xFF

/-- Bytes of an ODU per system frame at its nominal rate against the time base (R164), as numerator and denominator, by TYPE and, of an
ODUflex, NSL. -/
def oduRate (type nsl : Nat) : Nat × Nat :=
  if type = 6 then (19440, 1)
  else if type = 7 then (239 * 38880, 238)
  else if type = 8 then (239 * 155520, 237)
  else if type = 9 then (239 * 10312500, 237 * 64)
  else if type = 10 then (239 * 622080, 236)
  else if type = 11 then (239 * 1555200, 227)
  else (nsl * 8000000, 10001)

/-- The count of frame `n` at that rate. -/
def nominalCount (type nsl n : Nat) : Nat :=
  let r := oduRate type nsl
  (n + 1) * r.1 / r.2 - n * r.1 / r.2

/-- A container's slots in a frame, its ODU store after it, more than P octets arrived, the store overflowed or ran dry. -/
structure CarOut where
  slots : List (List Byte)
  next : OduSt
  sat : Bool
  bad : Bool
  deriving DecidableEq, Repr

/-- The octets of a replacement stream from a place on. -/
def fillOctets (fill : Nat → Byte) (p len : Nat) : List Byte := (List.range len).map (fun i => fill (p + i))

/-- A frame of the mapper of `n` slots (R162 to R164). `nom` is the nominal count of the next frame, `fill` the replacement stream, sent
while `repl` holds and until the store has filled to its centre. The count chosen is what arrived in the frame, by one octet more or
less where the store is above or below its centre, and at most P. -/
def carrierSend (n nom : Nat) (fill : Nat → Byte) (repl : Bool) (tag : List Byte) (x : OduSt) : CarOut :=
  let p := 800 * n
  let store := Config.oduStore n
  let short := x.run && decide (x.buf.length < x.cnt)
  let run := x.run && !repl && !short
  let bytes := if run then x.buf.take x.cnt else fillOctets fill x.pos x.cnt
  let left := if repl then [] else if run then x.buf.drop x.cnt else x.buf
  let ready := !repl && !short && (run || decide (store / 2 ≤ left.length))
  let want := if !run then left.length + x.got - store / 2
    else if store / 2 < left.length then x.got + 1 else if left.length < store / 2 then x.got - 1 else x.got
  let cnt := if ready then min p want else min p nom
  ⟨carrierImage n x.cnt cnt tag bytes, ⟨true, left, 0, cnt, x.cnt, if run then 0 else x.pos + x.cnt, ready⟩, ready && decide (p < x.got),
    (short && !repl) || decide (store < left.length)⟩

/-! ### ODU frames (R165) -/

/-- The FAS of an ODU frame stands at the front. -/
def oduFas (l : List Byte) : Bool := l.take 6 == [0xF6, 0xF6, 0xF6, 0x28, 0x28, 0x28]

/-- The octets from the first ODU frame that the next one confirms (IF_GOOD = 2): two FAS a frame apart, with rising MFAS. Octets that can
no longer begin such a pair are dropped. -/
def oduSeek : List Byte → List Byte × Bool
  | [] => ([], false)
  | b :: r =>
    if r.length < oduLen + 6 then (b :: r, false)
    else if oduFas (b :: r) && oduFas (r.drop (oduLen - 1)) && r.getD (oduLen + 5) 0 == r.getD 5 0 + 1 then (b :: r, true)
    else oduSeek r

/-- Whole ODU frames leave the stream while alignment holds: it is lost after 5 errored FAS. Answers the frames, the rest, errored FAS in a
row, and whether alignment still holds. -/
def oduTake : Nat → Nat → List Byte → List (List Byte) × List Byte × Nat × Bool
  | 0, errs, l => ([], l, errs, true)
  | fuel + 1, errs, l =>
    if l.length < oduLen then ([], l, errs, true)
    else
      let e := if oduFas l then 0 else errs + 1
      if 5 ≤ e then ([], l, 0, false)
      else
        let t := oduTake fuel e (l.drop oduLen)
        (l.take oduLen :: t.1, t.2)

end Sys2Proof.Machine
end

