-- ==== Sys2Proof/Machine/Ops.lean ====
section
/-!
DEFINITION. The named operations every meaning is written over: reading and writing register fields, occurrence counters (R42), PM
counters (R39), performance counters (R39), result sets (R44), the values in force of buffered fields (R36), the journal's
ring (R64 to R66), free values.
-/

namespace Sys2Proof.Machine

open Sys2Proof

/-- The word a register holds. -/
def State.rd (s : State) (k : Nat) : Word := tget resetWordOf s.regs k

/-- A field of a register as stored. -/
def State.g (s : State) (f : Fld) : Nat := wordGet (s.rd f.addr) f.lo f.w

/-- A one-bit field as a flag. -/
def State.on (s : State) (f : Fld) : Bool := s.g f == 1

/-- Write one field. -/
def setFld (t : Tab Word) (f : Fld) (v : Nat) : Tab Word :=
  tset resetWordOf t f.addr (wordSet (tget resetWordOf t f.addr) f.lo f.w v)

/-- Write fields one after the other. -/
def setFlds : List (Fld × Nat) → Tab Word → Tab Word
  | [], t => t
  | p :: l, t => setFlds l (setFld t p.1 p.2)

/-- The state with these fields written. -/
def State.u (s : State) (l : List (Fld × Nat)) : State := { s with regs := setFlds l s.regs }

/-- Write a whole register. -/
def State.setWord (s : State) (k : Nat) (w : Word) : State := { s with regs := tset resetWordOf s.regs k w }

/-- The word of a register in force: where a buffered write waits, the bits it covers still read as before (R36). -/
def forceWord (pend : List PendW) (k : Nat) (w : Word) : Word :=
  pend.foldr (fun p acc => if p.addr = k then (acc &&& ~~~p.mask) ||| (p.old &&& p.mask) else acc) w

/-- A field as in force (R36). -/
def State.f (s : State) (fl : Fld) : Nat := wordGet (forceWord s.pend fl.addr (s.rd fl.addr)) fl.lo fl.w

/-- The field in the bank of master `m`. -/
def perMaster (f : Fld) (m : Nat) : Fld := ⟨f.addr + 0x100000000 * (m + 1), f.lo, f.w⟩

/-- Bit `i` of a field. -/
def bitOf (f : Fld) (i : Nat) : Fld := ⟨f.addr, f.lo + i, 1⟩

/-- The COUNT and ACK fields of the occurrence counter with key `k` (R39). -/
def occCount (k : Nat) : Fld := ⟨k, 0, 16⟩
def occAck (k : Nat) : Fld := ⟨k, 16, 16⟩

/-- The unacknowledged tally (R42); 65,535 while OCC_LOST is set. -/
def State.occTally (s : State) (k : Nat) : Nat :=
  if s.on (lostFld k) then 65535 else (s.g (occCount k) + 65536 - s.g (occAck k)) % 65536

/-- The counter's event (R42): the tally is not zero, or OCC_LOST is set. -/
def State.occActive (s : State) (k : Nat) : Bool := s.occTally k != 0

/-- One occurrence (R42): COUNT rises by 1 and wraps; a tally already at 65,535 sets OCC_LOST. -/
def State.occ (s : State) (k : Nat) : State :=
  s.u [(lostFld k, bit (s.on (lostFld k) || s.occTally k == 65535)), (occCount k, s.g (occCount k) + 1)]

/-- `n` occurrences. -/
def State.occN (s : State) (k : Nat) : Nat → State
  | 0 => s
  | n + 1 => State.occN (s.occ k) k n

/-- A write of ACK (R42): the tally follows the new ACK; OCC_LOST clears only when ACK equals COUNT. -/
def State.occAckWrite (s : State) (k v : Nat) : State :=
  s.u [(lostFld k, bit (s.on (lostFld k) && (v % 65536 != s.g (occCount k)))), (occAck k, v)]

/-- Add to a PM counter; it stays at 0xFFFF_FFFF (R39). -/
def State.pmAdd (s : State) (f : Fld) (n : Nat) : State := s.u [(f, min 0xFFFFFFFF (s.g f + n))]

/-- Add to a performance counter, low word at `k`, bits [47:32] and the sticky OVF in the next word (R39). -/
def State.perfAdd (s : State) (k n : Nat) : State :=
  let v := s.g ⟨k, 0, 32⟩ + 0x100000000 * s.g ⟨k + 4, 0, 16⟩ + n
  s.u [(⟨k, 0, 32⟩, v), (⟨k + 4, 0, 16⟩, v / 0x100000000), (⟨k + 4, 16, 1⟩, bit (s.on ⟨k + 4, 16, 1⟩ || decide (0x1000000000000 ≤ v)))]

/-- The bits of a result set's control word at key `k` (R44). -/
def resValid (k : Nat) : Fld := ⟨k, 0, 1⟩
def resBusy (k : Nat) : Fld := ⟨k, 1, 1⟩
def resFailed (k : Nat) : Fld := ⟨k, 2, 1⟩
def resSeq (k : Nat) : Fld := ⟨k, 16, 16⟩

/-- A command that will produce a result starts to run (R44): BUSY sets, every other word stays. -/
def State.begin (s : State) (k : Nat) : State := s.u [(resBusy k, 1)]

/-- A result completes (R44): VALID sets, BUSY clears, SEQ rises by 1, and the words take what the command gives them, all in one
cycle. -/
def State.result (s : State) (k : Nat) (failed : Bool) (l : List (Fld × Nat)) : State :=
  s.u ((resValid k, 1) :: (resBusy k, 0) :: (resFailed k, bit failed) :: (resSeq k, s.g (resSeq k) + 1) :: l)

/-- Draw a value the spec leaves open. -/
def State.drawn (s : State) : Word := Config.freeValue s.free
def State.draw (s : State) : State := { s with free := s.free + 1 }

/-- The bus answers: the device is out of its internal reset and MCLK has not lost lock (R20, R375). -/
def State.busRuns (s : State) : Bool := !s.pwr.inReset && !s.pwr.mclkLost

/-- A master's access completes (R24, R359); a bus that has stopped completes nothing (R20). -/
def State.reply (s : State) (m : Nat) (ok : Bool) (data : List Word) : State :=
  if s.busRuns then { s with resp := tset (fun _ => ⟨true, []⟩) s.resp m ⟨ok, data⟩ } else s

/-- Target `t` of the matrix parks on the master it last served (R356). -/
def State.park (s : State) (t m : Nat) : State := if s.busRuns then s.u [(⟨0x7048, 3 * t, 3⟩, m)] else s

/-- Complete an access of master `m` to target 0, the register fabric (R354). -/
def State.answer (s : State) (m : Nat) (ok : Bool) (data : List Word) : State := (s.reply m ok data).park 0 m

/-- A master's latest completion. -/
def State.respOf (s : State) (m : Nat) : Resp := tget (fun _ => ⟨true, []⟩) s.resp m

/-- Send something out. -/
def State.send (s : State) (w : Wire) : State := { s with wire := w :: s.wire }

/-- Replace the Plank's part of the state. -/
def State.onPlk (s : State) (f : Plk → Plk) : State := { s with plk := f s.plk }

/-- The base address of the page a key lies in. -/
def pageOf (k : Nat) : Nat := k % 0x100000000 / 0x1000 * 0x1000

/-- Offset of an address within its page, the alias taken off (R23). -/
def offOf (a : Nat) : Nat := a % 0x400

/-- The address with the alias taken off. -/
def plainAddr (a : Nat) : Nat := a / 0x1000 * 0x1000 + offOf a

/-- The alias an address lies in: 0 none, 1 SET, 2 CLR, 3 TGL (Table 2-1). -/
def aliasOf (a : Nat) : Nat := a % 0x1000 / 0x400

/-- What a whole-word write through an alias makes of a register (R25, Table 2-1). -/
def aliasWord (al : Nat) (old v : Word) : Word :=
  match al with
  | 0 => v
  | 1 => old ||| v
  | 2 => old &&& ~~~v
  | _ => old ^^^ v

/-- The LG whose pages hold an address (R35). -/
def lgOf (a : Nat) : Option Nat := if 0x100000 ≤ a ∧ a < 0x200000 then some ((a - 0x100000) / 0x10000) else none

/-- DEV.MODE values (R380). -/
def State.mode (s : State) : Nat := s.g DEV_MODE_MODE

/-- What the lines and Gelvy ports carry (R20, R378, R382): 0 electrical idle, 1 AIS in every slot, 2 the traffic; boundary scan that has
taken the balls stops all of it (R425). -/
def State.outMode (s : State) : Nat :=
  if !s.busRuns || s.pwr.bscan || s.mode == 0 || s.on DEV_Q_CAUSE_CLK_LOSS then 0
  else if s.mode ≠ 5 then 2
  else if s.f DEV_CFG_Q_OUT = 1 then 1 else 0

/-- The spare slices of a lane that blocking runs of kind 0 on it, and slice swaps that wait, take: two at most (R73). -/
def State.sparesTaken (s : State) (lane : Nat) : Nat :=
  min 2 ((s.cal.running.filter (fun r => r.kind == 0 && r.target == lane)).length + (s.cal.swap.filter (fun p => p.1 == lane)).length)

/-- EYE_SEL.START (R87): the measurement of the lane in force, with the spare slices that are taken now (R73). -/
def eyeStart (s : State) (lg : Nat) : State :=
  let lane := s.f (LGS_EYE_SEL_LANE lg)
  ({ s with eye := tset (fun _ => 0) s.eye lg (lane + 1 + 32 * s.sparesTaken (12 * lg + lane)) }.begin (LGS_EYE_CTRL_VALID lg).addr).u
    [(LGS_EYE_SEL_START lg, 1)]

/-- The time base runs (R211). -/
def State.running (s : State) : Bool := s.on TB_STAT_RUN

/-- The time value T in ns, and the number of the current system frame (R9, R210). -/
def State.nowNs (s : State) : Nat := s.tb.t / 0x100000000
def State.sfn (s : State) : Nat := s.nowNs / 125000

/-- PG_READY.READY of a page (R379), and whether a software reset of it still runs (R377). -/
def State.ready (s : State) (pg : Nat) : Bool := s.on (PG_READY_READY pg)
def State.inSrst (s : State) (pg : Nat) : Bool := s.on (PG_CMD_SRST pg)

/-- A page is in service in the present mode (R378): in BOOT only DEV, PWR, CLK and BMX. -/
def State.served (s : State) (pg : Nat) : Bool :=
  s.busRuns && (s.mode != 0 || pg == 0 || pg == 0x1000 || pg == 0x2000 || pg == 0x7000)

/-- A page's registers beyond header and trailer can be accessed (R378, R379). -/
def State.usable (s : State) (pg : Nat) : Bool := s.served pg && s.ready pg

/-- A write lost to hardware, a running command or a scheduled item (R29, R61, Table 2-3). -/
def State.wlost (s : State) (m a : Nat) : State :=
  (s.occ (pageOf a + 0x3E0)).u [(PG_WADDR_OFFSET (pageOf a), a), (PG_WADDR_MASTER (pageOf a), m)]

/-- A write refused because a field is locked (R33). -/
def State.lockViol (s : State) (m a : Nat) : State :=
  (s.occ (pageOf a + 0x3E8)).u [(PG_VADDR_OFFSET (pageOf a), a), (PG_VADDR_MASTER (pageOf a), m), (PG_VADDR_KIND (pageOf a), 0)]

/-- A write refused because the LG's posted-write buffer is busy (R35). -/
def State.busyViol (s : State) (m a : Nat) : State :=
  (s.occ (pageOf a + 0x3EC)).u [(PG_VADDR_OFFSET (pageOf a), a), (PG_VADDR_MASTER (pageOf a), m), (PG_VADDR_KIND (pageOf a), 1)]

/-- Master `m` writes 1 to the CMD field `c` of a page in service: while the command runs the write is ignored and counted in
PG_WLOST (R29, Table 2-6); otherwise `k` starts it. A page not in service ends the write with a bus error (R378, R379). -/
def State.command (s : State) (m : Nat) (c : Fld) (k : State → State) : State :=
  if s.usable (pageOf c.addr) then
    if s.on c then (s.wlost m (c.addr % 0x100000000)).answer m true []
    else (k s).answer m true []
  else s.answer m false []

/-- The elastic store of the ingress path whose first slot is `g`, and the ODU store of the container there; a store that is not kept is
empty, and the pointer processor recentres at its first frame (R159). -/
def speReset : Spe := ⟨false, [], 0, true, 0⟩
def oduReset : OduSt := ⟨false, [], 0, 0, 0, 0, false⟩
def State.speOf (s : State) (g : Nat) : Spe := tget (fun _ => speReset) s.spe g
def State.setSpe (s : State) (g : Nat) (x : Spe) : State := { s with spe := tset (fun _ => speReset) s.spe g x }
def State.oduOf (s : State) (g : Nat) : OduSt := tget (fun _ => oduReset) s.odu g
def State.setOdu (s : State) (g : Nat) (x : OduSt) : State := { s with odu := tset (fun _ => oduReset) s.odu g x }

/-- The processor of a path recentres its store at the next frame (R159). -/
def speFresh (s : State) (g : Nat) : State := s.setSpe g { s.speOf g with fresh := true }

/-- Apply `f` once per element of a list. -/
def State.each {α : Type} (s : State) (l : List α) (f : State → α → State) : State := l.foldl f s

/-- CRC over bytes, bit-reversed (IEEE 802.3 and CRC-32C style): one byte into the state. -/
def crcByte (poly : Word) (c : Word) (b : Byte) : Word :=
  (List.range 8).foldl (fun c _ => if c.getLsbD 0 then (c >>> 1) ^^^ poly else c >>> 1) (c ^^^ b.setWidth 32)

/-- Reflected CRC-32 with initial all ones and final inversion. -/
def crc32 (poly : Word) (l : List Byte) : Word := ~~~(l.foldl (crcByte poly) 0xFFFFFFFF)

/-- The Ethernet FCS polynomial and CRC-32C, reflected. -/
def polyFcs : Word := 0xEDB88320
def polyCrc32c : Word := 0x82F63B78

/-! ### Formats (Table 4-1) -/

/-- The framing families (R72, R100). -/
inductive Fam where
  | none | sdh | otn | eth
  deriving DecidableEq, Repr

/-- The family of a rate index (Table 4-1). -/
def rateFam (r : Nat) : Fam :=
  if r = 0 ∨ r = 1 ∨ r = 3 ∨ r = 5 then .sdh else if r = 2 ∨ r = 6 ∨ r = 10 then .eth else if r ≤ 11 then .otn else .none

/-- The rate index of a format code (Table 4-1). -/
def fmtRate (f : Nat) : Nat :=
  [12, 0, 0, 1, 1, 3, 3, 5, 5, 4, 7, 8, 9, 11, 2, 6, 10].getD f 12

def fmtFam (f : Nat) : Fam := rateFam (fmtRate f)

/-- STS-1s of a SONET/SDH rate (R157). -/
def stsOf (r : Nat) : Nat := if r = 0 then 3 else if r = 1 then 12 else if r = 3 then 48 else if r = 5 then 192 else 0

end Sys2Proof.Machine
end

