-- ==== Sys2Proof/Machine/Irq.lean ====
section
/-!
DEFINITION. Summary bits of the pages (R26 and each page's rule) and the interrupt controller (16_host_bus_interrupts.md R366 to R371): the
sources' levels, the vectors, the messages they send.
-/

namespace Sys2Proof.Machine

open Sys2Proof

/-! ### Summary bits -/

/-- The bits of a list of flags, the first in bit 0. -/
def bitsFrom (l : List Bool) : Nat := (l.zipIdx.map (fun p => if p.1 then 2 ^ p.2 else 0)).sum

/-- Some page has FAILED (DEV SUM bit 1): PG_READY words are stored only where they are not 0. -/
def anyFailed (s : State) : Bool := s.regs.any (fun p => p.1 % 0x400 == 0xC && decide (p.1 < 0x240000) && wordGet p.2 1 1 == 1)

/-- PG_SUM.SUM of a page other than IRQ, as its rule lists the bits; a page whose rule lists none reads 0. -/
def pageSum (s : State) (pg : Nat) : Nat :=
  match pageKind pg with
  | some .dev => bitsFrom [s.mode == 5, anyFailed s]
  | some .pwr => bitsFrom [s.g PWR_RAIL_UV != 0 || s.g PWR_RAIL_OV != 0 || s.g PWR_ISL_UV_UV != 0,
      s.g PWR_GRAD_THERM_GRAD != 0 || s.g PWR_GRAD_VGRAD != 0, s.on PWR_TJ_WARN || s.on PWR_TJ_OVER]
  | some .clk => bitsFrom [s.pwr.refSeen &&& (31 - s.g CLK_REF_STAT_PRESENT) != 0, s.g CLK_REF_STAT_OOR != 0, s.on CLK_FRAME_CYC_CCLK_RANGE,
      s.occActive 0x2040, s.occActive 0x2030]
  | some .tb => bitsFrom [s.on TB_STAT_HOLDOVER, s.on TB_STAT_STEP_ACT]
  | some .bmx => bitsFrom [s.occActive 0x7050, s.occActive 0x7058, (List.range 8).any (fun c => s.occActive (0x71A0 + 4 * c))]
  | some .htr => bitsFrom [s.g HTR_C2H_DB_SEQ != s.g HTR_C2H_ACK_ACK, s.g HTR_STAT_STATE == 3]
  | some .ic => bitsFrom [s.on (IC_STAT_ENT_ERR pg), s.on (IC_STAT_BPATH_MISS pg)]
  | some .bat => bitsFrom [s.on BAT_STAT_UE]
  | some .twn => bitsFrom [s.on TWN_STAT_DIVERGED, s.on TWN_STAT_COPY_INCOMPLETE, s.g TWN_STAT_STATE != 0 && !s.on TWN_STAT_LINK_UP,
      s.g TWN_TVW_RES_FAILED != 0]
  | some .gp =>
      let p := (pg - 0x10000) / 0x1000
      bitsFrom [decide (s.g (GP_STAT_STATE p) < 5) && s.f (GP_CFG_SLOT_EN p) == 1]
  | some .fe =>
      let e := (pg - 0x200000) / 0x1000
      bitsFrom [s.g (FE_STAT_STATE e) == 3, s.g (FE_H_OUT_DB_SEQ e) != s.g (FE_H_OUT_ACK_ACK e)]
  | some .pnc => bitsFrom [(List.range 32).any (fun u => s.occActive (PNC_U_MIS_OCC_COUNT u).addr), s.occActive PNC_PAR_OCC_COUNT.addr]
  | some .cal => bitsFrom [s.on CAL_FUSE_STAT_FACT_BAD, s.g CAL_FR_BAD_MAP != 0]
  | some .mon => bitsFrom [(List.range 16).any (fun g => s.g (MON_G_N_N g) == 0xFFFFFFFF || (List.range 32).any (fun i => s.g (MON_G_BIN_COUNT g i) == 0xFFFFFFFF)),
      (List.range 16).any (fun g => s.on (MON_G_STAT_CFG_BAD g))]
  | some .prf => bitsFrom [(List.range 64).any (fun i => s.on (PRF_P_VAL_HI_OVF i)), s.on PRF_T_STAT_FULL, s.g PRF_E_STAT_LEVEL != 0]
  | some .inj => bitsFrom [s.g INJ_ACT_MAP0_MAP != 0 || s.g INJ_ACT_MAP1_MAP != 0]
  | _ => 0

/-- A trailer event of a page is active (R26, R27). -/
def trailerEvent (s : State) (pg : Nat) : Bool :=
  s.occActive (pg + 0x3E0) || s.occActive (pg + 0x3E4) || s.occActive (pg + 0x3E8) || s.occActive (pg + 0x3EC)

/-- PG_SUM.ANY of a page other than IRQ. -/
def pageAny (s : State) (pg : Nat) : Bool := pageSum s pg != 0 || trailerEvent s pg

/-! ### Sources (Table 16-10) -/

/-- A condition on some channel of an LG. -/
def anyChannel (n : Nat) (f : Nat → Bool) : Bool := (List.range 12).any (fun i => f (12 * n + i))

/-- A condition on some page of an LG. -/
def anyLgPage (n : Nat) (f : Nat → Bool) : Bool := (List.range 16).any (fun p => f (lgBase n + 0x1000 * p))

/-- Source `24 × n + r` of LG `n`. -/
def lgSource (s : State) (n r : Nat) : Bool :=
  if r < 12 then pageAny s (lgBase n + 0x1000 * (1 + r))
  else match r with
    | 12 => pageAny s (lgBase n)
    | 13 => pageAny s (lgBase n + 0xD000)
    | 14 => pageAny s (lgBase n + 0xE000)
    | 15 => pageAny s (lgBase n + 0xF000)
    | 16 => s.on (bitOf PWR_GRAD_THERM_GRAD n) || s.on (bitOf PWR_GRAD_VGRAD n)
    | 17 => anyChannel n (fun c => s.occActive (CH_DISC_OCC_COUNT c).addr || s.occActive (CH_GONE_OCC_COUNT c).addr)
    | 18 => anyChannel n (fun c => s.on (CH_SFSD_SF c))
    | 19 => anyChannel n (fun c => s.on (CH_SFSD_SD c))
    | 20 => s.occActive (LGS_LCAL_OCC_COUNT n).addr
    | 21 => anyLgPage n (fun pg => s.on (PG_PAR_ERR pg))
    | 22 => anyLgPage n (fun pg => s.occActive (pg + 0x3E0) || s.occActive (pg + 0x3EC))
    | _ => (List.range 256).any (fun i =>
        let k := entryKey 5 (256 * n + i)
        s.g ⟨k, 0, 1⟩ == 1 && (s.g ⟨k + 20, 10, 3⟩ == 3 || s.g ⟨k + 20, 10, 3⟩ == 4))

/-- The page whose PG_SUM.ANY is source `448 + i` (Table 16-10). -/
def sumPage (i : Nat) : Nat := if i < 28 then 0x1000 * i else 0x1C000 + 0x1000 * (i - 28)

/-- The cause of a source other than 454, the IRQ page's own (R366). -/
def sourceOn (s : State) (n : Nat) : Bool :=
  if n < 384 then lgSource s (n / 24) (n % 24)
  else if n < 448 then
    let e := n - 384
    s.g (FE_STAT_STATE e) == 3 || s.g (FE_H_OUT_DB_SEQ e) != s.g (FE_H_OUT_ACK_ACK e) ||
      (List.range 4).any (fun i => s.occActive ((FE_FAULT_OCC_COUNT e).addr + 4 * i))
  else if n < 481 then pageAny s (sumPage (n - 448))
  else if n < 489 then s.occActive (BMX_DONE_OCC_COUNT (n - 481)).addr
  else if n = 489 then s.g HTR_C2H_DB_SEQ != s.g HTR_C2H_ACK_ACK
  else if n = 490 then s.occActive 0x3074
  else if n = 491 then s.pt.any (fun p => !p.2.rx.isEmpty || !p.2.tx.isEmpty)
  else if n < 500 then s.on (bitOf IRQ_SWI_SWI (n - 492))
  else false

/-- The source's number is enabled; its route: bits [4:0] the vector, bit [5] the Hatter core (R367). -/
def srcEn (s : State) (n : Nat) : Bool := s.on (bitOf (IRQ_EN_EN (n / 32)) (n % 32))
def srcRoute (s : State) (n : Nat) : Nat := s.g ⟨(IRQ_ROUTE_R0 (n / 5)).addr, 6 * (n % 5), 6⟩

/-- The enabled sources: only EN words that are not 0 are looked at. -/
def enabledSources (s : State) : List Nat :=
  (List.range 16).flatMap (fun k =>
    if s.g (IRQ_EN_EN k) = 0 then [] else ((List.range 32).map (fun i => 32 * k + i)).filter (fun n => decide (n < 500) && srcEn s n))

/-- What the sources in a list drive: the vectors as a mask, the Hatter core as bit 32. -/
def driven (s : State) (l : List Nat) : Nat :=
  l.foldl (fun a n => a ||| (let r := srcRoute s n; if 32 ≤ r then 0x100000000 else 2 ^ r)) 0

/-- Vector levels in bits 0 to 31 and the Hatter core's in bit 32 (R367). Source 454 is set while a vector has level 1 (R371) or a
trailer event of the IRQ page is active, so it is judged after the others. -/
def irqDrive (s : State) : Nat :=
  if !s.usable 0x6000 then 0
  else
    let en := enabledSources s
    let a := driven s (en.filter (fun n => n != 454 && sourceOn s n))
    if (a % 0x100000000 != 0 || trailerEvent s 0x6000) && en.contains 454 then a ||| driven s [454] else a

def irqLevels (s : State) : Nat := irqDrive s % 0x100000000

/-- PG_SUM.SUM and ANY of any page. -/
def sumOf (s : State) (pg : Nat) : Nat := if pg = 0x6000 then bit (irqLevels s != 0) else pageSum s pg
def anyOf (s : State) (pg : Nat) : Bool := sumOf s pg != 0 || trailerEvent s pg

/-- STAT of any source. -/
def statOf (s : State) (n : Nat) : Bool :=
  if n = 454 then anyOf s 0x6000 else decide (n < 500) && sourceOn s n

/-! ### Messages (R368) -/

/-- A vector sends, or sets its pending bit while it or the function is masked; with MSI-X disabled it does neither. -/
def vecSend (h : Hst) (w : List Wire) (v : Nat) : Hst × List Wire :=
  if !h.msixEn then (h, w)
  else if h.fnMask || h.vecMask / 2 ^ v % 2 == 1 then ({ h with vecPend := h.vecPend ||| 2 ^ v }, w)
  else ({ h with armed := h.armed - (h.armed &&& 2 ^ v), vecPend := h.vecPend - (h.vecPend &&& 2 ^ v) }, .msix v :: w)

/-- The levels are evaluated: every armed vector whose level has risen sends. -/
def irqEval (lvl : Nat) (h : Hst) (w : List Wire) : Hst × List Wire :=
  if lvl = h.vecLvl then (h, w)
  else
    let up := (List.range 32).filter (fun v => lvl / 2 ^ v % 2 == 1 && h.vecLvl / 2 ^ v % 2 == 0 && h.armed / 2 ^ v % 2 == 1)
    up.foldl (fun a v => vecSend a.1 a.2 v) ({ h with vecLvl := lvl }, w)

/-- EOI (R368, R370): the vectors are armed again; one whose level is 1 sends at once. -/
def irqEoi (s : State) (mask : Nat) : State :=
  let m := mask % 0x100000000
  { s with hst := { s.hst with armed := s.hst.armed ||| m, vecLvl := s.hst.vecLvl - (s.hst.vecLvl &&& m) } }

end Sys2Proof.Machine
end

