-- ==== Sys2Proof/Machine/Flags.lean ====
section
/-!
DEFINITION. What many commands count: gauges (R403 to R406), performance counters (R408,
R409).
-/

namespace Sys2Proof.Machine

open Sys2Proof

/-! ### Gauges -/

/-- G_CFG names an instance that its source does not have (R404, Table 19-1). -/
def gaugeBad (s : State) (g : Nat) : Bool :=
  let i := s.f (MON_G_CFG_IDX g)
  match s.f (MON_G_CFG_SRC g) with
  | 1 => decide (98304 ≤ i)
  | 3 => i == 0 || decide (4096 ≤ i)
  | 4 => decide (16 ≤ i)
  | 5 => decide (192 ≤ i)
  | 6 => decide (32 ≤ i)
  | _ => false

/-- A gauge is cleared (R403, R406). -/
def gaugeClear (s : State) (g : Nat) : State :=
  { s with gaug := tset (fun _ => 0) s.gaug g 0 }.u ([(MON_G_MIN_MIN g, 0x7FFFFFFF), (MON_G_MAX_MAX g, 0x80000000), (MON_G_N_N g, 0)] ++
    (List.range 32).map (fun i => (MON_G_BIN_COUNT g i, 0)))

/-- The bin of a sample (R405). -/
def gaugeBin (e0 : Int) (st : Nat) (v : Int) : Nat := if v < e0 then 0 else min 31 (1 + ((v - e0) / Int.ofNat (max 1 st)).toNat)

/-- The signed value of a field. -/
def State.int (s : State) (f : Fld) : Int := (BitVec.ofNat 32 (s.g f)).toInt

/-- A recorded sample (R405). -/
def gaugeRecord (s : State) (g : Nat) (v : Int) : State :=
  let b := MON_G_BIN_COUNT g (gaugeBin (BitVec.ofNat 32 (s.f (MON_G_EDGE0_EDGE0 g))).toInt (s.f (MON_G_STEP_STEP g)) v)
  ((s.pmAdd b 1).pmAdd (MON_G_N_N g) 1).u [(MON_G_MIN_MIN g, (BitVec.ofInt 32 (min (s.int (MON_G_MIN_MIN g)) v)).toNat),
    (MON_G_MAX_MAX g, (BitVec.ofInt 32 (max (s.int (MON_G_MAX_MAX g)) v)).toNat)]

/-- A source delivers a sample (R404): every gauge that selects it meets it and records the first of each 2^SHIFT. -/
def gaugeSample (s : State) (src idx : Nat) (v : Int) : State :=
  if !s.ready 0x1E000 then s
  else
    (List.range 16).foldl (fun t g =>
      if t.f (MON_G_CFG_SRC g) = src ∧ (if src = 2 then g = idx else t.f (MON_G_CFG_IDX g) = idx ∧ !gaugeBad t g) then
        let n := tget (fun _ => 0) t.gaug g
        let t := { t with gaug := tset (fun _ => 0) t.gaug g (n + 1) }
        if n % 2 ^ min 20 (t.f (MON_G_CFG_SHIFT g)) = 0 then gaugeRecord t g v else t
      else t) s

/-! ### Performance counters -/

/-- An event of Table 19-3 occurs (R408, R409): each counter that selects it and runs adds 1; with LEVEL = 1 and an event that lasts,
the cycles it lasts, which no rule of the block gives. -/
def prfCount (s : State) (ev : Nat) (hit : Nat → Bool) : State :=
  if !s.on PRF_P_CTL_RUN || !s.ready 0x1F000 then s
  else
    (List.range 64).foldl (fun t i =>
      if t.f (PRF_P_CFG_EN i) = 1 ∧ t.f (PRF_P_CFG_EVENT i) = ev ∧ hit (t.f (PRF_P_CFG_INDEX i)) then
        if t.f (PRF_P_CFG_LEVEL i) = 1 ∧ ev ∈ [1, 2, 9, 10, 11, 12, 13] then
          (t.perfAdd (PRF_P_VAL_COUNT i).addr t.drawn.toNat).draw
        else t.perfAdd (PRF_P_VAL_COUNT i).addr 1
      else t) s

/-! ### The end of a command -/

/-- The vectors that have sent between two states of the controller: armed before, not after (R368). -/
def sentVecs (a b : Nat) : List Nat := (List.range 32).filter (fun v => a / 2 ^ v % 2 == 1 && b / 2 ^ v % 2 == 0)

/-- Messages that have left are counted, and their time noted (event 14 of Table 19-3; source 6 of Table 19-1). -/
def afterSend (s : State) (l : List Nat) : State :=
  if l.isEmpty then s
  else
    let s := { s with hst := { s.hst with sentAt := l.foldl (fun t v => tset (fun _ => 0) t v (s.nowNs + 1)) s.hst.sentAt } }
    l.foldl (fun t v => prfCount t 14 (fun i => i == v)) s

/-- INT_N is driven low while a vector of INTN_MASK has level 1 (R369). -/
def intLow (s : State) : Bool := decide (irqLevels s &&& s.g IRQ_INTN_MASK_MASK ≠ 0)

/-- What follows every command: the interrupt levels as they now stand (R366 to R369). -/
def State.settle (s : State) : State :=
  let r := irqEval (irqLevels s) s.hst s.wire
  afterSend { s with hst := { r.1 with intN := intLow s }, wire := r.2 } (sentVecs s.hst.armed r.1.armed)

/-- A command's outcome. -/
def done (s : State) : Host.Outcome State Fault Refusal := .next s.settle

/-- Vectors whose pending bit is set and which are masked no more send if their level is still 1; otherwise the bit is dropped. -/
def vecUnmask (s : State) : State :=
  let h := s.hst
  if !h.msixEn || h.fnMask then s
  else
    let l := (List.range 32).filter (fun v => h.vecPend / 2 ^ v % 2 == 1 && h.vecMask / 2 ^ v % 2 == 0)
    let r := l.foldl (fun (a : Hst × List Wire) v =>
      if a.1.vecLvl / 2 ^ v % 2 = 1 then vecSend a.1 a.2 v else ({ a.1 with vecPend := a.1.vecPend - (a.1.vecPend &&& 2 ^ v) }, a.2)) (h, s.wire)
    afterSend { s with hst := r.1, wire := r.2 } (sentVecs s.hst.armed r.1.armed)

/-- An EOI write (R368, R370, R404): each vector whose message it answers gives gauge source 6 a sample; the vectors are armed again. -/
def eoiWrite (s : State) (mask : Nat) : State :=
  let l := (List.range 32).filter (fun v => mask / 2 ^ v % 2 == 1 && tget (fun _ => 0) s.hst.sentAt v != 0)
  let s := l.foldl (fun t v => gaugeSample t 6 v (Int.ofNat (t.nowNs + 1 - tget (fun _ => 0) t.hst.sentAt v))) s
  irqEoi { s with hst := { s.hst with sentAt := s.hst.sentAt.filter (fun p => !l.contains p.1) } } mask

end Sys2Proof.Machine
end

