-- ==== Sys2Proof/Machine/InjUnit.lean ====
section
/-!
DEFINITION. Injection slots as their points meet them (13_integrity_injection.md R289 to R291): the units a slot injects and counts.
-/

namespace Sys2Proof.Machine

open Sys2Proof

/-- The kinds of instance (Table 13-4): 0 none, 1 channel, 2 path, 3 ODU level, 4 tributary monitor, 5 memory channel, 6 engine,
7 port, 8 crossing, 9 master, 10 an interchange entry, 11 a register. Point 0x0A takes a channel or an ODU level. -/
def pointKind (p : Nat) : Nat :=
  [0, 1, 1, 1, 1, 1, 1, 1, 2, 3, 3, 2, 4, 1, 1, 1, 1, 2, 2, 5, 10, 6, 11, 7, 7, 1, 8, 9].getD p 0

/-- The bits [hi:lo] of a number. -/
def bitsOf (v lo w : Nat) : Nat := v / 2 ^ lo % 2 ^ w

/-- The page whose function a point acts on (R290). -/
def injPage (p i prm : Nat) : Nat :=
  match pointKind p with
  | 1 | 2 | 3 => chBase (bitsOf i 0 8)
  | 4 => lgBase (bitsOf i 0 4) + 0xE000
  | 5 => 0xB000
  | 6 => 0x200000 + 0x1000 * i
  | 7 => 0x10000 + 0x1000 * i
  | 8 => 0x2000
  | 9 => 0x4000
  | 10 => if bitsOf i 17 1 = 0 then tsiPage else loxPage
  | _ => pageOf prm

/-- The points whose DIR column is not empty (Table 13-5). -/
def pointDir (p : Nat) : Bool := (decide (2 ≤ p) && decide (p ≤ 0x0A)) || (decide (0x0C ≤ p) && decide (p ≤ 0x12))

/-- Slots `a` and `b` name one target (R291); a point without DIR ignores it (R289). -/
def sameTarget (s : State) (a b : Nat) : Bool :=
  s.g (INJ_IJ_D0_POINT a) == s.g (INJ_IJ_D0_POINT b) && s.g (INJ_IJ_D1_INSTANCE a) == s.g (INJ_IJ_D1_INSTANCE b) &&
    (!pointDir (s.g (INJ_IJ_D0_POINT a)) || s.g (INJ_IJ_D0_DIR a) == s.g (INJ_IJ_D0_DIR b))

/-- Some slot injects (ACT_MAP). -/
def State.injecting (s : State) : Bool := s.g INJ_ACT_MAP0_MAP != 0 || s.g INJ_ACT_MAP1_MAP != 0

/-- SHADOWED of every active slot, and the map of the active ones (R291, R294). -/
def injShow (s : State) : State :=
  let act := (List.range 64).filter (fun i => s.on (INJ_IJ_STAT_ACTIVE i))
  let s := act.foldl (fun t i => t.u [(INJ_IJ_STAT_SHADOWED i, bit (act.any (fun j => decide (j < i) && sameTarget t i j)))]) s
  s.u [(INJ_ACT_MAP0_MAP, (act.map (fun i => if i < 32 then 2 ^ i else 0)).sum),
    (INJ_ACT_MAP1_MAP, (act.map (fun i => if 32 ≤ i then 2 ^ (i - 32) else 0)).sum)]

/-- A slot stops. -/
def injStop (s : State) (slot : Nat) : State :=
  injShow (s.u [(INJ_IJ_STAT_ACTIVE slot, 0), (INJ_IJ_STAT_MODE slot, 0), (INJ_IJ_STAT_SHADOWED slot, 0), (INJ_IJ_STAT_PAUSED slot, 0),
    (INJ_IJ_STAT_REMAIN slot, 0)])

/-- A slot's target is held or not ready (R290). -/
def injHeld (s : State) (slot : Nat) : Bool :=
  let pg := injPage (s.g (INJ_IJ_D0_POINT slot)) (s.g (INJ_IJ_D1_INSTANCE slot)) (s.g (INJ_IJ_D2_PARAM slot))
  !s.ready pg || s.on (PG_PAR_HOLD pg)

/-- A slot counts `n` units down (R290). -/
def injCount (s : State) (slot n : Nat) : State :=
  match s.g (INJ_IJ_STAT_MODE slot) with
  | 1 => injStop s slot
  | 2 => if s.g (INJ_IJ_STAT_REMAIN slot) ≤ n then injStop s slot
      else s.u [(INJ_IJ_STAT_REMAIN slot, s.g (INJ_IJ_STAT_REMAIN slot) - n)]
  | _ => s

/-- How many of `n` units a slot injects. -/
def injUnits (s : State) (slot n : Nat) : Nat :=
  match s.g (INJ_IJ_STAT_MODE slot) with
  | 1 => min 1 n
  | 2 => min n (s.g (INJ_IJ_STAT_REMAIN slot))
  | _ => n

/-- `n` occurrence units pass at the slots `ok` of a point (R290, R291): the lowest active one injects, the others count down with
it; a held slot is PAUSED. Answers the units injected and PARAM. -/
def injUnitP (s : State) (p : Nat) (ok : Nat → Bool) (n : Nat) : (Nat × Nat) × State :=
  if !s.injecting || n == 0 then ((0, 0), s)
  else
    let l := (List.range 64).filter (fun i => s.on (INJ_IJ_STAT_ACTIVE i) && s.g (INJ_IJ_D0_POINT i) == p && ok i)
    let s := l.foldl (fun t i => t.u [(INJ_IJ_STAT_PAUSED i, bit (injHeld t i))]) s
    let live := l.filter (fun i => !s.on (INJ_IJ_STAT_PAUSED i))
    let r := match live with
      | i :: _ => (injUnits s i n, s.g (INJ_IJ_D2_PARAM i))
      | [] => (0, 0)
    (r, live.foldl (fun t i => injCount t i n) s)

/-- The units of a point in direction `dir`, for the instances `hit`. -/
def injUnit (s : State) (p dir : Nat) (hit : Nat → Bool) (n : Nat) : (Nat × Nat) × State :=
  injUnitP s p (fun i => s.g (INJ_IJ_D0_DIR i) == dir && hit (s.g (INJ_IJ_D1_INSTANCE i))) n

/-- The units of a point that has no direction (R289), for the instances `hit`. -/
def injAny (s : State) (p : Nat) (hit : Nat → Bool) (n : Nat) : (Nat × Nat) × State :=
  injUnitP s p (fun i => hit (s.g (INJ_IJ_D1_INSTANCE i))) n

/-- The low `n` bits flipped, at most `w` (R291). -/
def flipLow (v n w : Nat) : Nat := v ^^^ (2 ^ min n w - 1)

end Sys2Proof.Machine
end

