-- ==== Sys2Proof/Machine/Cal.lean ====
section
/-!
DEFINITION. Calibration and trim records (18_calibration_fuses.md R389 to R402): requesting, starting, completing and aborting blocking runs,
stepping settings toward their targets, fuse records.
-/

namespace Sys2Proof.Machine

open Sys2Proof

def State.onCal (s : State) (f : CalSt → CalSt) : State := { s with cal := f s.cal }

/-! ### Targets -/

/-- Key of a target: kind and index; timestamp targets by port number. -/
def calKey (kind target : Nat) : Nat := 1024 * kind + target

/-- The LG of a lane's target. -/
def calLg (target : Nat) : Nat := target / 12

/-- Kinds of a lane (RX, TS_LINE), of a port (TS_TP, TS_GV), of a memory channel. -/
def calLane (kind : Nat) : Bool := decide (kind ≤ 1)
def calPort (kind : Nat) : Bool := kind == 2 || kind == 3

/-- The target exists and admits a run (R395): no member lane of a bond, an enabled Gelvy port, a page that is ready. -/
def calAdmits (s : State) (kind target : Nat) : Bool :=
  match kind with
  | 0 | 1 => decide (target < 192) && s.g (CH_DISC_STAT_STATE target) != 8
  | 2 => decide (0x100 ≤ target) && decide (target < 0x104)
  | 3 => decide (0x200 ≤ target) && decide (target < 0x208) && s.f (GP_CFG_EN (target - 0x200)) == 1
  | _ => decide (target < 16)

/-- Key of a timestamp point in calTs: a timing port has one per rate (Table 18-4). -/
def tsKey (s : State) (port : Nat) (tx : Bool) : Nat :=
  let r := if 0x100 ≤ port ∧ port < 0x104 then s.f (TPT_CFG_RATE (port - 0x100)) % 3 else 0
  port + (if tx then 1024 else 0) + 4096 * r

/-- The offset a timestamp point is to have, in 1/64 ns (R398). -/
def tsAim (s : State) (k : Nat) : Int :=
  tget (fun _ => 0) s.cal.fact k + tget (fun _ => 0) s.cal.trim k + tget (fun _ => 0) s.cal.corr k

def State.dqOf (s : State) (ch : Nat) : List Nat := tget (fun _ => []) s.cal.dq ch
def State.dqAim (s : State) (ch : Nat) : List Nat := tget (fun _ => []) s.cal.dqTo ch

/-- The previous application on a target has reached its target setting (R393). -/
def calSettled (s : State) (kind target : Nat) : Bool :=
  match kind with
  | 0 => !s.cal.swap.any (fun p => p.1 == target)
  | 4 => s.dqOf target == s.dqAim target
  | _ => [false, true].all (fun tx => tget (fun _ => 0) s.calTs (tsKey s target tx) == 1024 * tsAim s (tsKey s target tx))

/-- Two targets share a concurrency limit (R389): RX runs of one quad, timestamp runs of one LG, MEM runs of the device, one target. -/
def calSame (a b : CalRun) : Bool :=
  (a.kind == b.kind && a.target == b.target) ||
  (a.kind == 0 && b.kind == 0 && a.target / 4 == b.target / 4) ||
  (a.kind == 1 && b.kind == 1 && calLg a.target == calLg b.target) ||
  (a.kind == 4 && b.kind == 4)

/-! ### Requests (R390) -/

/-- A run's control register shows BUSY while a run of its own is in progress or a host command waits for one (R44). -/
def calBusy (s : State) : State :=
  let on (f : CalRun → Bool) : Nat := bit (s.cal.running.any f || s.cal.queue.any (fun r => r.host && f r))
  s.u ([(resBusy CAL_TCAL_CTRL_VALID.addr, bit ((s.cal.running ++ s.cal.queue).any (fun r => calPort r.kind && r.host))),
        (resBusy CAL_MCAL_CTRL_VALID.addr, bit ((s.cal.running ++ s.cal.queue).any (fun r => r.kind == 4 && r.host)))] ++
    (List.range 16).map (fun n => (resBusy (LGS_LCAL_CTRL_VALID n).addr, on (fun r => calLane r.kind && calLg r.target == n))))

/-- A trigger joins the run of its target that is queued or in progress; otherwise it queues one. -/
def calAsk (s : State) (kind target : Nat) (host : Bool) : State :=
  let hit (r : CalRun) : Bool := r.kind == kind && r.target == target
  if !calAdmits s kind target then s
  else if (s.cal.queue ++ s.cal.running).any hit then
    s.onCal (fun c => { c with
      queue := c.queue.map (fun r => if hit r then { r with host := r.host || host } else r),
      running := c.running.map (fun r => if hit r then { r with host := r.host || host } else r) })
  else s.onCal (fun c => { c with queue := c.queue ++ [⟨kind, target, host, 0, 0⟩] })

/-- The result words of a run, or of a command that could not be one (Tables 18-6 and 18-7). -/
def calResult (s : State) (kind target code : Nat) (host : Bool) (fig0 fig1 : Nat) : State :=
  let ok := code == 0
  if calLane kind then
    let n := calLg target
    (s.result (LGS_LCAL_CTRL_VALID n).addr (!ok) ([(LGS_LCAL_RES_CODE n, code), (LGS_LCAL_RES_LANE n, target % 12), (LGS_LCAL_RES_KIND n, kind)] ++
      (if ok then [(LGS_LCAL_FIG_WIDTH n, fig0), (LGS_LCAL_FIG_HEIGHT n, if kind = 0 then fig1 else 0)] else []))).u
      (if host then [(LGS_LCAL_CMD_RUN n, 0)] else [])
  else if !host then s
  else if calPort kind then
    s.result CAL_TCAL_CTRL_VALID.addr (!ok) ([(CAL_TCAL_RES_CODE, code), (CAL_TCAL_CMD_RUN, 0)] ++ (if ok then [(CAL_TCAL_RES_RESID, fig0)] else []))
  else
    s.result CAL_MCAL_CTRL_VALID.addr (!ok) ([(CAL_MCAL_RES_CODE, code), (CAL_MCAL_CMD_RUN, 0)] ++ (if ok then [(CAL_MCAL_RES_MARGIN, fig0)] else []))

/-- A target's figure takes a flag (R394). -/
def calFlag (s : State) (kind target fl : Nat) : State :=
  match kind with
  | 0 => s.u [(LGS_LCAL_ST_RX_FLAG (calLg target) (target % 12), fl)]
  | 1 => s.u [(LGS_LCAL_ST_TS_FLAG (calLg target) (target % 12), fl)]
  | _ => s.onCal (fun c => { c with flag := tset (fun _ => 3) c.flag (calKey kind target) fl })

def calFlagOf (s : State) (kind target : Nat) : Nat := tget (fun _ => 3) s.cal.flag (calKey kind target)

/-- LCAL_CMD.RUN (R390, R395); LCAL_SEL is banked per master. -/
def lcalRun (s : State) (m n : Nat) : State :=
  let lane := s.g (perMaster (LGS_LCAL_SEL_LANE n) m)
  let kind := s.g (perMaster (LGS_LCAL_SEL_KIND n) m)
  let s := s.u [(LGS_LCAL_CMD_RUN n, 1)]
  if 12 ≤ lane ∨ !calAdmits s kind (12 * n + lane) then
    (s.result (LGS_LCAL_CTRL_VALID n).addr true [(LGS_LCAL_RES_CODE n, 9), (LGS_LCAL_RES_LANE n, lane), (LGS_LCAL_RES_KIND n, kind)]).u [(LGS_LCAL_CMD_RUN n, 0)]
  else calBusy (calAsk s kind (12 * n + lane) true)

/-- TCAL_CMD.RUN. -/
def tcalRun (s : State) (m : Nat) : State :=
  let p := s.g (perMaster CAL_TCAL_SEL_PORT m)
  let kind := if p < 0x200 then 2 else 3
  let s := s.u [(CAL_TCAL_CMD_RUN, 1)]
  if !calAdmits s kind p then calResult s kind p 9 true 0 0 else calBusy (calAsk s kind p true)

/-- MCAL_CMD.RUN. -/
def mcalRun (s : State) (m : Nat) : State :=
  calBusy (calAsk (s.u [(CAL_MCAL_CMD_RUN, 1)]) 4 (s.g (perMaster CAL_MCAL_SEL_CH m)) true)

/-- The temperature a kind watches, in quarter degrees: its LG's, or TJ.MAX (R390, R391). -/
def signed10 (v : Nat) : Int := if v < 512 then Int.ofNat v else Int.ofNat v - 1024
def calTemp (s : State) (kind target : Nat) : Int :=
  if calLane kind then signed10 (s.g (PWR_LG_MEAS_TEMP (calLg target))) else signed10 (s.g PWR_TJ_MAX)

/-- BG_EN covers a kind (Table 18-7). -/
def calBg (s : State) (kind : Nat) : Bool := s.f (bitOf CAL_CFG_BG_EN (if kind ≤ 1 then 0 else if kind ≤ 3 then 1 else 2)) == 1

/-- The temperature trigger (R390): targets whose last completed run saw a temperature more than TRIG_C away. -/
def calTempTrigger (s : State) : State :=
  if !s.ready 0x1D000 then s
  else
    let hot := s.cal.last.filter (fun p =>
      let kind := p.1 / 1024
      (calLane kind || kind == 4) && calBg s kind &&
        decide (4 * max 1 (s.f CAL_CFG_TRIG_C) < (calTemp s kind (p.1 % 1024) - p.2.headD 0).natAbs))
    if hot.isEmpty then s else calBusy (hot.foldl (fun t p => calAsk t (p.1 / 1024) (p.1 % 1024) false) s)

/-- The runs of bring-up (R390): every RX and MEM run once. -/
def calBringup (s : State) : State :=
  calBusy ((List.range 16).foldl (fun t ch => calAsk t 4 ch false) ((List.range 192).foldl (fun t l => calAsk t 0 l false) s))

/-! ### Runs -/

/-- The page a target belongs to is ready. -/
def calPageReady (s : State) (kind target : Nat) : Bool :=
  match kind with
  | 0 | 1 => s.ready (lgBase (calLg target) + 0xD000)
  | 2 => s.ready (0x18000 + 0x1000 * (target - 0x100))
  | 3 => s.ready (0x10000 + 0x1000 * (target - 0x200))
  | _ => s.ready 0xC000

/-- The PLL of a target is locked and the time base runs (code 0x06). -/
def calClock (s : State) (kind target : Nat) : Bool :=
  s.running && match kind with
  | 0 | 1 => s.on (LGS_QCFG_TXPLL_LK (calLg target) (target % 12 / 4))
  | 2 => s.on (TPT_STAT_PLL_LK (target - 0x100))
  | 3 => s.on (bitOf CLK_PLL_STAT_GP_LK (target - 0x200))
  | _ => s.on CLK_PLL_STAT_G6_LK

/-- The gradient flags a kind watches: its LG's; of MEM every LG's; ports belong to no LG (R391). -/
def calGrad (s : State) (kind target : Nat) : Bool :=
  match kind with
  | 0 | 1 => s.on (bitOf PWR_GRAD_THERM_GRAD (calLg target)) || s.on (bitOf PWR_GRAD_VGRAD (calLg target))
  | 4 => s.g PWR_GRAD_THERM_GRAD != 0 || s.g PWR_GRAD_VGRAD != 0
  | _ => false

/-- The first precondition of Table 18-2 that a run misses; `t0` is the temperature at its start. -/
def calMiss (s : State) (kind target : Nat) (t0 : Int) : Nat :=
  let t := calTemp s kind target
  let n := calLg target
  if calLane kind && !s.on (LGS_LANE_EQ_SIG_DET n (target % 12)) then 1
  else if calLane kind && !s.on (LGS_LANE_EQ_CDR_LK n (target % 12)) then 2
  else if !calPort kind && (decide (t < -20) || decide (420 < t) || decide (8 < (t - t0).natAbs)) then 4
  else if calGrad s kind target then 5
  else if !calClock s kind target then 6
  else if !calPageReady s kind target then 9
  else 0

/-- A run ends without success (R391): its settings stay, its figure is INVALID. -/
def calFail (s : State) (r : CalRun) (code : Nat) : State :=
  let s := calFlag (calResult s r.kind r.target code r.host 0 0) r.kind r.target 2
  calBusy (if calLane r.kind then s.occ (LGS_LCAL_OCC_COUNT (calLg r.target)).addr else s)

/-- BLOCKING_RUN_START (R389, R391 to R393): the first request that waits for its limit starts once the limit and the previous application
allow; its preconditions are checked at once. -/
def calStart (s : State) (kind target : Nat) : State :=
  match s.cal.queue.find? (fun r => r.kind == kind && r.target == target) with
  | none => s
  | some r =>
    let first := (s.cal.queue.takeWhile (fun q => !(q.kind == kind && q.target == target))).all (fun q => !calSame q r)
    if !first || s.cal.running.any (fun q => calSame q r) || !calSettled s kind target || !s.ready 0x1D000 then s
    else
      let t0 := calTemp s kind target
      let s := s.onCal (fun c => { c with queue := c.queue.filter (fun q => q != r) })
      let miss := calMiss s kind target t0
      if miss ≠ 0 then calFail s r miss
      else
        let act := s.g (LGS_LANE_EQ_SLICE (calLg target) (target % 12))
        let r := { r with temp := t0, spare := (act + 1 + s.drawn.toNat % 2) % 3 }
        let s := if kind = 0 then s.draw else s
        calBusy (calFlag (s.onCal (fun c => { c with running := c.running ++ [r] })) kind target 1)

def execBlockingRunStart (kind : Fin 5) (target : Fin 1024) (s : State) : Host.Outcome State Fault Refusal :=
  done (calStart s kind.val target.val)

/-- The run in progress on a target, which then leaves the list. -/
def calTake (s : State) (kind target : Nat) : Option (CalRun × State) :=
  match s.cal.running.find? (fun r => r.kind == kind && r.target == target) with
  | none => none
  | some r => some (r, s.onCal (fun c => { c with running := c.running.filter (fun q => q != r) }))

/-- BLOCKING_RUN_COMPLETE (R393, R394): the target setting, the figure, the temperature it was found at. -/
def calComplete (s : State) (kind target : Nat) (rx tx : Int) (dq : List Nat) (fig0 fig1 : Nat) : State :=
  match calTake s kind target with
  | none => s
  | some (r, t) =>
    if kind = 4 ∧ fig0 < s.f CAL_CFG_MIN_MARGIN then calFail t r 8
    else
      let n := calLg target
      let t := t.onCal (fun c => { c with last := tset (fun _ => []) c.last (calKey kind target) [calTemp s kind target] })
      let t := match kind with
        | 0 => gaugeSample ((t.onCal (fun c => { c with swap := c.swap ++ [(target, r.spare)] })).u
            [(LGS_LCAL_ST_RX_WIDTH n (target % 12), fig0)]) 5 target (Int.ofNat fig1)
        | 4 => t.onCal (fun c => { c with dqTo := tset (fun _ => []) c.dqTo target ((dq.take 16).map (fun v => v % 16)) })
        | _ => t.onCal (fun c => { c with corr := tset (fun _ => 0) (tset (fun _ => 0) c.corr (tsKey s target false) rx) (tsKey s target true) tx })
      let t := calFlag (calResult t kind target 0 r.host fig0 fig1) kind target 0
      calBusy (if calLane kind then t.occ (LGS_LCAL_OCC_COUNT n).addr else t)

def execBlockingRunComplete (kind : Fin 5) (target : Fin 1024) (rx tx : Int) (dq : List Nat) (fig0 fig1 : Nat) (s : State) :
    Host.Outcome State Fault Refusal :=
  done (calComplete s kind.val target.val rx tx dq fig0 fig1)

/-- The kinds an abort code applies to (Table 18-2). -/
def abortFits (kind code : Nat) : Bool :=
  match code with
  | 1 | 2 => decide (kind ≤ 1)
  | 3 | 7 => kind == 0
  | 4 | 5 | 6 | 9 => true
  | 8 => kind == 4
  | _ => false

/-- BLOCKING_RUN_ABORT (R391): a precondition has failed in the course of the run. -/
def calAbort (s : State) (kind target code : Nat) : State :=
  if !abortFits kind code then s
  else match calTake s kind target with
    | none => s
    | some (r, t) => calFail t r code

def execBlockingRunAbort (kind : Fin 5) (target : Fin 1024) (code : Fin 10) (s : State) : Host.Outcome State Fault Refusal :=
  done (calAbort s kind.val target.val code.val)

/-- MISMATCH (R393). -/
def execMismatch (lane : Fin 192) (s : State) : Host.Outcome State Fault Refusal := done (calAbort s 0 lane.val 7)

/-- Every run in progress of some targets aborts with ABORTED (R391: a software reset, a Hatter restart). -/
def calAbortAll (s : State) (hit : CalRun → Bool) : State :=
  (s.cal.running.filter hit).foldl (fun t r => calAbort t r.kind r.target 9) s

/-- CAL_PERIOD_EXPIRY (R390). -/
def execCalPeriodExpiry (kind : Fin 5) (target : Fin 1024) (s : State) : Host.Outcome State Fault Refusal :=
  done (if s.ready 0x1D000 && calBg s kind.val && s.f CAL_CFG_PERIOD_MIN != 0 then calBusy (calAsk s kind.val target.val false) else s)

/-- LCAL_RUN, TCAL_RUN, MCAL_RUN. -/
def execLcalRun (m : Fin 8) (lg : Fin 16) (s : State) : Host.Outcome State Fault Refusal :=
  done (s.command m.val (LGS_LCAL_CMD_RUN lg.val) (fun t => lcalRun t m.val lg.val))
def execTcalRun (m : Fin 8) (s : State) : Host.Outcome State Fault Refusal :=
  done (s.command m.val CAL_TCAL_CMD_RUN (fun t => tcalRun t m.val))
def execMcalRun (m : Fin 8) (s : State) : Host.Outcome State Fault Refusal :=
  done (s.command m.val CAL_MCAL_CMD_RUN (fun t => mcalRun t m.val))

/-! ### Stepping (R393) -/

/-- One step of at most `n` toward an aim. -/
def stepTo (n : Int) (v aim : Int) : Int := if v < aim then min (v + n) aim else max (v - n) aim

/-- A timestamp point's setting is held by a run in progress on its port (R392). -/
def tsHeld (s : State) (k : Nat) : Bool := s.cal.running.any (fun r => r.kind != 0 && r.kind != 4 && r.target == k % 1024)

/-- A boundary (R393): slice swaps are made, timestamp points and DQ trims move by one code. -/
def calTick (s : State) : State :=
  let s := s.cal.swap.foldl (fun t p =>
    t.draw.u [(LGS_LANE_EQ_SLICE (calLg p.1) (p.1 % 12), p.2), (LGS_LANE_EQ_CTLE (calLg p.1) (p.1 % 12), t.drawn.toNat)]) s
  let s := s.onCal (fun c => { c with swap := [] })
  let keys := ((s.calTs.map (fun p => p.1)) ++ (s.cal.fact.map (fun p => p.1)) ++ (s.cal.trim.map (fun p => p.1)) ++
    (s.cal.corr.map (fun p => p.1))).eraseDups
  let ts := keys.foldl (fun t k => if tsHeld s k then t else tset (fun _ => 0) t k (stepTo 1024 (tget (fun _ => 0) t k) (1024 * tsAim s k))) s.calTs
  let dq := s.cal.dqTo.foldl (fun t p =>
    let now := tget (fun _ => []) t p.1
    tset (fun _ => []) t p.1 (p.2.zipIdx.map (fun q => (stepTo 1 (Int.ofNat (now.getD q.2 0)) (Int.ofNat q.1)).toNat))) s.cal.dq
  { s with calTs := ts, cal := { s.cal with dq := dq } }

/-! ### Fuse records -/

/-- The words of a slot. -/
def slotWords (t : Tab Word) (i : Nat) : List Word := (List.range 16).map (fun j => tget (fun _ => 0) t (16 * i + j))

/-- CRC-16 of Table 18-3. -/
def crc16 (l : List Byte) : Nat :=
  (~~~(l.foldl (crcByte 0x8408) 0xFFFF)).toNat % 0x10000

/-- The bytes of a word, least significant first. -/
def leWordBytes (v : Word) : List Byte := [v.extractLsb' 0 8, v.extractLsb' 8 8, v.extractLsb' 16 8, v.extractLsb' 24 8]

def recordCrc (l : List Word) : Nat := crc16 ((l.take 14).flatMap leWordBytes)

/-- Word 15 of a committed slot. -/
def commitWord : Word := 0xC3A55A3C

/-- A slot is used; a slot is committed (R398). -/
def slotUsed (l : List Word) : Bool := l.any (fun w => w != 0)
def slotCommitted (l : List Word) : Bool := l.getD 15 0 == commitWord && wordGet (l.getD 14 0) 0 16 == recordCrc l

/-- Fields of a record's header (Table 18-3). -/
def recType (l : List Word) : Nat := wordGet (l.getD 0 0) 0 4
def recTarget (l : List Word) : Nat := wordGet (l.getD 0 0) 4 8
def recLen (l : List Word) : Nat := wordGet (l.getD 0 0) 12 4
def recGen (l : List Word) : Nat := wordGet (l.getD 0 0) 16 16

/-- TYPE and TARGET of Table 18-4. -/
def recKnown (ty target : Nat) : Bool :=
  match ty with
  | 1 | 4 => decide (target < 192)
  | 2 => decide (target < 4)
  | 3 => decide (target < 8)
  | 5 => decide (target < 16)
  | _ => false

/-- The committed records of the array that name a target. -/
def committed (t : Tab Word) : List (List Word) :=
  ((List.range 32).map (slotWords t)).filter (fun l => slotCommitted l && recKnown (recType l) (recTarget l))

/-- The record in force of a TYPE and TARGET: the committed one with the highest GEN (R398). -/
def bestRecord (l : List (List Word)) (ty target : Nat) : Option (List Word) :=
  (l.filter (fun r => recType r == ty && recTarget r == target)).foldl
    (fun b r => match b with
      | none => some r
      | some q => if recGen q < recGen r then some r else b) none

def signed16 (v : Nat) : Int := if v < 0x8000 then Int.ofNat v else Int.ofNat v - 0x10000

/-- What a record sets (Table 18-4). -/
def applyRecord (c : CalSt) (l : List Word) : CalSt :=
  let n := recTarget l
  let put (t : Tab Int) (k w : Nat) : Tab Int :=
    tset (fun _ => 0) (tset (fun _ => 0) t k (signed16 (wordGet (l.getD w 0) 0 16))) (k + 1024) (signed16 (wordGet (l.getD w 0) 16 16))
  match recType l with
  | 1 => { c with trim := put c.trim n 1 }
  | 2 => { c with trim := put (put (put c.trim (0x100 + n) 1) (0x100 + n + 4096) 2) (0x100 + n + 8192) 3 }
  | 3 => { c with trim := put c.trim (0x200 + n) 1 }
  | 4 => { c with ctle := tset (fun _ => 0) c.ctle n (wordGet (l.getD 1 0) 0 5) }
  | 5 => { c with dqTo := tset (fun _ => []) c.dqTo n ((List.range 16).map (fun d => wordGet (l.getD (1 + d / 8) 0) (4 * (d % 8)) 4)) }
  | _ => c

/-- FUSE_STAT and FR_BAD (Table 18-7). -/
def fuseShow (s : State) : State :=
  let sl := (List.range 32).map (slotWords s.fuses)
  let used := sl.filter slotUsed
  s.u [(CAL_FUSE_STAT_USED, used.length), (CAL_FUSE_STAT_COMMITTED, (used.filter slotCommitted).length),
    (CAL_FR_BAD_MAP, bitsFrom (sl.map (fun l => slotUsed l && !slotCommitted l)))]

/-- FUSE_READ_COMPLETE (R396, R398): the array is read; `fact` are the factory offsets in 1/64 ns by timestamp point, not used where the
factory CRC fails. Values restored at a cold reset are in force at once. -/
def fuseRead (s : State) (crcOk : Bool) (fact : List (Nat × Int)) : State :=
  if s.pwr.inReset ∨ s.pwr.fusesRead then s
  else
    let recs := committed s.fuses
    let best := recs.filter (fun r => bestRecord recs (recType r) (recTarget r) == some r)
    let f := if crcOk then fact.foldl (fun t p => tset (fun _ => 0) t p.1 p.2) [] else []
    let s := s.onCal (fun c => best.foldl applyRecord { c with fact := f, fr := s.fuses })
    let keys := ((s.cal.fact.map (fun p => p.1)) ++ (s.cal.trim.map (fun p => p.1))).eraseDups
    let s := { s with
      calTs := keys.foldl (fun t k => tset (fun _ => 0) t k (1024 * tsAim s k)) s.calTs
      cal := { s.cal with dq := s.cal.dqTo }
      pwr := { s.pwr with fusesRead := true } }
    fuseShow (s.u [(CAL_FUSE_STAT_FACT_BAD, bit (!crcOk))])

def execFuseReadComplete (crcOk : Bool) (fact : List (Nat × Int)) (s : State) : Host.Outcome State Fault Refusal :=
  done (fuseRead s crcOk fact)

/-- The lowest unused slot. -/
def freeSlot (t : Tab Word) : Option Nat := (List.range 32).find? (fun i => !slotUsed (slotWords t i))

/-- A programming command ends (Table 18-5). -/
def progDone (s : State) (code : Nat) (slot : Option Nat) : State :=
  (s.result CAL_FR_CTRL_VALID.addr (code != 0) ((CAL_FR_CODE_CODE, code) ::
    (match slot with | some i => [(CAL_FR_CODE_SLOT, i)] | none => []))).u [(CAL_FCMD_PROG, 0)]

/-- FCMD.PROG (R399): the checks in the order of their codes; `low` tells VDD_IO below 1.75 V or the interlock of R374. -/
def progStart (s : State) (low : Bool) : State :=
  let w := (List.range 14).map (fun i => BitVec.ofNat 32 (s.g (CAL_TR_D_DATA i)))
  match freeSlot s.fuses with
  | none => progDone s 1 none
  | some i =>
    if !recKnown (recType w) (recTarget w) || recLen w == 0 || decide (13 < recLen w) || recGen w == 0 then progDone s 2 none
    else if (bestRecord (committed s.fuses) (recType w) (recTarget w)).any (fun r => decide (recGen w ≤ recGen r)) then progDone s 3 none
    else if low then progDone s 7 none
    else (s.onCal (fun c => { c with prog := some (i, w), halt := false })).u [(CAL_FCMD_PROG, 1), (resBusy CAL_FR_CTRL_VALID.addr, 1)]

def execProg (m : Fin 8) (low : Bool) (s : State) : Host.Outcome State Fault Refusal :=
  done (s.command m.val CAL_FCMD_PROG (fun t => progStart t low))

/-- Program words of a slot: a fuse once blown stays. -/
def blow (s : State) (i : Nat) (l : List Word) : State :=
  { s with fuses := l.zipIdx.foldl (fun t p => tset (fun _ => 0) t (16 * i + p.2) (tget (fun _ => 0) t (16 * i + p.2) ||| p.1)) s.fuses }

/-- The words of a slot as read back. -/
def frCopy (s : State) (i : Nat) : State :=
  s.onCal (fun c => { c with fr := (List.range 16).foldl (fun t j => tset (fun _ => 0) t (16 * i + j) (tget (fun _ => 0) s.fuses (16 * i + j))) c.fr })

/-- FUSE_PROG_DONE (R399, R398): with a good read-back the commit word follows and the record moves into force. -/
def fuseDone (s : State) (ok : Bool) : State :=
  match s.cal.prog with
  | none => s
  | some (i, w) =>
    if s.cal.halt then s
    else
      let body := w ++ [BitVec.ofNat 32 (recordCrc w)] ++ (if ok then [commitWord] else [])
      let s := frCopy (blow (s.onCal (fun c => { c with prog := none })) i body) i
      let s := if ok then s.onCal (fun c => applyRecord c w) else s
      progDone (fuseShow s) (if ok then 0 else 6) (some i)

def execFuseProgDone (ok : Bool) (s : State) : Host.Outcome State Fault Refusal := done (fuseDone s ok)

/-- The slot keeps the words that were whole and the bits of the next that were programmed. -/
def fuseCut (s : State) (n : Nat) (part : Word) : State :=
  match s.cal.prog with
  | none => s
  | some (i, w) =>
    let body := w ++ [BitVec.ofNat 32 (recordCrc w)]
    blow (s.onCal (fun c => { c with prog := none, halt := false })) i (body.take n ++ (if n < 15 then [body.getD n 0 &&& part] else []))

/-- FUSE_PROG_ABORT (R400): the brown-out monitor, or a Hatter restart, which has been made, stops programming after `n` words and some
bits of the next. -/
def fuseAbort (s : State) (n : Nat) (part : Word) : State :=
  match s.cal.prog with
  | none => s
  | some (i, _) => progDone (fuseShow (fuseCut s n part)) (if s.cal.halt then 5 else 4) (some i)

def execFuseProgAbort (n : Fin 16) (part : Word) (s : State) : Host.Outcome State Fault Refusal := done (fuseAbort s n.val part)

/-- A Hatter restart ends every run and stops programming (R364, R391, R400). -/
def calRestart (s : State) : State :=
  (calAbortAll s (fun _ => true)).onCal (fun c => { c with halt := c.prog.isSome })

/-- The software reset of CAL (Table 17-3): runs in progress abort. -/
def calReset (s : State) : State := calAbortAll s (fun _ => true)

end Sys2Proof.Machine
end

