-- ==== Sys2Proof/Machine/Power.lean ====
section
/-!
DEFINITION. Supplies, resets, clocks, readiness and operating modes (01_architecture.md R18 to R20; 17_power_reset_modes.md R372 to
R388; straps R421).
-/

namespace Sys2Proof.Machine

open Sys2Proof

/-- Change DEV.MODE (R380): PREV keeps the mode before; the claim is asserted in ACTIVE only (R296); outside ACTIVE and STANDBY the
unit takes no part in a pair (Table 14-2, state NONE). -/
def setMode (s : State) (m : Nat) : State :=
  s.u [(DEV_MODE_PREV, s.mode), (DEV_MODE_MODE, m), (TWN_STAT_CLAIM_OUT, bit (m == 3)),
    (TWN_STAT_STATE, if m = 3 ∨ m = 4 then s.g TWN_STAT_STATE else 0)]

/-- A DEV command ends (R387): its CMD bit clears and its result completes, unless a transition still waits, which keeps BUSY set
(R381). -/
def devDone (s : State) (cmd code : Nat) : State :=
  (s.result 0x28 (code != 0) [(DEV_CMD_CODE_CODE, code), (DEV_CMD_CODE_CMD, cmd), (bitOf DEV_CMD_BRINGUP cmd, 0)]).u
    [(resBusy 0x28, bit (!s.pwr.modeReqs.isEmpty))]

/-- The fatal causes present (R383): Q_CAUSE bits 0 to 2. -/
def fatalBits (s : State) : Nat := s.g ⟨0x34, 0, 3⟩

/-- Every waiting RELEASE ends with code 0x03, because a fatal cause has arrived (R381, R384). -/
def failReleases (s : State) : State :=
  if s.pwr.modeReqs.any (fun r => r.cmd == 3) then
    devDone { s with pwr := { s.pwr with modeReqs := s.pwr.modeReqs.filter (fun r => r.cmd != 3) } } 3 0x03
  else s

/-- Enter QUARANTINE with the cause of the given bit (R381, R383). -/
def enterQuarantine (s : State) (first : Nat) : State :=
  (setMode s 5).u [(DEV_Q_CAUSE_FIRST, first)]

/-- The lowest of three cause bits. -/
def lowestCause (q : Nat) : Nat := if q % 2 = 1 then 0 else if q / 2 % 2 = 1 then 1 else 2

/-- A fatal cause is present (R381, R384): a waiting RELEASE fails; from BRINGUP, SOLO, ACTIVE and STANDBY the unit enters
QUARANTINE. In BOOT nothing changes. -/
def fatalPresent (s : State) : State :=
  let s := failReleases s
  if 1 ≤ s.mode ∧ s.mode ≤ 4 then enterQuarantine s (lowestCause (fatalBits s)) else s

/-- What a cold reset does (R376): every register returns to its reset value but SEQ_LOG and RST_CAUSE; pending actions, journal,
engines, batt store and every other table and queue are discarded; the mode is BOOT and the internal reset holds (R375). The
flash and the fuse array outside the logic keep their contents, and the log of what was sent, the count of drawn values and the
commands that still wait are not part of the block. A fuse record in programming stops where a free value says (R400). -/
def coldReset (s : State) (cause : Nat) : State :=
  let s := if s.cal.prog.isSome then (fuseCut s (s.drawn.toNat % 15) s.drawn).draw else s
  { State.reset with
    regs := setFlds [(PWR_SEQ_LOG_COUNT, s.g PWR_SEQ_LOG_COUNT), (PWR_SEQ_LOG_KIND, s.g PWR_SEQ_LOG_KIND),
      (DEV_RST_CAUSE_CAUSE, cause), (DEV_RST_CAUSE_COUNT, s.g DEV_RST_CAUSE_COUNT + 1)] []
    hst := { State.reset.hst with flash := s.hst.flash }
    fuses := s.fuses
    wire := s.wire, free := s.free, pending := s.pending }

/-- POWER_ON (R375, R376, R387): a cold reset by power-on. When both VDD_CORE and VDD_IO were down the sequence log is lost (R374)
and the count of cold resets starts at 1. -/
def execPowerOn (bothDown : Bool) (s : State) : Host.Outcome State Fault Refusal :=
  let t := coldReset s 0
  done (if bothDown then t.u [(PWR_SEQ_LOG_COUNT, 0), (PWR_SEQ_LOG_KIND, 0), (DEV_RST_CAUSE_COUNT, 1)] else t)

/-- RESET_N_ASSERT (R375): a low level of 1 µs or more is a cold reset; a shorter one is ignored. -/
def execResetNAssert (ns : Nat) (s : State) : Host.Outcome State Fault Refusal :=
  done (if ns < 1000 then s else coldReset s 1)

/-- BROWN_OUT (R376). -/
def execBrownOut (s : State) : Host.Outcome State Fault Refusal := done (coldReset s 2)

/-- SEQ_VIOLATION (R374, Table 17-2): the log counts it and names its kind; a kind 1 violation in service is a cold reset. -/
def execSeqViolation (kind : Fin 5) (inService : Bool) (s : State) : Host.Outcome State Fault Refusal :=
  if kind.val = 0 then done s
  else
    let t := s.u [(PWR_SEQ_LOG_COUNT, min 255 (s.g PWR_SEQ_LOG_COUNT + 1)), (PWR_SEQ_LOG_KIND, kind.val)]
    done (if kind.val = 1 ∧ inService then coldReset t 3 else t)

/-- The majority of three samples of the straps (R421). -/
def majority3 (a b c : BitVec 9) : Nat := ((a &&& b) ||| (a &&& c) ||| (b &&& c)).toNat

/-- Role and id in force (R325, Table 15-1): from the straps, or from GRP.CFG with the strap 0b11; a manager's id is 0; a worker of
id 0 acts with no role and sets ID_BAD. -/
def roleInForce (s : State) : State :=
  let strap := s.pwr.straps % 4
  let r := if strap = 3 then s.g GRP_CFG_ROLE else strap
  let i := if strap = 3 then s.g GRP_CFG_ID else s.pwr.straps / 4 % 8
  if r = 1 then s.u [(GRP_STAT_ROLE, 1), (GRP_STAT_ID, 0), (GRP_STAT_ID_BAD, 0)]
  else if r = 2 ∧ i ≠ 0 then s.u [(GRP_STAT_ROLE, 2), (GRP_STAT_ID, i), (GRP_STAT_ID_BAD, 0)]
  else s.u [(GRP_STAT_ROLE, 0), (GRP_STAT_ID, 0), (GRP_STAT_ID_BAD, bit (r == 2))]

/-- INTERNAL_RESET_END (R375, R421): the straps take their majority values (ROLE in bits [1:0], GRP_ID in [4:2], TWIN_PREFER in
[5], SMB_ADDR in [8:6]) and set the fields whose reset value is a strap; every rail is in tolerance; the inputs that toggle
are present (R19); DEV, PWR and BMX are ready at once (Table 17-4); the mode is BOOT. -/
def execInternalResetEnd (s1 s2 s3 : BitVec 9) (refs : BitVec 5) (s : State) : Host.Outcome State Fault Refusal :=
  if s.pwr.inReset then
    let v := majority3 s1 s2 s3
    done (roleInForce ({ s with pwr := { s.pwr with inReset := false, straps := v, refSeen := refs.toNat } }.u
      [(PG_READY_READY 0, 1), (PG_READY_READY 0x1000, 1), (PG_READY_READY 0x7000, 1),
       (PWR_RAIL_OK, 0xFF), (CLK_REF_STAT_PRESENT, refs.toNat),
       (GRP_CFG_ROLE, v), (GRP_CFG_ID, v / 4), (TWN_STAT_PREFER, v / 32)]))
  else done s

/-- CORE_CFG_WRITE (R19, Table 1-5, R33): a plain write of CLK.CORE_CFG. REF_SEL is refused, with a bus error and a lock violation,
in every mode but BOOT and once it is locked, and with a bus error alone for 0b101 to 0b111; the refusal covers REF_SEL only,
so LOCKED sets where the page is not locked. A new reference in BOOT unlocks the core PLLs until they have relocked; G6_LK stays, since the
spec names the core PLLs alone (DESIGN CHOICE, log 66); CLK_LOSS follows the lock bits (R383). -/
def execCoreCfgWrite (m : Fin 8) (v : Word) (s : State) : Host.Outcome State Fault Refusal :=
  if !s.usable 0x2000 then done (s.answer m.val false [])
  else
    let sel := wordGet v 0 3
    let pageLock := s.on (PG_LOCK_LOCK 0x2000)
    let refused := s.mode != 0 || s.on CLK_CORE_CFG_LOCKED || pageLock
    let t := if pageLock then s else s.u [(CLK_CORE_CFG_LOCKED, bit (s.on CLK_CORE_CFG_LOCKED || wordGet v 31 1 == 1))]
    if refused then done ((t.lockViol m.val 0x2020).answer m.val false [])
    else if 5 ≤ sel then done (t.answer m.val false [])
    else done ((t.u [(CLK_CORE_CFG_REF_SEL, sel), (CLK_PLL_STAT_CCLK_LK, 0), (CLK_PLL_STAT_ECLK_LK, 0),
      (CLK_PLL_STAT_MCLK_LK, 0), (CLK_PLL_STAT_SCLK_LK, 0), (DEV_Q_CAUSE_CLK_LOSS, 1)]).answer m.val true [])

/-- The core PLLs have locked (R19, Table 17-9): bits 0 to 3; the CLK page is ready; CLK_LOSS goes with its cause (R383). The table says of
TCLK_LK only 'locked to TREF, or holding': here it sets with the core PLLs where TREF toggles (DESIGN CHOICE, log 66). -/
def coreLocked (s : State) : State :=
  s.u [(CLK_PLL_STAT_CCLK_LK, 1), (CLK_PLL_STAT_ECLK_LK, 1), (CLK_PLL_STAT_MCLK_LK, 1), (CLK_PLL_STAT_SCLK_LK, 1),
    (CLK_PLL_STAT_TCLK_LK, bit (s.on CLK_PLL_STAT_TCLK_LK || s.on (bitOf CLK_REF_STAT_PRESENT 4))),
    (PG_READY_READY 0x2000, 1), (DEV_Q_CAUSE_CLK_LOSS, 0)]

/-- CORE_PLL_RELOCK (R19): an unlocked MCLK is recovered by a cold reset only (R20). -/
def execCorePllRelock (s : State) : Host.Outcome State Fault Refusal :=
  done (if s.pwr.inReset || s.pwr.mclkLost then s else coreLocked s)

/-- CORE_CLOCK_LOCK_LOSS (R20, R383): the lock bits of the outputs that lost lock clear, CLK_LOSS sets and the unit enters
QUARANTINE; register access stays. -/
def execCoreClockLockLoss (cclk eclk sclk : Bool) (s : State) : Host.Outcome State Fault Refusal :=
  if cclk || eclk || sclk then
    done (fatalPresent (s.u [(CLK_PLL_STAT_CCLK_LK, bit (s.on CLK_PLL_STAT_CCLK_LK && !cclk)),
      (CLK_PLL_STAT_ECLK_LK, bit (s.on CLK_PLL_STAT_ECLK_LK && !eclk)),
      (CLK_PLL_STAT_SCLK_LK, bit (s.on CLK_PLL_STAT_SCLK_LK && !sclk)), (DEV_Q_CAUSE_CLK_LOSS, 1)]))
  else done s

/-- MCLK_LOCK_LOSS (R20, R296): the bus stops answering, egress is squelched in hardware and the claim drops within 2 µs. -/
def execMclkLockLoss (s : State) : Host.Outcome State Fault Refusal :=
  done ({ s with pwr := { s.pwr with mclkLost := true } }.u [(CLK_PLL_STAT_MCLK_LK, 0), (TWN_STAT_CLAIM_OUT, 0)])

/-- REF_LOSS (R19, R20): the fall of a PRESENT bit counts once and REF_LAST names the input; TCLK_LK stays set after a loss of
TREF, because the TCLK PLL holds. -/
def execRefLoss (input : Fin 5) (s : State) : Host.Outcome State Fault Refusal :=
  if s.on (bitOf CLK_REF_STAT_PRESENT input.val) then
    done ((s.occ 0x2040).u [(bitOf CLK_REF_STAT_PRESENT input.val, 0), (CLK_REF_LAST_INPUT, 2 ^ input.val)])
  else done s

/-- REF_RETURN (R19): the PRESENT bit sets; the input counts among those present since cold reset; TREF locks the TCLK PLL where the core
PLLs have locked, and else with them (DESIGN CHOICE, log 66). -/
def execRefReturn (input : Fin 5) (s : State) : Host.Outcome State Fault Refusal :=
  if s.pwr.inReset then done s
  else
    done ({ s with pwr := { s.pwr with refSeen := s.pwr.refSeen ||| 2 ^ input.val } }.u
      [(bitOf CLK_REF_STAT_PRESENT input.val, 1),
       (CLK_PLL_STAT_TCLK_LK, bit (s.on CLK_PLL_STAT_TCLK_LK || input.val == 4 && s.on CLK_PLL_STAT_CCLK_LK))])

/-- REF_OOR_CHANGE (R19, Table 1-6). -/
def execRefOorChange (input : Fin 5) (oor : Bool) (s : State) : Host.Outcome State Fault Refusal :=
  done (s.u [(bitOf CLK_REF_STAT_OOR input.val, bit oor)])

/-- TB running and PLK ready: what SOLO needs (R381). -/
def soloOk (s : State) : Bool := s.running && s.ready 0x4000

/-- The mode that the transitions already waiting will leave (R384: each DEV command is judged against the mode the one before it
leaves). -/
def futureMode (s : State) : Nat :=
  s.pwr.modeReqs.foldl (fun m r => if r.cmd = 2 then 5 else if r.cmd = 1 then 2 else if soloOk s then 2 else m) s.mode

/-- Queue a transition for the next system-frame boundary (R381, R17); BUSY stays set until it is made. -/
def queueMode (s : State) (cmd : Nat) (late : Bool) : State :=
  { s with pwr := { s.pwr with modeReqs := s.pwr.modeReqs ++ [ModeReq.mk cmd (if late then 1 else 0)] } }.u
    [(resBusy 0x28, 1), (bitOf DEV_CMD_BRINGUP cmd, 1)]

/-- Make a transition (R381): judged against the mode it finds. -/
def applyMode (s : State) (cmd : Nat) : State :=
  if cmd = 1 then
    if s.mode ≠ 1 then devDone s 1 0x01
    else if soloOk s then devDone (setMode s 2) 1 0 else devDone s 1 0x02
  else if cmd = 2 then
    if 1 ≤ s.mode ∧ s.mode ≤ 4 then devDone (enterQuarantine s 3) 2 0
    else if s.mode = 5 then devDone s 2 0 else devDone s 2 0x01
  else
    if s.mode ≠ 5 then devDone s 3 0x01
    else if fatalBits s ≠ 0 then devDone s 3 0x03
    else devDone ((setMode s (if soloOk s then 2 else 1)).u [(DEV_Q_CAUSE_HOST, 0)]) 3 0

/-- The transitions due at a system-frame boundary (R381, R384): in the order in which they were commanded. -/
def modeBoundary (s : State) : State :=
  let due := s.pwr.modeReqs.filter (fun r => r.wait == 0)
  let rest := (s.pwr.modeReqs.filter (fun r => r.wait != 0)).map (fun r => { r with wait := r.wait - 1 })
  due.foldl (fun t r => applyMode t r.cmd) { s with pwr := { s.pwr with modeReqs := rest } }

/-- The time base stops: a waiting transition takes effect, or fails, at once (R381). -/
def modesNow (s : State) : State :=
  s.pwr.modeReqs.foldl (fun t r => applyMode t r.cmd) { s with pwr := { s.pwr with modeReqs := [] } }

/-- DEV.CMD.BRINGUP (R378, R381): at once, with the five core clocks locked; the Hatter core leaves reset and runs its ROM. -/
def cmdBringup (s : State) : State :=
  if futureMode s ≠ 0 then devDone s 0 0x01
  else if s.g ⟨0x2024, 0, 5⟩ ≠ 0x1F then devDone s 0 0x02
  else devDone (calBringup ((setMode s 1).u [(HTR_STAT_STATE, 0)])) 0 0

/-- DEV.CMD.SOLO (R381). -/
def cmdSolo (s : State) (late : Bool) : State :=
  if futureMode s ≠ 1 then devDone s 1 0x01
  else if soloOk s then queueMode s 1 late
  else devDone s 1 0x02

/-- DEV.CMD.QUARANTINE (R381, R383): HOST sets; at once while the time base does not run; in QUARANTINE it changes nothing else. -/
def cmdQuarantine (s : State) (late : Bool) : State :=
  if futureMode s = 0 then devDone s 2 0x01
  else
    let s := s.u [(DEV_Q_CAUSE_HOST, 1)]
    if futureMode s = 5 then devDone s 2 0
    else if s.running then queueMode s 2 late
    else applyMode s 2

/-- DEV.CMD.RELEASE (R381, R383). -/
def cmdRelease (s : State) (late : Bool) : State :=
  if futureMode s ≠ 5 then devDone s 3 0x01
  else if fatalBits s ≠ 0 then devDone s 3 0x03
  else if s.running then queueMode s 3 late
  else applyMode s 3

def execBringup (m : Fin 8) (s : State) : Host.Outcome State Fault Refusal :=
  done (s.command m.val DEV_CMD_BRINGUP cmdBringup)

def execSolo (m : Fin 8) (late : Bool) (s : State) : Host.Outcome State Fault Refusal :=
  done (s.command m.val DEV_CMD_SOLO (fun t => cmdSolo t late))

def execQuarantine (m : Fin 8) (late : Bool) (s : State) : Host.Outcome State Fault Refusal :=
  done (s.command m.val DEV_CMD_QUARANTINE (fun t => cmdQuarantine t late))

def execRelease (m : Fin 8) (late : Bool) (s : State) : Host.Outcome State Fault Refusal :=
  done (s.command m.val DEV_CMD_RELEASE (fun t => cmdRelease t late))

/-- FATAL_CAUSE (R383): CLK_LOSS, RAIL or THERM arises. -/
def execFatalCause (bit : Fin 3) (s : State) : Host.Outcome State Fault Refusal :=
  done (if s.pwr.inReset then s else fatalPresent (s.u [(bitOf DEV_Q_CAUSE_CLK_LOSS bit.val, 1)]))

/-- The pages another page waits for (Table 17-4), by base address. -/
def prereqPages (pg : Nat) : List Nat :=
  match pageKind pg with
  | some .lgs => [0x1D000]
  | some .lgc | some .lgm | some .lgp | some .ch => [lgBase ((pg - 0x100000) / 0x10000) + 0xD000]
  | _ => []

/-- The other prerequisites of Table 17-4: BRINGUP entered, the time base running, fuses read, island in tolerance, memory PLL
locked, every GDDR6 channel trained or failed and one trained. -/
def prereqMet (s : State) (pg : Nat) : Bool :=
  match pageKind pg with
  | none => false
  | some .dev | some .pwr | some .bmx | some .clk => !s.pwr.inReset
  | some .cal => s.mode != 0 && s.pwr.fusesRead
  | some .plk | some .jnl | some .ic => s.mode != 0 && s.running
  | some .lgs => s.mode != 0 && s.g (bitOf PWR_ISL_UV_UV ((pg - 0x100000) / 0x10000)) == 0
  | some .lgc | some .lgm | some .lgp | some .ch => s.mode != 0 && s.running
  | some .mem => s.mode != 0 && s.on CLK_PLL_STAT_G6_LK
  | some .bat => s.mode != 0 && s.g MEM_STAT_TRAINED != 0 &&
      (s.g MEM_STAT_TRAINED ||| s.g MEM_STAT_FAIL) == 0xFFFF
  | _ => s.mode != 0

/-- The pages that wait for a page of an LG, or for CAL, by base address (Table 17-4). -/
def waitingPages (pg : Nat) : List Nat :=
  let lg (q : Nat) : List Nat := (List.range 16).map (fun i => (q - 0xD000) + 0x1000 * i)
  if pg = 0x1D000 then (List.range 16).flatMap (fun n => lg (lgBase n + 0xD000))
  else if pageKind pg = some .lgs then (lg pg).filter (· != pg)
  else []

/-- A page's initialisation fails (R379): so do the pages that wait for it and are not ready. -/
def pageFail (s : State) (pg : Nat) : State :=
  s.u ([(PG_READY_FAILED pg, 1), (PG_READY_READY pg, 0), (PG_CMD_SRST pg, 0)] ++
    ((waitingPages pg).filter (fun q => !s.ready q)).map (fun q => (PG_READY_FAILED q, 1)))

/-- A page's initialisation ends (R379): READY with its prerequisites met, FAILED where it fails or a prerequisite page has FAILED.
The end also ends a software reset of the page that relocks or retrains (R377). -/
def pageInit (s : State) (pg : Nat) (ok : Bool) : State :=
  if s.pwr.inReset || (pageKind pg).isNone then s
  else if !ok || (prereqPages pg).any (fun q => s.on (PG_READY_FAILED q)) then
    if prereqMet s pg then pageFail s pg else s
  else if prereqMet s pg && (prereqPages pg).all (fun q => s.ready q) then
    s.u [(PG_READY_READY pg, 1), (PG_CMD_SRST pg, 0)]
  else s

/-- PAGE_READY (R379). The lower-order and the higher-order stage begin with their reset entries (R136). -/
def execPageReady (page : Fin 576) (ok : Bool) (s : State) : Host.Outcome State Fault Refusal :=
  done (pageInit s (page.val * 0x1000) ok)

/-- RAIL_TOLERANCE_CHANGE (R388, R383): RAIL and ISL_UV follow, UV_OCC counts each entry into a UV, OV or ISL_UV condition. A rail of
R383 (VDD_CORE, VDD_SRAM, VDDA_PLL) clears Q_CAUSE.RAIL once none of the three is outside tolerance. -/
def execRailToleranceChange (w : Supply) (l : Level) (s : State) : Host.Outcome State Fault Refusal :=
  match w with
  | .rail r =>
    let t := if l = .ok ∨ (l = .under ∧ s.on (bitOf PWR_RAIL_UV r.val)) ∨ (l = .over ∧ s.on (bitOf PWR_RAIL_OV r.val)) then s
      else s.occ 0x1084
    let t := t.u [(bitOf PWR_RAIL_OK r.val, bit (l == .ok)), (bitOf PWR_RAIL_UV r.val, bit (l == .under)),
      (bitOf PWR_RAIL_OV r.val, bit (l == .over))]
    let bad := (t.g PWR_RAIL_UV ||| t.g PWR_RAIL_OV) &&& 0x13
    done (if bad = 0 then t.u [(DEV_Q_CAUSE_RAIL, 0)] else t)
  | .island n =>
    let t := if l = .ok ∨ s.on (bitOf PWR_ISL_UV_UV n.val) then s else s.occ 0x1084
    done (t.u [(bitOf PWR_ISL_UV_UV n.val, bit (l != .ok))])

/-- PLL_RELOCK (R383, R275): the PLL's lock bit sets; a core relock clears CLK_LOSS; after a memory PLL relock every channel trains
again. -/
def execPllRelock (p : Pll) (s : State) : Host.Outcome State Fault Refusal :=
  if s.pwr.inReset then done s
  else
    match p with
    | .core => done (if s.pwr.mclkLost then s else coreLocked s)
    | .mem => done (s.u [(CLK_PLL_STAT_G6_LK, 1), (MEM_STAT_TRAINED, 0), (MEM_STAT_FAIL, 0)])
    | .pcie => done (s.u [(CLK_PLL_STAT_PCIE_LK, 1)])
    | .quad q => done (s.u [(LGS_QCFG_TXPLL_LK (q.val / 3) (q.val % 3), 1)])
    | .tport p => done (s.u [(TPT_STAT_PLL_LK p.val, 1)])
    | .gelvy p => done (s.u [(bitOf CLK_PLL_STAT_GP_LK p.val, 1)])

/-- The lane bits of a quad, as a mask over lanes 0 to 191. -/
def quadMask (q : Nat) : Nat := 0xF * 2 ^ (4 * q)

/-- TX_PLL_LOCK_LOSS (R320, R239): the lock bit clears; a quad's lanes fail a verification window that runs; a timing port loses its
link. -/
def execTxPllLockLoss (p : Pll) (s : State) : Host.Outcome State Fault Refusal :=
  match p with
  | .quad q =>
    let t := s.u [(LGS_QCFG_TXPLL_LK (q.val / 3) (q.val % 3), 0)]
    done (if s.on TWN_STAT_TVW_RUN then { t with tvwFail := t.tvwFail ||| quadMask q.val } else t)
  | .tport p => done (s.u [(TPT_STAT_PLL_LK p.val, 0), (TPT_STAT_LINK p.val, 0)])
  | .gelvy p => done (s.u [(bitOf CLK_PLL_STAT_GP_LK p.val, 0)])
  | .pcie => done (s.u [(CLK_PLL_STAT_PCIE_LK, 0)])
  | _ => done s

/-- Consecutive measurements beyond and within a limit (R385). -/
def runCount (hit : Bool) (n : Nat) : Nat := if hit then min 3 (n + 1) else 0

/-- One LG's part of the millisecond measurement (R385): the flags need three measurements in a row beyond 12 °C (25 mV), and clear
after three in a row at or below 11 °C (20 mV) to both neighbours. -/
def gradFlags (s : State) (temps : List Int) (volts : List Nat) (n : Nat) : State :=
  let t (i : Nat) : Int := temps.getD (i % 16) 0
  let v (i : Nat) : Int := Int.ofNat (volts.getD (i % 16) 0)
  let dt := max (t n - t (n + 1)).natAbs (t n - t (n + 15)).natAbs
  let dv := max (v n - v (n + 1)).natAbs (v n - v (n + 15)).natAbs
  let c := tget (fun _ => [0, 0, 0, 0]) s.pwr.rgn n
  let c' := [runCount (decide (48 < dt)) (c.getD 0 0), runCount (decide (dt ≤ 44)) (c.getD 1 0),
    runCount (decide (25 < dv)) (c.getD 2 0), runCount (decide (dv ≤ 20)) (c.getD 3 0)]
  let th0 := s.on (bitOf PWR_GRAD_THERM_GRAD n)
  let vg0 := s.on (bitOf PWR_GRAD_VGRAD n)
  let th := (th0 && c'.getD 1 0 != 3) || c'.getD 0 0 == 3
  let vg := (vg0 && c'.getD 3 0 != 3) || c'.getD 2 0 == 3
  let s := { s with pwr := { s.pwr with rgn := tset (fun _ => [0, 0, 0, 0]) s.pwr.rgn n c' } }
  let s := s.occN 0x1088 ((if th && !th0 then 1 else 0) + (if vg && !vg0 then 1 else 0))
  s.u [(bitOf PWR_GRAD_THERM_GRAD n, bit th), (bitOf PWR_GRAD_VGRAD n, bit vg),
    (PWR_LG_MEAS_TEMP n, (t n % 1024).toNat), (PWR_LG_MEAS_VISL n, volts.getD n 0)]

/-- The measurement of every LG, the highest sensor, its warning and limit flags, and the thermal fatal cause (R383, R385, R388). -/
def regionMeasure (s : State) (temps : List Int) (volts : List Nat) : State :=
  let s := (List.range 16).foldl (fun t n => gradFlags t temps volts n) s
  let top := temps.foldl max (temps.getD 0 0)
  let s := s.u [(PWR_TJ_MAX, (top % 1024).toNat), (PWR_TJ_WARN, bit (decide (Int.ofNat (4 * s.f PWR_TJ_WARN_C) < top))),
    (PWR_TJ_OVER, bit (decide (420 < top)))]
  let s := calTempTrigger s
  if 440 ≤ top then fatalPresent (s.u [(DEV_Q_CAUSE_THERM, 1)])
  else if top < 400 then s.u [(DEV_Q_CAUSE_THERM, 0)] else s

/-- REGION_MEASURE (R385). -/
def execRegionMeasure (temps : List Int) (volts : List Nat) (s : State) : Host.Outcome State Fault Refusal :=
  done (if s.ready 0x1000 then regionMeasure s temps volts else s)

/-- EXTEST (R425): a boundary-scan instruction that drives the balls takes them from the device functions, and the unit does not serve again
before a cold reset. -/
def execExtest (on : Bool) (s : State) : Host.Outcome State Fault Refusal :=
  done { s with pwr := { s.pwr with bscan := on || s.pwr.bscan } }

end Sys2Proof.Machine
end

