-- ==== Sys2Proof/Machine/Link.lean ====
section
/-!
DEFINITION. The control channel of a Gelvy port (15_group_gelvy.md R341, R342): sending and receiving sequenced messages, the states of
a port that carry them (Table 15-6).
-/

namespace Sys2Proof.Machine

open Sys2Proof

/-- A Gelvy port after reset. -/
def gpReset : GpSt := ⟨0, 0, 0, 0, [], [], [], [], 0, 0, 0, 0, 0, 0, 0, 0, 0, false, 0, [], [], false, 0, [], []⟩

def State.gpOf (s : State) (p : Nat) : GpSt := tget (fun _ => gpReset) s.gp p
def State.setGp (s : State) (p : Nat) (g : GpSt) : State := { s with gp := tset (fun _ => gpReset) s.gp p g }

/-- A port carries messages in UP and SLOTS (R343); in FEC, UP and SLOTS its control channel runs. -/
def State.portUp (s : State) (p : Nat) : Bool := 4 ≤ s.g (GP_STAT_STATE p)

/-- The class of a message (Table 15-5): COPY is bulk, every other urgent. -/
def msgBulk : Msg → Bool
  | .copy .. => true
  | _ => false

/-- Messages without a sequence number (Table 15-5). -/
def msgUnsequenced : Msg → Bool
  | .hello _ | .heartbeat _ | .ttStamp .. => true
  | _ => false

/-- A control message leaves a port, unless the outputs are idle (R20, R382); point 0x17 of the injection catalogue spoils its CRC (R292). -/
def State.sendCtl (s : State) (p : Nat) (m : Msg) : State :=
  if s.outMode = 0 then s
  else
    let r := injAny s 0x17 (· == p) 1
    r.2.send (if r.1.1 = 0 then .msg p m else .badMsg p m)

/-- Send what waits of a class while fewer than 256 messages of it are unacknowledged (R342). -/
def State.pump (s : State) (p : Nat) (bulk : Bool) : Nat → State
  | 0 => s
  | n + 1 =>
    let g := s.gpOf p
    if bulk then
      match g.wait1 with
      | [] => s
      | m :: r =>
        if 256 ≤ g.un1.length then s
        else State.pump ((s.setGp p { g with tx1 := (g.tx1 + 1) % 0x100000000, un1 := g.un1 ++ [(g.tx1, m)], wait1 := r }).sendCtl p m) p bulk n
    else
      match g.wait0 with
      | [] => s
      | m :: r =>
        if 256 ≤ g.un0.length then s
        else State.pump ((s.setGp p { g with tx0 := (g.tx0 + 1) % 0x100000000, un0 := g.un0 ++ [(g.tx0, m)], wait0 := r }).sendCtl p m) p bulk n

/-- Send a message on a port (R341, R342): it leaves only while the port carries messages; a sequenced one takes its number and joins
its class's unacknowledged messages once fewer than 256 of them are open. -/
def State.sendMsg (s : State) (p : Nat) (m : Msg) : State :=
  if !s.portUp p then s
  else if msgUnsequenced m then (prfCount s 13 (fun i => i == p)).sendCtl p m
  else
    let s := prfCount s 13 (fun i => i == p)
    let g := s.gpOf p
    State.pump (s.setGp p (if msgBulk m then { g with wait1 := g.wait1 ++ [m] } else { g with wait0 := g.wait0 ++ [m] })) p (msgBulk m) 1

/-- The messages an ACK still leaves unacknowledged: those from the acknowledged number on. -/
def unackedFrom (l : List (Nat × Msg)) (ack : Nat) : List (Nat × Msg) :=
  if l.any (fun p => p.1 == ack) then l.dropWhile (fun p => p.1 != ack)
  else if l.getLast?.any (fun p => (p.1 + 1) % 0x100000000 == ack) then [] else l

/-- An ACK of a class arrives (R342): progress drops the acknowledged messages and restarts the retry count. -/
def State.ackMsg (s : State) (p : Nat) (bulk : Bool) (ack : Nat) : State :=
  let g := s.gpOf p
  if bulk then
    let l := unackedFrom g.un1 ack
    State.pump (s.setGp p { g with un1 := l, try1 := if l.length = g.un1.length then g.try1 else 0 }) p true g.wait1.length
  else
    let l := unackedFrom g.un0 ack
    State.pump (s.setGp p { g with un0 := l, try0 := if l.length = g.un0.length then g.try0 else 0 }) p false g.wait0.length

/-- A message arrives (R342): a bad CRC is counted and the message discarded; a sequenced one is accepted only with the SEQ expected.
The flag tells whether it was accepted. -/
def State.recvMsg (s : State) (e : Env) (bulk sequenced : Bool) : State × Bool :=
  let p := e.port.val
  if s.g (GP_STAT_STATE p) < 3 then (s, false)
  else if !e.crcOk then (s.occ (0x10000 + 0x1000 * p + 0x64), false)
  else
    let s := s.ackMsg p bulk e.ack
    if !sequenced then (s, true)
    else
      let g := s.gpOf p
      if bulk then
        if e.seq = g.rx1 then (s.setGp p { g with rx1 := (g.rx1 + 1) % 0x100000000 }, true) else (s, false)
      else if e.seq = g.rx0 then (s.setGp p { g with rx0 := (g.rx0 + 1) % 0x100000000 }, true) else (s, false)

/-- The port of the mirror link (R295) and whether the link is up (R301). -/
def State.mirrorPort (s : State) : Nat := s.g TWN_CFG_PORT
def State.mirrorUp (s : State) : Bool := s.on TWN_STAT_LINK_UP

/-- The port on which a manager reaches member `i` (1 to 7): PORT, or ALT_PORT while USE_ALT is in force (R330, R337). -/
def State.memberPort (s : State) (i : Nat) : Nat :=
  if s.f (GRP_MEMBER_USE_ALT (i - 1)) = 1 then s.g (GRP_MEMBER_ALT_PORT (i - 1)) else s.g (GRP_MEMBER_PORT (i - 1))

def State.memberPresent (s : State) (i : Nat) : Bool := s.on (GRP_MEMBER_PRESENT (i - 1))

/-- Roles in force (R325): 1 manager, 2 worker. -/
def State.isManager (s : State) : Bool := s.g GRP_STAT_ROLE == 1
def State.isWorker (s : State) : Bool := s.g GRP_STAT_ROLE == 2

/-! ### Writes that a pair shares (R302) -/

/-- Replace the twin's part of the state. -/
def State.onTwn (s : State) (f : Twn → Twn) : State := { s with twn := f s.twn }
def State.twinOn (s : State) : Bool := s.on TWN_CFG_TWIN_EN
def State.twinState (s : State) : Nat := s.g TWN_STAT_STATE
def State.claimIn (s : State) : Bool := s.on TWN_STAT_CLAIM_IN

/-- Within 2 µs of a dispatched handover's boundary claim changes are no cause (R321, R322). -/
def nearHandover (s : State) : Bool :=
  match s.twn.handAt with
  | none => false
  | some n => decide (n * 125000 ≤ s.nowNs + 2000) && decide (s.nowNs ≤ n * 125000 + 2000)

/-- The drivers of the line lanes are enabled (R297, R299): on shared lanes while this unit claims and its peer does not, or at a handover's
boundary; on lanes of its own while it claims, or as a standby in step. -/
def State.drives (s : State) : Bool :=
  !s.twinOn ||
    (if s.f TWN_CFG_EGRESS = 0 then s.on TWN_STAT_CLAIM_OUT && (!s.claimIn || nearHandover s)
     else s.on TWN_STAT_CLAIM_OUT || (s.mode == 4 && s.twinState == 4))

/-- A signal leaves on a line lane, if its driver is enabled. -/
def State.sendLine (s : State) (w : Wire) : State := if s.drives then s.send w else s

/-- The active forwards writes: its peer is in COPYING or a later state (R302). -/
def State.forwards (s : State) : Bool := s.mode == 3 && s.twinOn && s.twn.beat.any (fun b => 2 ≤ b.twin && b.twin ≤ 5)

/-- The active takes in a write that belongs to a region (R302): forwarded, or counted with the link down. -/
def forwardWrite (s : State) (m a : Nat) (v mask : Word) : State :=
  if !s.forwards then s
  else
    let s := s.onTwn (fun t => { t with fwdSeq := t.fwdSeq + 1 })
    if s.mirrorUp then s.sendMsg s.mirrorPort (.fwdWrite a v mask m s.sfn) else s.occ 0xD0B0

/-- A standby refuses a local write to a region field (R302): a bus error, counted; an engine port's is discarded without an error. -/
def State.refuseLocal (s : State) (m : Nat) : State :=
  if m = 5 then s.answer m true [] else (s.occ 0xD0B4).answer m false []

/-- A local write of a window or a command that alters region fields, at address `a` on page `pg`: refused on a standby, forwarded by
an active (R302). -/
def regionWrite (s : State) (m pg a : Nat) (v mask : Word) (k : State → State) : State :=
  if s.usable pg && s.mode == 4 then s.refuseLocal m
  else
    let t := k s
    if (t.respOf m).ok && s.usable pg then forwardWrite t m a v mask else t

/-- A command field that alters region fields, forwarded as a SET of its bit. -/
def State.regionCmd (s : State) (m : Nat) (c : Fld) (k : State → State) : State :=
  regionWrite s m (pageOf c.addr) (c.addr % 0x100000000 + 0x400) (fieldMask c.lo c.w) 0xFFFFFFFF (fun t => t.command m c k)

end Sys2Proof.Machine
end

