-- ==== Sys2Proof/Machine/Defect.lean ====
section
/-!
DEFINITION. What a channel and its paths are watched for (06_overhead_defects_pm.md R109 to R115, R120, R126): formats and families
(Table 4-1), the containers of a channel (R152, R180) and the paths they make, acceptance, the BER detector, masking, SF and SD,
and the status words composed from them.
-/

namespace Sys2Proof.Machine

open Sys2Proof

def laneReset : LaneSt :=
  { lastRate := none, tried := 0, locked := false, blocked := false, late8 := false, capMsg := [], capN := 0, cap := none,
    ss := 0, ssN := 0, flav := none, adm := none, auto := false, admSfn := 0, repl := 0, bond := false, los := false,
    cands := [], tieOpen := false, ties := [], lockPos := 0, errN := 0, mfas := 0, oomN := 0, imN := 0, prevPos := none,
    eth := 0, ethErr := 0, ethDown := false, ext := 0, extGood := 0, extBad := 0, extLock := false, back := 0 }

def monReset : Mon :=
  { runs := [], ptr := 0, eqN := 0, eqA := 0, accs := [], msg := [], msgN := 0, msgAcc := none, errs := [], raw := 0, sf := false,
    sd := false }

def State.lane (s : State) (c : Nat) : LaneSt := tget (fun _ => laneReset) s.ln c
def State.setLane (s : State) (c : Nat) (l : LaneSt) : State := { s with ln := tset (fun _ => laneReset) s.ln c l }
def State.mn (s : State) (k : Nat) : Mon := tget (fun _ => monReset) s.mon k
def State.setMn (s : State) (k : Nat) (x : Mon) : State := { s with mon := tset (fun _ => monReset) s.mon k x }

def State.disc (s : State) (c : Nat) : Nat := s.g (CH_DISC_STAT_STATE c)

/-- The lead lane of a lane's quad (R72: local channels 0, 4 and 8). -/
def leadOf (c : Nat) : Nat := c / 4 * 4

/-- The lane is a bonded member (R75, R86). -/
def State.bonded (s : State) (c : Nat) : Bool := s.disc c == 8

/-- The format under which a channel's ingress runs: the admitted one, else the family of the rate being framed. -/
def State.chFam (s : State) (c : Nat) : Fam :=
  if 5 ≤ s.disc c ∧ s.disc c ≤ 7 then fmtFam (s.g (CH_DISC_STAT_ADM_FMT c))
  else if s.disc c = 3 ∨ s.disc c = 4 then rateFam (s.g (CH_DISC_STAT_RATE c)) else .none

/-- Bit `i` of a status word is forced by injection in this system frame (R291, points 0x01, 0x0B, 0x0E). -/
def State.forcedAt (s : State) (k i : Nat) : Bool := tget (fun _ => (0 : Nat)) s.forced k / 2 ^ i % 2 == 1

/-- A channel is in LOS: its lane, or of a bond any of the four (R75). -/
def State.chLos (s : State) (c : Nat) : Bool :=
  (s.lane c).los || s.forcedAt (CH_DEF_STAT_LOS c).addr 0 || ((s.lane c).bond && ((s.lane (c + 1)).los || (s.lane (c + 2)).los || (s.lane (c + 3)).los))

/-- The key of entry `e` of bank `b` of channel `c`'s container tables (R153). -/
def contKey (c b e : Nat) : Nat := entryKey 3 ((2 * c + b) * 256 + e)

def contStart (k : Nat) : Fld := ⟨k, 0, 11⟩
def contType (k : Nat) : Fld := ⟨k, 11, 4⟩
def contNsl (k : Nat) : Fld := ⟨k, 15, 11⟩
def contMask0 (k : Nat) : Fld := ⟨k + 4, 0, 32⟩
def contMask1 (k : Nat) : Fld := ⟨k + 8, 0, 32⟩
def contMask2 (k : Nat) : Fld := ⟨k + 12, 0, 16⟩
def contTpn (k : Nat) : Fld := ⟨k + 12, 16, 7⟩
def contTag (k : Nat) : Fld := ⟨k + 12, 23, 2⟩
def contEgsrc (k : Nat) : Fld := ⟨k + 12, 25, 2⟩
def contRxFault (k : Nat) : Fld := ⟨k + 16, 0, 1⟩
def contMsim (k : Nat) : Fld := ⟨k + 16, 1, 1⟩
def contRxAcq (k : Nat) : Fld := ⟨k + 16, 2, 1⟩
def contTxFault (k : Nat) : Fld := ⟨k + 16, 8, 1⟩
def contCntLoss (k : Nat) : Fld := ⟨k + 16, 9, 1⟩
def contCsqErr (k : Nat) : Fld := ⟨k + 16, 10, 1⟩
def contKindErr (k : Nat) : Fld := ⟨k + 16, 11, 1⟩
def contTxAcq (k : Nat) : Fld := ⟨k + 16, 12, 1⟩
def contCnt (k i : Nat) : Fld := ⟨k + 20 + 4 * i, 0, 32⟩
/-- FMT of a bank's header, entry 255. -/
def bankFmt (c b : Nat) : Fld := ⟨contKey c b 255, 0, 5⟩

/-- The key of VCAT descriptor `g` of LG `n` (R174) and its fields (R181). -/
def vgKey (n g : Nat) : Nat := entryKey 4 (n * 16 + g)
def vgEn (k : Nat) : Fld := ⟨k, 0, 1⟩
def vgDir (k : Nat) : Fld := ⟨k, 1, 1⟩
def vgLcas (k : Nat) : Fld := ⟨k, 2, 1⟩
def vgMtype (k : Nat) : Fld := ⟨k, 3, 1⟩
def vgNmem (k : Nat) : Fld := ⟨k, 4, 7⟩
def vgDdMax (k : Nat) : Fld := ⟨k, 11, 10⟩
def vgHoldoff (k : Nat) : Fld := ⟨k + 4, 0, 8⟩
def vgWtr (k : Nat) : Fld := ⟨k + 4, 8, 8⟩
def vgProv (k : Nat) : Fld := ⟨k + 8, 0, 32⟩
def vgProvHi (k : Nat) : Fld := ⟨k + 12, 0, 32⟩
def vgAct (k : Nat) : Fld := ⟨k + 16, 0, 32⟩
def vgActHi (k : Nat) : Fld := ⟨k + 20, 0, 32⟩
def vgFail (k : Nat) : Fld := ⟨k + 24, 0, 32⟩
def vgFailHi (k : Nat) : Fld := ⟨k + 28, 0, 32⟩
def vgDdMeas (k : Nat) : Fld := ⟨k + 32, 0, 10⟩
def vgLoa (k : Nat) : Fld := ⟨k + 32, 10, 1⟩
def vgSqm (k : Nat) : Fld := ⟨k + 32, 11, 1⟩
def vgPlct (k : Nat) : Fld := ⟨k + 32, 12, 1⟩
def vgTlct (k : Nat) : Fld := ⟨k + 32, 13, 1⟩
def vgFop (k : Nat) : Fld := ⟨k + 32, 14, 1⟩

/-- Slots of a member of a VCAT group (R174). -/
def State.vgW (s : State) (k : Nat) : Nat := if s.f (vgMtype k) = 1 then 3 else 1

/-- The slot count of a container type (Table 8-1): `nsl` for an ODUflex, `grp` slots for a client group. -/
def typeSlots (t nsl grp : Nat) : Nat :=
  if t = 12 then nsl else if t = 14 then grp else [0, 1, 3, 12, 48, 192, 25, 49, 197, 204, 788, 2047].getD t 0

/-- The slots of the group bound at ingress or egress of a channel (R174). -/
def State.grpSlots (s : State) (c : Nat) (tx : Bool) : Nat :=
  let k := vgKey (c / 12) (s.f (if tx then CH_CL_CFG_SNK_GRP c else CH_CL_CFG_SRC_GRP c))
  s.f (vgNmem k) * s.vgW k

/-- The slots of the container in entry `e`. -/
def State.contSlots (s : State) (c b e : Nat) (tx : Bool) : Nat :=
  let k := contKey c b e
  typeSlots (s.g (contType k)) (s.g (contNsl k)) (s.grpSlots c tx)

/-- The entries of a bank that are in use (R156). -/
def State.used (s : State) (c b : Nat) : List Nat :=
  (List.range 255).filter (fun e => s.g (contType (contKey c b e)) != 0)

/-- The bank in force at ingress carries containers: its header names the admitted format (R155). -/
def State.rxBank (s : State) (c : Nat) : Nat := s.g (CH_MAP_STAT_RX_IN_FORCE c)
def State.txBank (s : State) (c : Nat) : Nat := s.g (CH_MAP_STAT_TX_IN_FORCE c)
def State.rxFits (s : State) (c : Nat) : Bool := s.g (bankFmt c (s.rxBank c)) == s.g (CH_DISC_STAT_ADM_FMT c)
def State.txFits (s : State) (c : Nat) : Bool := s.g (bankFmt c (s.txBank c)) == s.f (CH_TX_CFG_TX_FMT c)

/-- The ingress container that holds a slot offset of a channel. -/
def State.contAt (s : State) (c slot : Nat) (tx : Bool) : Option Nat :=
  let b := if tx then s.txBank c else s.rxBank c
  (s.used c b).find? (fun e => decide (s.g (contStart (contKey c b e)) ≤ slot) &&
    decide (slot < s.g (contStart (contKey c b e)) + s.contSlots c b e tx))

/-- A path of a channel: TYPE of Table 6-12 (1 HO SONET/SDH path, 3 LO ODU), its slots, its first slot. The members of a client
group are HO paths of their own (R152). -/
structure PathInfo where
  kind : Nat
  slots : Nat
  first : Nat
  deriving DecidableEq, Repr

/-- The path that holds slot offset `slot` of channel `c` (R126). A THROUGH ODU is the HO ODU itself and no path entry (R103). -/
def State.pathOver (s : State) (c slot : Nat) : Option PathInfo :=
  if !s.rxFits c then none
  else
    match s.contAt c slot false with
    | none => none
    | some e =>
      let k := contKey c (s.rxBank c) e
      let t := s.g (contType k)
      let st := s.g (contStart k)
      if t ≤ 5 then some ⟨1, s.contSlots c (s.rxBank c) e false, st⟩
      else if t = 14 then
        let w := s.vgW (vgKey (c / 12) (s.f (CH_CL_CFG_SRC_GRP c)))
        some ⟨1, w, slot / w * w⟩
      else if fmtFam (s.g (CH_DISC_STAT_ADM_FMT c)) = .otn ∧
          (s.g (contMask0 k) ≠ 0 ∨ s.g (contMask1 k) ≠ 0 ∨ s.g (contMask2 k) ≠ 0) then
        some ⟨3, s.contSlots c (s.rxBank c) e false, st⟩
      else none

/-- A page's entry of an interchange memory; unlisted entries are reset entries (R132, R149). -/
def icDefault (k : Nat) : Word := if k < 0x200000 then 0x00020000 else 0
def Ic.get (x : Ic) (lox : Bool) (page w : Nat) : Word := tget (fun k => icDefault (if lox then k + 0x200000 else k)) x.ent (page * 0x100000 + w)

/-- An input entry of the lower-order stage's active page (R148, Table 7-8); an uncorrectable one acts as unused (R151). -/
def State.loIn (s : State) (j : Nat) : Word :=
  let pg := s.g (IC_STAT_ACTIVE loxPage)
  if tget (fun _ => 0) s.lox.bad (pg * 0x100000 + j) = 2 then 0 else s.lox.get true pg j

/-- Whether ingress slot `g` enters the lower-order stage, as an STS-1/VC-3 or as a TUG-3 of a VC-4, and with which tributary count
(R148). -/
def State.loThrough (s : State) (g : Nat) : Option Nat :=
  let hit (j : Nat) : Bool :=
    let e := s.loIn j
    (wordGet e 17 2 == 1 && wordGet e 0 17 == g) || (wordGet e 17 2 == 2 && wordGet e 0 17 + wordGet e 19 2 == g)
  match (List.range 1344).find? hit with
  | none => none
  | some j => some (if wordGet (s.loIn j) 21 1 = 1 then 21 else 28)

/-- The number of a path or tributary among all path entries, its entry and its monitors. -/
def pathIx (c idx trib : Nat) : Nat := (c * 2048 + idx) * 32 + trib
def pathKey (c idx trib : Nat) : Nat := entryKey 1 (pathIx c idx trib)
def monKey (c idx trib level : Nat) : Nat := 0x10000 + 8 * pathIx c idx trib + level
def lineMon (c layer : Nat) : Nat := 8 * c + layer

/-- The fields of a path entry (Table 6-12), `k` its key. -/
def paType (k : Nat) : Fld := ⟨k, 0, 2⟩
def paSlots (k : Nat) : Fld := ⟨k, 2, 12⟩
def paBerEn (k : Nat) : Fld := ⟨k + 4, 0, 1⟩
def paSfExp (k : Nat) : Fld := ⟨k + 4, 1, 4⟩
def paSdExp (k : Nat) : Fld := ⟨k + 4, 5, 4⟩
def paTimMode (k : Nat) : Fld := ⟨k + 4, 9, 2⟩
def paSfTim (k : Nat) : Fld := ⟨k + 4, 11, 1⟩
def paSfPlm (k : Nat) : Fld := ⟨k + 4, 12, 1⟩
def paPlmEn (k : Nat) : Fld := ⟨k + 4, 13, 1⟩
def paExpLbl (k : Nat) : Fld := ⟨k + 4, 14, 8⟩
def paTcmMode (k : Nat) : Fld := ⟨k + 8, 0, 12⟩
def paStat (k : Nat) : Fld := ⟨k + 12, 0, 30⟩
def paSf (k : Nat) : Fld := ⟨k + 12, 7, 1⟩
def paSd (k : Nat) : Fld := ⟨k + 12, 8, 1⟩
def paTcmSt (k : Nat) : Fld := ⟨k + 16, 0, 24⟩
def paHist (k : Nat) : Fld := ⟨k + 20, 0, 7⟩
def paCnt (k i : Nat) : Fld := ⟨k + 24 + 4 * i, 0, 32⟩

/-- Byte `j` of a block of registers of four bytes each, least significant first. -/
def State.byteAt (s : State) (k j : Nat) : Byte := BitVec.ofNat 8 (s.f ⟨k + 4 * (j / 4), 8 * (j % 4), 8⟩)
def State.bytesAt (s : State) (k n : Nat) : List Byte := (List.range n).map (fun j => s.byteAt k j)

/-- One condition's run after a frame in which it has the value `b`. -/
def runStep (b : Bool) (r : Bool × Nat) : Bool × Nat := if r.1 = b then (b, r.2 + 1) else (b, 1)

/-- Every condition's run after a frame. -/
def runsStep (bs : List Bool) (rs : List (Bool × Nat)) : List (Bool × Nat) :=
  bs.zipIdx.map (fun p => runStep p.1 (rs.getD p.2 (false, 0)))

/-- A condition has held, or not held, for `n` frames in a row. -/
def Mon.held (x : Mon) (i : Nat) (b : Bool) (n : Nat) : Bool :=
  let r := x.runs.getD i (false, 0)
  r.1 == b && decide (n ≤ r.2)

/-- A value's acceptance after a frame that carries `v`: accepted once `n` frames in a row carry it (R110, R111). -/
def accStep (n v : Nat) (a : Acc) : Acc :=
  let k := if a.n ≠ 0 ∧ a.cand = v then a.n + 1 else 1
  ⟨v, k, if n ≤ k then some v else a.acc⟩

def accReset : Acc := ⟨0, 0, none⟩
def Mon.acc (x : Mon) (i : Nat) : Option Nat := (x.accs.getD i accReset).acc

/-- A trace's acceptance after a message: three alike in a row (R111; R78's rule for J0 and the path traces). -/
def Mon.trace (x : Mon) : Option (List Byte) → Mon
  | none => x
  | some t =>
    let n := if x.msgN ≠ 0 ∧ x.msg = t then x.msgN + 1 else 1
    { x with msg := t, msgN := n, msgAcc := if 3 ≤ n then some t else x.msgAcc }

/-- Table 6-3's BER figures (R114) as fractions: n·q(x) = num / den with A = 10^(x·m), B = (10^x − 2)^m. -/
def berNum (n m x : Nat) : Nat := n * (10 ^ (x * m) - (10 ^ x - 2) ^ m)
def berDen (m x : Nat) : Nat := 2 * 10 ^ (x * m)
def ceilDiv (a b : Nat) : Nat := if b = 0 then 0 else (a + b - 1) / b
/-- w(x) and l(x) (R114). -/
def berW (n m x : Nat) : Nat := max 1 (ceilDiv (8 * berDen m x) (berNum n m x))
def berL (n m x : Nat) : Nat := ceilDiv (berW n m x * berNum n m x) (berDen m x)
/-- q(x) is at most 0.4. -/
def berFine (m x : Nat) : Bool := decide (10 * berNum 1 m x ≤ 4 * berDen m x)
/-- The exponent used for `x` (R114, saturated BIP): the smallest from `x` on whose q is at most 0.4. -/
def berExp (m : Nat) : Nat → Nat → Nat
  | 0, x => x
  | fuel + 1, x => if berFine m x then x else berExp m fuel (x + 1)
/-- An exponent outside the range of Table 6-5 acts as the nearest end. -/
def clampExp (lo x : Nat) : Nat := max lo (min 9 x)

/-- The detector's verdict on the window of errors, latest first (R114): declared, cleared or unchanged. -/
def berJudge (n m x : Nat) (errs : List Nat) (on : Bool) : Bool :=
  let y := berExp m 10 x
  if berL n m y ≤ (errs.take (berW n m y)).sum then true
  else if on && decide (berW n m (y + 1) ≤ errs.length) && decide ((errs.take (berW n m (y + 1))).sum < berL n m (y + 1)) then false
  else on

/-- One frame of a BER source with range floor `lo` and configured exponents (R114). -/
def Mon.ber (x : Mon) (n m lo sfx sdx errs : Nat) : Mon :=
  let es := (errs :: x.errs).take (max (berW n m (berExp m 10 (clampExp lo sfx) + 1)) (berW n m (berExp m 10 (clampExp lo sdx) + 1)))
  { x with errs := es, sf := berJudge n m (clampExp lo sfx) es x.sf, sd := berJudge n m (clampExp lo sdx) es x.sd }

/-- The client's integration counts and its BER window restart when its server's defect clears (R109, R114); accepted values stay,
and a defect that was declared and not cleared behind the mask is still present (R109). -/
def Mon.restart (x : Mon) : Mon :=
  { x with runs := [], eqN := 0, eqA := 0, msgN := 0, errs := [], sf := false, sd := false,
           accs := x.accs.map (fun a => { a with n := 0 }) }

/-- The same when the entity's own AIS or LOP clears: what lies behind it in the entity restarts (its trace, its label, its remote
indication, its BER window), and the pointer or STAT that cleared it goes on (R109, R114). -/
def Mon.restartOwn (x : Mon) : Mon :=
  { x with runs := x.runs.zipIdx.map (fun p => if p.2 = 1 then (p.1.1, 0) else p.1), msgN := 0, errs := [], sf := false, sd := false,
           accs := x.accs.zipIdx.map (fun p => if p.2 = 0 then { p.1 with n := 0 } else p.1) }

/-- The number of a defect among a monitor's declared ones. -/
def defectBit : Defect → Nat
  | .ais => 0
  | .lop => 1
  | .oci => 2
  | .lck => 3
  | .rdi => 4
  | .ltc => 5
  | .ociLck => 6

def Mon.has (x : Mon) (d : Defect) : Bool := x.raw / 2 ^ defectBit d % 2 == 1
def Mon.put (x : Mon) (d : Defect) (b : Bool) : Mon :=
  { x with raw := x.raw - (if x.has d then 2 ^ defectBit d else 0) + (if b then 2 ^ defectBit d else 0) }

/-- An accepted SONET/SDH trace differs from the expected one (R113): mode 1, 2 or 3 expects 1, 16 or 64 bytes. -/
def timSdh (mode : Nat) (exp : List Byte) (acc : Option (List Byte)) : Bool :=
  let n := if mode = 1 then 1 else if mode = 2 then 16 else 64
  mode != 0 && acc.any (fun a => a != exp.take n)

/-- An accepted TTI differs in the parts that the mode selects (R113): 1 SAPI, 2 DAPI, 3 both. -/
def timOtn (mode : Nat) (exp : List Byte) (acc : Option (List Byte)) : Bool :=
  mode != 0 && acc.any (fun a =>
    (mode % 2 == 1 && a.take 16 != exp.take 16) || (2 ≤ mode && (a.drop 16).take 16 != (exp.drop 16).take 16))

/-- A bit field from flags, lowest first. -/
def flags (l : List Bool) : Nat := (l.zipIdx.map (fun p => if p.1 then 2 ^ p.2 else 0)).sum

/-- The server-layer state of a channel: what masks its paths (R109), and the SF of the line or OTU and of the HO ODU (R115). -/
structure ChView where
  stat : Nat
  tcm : Nat
  sfsd : Nat
  deriving DecidableEq, Repr

/-- MODE_i of TCM level `i` (1 to 6) includes MONITOR (R104). -/
def State.tcmMon (s : State) (c i : Nat) : Bool := s.f ⟨(CH_TCM_CFG_MODE1 c).addr, 2 * (i - 1), 1⟩ == 1

/-- The four TCM defects of a level (R111), in the order of TCM_STAT; a forced defect is ORed with the real one (R291). -/
def tcmBits (x : Mon) (fd : Nat → Bool) : List Bool := [x.has .ltc || fd 0, x.has .ais || fd 1, x.has .ociLck || fd 2, x.has .rdi || fd 3]

/-- DEF_STAT, TCM_STAT and SFSD of a channel (R109, R111, R112, R115, Table 6-10): each defect with the masks of R109. -/
def State.chView (s : State) (c : Nat) : ChView :=
  if s.bonded c then ⟨0, 0, 0⟩
  else
    let l := s.lane c
    let ln := s.mn (lineMon c 0)
    let od := s.mn (lineMon c 1)
    let los := s.chLos c
    let fd (i : Nat) : Bool := s.forcedAt (CH_DEF_STAT_LOS c).addr i
    let ft (i : Nat) : Bool := s.forcedAt (CH_TCM_STAT_LTC1 c).addr i
    let aln (f : Nat → Fld) (i : Nat) : Bool := s.on (f c) || fd i
    let sfTim := s.f (CH_DEF_CFG_SF_TIM c) == 1
    let sfPlm := s.f (CH_DEF_CFG_SF_PLM c) == 1
    let ber := s.f (CH_BER_CFG_SFBER_EN c) == 1
    let tm := s.f (CH_EXP_CFG_TIM_MODE c)
    let exp := s.bytesAt (CH_EXP_TR_BYTES c 0).addr 64
    match s.chFam c with
    | .none => ⟨flags [los], 0, bit los⟩
    | .sdh =>
      let lof := aln CH_ALN_STAT_LOF 2 && !los
      let ais := (ln.has .ais || fd 5) && !los && !lof
      let bad := los || lof || ais
      let rdi := (ln.has .rdi || fd 6) && !bad
      let tim := !los && !lof && (timSdh tm exp ln.msgAcc || fd 7)
      let sf := bad || (ln.sf && ber && !bad) || (tim && sfTim)
      ⟨flags [los, aln CH_ALN_STAT_OOF 1, lof, false, false, ais, rdi, tim], 0, flags [sf, ln.sd && !bad]⟩
    | .otn =>
      let ais := (ln.has .ais || fd 5) && !los
      let lol := aln CH_ALN_STAT_LOL 4 && !los && !ais
      let lof := aln CH_ALN_STAT_LOF 2 && !los && !ais && !lol
      let lom := aln CH_ALN_STAT_LOM 3 && !los && !ais && !lol && !lof
      let bad := los || ais || lol || lof || lom
      let tim := !bad && (timOtn tm exp ln.msgAcc || fd 7)
      let sf := bad || (tim && sfTim) || (ln.sf && ber && !bad)
      let oais := (od.has .ais || fd 12) && !bad
      let obad := bad || oais
      let otim := !obad && (timOtn (s.f (CH_EXP_CFG_ODU_TIM_MODE c)) (exp.drop 32) od.msgAcc || fd 16)
      let oplm := !obad && (fd 17 || s.f (CH_EXP_CFG_PLM_EN c) == 1 && (od.acc 0).any (fun p => p != s.f (CH_EXP_CFG_EXP_PT c)))
      let oci := (od.has .oci || fd 13) && !bad
      let lck := (od.has .lck || fd 14) && !bad
      let osf := sf || oais || oci || lck || (otim && sfTim) || (oplm && sfPlm) || (od.sf && ber && !obad)
      let lv (i : Nat) : Mon := s.mn (lineMon c (i + 1))
      let mon (i : Nat) : Bool := s.tcmMon c i && !bad
      let tc (i : Nat) : List Bool := if mon i then tcmBits (lv i) (fun j => ft (4 * (i - 1) + j)) else [false, false, false, false]
      ⟨flags [los, aln CH_ALN_STAT_OOF 1, lof, lom, lol, ais, (ln.has .rdi || fd 6) && !bad, tim, false, false, false, false, oais, oci, lck,
          (od.has .rdi || fd 15) && !obad, otim, oplm],
        flags ([1, 2, 3, 4, 5, 6].flatMap tc),
        flags ([sf, ln.sd && !bad, osf, od.sd && !obad] ++
          [1, 2, 3, 4, 5, 6].map (fun i => s.tcmMon c i && (sf || (tc i).getD 0 false || (tc i).getD 1 false || (tc i).getD 2 false
            || ((lv i).sf && ber && !bad))) ++
          [1, 2, 3, 4, 5, 6].map (fun i => mon i && (lv i).sd))⟩
    | .eth =>
      let blk := (s.g (CH_ALN_STAT_BLOCK_LOCK c) == 0 || fd 8) && !los
      let m := los || blk
      let hb := (l.eth % 2 == 1 || fd 9) && !m
      let lf := if s.g (CH_DISC_STAT_RATE c) = 2 then blk else (l.eth / 2 % 2 == 1 || fd 10) && !m
      let rf := s.g (CH_DISC_STAT_RATE c) != 2 && (l.eth / 4 % 2 == 1 || fd 11) && !m
      ⟨flags [los, false, false, false, false, false, false, false, blk, hb, lf, rf], 0, flags [m || hb || lf]⟩

/-- SF of the line, the OTU or the client, and of the HO ODU. -/
def ChView.sf (v : ChView) : Bool := v.sfsd % 2 == 1
def ChView.oduSf (v : ChView) : Bool := v.sfsd / 4 % 2 == 1

/-- A server-layer defect of the channel is present (R109): LOS, LOF, LOM, LOL, AIS, and for an LO ODU the HO ODU's AIS. -/
def ChView.server (v : ChView) (lo : Bool) : Bool := v.stat &&& (if lo then 0x103D else 0x3D) != 0

/-- Words 3 and 4 of a path entry (R126): the defects of the path with the masks of R109, SF and SD of Table 6-6. -/
def State.pathView (s : State) (v : ChView) (c idx trib : Nat) : Nat × Nat :=
  let k := pathKey c idx trib
  let x := s.mn (monKey c idx trib 0)
  let sfTim := s.f (paSfTim k) == 1
  let sfPlm := s.f (paSfPlm k) == 1
  let ber := s.f (paBerEn k) == 1
  let tm := s.f (paTimMode k)
  let fd (i : Nat) : Bool := s.forcedAt (paStat k).addr i
  if s.chFam c = .otn then
    let exp := s.bytesAt (k + 80) 32
    let srv := v.oduSf
    let m := srv || v.server true
    let ais := (x.has .ais || fd 0) && !m
    let oci := (x.has .oci || fd 2) && !m
    let lck := (x.has .lck || fd 3) && !m
    let tim := !m && !ais && (timOtn tm exp x.msgAcc || fd 5)
    let plm := !m && !ais && (fd 6 || s.f (paPlmEn k) == 1 && (x.acc 0).any (fun p => p != s.f (paExpLbl k)))
    let sf := srv || ais || oci || lck || (tim && sfTim) || (plm && sfPlm) || (x.sf && ber && !m && !ais)
    let lv (i : Nat) : Mon := s.mn (monKey c idx trib i)
    let md (i : Nat) : Bool := s.f (paTcmMode k) / 4 ^ (i - 1) % 2 == 1
    let mon (i : Nat) : Bool := md i && !m
    let tc (i : Nat) : List Bool := if mon i then tcmBits (lv i) (fun _ => false) else [false, false, false, false]
    (flags ([ais, false, oci, lck, (x.has .rdi || fd 4) && !m && !ais, tim, plm, sf, x.sd && !m && !ais, x.msgAcc.isSome] ++
        (List.range 8).map (fun i => (x.acc 0).getD 0 / 2 ^ i % 2 == 1) ++
        [1, 2, 3, 4, 5, 6].map (fun i => md i && (srv || (tc i).getD 0 false || (tc i).getD 1 false || (tc i).getD 2 false ||
          ((lv i).sf && ber && !m))) ++
        [1, 2, 3, 4, 5, 6].map (fun i => mon i && (lv i).sd)),
      flags ([1, 2, 3, 4, 5, 6].flatMap tc))
  else
    let srv := if trib = 0 then v.sf else s.on (paSf (pathKey c ((s.pathOver c idx).elim idx (fun p => p.first)) 0))
    let m := srv || v.server false
    let ais := (x.has .ais || fd 0) && !m
    let lop := (x.has .lop || fd 1) && !m
    let mm := m || ais || lop
    let a := x.acc 0
    let e := if trib = 0 then s.f (paExpLbl k) else s.f (paExpLbl k) % 8
    let uneq := !mm && (a == some 0 || fd 2)
    let plm := !mm && (fd 6 || s.f (paPlmEn k) == 1 && a.any (fun p => p != e && p != 0 && p != 1 && e != 1))
    let mode := if trib ≠ 0 ∧ tm = 3 then 2 else tm
    let tim := !mm && (timSdh mode (s.bytesAt (k + 80) 64) x.msgAcc || fd 5)
    let sf := srv || ais || lop || uneq || (tim && sfTim) || (plm && sfPlm) || (x.sf && ber && !mm)
    (flags ([ais, lop, uneq, false, (x.has .rdi || fd 4) && !mm, tim, plm, sf, x.sd && !mm, x.msgAcc.isSome] ++
        (List.range 8).map (fun i => a.getD 0 / 2 ^ i % 2 == 1)), 0)

/-- Path numbers of a channel that are watched, in order. -/
def State.chPaths (s : State) (c : Nat) : List Nat :=
  (s.mon.filter (fun p => decide (0x10000 + 8 * pathIx c 0 0 ≤ p.1) && decide (p.1 < 0x10000 + 8 * pathIx (c + 1) 0 0) && p.1 % 8 == 0)).map
    (fun p => (p.1 - 0x10000) / 8)

/-- The monitors of one path or tributary, and of all tributaries within HO path `ix`. -/
def pathMons (ix : Nat) : List Nat := [0, 1, 2, 3, 4, 5, 6].map (fun l => 0x10000 + 8 * ix + l)
def vtMons (s : State) (c ix : Nat) : List Nat :=
  let first (i : Nat) : Nat := (s.pathOver c (i / 32 % 2048)).elim (i / 32 % 2048) (fun p => p.first)
  ((s.chPaths c).filter (fun i => i % 32 != 0 && first i == ix / 32 % 2048)).flatMap pathMons

/-- Every monitor of a list starts its counts anew. -/
def monsRestart (s : State) (l : List Nat) : State := l.foldl (fun t k => t.setMn k (t.mn k).restart) s

/-- When a path's own AIS or LOP clears, what lies behind it in the path restarts; when a HO path's SF clears, its tributaries do
(R109). -/
def pathRestart (s : State) (v : ChView) (c ix : Nat) : State :=
  let idx := ix / 32 % 2048
  let trib := ix % 32
  let was := s.g (paStat (pathKey c idx trib))
  let now := (s.pathView v c idx trib).1
  let own := if s.chFam c = .otn then 1 else 3
  let s := if was &&& own ≠ 0 ∧ now &&& own = 0 then
      s.setMn (monKey c idx trib 0) (s.mn (monKey c idx trib 0)).restartOwn else s
  if trib = 0 ∧ s.chFam c = .sdh ∧ was &&& 0x80 ≠ 0 ∧ now &&& 0x80 = 0 then monsRestart s (vtMons s c ix) else s

/-- Words 3 to 5 of one path entry follow its monitors; the history gathers the defects (R120). -/
def refreshPath (v : ChView) (c : Nat) (s : State) (ix : Nat) : State :=
  let idx := ix / 32 % 2048
  let trib := ix % 32
  let k := pathKey c idx trib
  let s := pathRestart s v c ix
  let w := s.pathView v c idx trib
  s.u [(paStat k, w.1), (paTcmSt k, w.2), (paHist k, s.g (paHist k) ||| w.1 % 128)]

/-- What a channel's line mon's accepted values show in ACC (Table 6-10). -/
def accFields (s : State) (c : Nat) : List (Fld × Nat) :=
  let ln := s.mn (lineMon c 0)
  let od := s.mn (lineMon c 1)
  [(CH_ACC_ACC_S1_PT c, if s.chFam c = .otn then (od.acc 0).getD 0 else (ln.acc 2).getD 0),
   (CH_ACC_ACC_K1 c, (ln.acc 0).getD 0), (CH_ACC_ACC_K2 c, (ln.acc 1).getD 0), (CH_ACC_TR_ACC c, bit ln.msgAcc.isSome)]

/-- Recompose the status registers of a channel and its paths; the history registers gather what is present (R120). When a server
defect clears, the client integrations restart (R109). -/
def refreshLayers (s : State) (c : Nat) : State :=
  let was := s.g ⟨(CH_DEF_STAT_LOS c).addr, 0, 18⟩
  let v0 := s.chView c
  let srv (n : Nat) : Bool := n &&& 0x3D != 0
  let s := if srv was && !srv v0.stat then
      monsRestart s ([0, 1, 2, 3, 4, 5, 6, 7].map (fun i => lineMon c i) ++ (s.chPaths c).flatMap pathMons)
    else if was / 0x1000 % 2 = 1 ∧ v0.stat / 0x1000 % 2 = 0 then
      monsRestart (s.setMn (lineMon c 1) (s.mn (lineMon c 1)).restartOwn) ((s.chPaths c).flatMap pathMons)
    else s
  let v := s.chView c
  let s := s.u ([(⟨(CH_DEF_STAT_LOS c).addr, 0, 18⟩, v.stat), (⟨(CH_TCM_STAT_LTC1 c).addr, 0, 24⟩, v.tcm),
    (⟨(CH_SFSD_SF c).addr, 0, 16⟩, v.sfsd), (CH_DEF_HIST_HIST c, s.g (CH_DEF_HIST_HIST c) ||| v.stat),
    (CH_TCM_HIST_HIST c, s.g (CH_TCM_HIST_HIST c) ||| v.tcm)] ++ accFields s c)
  (s.chPaths c).foldl (refreshPath v c) s

/-- The key of a tributary entry (R127). -/
def tribKey (lg kind num : Nat) : Nat := entryKey 2 (lg * 512 + kind * 256 + num)
def trEn (k : Nat) : Fld := ⟨k, 0, 1⟩
def trFmt (k : Nat) : Fld := ⟨k, 1, 2⟩
def trCh (k : Nat) : Fld := ⟨k, 3, 4⟩
def trIdx (k : Nat) : Fld := ⟨k, 7, 11⟩
def trTrib (k : Nat) : Fld := ⟨k, 18, 5⟩
def trStat (k : Nat) : Fld := ⟨k + 4, 0, 4⟩
def trDet (k : Nat) : Fld := ⟨k + 4, 4, 1⟩
def trHist (k : Nat) : Fld := ⟨k + 8, 0, 4⟩
def trCnt (k i : Nat) : Fld := ⟨k + 12 + 4 * i, 0, 32⟩

/-- The monitor runs: EN, and a format that exists (Table 6-13). -/
def State.tribEn (s : State) (kind k : Nat) : Bool := s.f (trEn k) == 1 && !(kind == 1 && s.f (trFmt k) == 3)

/-- The channel a monitor is attached to. -/
def State.tribCh (s : State) (lg k : Nat) : Nat := lg * 12 + s.f (trCh k)

/-- The attachment does not hold (R122): DS1 needs a VT1.5/VC-11 and E1 a VT2/VC-12 of an HO path through the lower-order stage, DS3
and E3 an STS-1 or VC-3. -/
def State.tribDetached (s : State) (lg kind k : Nat) : Bool :=
  let c := s.tribCh lg k
  let idx := s.f (trIdx k)
  if 12 ≤ s.f (trCh k) then true
  else
    match s.pathOver c idx with
    | none => true
    | some p =>
      if kind = 1 then !(p.kind == 1 && p.slots == 1 && p.first == idx)
      else
        let t := s.f (trTrib k)
        p.kind != 1 || t == 0 ||
          (match s.loThrough (512 * c + idx) with
           | none => true
           | some n => decide (n < t) || n != (if s.f (trFmt k) < 2 then 28 else 21))

/-- A defect of the container's path, of its HO path, or of a server of it (R122). -/
def State.tribMasked (s : State) (lg kind k : Nat) : Bool :=
  let c := s.tribCh lg k
  let v := s.chView c
  let ho := (s.pathOver c (s.f (trIdx k))).elim (s.f (trIdx k)) (fun p => p.first)
  v.sf || v.server false || ((s.pathView v c ho 0).1 &&& 0x6F != 0) ||
    (kind != 1 && (s.pathView v c (s.f (trIdx k)) (s.f (trTrib k))).1 &&& 0x6F != 0)

/-- The tributary monitors of an LG that are configured or report something, as kind and number. -/
def State.tribsOf (s : State) (lg : Nat) : List (Nat × Nat) :=
  ((s.regs.filter (fun p => decide (tribKey lg 0 0 ≤ p.1) && decide (p.1 < tribKey (lg + 1) 0 0) && decide (p.1 % 256 ≤ 4))).map
    (fun p => let i := p.1 % 0x100000000000000 / 256 % 512; (i / 256, i % 256))).eraseDups

/-- DETACHED follows the attachment; a detached or masked monitor declares nothing (R122); the history gathers (R120). -/
def tribRefresh (s : State) (lg : Nat) : State :=
  (s.tribsOf lg).foldl (fun t p =>
    let k := tribKey lg p.1 p.2
    let en := t.tribEn p.1 k
    let det := en && t.tribDetached lg p.1 k
    let st := if !en || det || t.tribMasked lg p.1 k then 0 else t.g (trStat k)
    t.u [(trStat k, st), (trDet k, bit det), (trHist k, t.g (trHist k) ||| st)]) s

/-- The status of a channel, its paths and the tributary monitors of its LG follows (R109, R120, R122). -/
def refreshCh (s : State) (c : Nat) : State := tribRefresh (refreshLayers s c) (c / 12)

/-- Path entries whose monitors are forgotten report nothing (Table 6-12); their histories stay until the next snapshot (R120). -/
def pathsClear (s : State) (l : List Nat) : State :=
  s.u (l.flatMap (fun ix => let k := entryKey 1 ix; [(paStat k, 0), (paTcmSt k, 0)]))

/-- Forget what a channel has accepted and declared: at admission, at the end of a discovery run and on a software reset (R110). -/
def monsReset (s : State) (c : Nat) : State :=
  { pathsClear s (s.chPaths c) with mon := s.mon.filter (fun p => !(p.1 / 8 == c && decide (p.1 < 0x10000)) &&
      !(decide (0x10000 + 8 * pathIx c 0 0 ≤ p.1) && decide (p.1 < 0x10000 + 8 * pathIx (c + 1) 0 0))) }

end Sys2Proof.Machine
end

