-- ==== Sys2Proof/Machine/Lanes.lean ====
section
/-!
DEFINITION. Line lanes and partner discovery (04_lanes_and_discovery.md R72 to R87) and the carder (05_frame_alignment.md R88 to
R101). LINE_FRAME itself stands in Overhead.lean, over the steps defined here.
-/

namespace Sys2Proof

/-- The framing pattern, the same 48 bits for SONET/SDH and OTN, and the frame length in bits of a rate (R88, Table 5-1). -/
def framePattern : Nat := 0xF6F6F6282828
def frameBits (rate : Nat) : Nat :=
  match rate with
  | 0 => 19440
  | 1 => 77760
  | 3 => 311040
  | 5 => 1244160
  | _ => 130560

/-- The pattern stood at the locked position (R95). -/
def LineObs.pat (o : LineObs) : Bool := o.fas == framePattern

/-- Logical lanes of a bond (R98): 4 of OTL3.4, 20 of OTL4.4. -/
def logicalLanes (rate : Nat) : Nat := if rate = 9 then 4 else 20

/-- Every logical lane is framed and identified (R98). -/
def LineObs.lanesOk (o : LineObs) (rate : Nat) : Bool := (List.range (logicalLanes rate)).all (fun i => o.lls.any (fun x => x.1 == i))

/-- The largest difference in arrival between the frame starts of two logical lanes (R99), in ns. -/
def LineObs.skew (o : LineObs) : Nat :=
  o.lls.foldl (fun a x => max a x.2.2) 0 - o.lls.foldl (fun a x => min a x.2.2) ((o.lls.headD (0, 0, 0)).2.2)

end Sys2Proof

namespace Sys2Proof.Machine

open Sys2Proof

/-- A lane's functions run once its page is ready (R379). -/
def State.laneOn (s : State) (c : Nat) : Bool := s.ready (chBase c)

/-- CDR_LK and DFE_ON of a lane (R73, R87): the DFE works at 2,488.32 Mb/s and above, rate index 3 on; DESIGN CHOICE (log 73): DFE_ON
reads 0 while the CDR is not locked. The CTLE code that the receiver has adapted to at the lock is a free value (log 75). -/
def setCdr (s : State) (c : Nat) (lk : Bool) (rate : Nat) : State :=
  let s := if lk then s.draw.u [(LGS_LANE_EQ_CTLE (c / 12) (c % 12), s.drawn.toNat)] else s
  s.u [(LGS_LANE_EQ_CDR_LK (c / 12) (c % 12), bit lk), (LGS_LANE_EQ_DFE_ON (c / 12) (c % 12), bit (lk && decide (3 ≤ rate)))]

/-- The physical lane that carries logical lane `i` (R98), two bits; lanes `a` to `a + n - 1` packed from bit 0. -/
def laneOfLogical (o : LineObs) (i : Nat) : Nat := (o.lls.find? (fun x => x.1 == i)).elim 0 (fun x => x.2.1)
def laneMap (o : LineObs) (a n : Nat) : Nat := (List.range n).foldl (fun v i => v + 4 ^ i * laneOfLogical o (a + i)) 0

/-- Number of candidates open, and the peak (R90). -/
def showCands (s : State) (c : Nat) : State :=
  let n := (s.lane c).cands.length
  s.u [(CH_ALN_STAT_CAND_N c, n), (CH_ALN_STAT_CAND_PEAK c, max n (s.g (CH_ALN_STAT_CAND_PEAK c)))]

/-- No candidates, no tie (R89, R93). -/
def dropHunt (s : State) (c : Nat) : State :=
  showCands (s.setLane c { s.lane c with cands := [], tieOpen := false, ties := [], errN := 0, sole := none }) c

/-- The carder is IDLE (R89): no candidates, nothing declared, no lane alignment, no skew (R99). -/
def carderStop (s : State) (c : Nat) : State :=
  let s := dropHunt s c
  (s.setLane c { s.lane c with aligned := false, extLock := false, extGood := 0, extBad := 0 }).u [(CH_ALN_SKEW_SKEW_EXC c, 0),
    (CH_ALN_STAT_CAR_STATE c, 0), (CH_ALN_STAT_OOF c, 0), (CH_ALN_STAT_LOF c, 0), (CH_ALN_STAT_OOM c, 0),
    (CH_ALN_STAT_LOM c, 0), (CH_ALN_STAT_LOL c, 0), (CH_ALN_STAT_BLOCK_LOCK c, 0), (CH_ALN_STAT_MIMIC_AMBIG c, 0)]

/-- A fresh hunt (R89, R95, R97, R98): out of frame; the candidate fields stay 0 for Ethernet (R100). -/
def carderHunt (s : State) (c : Nat) : State :=
  let rate := s.g (CH_DISC_STAT_RATE c)
  let s := dropHunt s c
  match rateFam rate with
  | .eth => s.u [(CH_ALN_STAT_CAR_STATE c, 1), (CH_ALN_STAT_BLOCK_LOCK c, 0)]
  | .otn => s.u [(CH_ALN_STAT_CAR_STATE c, if (rate = 9 ∨ rate = 11) ∧ (s.lane c).aligned = false then 4 else 1),
      (CH_ALN_STAT_OOF c, 1), (CH_ALN_STAT_OOM c, 1)]
  | _ => s.u [(CH_ALN_STAT_CAR_STATE c, 1), (CH_ALN_STAT_OOF c, 1)]

/-- The carder is in frame; for Ethernet, sync_status or block_lock holds (R88, R100). -/
def State.inFrame (s : State) (c : Nat) : Bool := s.g (CH_ALN_STAT_CAR_STATE c) == 3

/-- Send the members of a bond to SILENT (R75); their discovery runs have ended (R94). -/
def releaseBond (s : State) (c : Nat) : State :=
  if (s.lane c).bond then
    let s := s.setLane c { s.lane c with bond := false }
    [c + 1, c + 2, c + 3].foldl (fun t x =>
      setCdr ((t.setLane x { t.lane x with prevPos := none }).u [(CH_DISC_STAT_STATE x, 0)]) x false 0) s
  else s

/-- A lane enters SILENT (R76, R78, R83, R84, R94): ADM_FMT clears, TRACE_VALID clears from IDENTIFIED on, the discovery run and a
bond end, the carder idles. -/
def goSilent (s : State) (c : Nat) : State :=
  let was := s.disc c
  let s := carderStop (releaseBond s c) c
  let s := s.setLane c { s.lane c with prevPos := none, auto := false }
  let s := monsReset (setCdr s c false 0) c
  s.u [(CH_DISC_STAT_STATE c, 0), (CH_DISC_STAT_ADM_FMT c, 0),
    (CH_DISC_STAT_TRACE_VALID c, if 4 ≤ was ∧ was ≤ 7 then 0 else s.g (CH_DISC_STAT_TRACE_VALID c))]

/-- Whether a rate is masked in: bits 9 and 11 of a lane that is no lead lane read 0 (R75). -/
def rateMask (s : State) (c : Nat) : Nat := s.f (CH_DISC_CFG_RATE_MASK c) &&& (if c % 4 = 0 then 0xFFF else 0x5FF)
def hasRate (m r : Nat) : Bool := m / 2 ^ r % 2 == 1

/-- The next masked rate after `r`, in ascending order, wrapping from 11 to 0 (R77); `r` itself with an empty mask. -/
def nextRate (m r : Nat) : Nat :=
  match (List.range 12).find? (fun i => hasRate m ((r + 1 + i) % 12)) with
  | some i => (r + 1 + i) % 12
  | none => r

/-- A rate has failed, or its lock has led nowhere (R77): at the end of a sweep RATE_FAIL sets without a lock in it, and
BOND_BLOCKED clears where no blocking member was met (R75). -/
def rateOver (s : State) (c : Nat) : State :=
  let l := s.lane c
  let m := rateMask s c
  let tried := l.tried ||| 2 ^ s.g (CH_DISC_STAT_RATE c)
  if m &&& tried = m then
    (s.setLane c { l with tried := 0, locked := false, blocked := false }).u
      [(CH_DISC_STAT_RATE_FAIL c, bit (s.on (CH_DISC_STAT_RATE_FAIL c) || !l.locked)),
       (CH_DISC_STAT_BOND_BLOCKED c, bit (s.on (CH_DISC_STAT_BOND_BLOCKED c) && l.blocked))]
  else s.setLane c { l with tried := tried }

/-- The hunt moves to the next rate (R77). -/
def huntNext (s : State) (c : Nat) : State :=
  let s := rateOver s c
  s.u [(CH_DISC_STAT_STATE c, 2), (CH_DISC_STAT_RATE c, nextRate (rateMask s c) (s.g (CH_DISC_STAT_RATE c)))]

/-- Leave FRAME_HUNT for RATE_HUNT at the next rate (Table 4-2): the carder idles, a bond is released. -/
def backToRates (s : State) (c : Nat) : State := huntNext (setCdr (carderStop (releaseBond s c) c) c false 0) c

/-- SIGNAL, and on to RATE_HUNT when the mask is not empty (R76, R77): the first rate is that of the last IN_SERVICE partner with
START_HINT, where it is masked in, else the lowest. -/
def huntStart (s : State) (c : Nat) : State :=
  let m := rateMask s c
  if m = 0 then s
  else
    let l := s.lane c
    let first := match l.lastRate with
      | some r => if s.f (CH_DISC_CFG_START_HINT c) = 1 ∧ hasRate m r then r else nextRate m 11
      | none => nextRate m 11
    (s.setLane c { l with tried := 0, locked := false, blocked := false }).u [(CH_DISC_STAT_STATE c, 2), (CH_DISC_STAT_RATE c, first)]

/-- Start capturing afresh (R78). -/
def captureReset (s : State) (c : Nat) : State :=
  s.setLane c { s.lane c with capMsg := [], capN := 0, cap := none, ss := 0, ssN := 0, flav := none, late8 := false, twExp := false }

/-- Enter FRAME_HUNT at the locked rate (R77, R75): RATE_FAIL clears. At rates 9 and 11 the bond forms, or is blocked by a member
that is IDENTIFIED, ADMITTED, IN_SERVICE or in HOLD_OFF, and the rate has failed. -/
def cdrLocked (s : State) (c : Nat) : State :=
  let r := s.g (CH_DISC_STAT_RATE c)
  let members := [c + 1, c + 2, c + 3]
  let four := r == 9 || r == 11
  if four && members.any (fun x => decide (4 ≤ s.disc x) && decide (s.disc x ≤ 7)) then
    huntNext ((s.setLane c { s.lane c with blocked := true }).u [(CH_DISC_STAT_BOND_BLOCKED c, 1)]) c
  else
    let s := s.setLane c { s.lane c with locked := true, bond := four }
    let s := if four then
        members.foldl (fun t x =>
            let t := carderStop t x
            (setCdr (monsReset (t.setLane x { t.lane x with prevPos := none, twExp := false }) x) x true r).u [(CH_DISC_STAT_STATE x, 8)])
          (s.u [(CH_DISC_STAT_BOND_BLOCKED c, 0)])
      else s
    carderHunt (captureReset ((setCdr s c true r).u [(CH_DISC_STAT_STATE c, 3), (CH_DISC_STAT_RATE_FAIL c, 0)]) c) c

/-- Back to FRAME_HUNT from IDENTIFIED (R78, R89): the trace is released, the hunt already running continues. -/
def identLost (s : State) (c : Nat) : State :=
  captureReset ((s.setLane c { s.lane c with auto := false }).u [(CH_DISC_STAT_STATE c, 3), (CH_DISC_STAT_TRACE_VALID c, 0)]) c

/-- The format code that a rate and a flavour name (Table 4-1). -/
def fmtOf (rate : Nat) (sdh : Bool) : Nat :=
  let d := if sdh then 1 else 0
  match rate with
  | 0 => 1 + d
  | 1 => 3 + d
  | 2 => 0xE
  | 3 => 5 + d
  | 4 => 9
  | 5 => 7 + d
  | 6 => 0xF
  | 7 => 0xA
  | 8 => 0xB
  | 9 => 0xC
  | 10 => 0x10
  | _ => 0xD

/-- Four bytes as a register, least significant first. -/
def packWord (l : List Byte) (k : Nat) : Nat :=
  (l.getD (4 * k) 0).toNat + 256 * (l.getD (4 * k + 1) 0).toNat + 65536 * (l.getD (4 * k + 2) 0).toNat + 16777216 * (l.getD (4 * k + 3) 0).toNat

/-- TRACE_LEN's code of a trace length (Table 4-5). -/
def traceLen (n : Nat) : Nat := if n = 0 then 0 else if n = 1 then 1 else if n ≤ 16 then 2 else 3

/-- Enter IDENTIFIED (R78, R79): DISC_OCC rises; format, flavour and whether CH.TRACE holds the capture are reported. -/
def identify (s : State) (c : Nat) : State :=
  let l := s.lane c
  let r := s.g (CH_DISC_STAT_RATE c)
  let eth := rateFam r == .eth
  let sdh := rateFam r == .sdh
  let fl := l.flav.getD (s.f (CH_DISC_CFG_FLAV_DEF c) == 1)
  let tr := if eth then none else l.cap
  let s := (s.setLane c { l with auto := true }).occ (CH_DISC_OCC_COUNT c).addr
  s.u [(CH_DISC_STAT_STATE c, 4), (CH_DISC_STAT_FMT c, fmtOf r fl), (CH_DISC_STAT_FLAV_DEFAULTED c, bit (sdh && l.flav.isNone)),
    (CH_DISC_STAT_TRACE_VALID c, bit tr.isSome), (CH_DISC_STAT_TRACE_LEN c, tr.elim 0 (fun t => traceLen t.length))]

/-- A lane in FRAME_HUNT that is in frame enters IDENTIFIED once the trace is captured and the flavour decided, or TRACE_WAIT has
expired, or the format is Ethernet (R78). -/
def tryIdentify (s : State) (c : Nat) (expired : Bool) : State :=
  let l := s.lane c
  let r := s.g (CH_DISC_STAT_RATE c)
  if s.disc c = 3 ∧ s.inFrame c then
    if rateFam r = .eth ∨ expired ∨ l.twExp ∨ (l.cap.isSome ∧ (rateFam r = .sdh → l.flav.isSome)) then identify s c else s
  else s

/-- The SS bits of a frame (R78): three alike in a row tell the flavour. -/
def ssStep (l : LaneSt) (ss : Nat) : LaneSt :=
  let n := if l.ssN ≠ 0 ∧ l.ss = ss then l.ssN + 1 else 1
  let fl := if l.flav.isNone ∧ 3 ≤ n then (if ss = 2 then some true else if ss = 0 then some false else none) else l.flav
  { l with ss := ss, ssN := n, flav := fl }

/-- A message of the section trace and the SS bits of a frame, in FRAME_HUNT (R78): a capture that completes replaces CH.TRACE. -/
def captureFrame (s : State) (c : Nat) (msg : Option (List Byte)) (ss : Nat) : State :=
  let l := s.lane c
  match msg with
  | none => s.setLane c (ssStep l ss)
  | some t =>
    let n := if l.capN ≠ 0 ∧ l.capMsg = t then l.capN + 1 else 1
    let done := decide (l.cap = none) && decide (3 ≤ n)
    let s := s.setLane c (ssStep { l with capMsg := t, capN := n, cap := if done then some t else l.cap } ss)
    if done then s.u ((List.range 16).map (fun k => (CH_TRACE_BYTES c k, packWord t k))) else s

/-- What the discovery machine does when the carder leaves in frame (Table 4-2, R78). -/
def afterOof (s : State) (c : Nat) : State :=
  if s.disc c = 3 ∧ (s.lane c).late8 then backToRates s c
  else if s.disc c = 4 ∧ (s.on (CH_ALN_STAT_LOF c) ∨ s.on (CH_ALN_STAT_LOM c)) then identLost s c
  else if s.disc c = 3 then s.setLane c { s.lane c with capN := 0, ssN := 0 }
  else if s.disc c = 7 then s.setLane c { s.lane c with ssN := 0, flav := none }
  else s

/-- What the discovery machine does when LOF, LOM or block-lock loss is declared (R78). -/
def afterLoss (s : State) (c : Nat) : State := if s.disc c = 4 then identLost s c else s

/-- The carder declares in frame (R92, R94, R97): out of OOF and OOM, no mimic, no hunt; REALIGN_OCC counts a new position of the
same discovery run. -/
def declareFrame (s : State) (c pos mfas : Nat) : State :=
  let l := s.lane c
  let s := match l.prevPos with
    | some p => if p = pos then s else s.occ (CH_REALIGN_OCC_COUNT c).addr
    | none => s
  let s := s.setLane c { s.lane c with prevPos := some pos, lockPos := pos, mfas := mfas, oomN := 0, imN := 0 }
  tryIdentify ((dropHunt s c).u [(CH_ALN_STAT_CAR_STATE c, 3), (CH_ALN_STAT_OOF c, 0), (CH_ALN_STAT_OOM c, 0),
    (CH_ALN_STAT_MIMIC_AMBIG c, 0)]) c false

/-- An unresolved tie (R93): counted, MIMIC_AMBIG, a new hunt; in FRAME_HUNT the lane goes on to the next rate. -/
def mimic (s : State) (c : Nat) : State :=
  let s := (dropHunt (s.occ (CH_MIMIC_OCC_COUNT c).addr) c).u [(CH_ALN_STAT_CAR_STATE c, 1), (CH_ALN_STAT_MIMIC_AMBIG c, 1)]
  if s.disc c = 3 then backToRates s c else s

/-- The tie is resolved once every candidate's check is in (R92, R93): exactly one pass is in frame. -/
def resolveTie (s : State) (c : Nat) : State :=
  let t := (s.lane c).ties
  if t.isEmpty || t.any (fun p => p.2.isNone) then s
  else
    match t.filter (fun p => p.2 == some true) with
    | [p] => declareFrame s c p.1.pos (if rateFam (s.g (CH_DISC_STAT_RATE c)) = .otn then (p.1.mfas + 1) % 256 else p.1.mfas)
    | _ => mimic s c

/-- IF_GOOD and the other small thresholds: 0 and 1 act as 2 (Table 5-3). -/
def atLeast2 (n : Nat) : Nat := max 2 n

/-- One position of the hunt (R90 to R92): a candidate there gains a match or closes; a match at no candidate opens one while a
slot is free and no tie window is open. The first confirmation opens the tie window. -/
def huntPos (otn : Bool) (good : Nat) (l : LaneSt) (p : Nat) (m : Option Match) : LaneSt :=
  let opened (x : LaneSt) (m : Match) : LaneSt :=
    if x.tieOpen || decide (8 ≤ x.cands.length) then x else { x with cands := x.cands ++ [⟨p, 1, m.mfas, false⟩] }
  match l.cands.find? (fun k => k.pos == p), m with
  | none, none => l
  | none, some m => opened l m
  | some _, none => { l with cands := l.cands.filter (fun k => k.pos != p) }
  | some k, some m =>
    if otn && m.mfas != (k.mfas + 1) % 256 then opened { l with cands := l.cands.filter (fun k => k.pos != p) } m
    else
      let conf := k.conf || decide (good ≤ k.n + 1)
      { l with cands := l.cands.map (fun x => if x.pos = p then ⟨p, k.n + 1, m.mfas, conf⟩ else x), tieOpen := l.tieOpen || conf,
               tiePos := if conf && !l.tieOpen then p else l.tiePos }

/-- Insert into a rising list without repeats. -/
def insPos (p : Nat) : List Nat → List Nat
  | [] => [p]
  | q :: r => if p < q then p :: q :: r else if p = q then q :: r else q :: insPos p r

/-- The sole confirmed candidate after the tie window meets its next expected pattern position: in frame there, unless the pattern is
absent and the candidate closes (R92). -/
def soleStep (s : State) (c : Nat) (within : Nat → Bool) : State :=
  let l := s.lane c
  match l.sole with
  | none => s
  | some p =>
    match l.cands.find? (fun k => k.pos == p) with
    | some k => if within p then declareFrame s c p k.mfas else s
    | none => s.setLane c { l with sole := none, tieOpen := false }

/-- The hunt over a stretch of positions, compared modulo the frame length (R88, R90, R91). -/
def huntStretch (s : State) (c : Nat) (o : LineObs) : State :=
  let otn := rateFam (s.g (CH_DISC_STAT_RATE c)) == .otn
  let good := atLeast2 (s.f (CH_ALN_CFG_IF_GOOD c))
  let n := frameBits (s.g (CH_DISC_STAT_RATE c))
  let within (p : Nat) : Bool := decide ((p + n - o.lo % n) % n < o.hi - o.lo)
  let l := s.lane c
  let ms := (o.ms.filter (fun m => m.bits == framePattern)).map (fun m => { m with pos := m.pos % n })
  let ps := ((l.cands.map (·.pos)) ++ ms.map (·.pos)).foldl (fun a p => if within p then insPos p a else a) []
  let s := ps.foldl (fun t p => showCands (t.setLane c (huntPos otn good (t.lane c) p (ms.find? (fun m => m.pos == p)))) c) s
  soleStep s c within

/-- The secondary checks that a stretch completes (Table 5-2): the B1 outcome for SONET/SDH, the FAS and the next MFAS for OTN. -/
def tieStretch (s : State) (c : Nat) (o : LineObs) : State :=
  let otn := rateFam (s.g (CH_DISC_STAT_RATE c)) == .otn
  let n := frameBits (s.g (CH_DISC_STAT_RATE c))
  let check (k : Cand) : Option Bool :=
    if otn then
      if (k.pos + n - o.lo % n) % n < o.hi - o.lo then
        some (o.ms.any (fun m => m.bits == framePattern && m.pos % n == k.pos && m.mfas == (k.mfas + 1) % 256))
      else none
    else (o.b1s.find? (fun b => b.1 % n == k.pos)).map (fun b => b.2.1 == b.2.2)
  let l := s.lane c
  resolveTie (s.setLane c { l with ties := l.ties.map (fun p => (p.1, p.2.or (check p.1))) }) c

/-- The tie window closes (R92). The candidate that opened it has its next expected position at the close; one that confirmed later
waits for its own. -/
def closeTie (s : State) (c : Nat) : State :=
  let l := s.lane c
  if s.g (CH_ALN_STAT_CAR_STATE c) = 1 ∧ l.tieOpen ∧ l.sole = none then
    match l.cands.filter (fun k => k.conf) with
    | [] => s.setLane c { l with tieOpen := false }
    | [k] =>
      if k.pos = l.tiePos then declareFrame s c k.pos k.mfas
      else showCands (s.setLane c { l with sole := some k.pos, cands := [k] }) c
    | ks =>
      if s.f (CH_ALN_CFG_TIE_BRK c) = 0 then mimic s c
      else (showCands (s.setLane c { l with tieOpen := false, cands := ks, ties := ks.map (fun k => (k, none)) }) c).u
        [(CH_ALN_STAT_CAR_STATE c, 2)]
  else s

/-- OOF is declared (R95): OOF_OCC counts, a fresh hunt starts, the extension derivation unlocks (R194). -/
def declareOof (s : State) (c : Nat) : State :=
  let s := carderHunt (s.occ (CH_OOF_OCC_COUNT c).addr) c
  afterOof (s.setLane c { s.lane c with extLock := false, extGood := 0, extBad := 0 }) c

/-- The MFAS of a frame in frame (R97). -/
def mfasStep (s : State) (c m : Nat) : State :=
  let l := s.lane c
  let good := m == (l.mfas + 1) % 256
  if s.on (CH_ALN_STAT_OOM c) then
    let n := if good then l.imN + 1 else 0
    if atLeast2 (s.f (CH_ALN_CFG_IM_GOOD c)) ≤ n then (s.setLane c { l with mfas := m, imN := 0, oomN := 0 }).u [(CH_ALN_STAT_OOM c, 0)]
    else s.setLane c { l with mfas := m, imN := n }
  else
    let n := if good then 0 else l.oomN + 1
    if atLeast2 (s.f (CH_ALN_CFG_OOM_N c)) ≤ n then (s.setLane c { l with mfas := m, imN := 0, oomN := 0 }).u [(CH_ALN_STAT_OOM c, 1)]
    else s.setLane c { l with mfas := m, oomN := n }

/-- The pattern of a frame in frame (R95). -/
def patternStep (s : State) (c : Nat) (o : LineObs) : State :=
  let otn := rateFam (s.g (CH_DISC_STAT_RATE c)) == .otn
  let l := s.lane c
  if o.pat then
    let s := s.setLane c { l with errN := 0 }
    if otn then mfasStep s c o.mfas else s
  else
    let n := atLeast2 (s.f (if otn then CH_ALN_CFG_OOF_N_OTN c else CH_ALN_CFG_OOF_N_SDH c))
    if n ≤ l.errN + 1 then declareOof s c
    else
      let s := s.setLane c { l with errN := l.errN + 1 }
      if otn then mfasStep s c o.mfas else s

/-- Lane alignment of a bond (R98, R99): skew beyond 180 ns, or a logical lane unframed or unidentified, stops the deskew; SKEW_NS
and the lane map keep their last values while the lanes are not aligned. A lane that is lost in frame leaves the OTU out of
frame and the carder aligning lanes; no declaration under R95, so OOF_OCC stays. -/
def alignStep (s : State) (c : Nat) (o : LineObs) : State :=
  let lanes := o.lanesOk (s.g (CH_DISC_STAT_RATE c))
  let exc := decide (180 < o.skew)
  let s := if lanes then
      s.u [(CH_LANE_MAP0_MAP c, laneMap o 0 16), (CH_LANE_MAP1_MAP c, laneMap o 16 4), (CH_ALN_SKEW_SKEW_EXC c, bit exc),
        (CH_ALN_SKEW_SKEW_NS c, if exc then s.g (CH_ALN_SKEW_SKEW_NS c) else o.skew)]
    else s.u [(CH_ALN_SKEW_SKEW_EXC c, 0)]
  let ok := lanes && !exc
  let s := s.setLane c { s.lane c with aligned := ok }
  let car := s.g (CH_ALN_STAT_CAR_STATE c)
  if car = 4 ∧ ok then s.u [(CH_ALN_STAT_CAR_STATE c, 1)]
  else if !ok ∧ (car = 1 ∨ car = 2) then (dropHunt s c).u [(CH_ALN_STAT_CAR_STATE c, 4)]
  else if !lanes ∧ car = 3 then afterOof (carderHunt s c) c
  else s

/-- An admitted lane enters HOLD_OFF (R84); with HOLD_MS = 0 it passes through to SILENT. -/
def holdOff (s : State) (c : Nat) : State :=
  let s := ((s.setLane c { s.lane c with ssN := 0, flav := none }).occ (CH_GONE_OCC_COUNT c).addr).u [(CH_DISC_STAT_STATE c, 7)]
  if s.f (CH_DISC_TIME_HOLD_MS c) = 0 then goSilent s c else s

/-- Enter IN_SERVICE (R82, R84): the rate becomes the most recent partner's (R77). -/
def inService (s : State) (c : Nat) : State :=
  (s.setLane c { s.lane c with lastRate := some (s.g (CH_DISC_STAT_RATE c)) }).u [(CH_DISC_STAT_STATE c, 6)]

/-- The outcome of an admission (R80, R44: codes 0x00, 0x03, 0x05 and 0x08 report success). BUSY stays while a host admission waits. -/
def admOutcome (s : State) (c code src sfn : Nat) : State :=
  s.result (CH_ADM_CTRL_VALID c).addr (code != 0 && code != 3 && code != 5 && code != 8)
    [(CH_ADM_CODE_CODE c, code), (CH_ADM_CODE_SOURCE c, src), (CH_ADM_SFN_LO_SFN_LO c, sfn), (CH_ADM_SFN_HI_SFN_HI c, sfn / 0x100000000),
      (resBusy (CH_ADM_CTRL_VALID c).addr, bit (s.lane c).adm.isSome)]

/-- A code of Table 4-1. -/
def fmtListed (f : Nat) : Bool := 1 ≤ f && f ≤ 0x10
def fmtFour (f : Nat) : Bool := f == 0xC || f == 0xD
/-- ADMITTED, IN_SERVICE or HOLD_OFF. -/
def State.admitted (s : State) (c : Nat) : Bool := 5 ≤ s.disc c && s.disc c ≤ 7

/-- Hardware writes the RWH field TX_FMT (R86, Table 2-6): a software write due at this boundary is lost; one that waits for a later
boundary still waits. -/
def setTxFmt (s : State) (c fmt : Nat) : State :=
  let k := (CH_TX_CFG_TX_FMT c).addr
  let due := s.pend.filter (fun p => p.addr == k && p.wait == 0)
  let s := due.foldl (fun t p => t.wlost p.m (pageOf k + p.off)) s
  let later := (s.pend.filter (fun p => !(p.addr == k && p.wait == 0))).map (fun p =>
    if p.addr = k then { p with old := wordSet p.old 0 5 fmt } else p)
  let waits := later.any (fun p => p.addr == k)
  if waits then { s with pend := later } else { s with pend := later }.u [(CH_TX_CFG_TX_FMT c, fmt)]

/-- The lane is admitted (R82): ingress starts afresh, TX_FMT and ADM_FMT take the format. -/
def admitNow (s : State) (c fmt sfn : Nat) : State :=
  let s := monsReset (s.setLane c { s.lane c with admSfn := sfn, repl := fmt, extLock := false, extGood := 0, extBad := 0 }) c
  (setTxFmt s c fmt).u [(CH_DISC_STAT_STATE c, 5), (CH_DISC_STAT_ADM_FMT c, fmt)]

/-- An admission at its boundary (R80 to R83, Table 4-3). The flag tells that it applied or had no effect, so that a LANE_ADMIT item
counts as applied (R81). DESIGN CHOICE (log 74): a lane that a bond took after the precheck gives 0x04, not 0x06. -/
def admitLane (s : State) (c fmt src sfn : Nat) : State × Bool :=
  if fmt = 0 then
    if s.admitted c then (goSilent (admOutcome s c 0x05 src sfn) c, true) else (admOutcome s c 0x08 src sfn, true)
  else if !fmtListed fmt then (admOutcome s c 0x07 src sfn, false)
  else if s.bonded c || (fmtFour fmt && c % 4 != 0) then (admOutcome s c 0x04 src sfn, false)
  else if s.disc c = 4 then
    if s.g (CH_DISC_STAT_FMT c) = fmt then (admOutcome (admitNow s c fmt sfn) c 0x00 src sfn, true)
    else (admOutcome s c (if src = 1 then 0x06 else 0x02) src sfn, false)
  else if (s.disc c = 5 ∨ s.disc c = 6) ∧ s.g (CH_DISC_STAT_ADM_FMT c) = fmt then (admOutcome s c 0x03 src sfn, true)
  else (admOutcome s c (if src = 1 then 0x06 else 0x01) src sfn, false)

/-- The precondition check of a LANE_ADMIT item (R81): `none` where the lane is ready; a code that is none of Table 4-1 is recorded. -/
def admitReady (s : State) (c fmt : Nat) : Bool :=
  if fmt = 0 then s.admitted c
  else fmtListed fmt && ((s.disc c == 4 && s.g (CH_DISC_STAT_FMT c) == fmt) ||
    ((s.disc c == 5 || s.disc c == 6) && s.g (CH_DISC_STAT_ADM_FMT c) == fmt))

/-- The host admission and AUTO_ADMIT of a lane at a boundary (R80). -/
def hostAdmit (s : State) (sfn c : Nat) : State :=
  match (s.lane c).adm with
  | none => s
  | some (fmt, 0) =>
    (admitLane (s.setLane c { s.lane c with adm := none }) c fmt 0 sfn).1.u [(CH_ADMIT_GO c, 0)]
  | some (fmt, n + 1) => s.setLane c { s.lane c with adm := some (fmt, n) }

def autoAdmit (s : State) (sfn c : Nat) : State :=
  let l := s.lane c
  if l.auto then
    let s := s.setLane c { l with auto := false }
    let f := s.g (CH_DISC_STAT_FMT c)
    if f ≠ 0 ∧ hasRate (s.f (CH_AUTO_ADMIT_FMT_MASK c)) (f - 1) then (admitLane s c f 2 sfn).1 else s
  else s

/-- What the carder frames is the admitted format (R84): the rate is that of the format; the flavour at a SONET/SDH rate is the one
that three frames in HOLD_OFF tell, or FLAV_DEF where they do not decide (DEDUCED, log 76). -/
def State.sameFormat (s : State) (c : Nat) : Bool :=
  let l := s.lane c
  rateFam (s.g (CH_DISC_STAT_RATE c)) != .sdh || (decide (3 ≤ l.ssN) &&
    fmtOf (s.g (CH_DISC_STAT_RATE c)) (l.flav.getD (s.f (CH_DISC_CFG_FLAV_DEF c) == 1)) == s.g (CH_DISC_STAT_ADM_FMT c))

/-- HOLD_OFF ends at a boundary with LOS clear and the carder in frame in the admitted format (R84). -/
def holdReturn (s : State) (c : Nat) : State :=
  if s.disc c = 7 ∧ !s.chLos c ∧ s.inFrame c ∧ s.sameFormat c then inService s c else s

/-- A write of QCFG that takes effect with another LREF_SEL relocks the quad PLL (R74). -/
def relockQuad (s : State) (q : Nat) : State := s.u [(LGS_QCFG_TXPLL_LK (q / 3) (q % 3), 0)]

def lanes (s : State) (c : Nat) (k : State → State) : Host.Outcome State Fault Refusal :=
  done (if s.laneOn c then refreshCh (k s) c else s)

/-- SIG_DET shows at once that signal detect has appeared (R87). -/
def signalAppears (s : State) (c : Nat) : State := if s.laneOn c then s.u [(LGS_LANE_EQ_SIG_DET (c / 12) (c % 12), 1)] else s

/-- SIGNAL_DETECT (R76): signal detect has held for 1 ms. -/
def execSignalDetect (c : Fin 192) (s : State) : Host.Outcome State Fault Refusal :=
  lanes s c (fun s =>
    let s := signalAppears s c
    if s.disc c = 0 then huntStart (s.u [(CH_DISC_STAT_STATE c, 1)]) c else s)

/-- SIGNAL_DETECT_LOSS (R76): at once from SIGNAL, and from RATE_HUNT once the loss has held for 1 ms. -/
def execSignalDetectLoss (c : Fin 192) (held : Bool) (s : State) : Host.Outcome State Fault Refusal :=
  lanes s c (fun s =>
    let s := s.u [(LGS_LANE_EQ_SIG_DET (c.val / 12) (c.val % 12), 0)]
    if s.disc c = 1 ∨ (s.disc c = 2 ∧ held) then goSilent s c else s)

/-- RATE_DWELL_EXPIRY (R77). -/
def execRateDwellExpiry (c : Fin 192) (s : State) : Host.Outcome State Fault Refusal :=
  lanes s c (fun s => if s.disc c = 2 then huntNext s c else s)

/-- CDR_LOCK (R77, R75). -/
def execCdrLock (c : Fin 192) (s : State) : Host.Outcome State Fault Refusal :=
  lanes s c (fun s => if s.disc c = 2 ∧ hasRate (if c.val % 4 = 0 then 0xFFF else 0x5FF) (s.g (CH_DISC_STAT_RATE c)) then cdrLocked s c else s)

/-- FRAME_HUNT_TIMEOUT (R78): out of frame, the lane returns to RATE_HUNT; in frame, it does so when it leaves in frame. -/
def execFrameHuntTimeout (c : Fin 192) (s : State) : Host.Outcome State Fault Refusal :=
  lanes s c (fun s =>
    if s.disc c = 3 then
      let s := s.setLane c { s.lane c with late8 := true }
      if s.inFrame c then s else backToRates s c
    else s)

/-- TRACE_WAIT_EXPIRY (R78): a lane that is out of frame enters IDENTIFIED when it next is in frame (Table 4-2). -/
def execTraceWaitExpiry (c : Fin 192) (s : State) : Host.Outcome State Fault Refusal :=
  lanes s c (fun s => tryIdentify (if s.disc c = 3 then s.setLane c { s.lane c with twExp := true } else s) c true)

/-- ADMIT_GO (R80): FMT is captured; GO reads 1 until the boundary. -/
def execAdmitGo (m : Fin 8) (c : Fin 192) (late : Bool) (s : State) : Host.Outcome State Fault Refusal :=
  done (s.regionCmd m (CH_ADMIT_GO c) (fun t =>
    ((t.setLane c { t.lane c with adm := some (t.g (CH_ADMIT_FMT c), if late then 1 else 0) }).begin (CH_ADM_CTRL_VALID c).addr).u
      [(CH_ADMIT_GO c, 1)]))

/-- ADMITTED_EXPIRY (R82): ADM_FRAMES system frames after the admission boundary; values below 4 act as 4. -/
def execAdmittedExpiry (c : Fin 192) (s : State) : Host.Outcome State Fault Refusal :=
  lanes s c (fun s =>
    if s.disc c = 5 ∧ (s.lane c).admSfn + max 4 (s.f (CH_DISC_TIME_ADM_FRAMES c)) ≤ s.sfn then inService s c else s)

/-- REHUNT_EXPIRY (R84): REHUNT = 0 disables it. -/
def execRehuntExpiry (c : Fin 192) (s : State) : Host.Outcome State Fault Refusal :=
  lanes s c (fun s =>
    if (s.disc c = 5 ∨ s.disc c = 6) ∧ s.f (CH_DISC_TIME_REHUNT c) ≠ 0 ∧
        (s.on (CH_ALN_STAT_LOF c) ∨ s.on (CH_ALN_STAT_LOM c) ∨ (s.chFam c = .eth ∧ s.g (CH_ALN_STAT_BLOCK_LOCK c) = 0)) then holdOff s c
    else s)

/-- HOLD_OFF_EXPIRY (R84). -/
def execHoldOffExpiry (c : Fin 192) (s : State) : Host.Outcome State Fault Refusal :=
  lanes s c (fun s => if s.disc c = 7 then goSilent s c else s)

/-- START (R87): an eye measurement of EYE_SEL.LANE. -/
def execStart (m : Fin 8) (lg : Fin 16) (s : State) : Host.Outcome State Fault Refusal :=
  done (s.command m (LGS_EYE_SEL_START lg) (fun t => eyeStart t lg))

/-- EYE_MEASURE_DONE (R87, R73): LAST_FAILED for a lane above 11, or where no spare slice was free when it started. Blocking runs took
what START noted; `free` is whether background calibration, which uses one spare slice at most, left the other. -/
def execEyeMeasureDone (lg : Fin 16) (free : Bool) (width height : Nat) (s : State) : Host.Outcome State Fault Refusal :=
  done (if s.on (LGS_EYE_SEL_START lg) then
      let e := tget (fun _ => 0) s.eye lg
      let lane := e % 32 - 1
      let bad := decide (64 ≤ e) || (decide (32 ≤ e) && !free) || decide (12 ≤ lane)
      let s := if bad then s else gaugeSample s 5 (12 * lg.val + lane) (Int.ofNat height)
      (({ s with eye := tset (fun _ => 0) s.eye lg 0 }.result (LGS_EYE_CTRL_VALID lg).addr bad
        ((LGS_EYE_LANE_LANE lg, lane) :: if bad then [] else [(LGS_EYE_VAL_WIDTH lg, width), (LGS_EYE_VAL_HEIGHT lg, height)])).u
        [(LGS_EYE_SEL_START lg, 0)])
    else s)

/-- TIE_WINDOW_CLOSE (R92). -/
def execTieWindowClose (c : Fin 192) (s : State) : Host.Outcome State Fault Refusal := lanes s c (fun s => closeTie s c)

/-- The carder runs and the format has the framing defects of R95 to R97. -/
def State.framing (s : State) (c : Nat) : Bool :=
  s.g (CH_ALN_STAT_CAR_STATE c) != 0 && rateFam (s.g (CH_DISC_STAT_RATE c)) != .eth

/-- LOF_DECLARE (R96). -/
def execLofDeclare (c : Fin 192) (s : State) : Host.Outcome State Fault Refusal :=
  lanes s c (fun s => if s.framing c ∧ s.on (CH_ALN_STAT_OOF c) ∧ !s.on (CH_ALN_STAT_LOF c) then afterLoss (s.u [(CH_ALN_STAT_LOF c, 1)]) c else s)

/-- LOF_CLEAR (R96). -/
def execLofClear (c : Fin 192) (s : State) : Host.Outcome State Fault Refusal :=
  lanes s c (fun s => if s.on (CH_ALN_STAT_OOF c) then s else s.u [(CH_ALN_STAT_LOF c, 0)])

/-- LOM_DECLARE (R97): while in frame. -/
def execLomDeclare (c : Fin 192) (s : State) : Host.Outcome State Fault Refusal :=
  lanes s c (fun s => if s.inFrame c ∧ s.on (CH_ALN_STAT_OOM c) ∧ !s.on (CH_ALN_STAT_LOM c) then afterLoss (s.u [(CH_ALN_STAT_LOM c, 1)]) c else s)

/-- LOM_CLEAR (R97). -/
def execLomClear (c : Fin 192) (s : State) : Host.Outcome State Fault Refusal :=
  lanes s c (fun s => if s.on (CH_ALN_STAT_OOM c) then s else s.u [(CH_ALN_STAT_LOM c, 0)])

/-- LOL_DECLARE (R99): the lanes of a bond are not aligned. -/
def execLolDeclare (c : Fin 192) (s : State) : Host.Outcome State Fault Refusal :=
  lanes s c (fun s =>
    if (s.lane c).bond ∧ (s.g (CH_ALN_STAT_CAR_STATE c) = 4 ∨ s.on (CH_ALN_SKEW_SKEW_EXC c)) then s.u [(CH_ALN_STAT_LOL c, 1)] else s)

/-- LOL_CLEAR (R99). -/
def execLolClear (c : Fin 192) (s : State) : Host.Outcome State Fault Refusal :=
  lanes s c (fun s =>
    if s.g (CH_ALN_STAT_CAR_STATE c) = 4 ∨ s.on (CH_ALN_SKEW_SKEW_EXC c) then s else s.u [(CH_ALN_STAT_LOL c, 0)])

/-- BLOCK_LOCK_CHANGE (R100): Ethernet formats only; in frame is sync_status or block_lock. -/
def execBlockLockChange (c : Fin 192) (lock : Bool) (s : State) : Host.Outcome State Fault Refusal :=
  lanes s c (fun s =>
    if s.g (CH_ALN_STAT_CAR_STATE c) ≠ 0 ∧ rateFam (s.g (CH_DISC_STAT_RATE c)) = .eth then
      let s := if lock then s else s.setLane c { s.lane c with ethDown := true }
      let t := s.u [(CH_ALN_STAT_BLOCK_LOCK c, bit lock), (CH_ALN_STAT_CAR_STATE c, if lock then 3 else 1)]
      if lock then tryIdentify t c false else afterLoss (afterOof t c) c
    else s)

/-- What LOS of a channel does to its lane (Table 4-2, R84). -/
def afterLos (s : State) (c : Nat) : State :=
  if s.disc c = 4 then goSilent s c else if s.disc c = 5 ∨ s.disc c = 6 then holdOff s c else s

/-- LOS_DECLARE (R110, R75): low energy alone declares it only with LOS_NRG, for a bonded member that of its lead lane (R7). A member
lane's LOS is its bond's. LOS at any time in a system frame inhibits the Ethernet counter (R119). -/
def execLosDeclare (lane : Fin 192) (energyOnly : Bool) (s : State) : Host.Outcome State Fault Refusal :=
  let c := if s.bonded lane then leadOf lane else lane.val
  done (if s.laneOn lane ∧ !(energyOnly ∧ s.f (CH_DEF_CFG_LOS_NRG c) = 0) then
      let s := s.setLane lane { s.lane lane with los := true }
      refreshCh (afterLos (refreshCh (s.setLane c { s.lane c with ethDown := true }) c) c) c
    else s)

/-- LOS_CLEAR (R110). -/
def execLosClear (lane : Fin 192) (s : State) : Host.Outcome State Fault Refusal :=
  done (if s.laneOn lane then
      refreshCh (s.setLane lane { s.lane lane with los := false }) (if s.bonded lane then leadOf lane else lane.val) else s)

end Sys2Proof.Machine
end

