-- ==== Sys2Proof/Machine/Inject.lean ====
section
/-!
DEFINITION. Error injection (13_integrity_injection.md R289 to R294): the slots, their start and stop, the unit-by-unit injection that
the detectors' meanings call.
-/

namespace Sys2Proof.Machine

open Sys2Proof

/-- A code of Table 13-5. -/
def pointKnown (p : Nat) : Bool := 1 ≤ p && p ≤ 0x1B

/-- An instance lies in range (Table 13-4). -/
def instOk (s : State) (p i prm : Nat) : Bool :=
  match pointKind p with
  | 1 => bitsOf i 0 8 < 192 && (p != 0x03 || s.chFam (bitsOf i 0 8) == .otn || s.chFam (bitsOf i 0 8) == .none)
  | 2 => bitsOf i 0 8 < 192 && bitsOf i 19 5 ≤ 28
  | 3 => bitsOf i 0 8 < 192 && bitsOf i 20 3 ≤ 6
  | 4 => bitsOf i 5 8 < (if bitsOf i 4 1 = 0 then 252 else 24)
  | 5 => i < 16
  | 6 => i < 64
  | 7 => i < 8
  | 8 => 1 ≤ bitsOf i 0 8 && bitsOf i 0 8 ≤ 0x14
  | 9 => i < 8
  | 10 => if bitsOf i 17 1 = 0 then bitsOf i 0 17 < 128256 else bitsOf i 0 17 < 0xD300
  | _ => prm % 4 == 0 && (regDesc prm).isSome

/-- Why a start is refused (R290, IJ_CODE): 0 none. -/
def injCheck (s : State) (slot : Nat) : Nat :=
  let p := s.g (INJ_IJ_D0_POINT slot)
  let i := s.g (INJ_IJ_D1_INSTANCE slot)
  let prm := s.g (INJ_IJ_D2_PARAM slot)
  if !pointKnown p then 0x01
  else if !instOk s p i prm then 0x02
  else if !s.ready (injPage p i prm) then 0x03
  else 0x00

/-- A register carries parity: it holds an RW, RWS, RWH or LCK field (R38). -/
def parProtected (a : Nat) : Bool :=
  match regDesc (a % 0x100000000) with
  | some d => d.rw ||| d.rwh ||| d.rws ||| d.lck != 0
  | none => false

/-- The key under which a register's parity is kept. A banked register has one per bank, named by its key; an address alone, as PARAM of
point 0x16 gives it, names the first bank (log 34). -/
def parKey (a : Nat) : Nat :=
  let k := a - a % 0x1000 + a % 0x400
  match regDesc (a % 0x100000000) with
  | some d => if d.banked && decide (a < 0x100000000) then k + 0x100000000 else k
  | none => k

/-- A parity flip (point 0x16): the register holds a parity fault (R38). -/
def parFlip (s : State) (prm : Nat) : State :=
  if !parProtected prm ∨ parKey prm ∈ s.parBad then s else { s with parBad := parKey prm :: s.parBad }

/-- A one-shot error in an active entry's check bits (point 0x14, R144). -/
def entFlip (s : State) (i prm : Nat) : State :=
  let k (pg : Nat) : Nat := s.g (IC_STAT_ACTIVE pg) * 0x100000 + bitsOf i 0 17
  let v := if prm % 2 = 1 then 2 else 1
  if bitsOf i 17 1 = 0 then { s with tsi := { s.tsi with bad := tset (fun _ => 0) s.tsi.bad (k tsiPage) v } }
  else { s with lox := { s.lox with bad := tset (fun _ => 0) s.lox.bad (k loxPage) v } }

/-- A start or a stop applies (R289, R290): MODE 0 stops; COUNT 0 acts as 1; the points that act once do so at once. -/
def injApply (s : State) (slot arg : Nat) : State :=
  let mode := arg % 4
  let p := s.g (INJ_IJ_D0_POINT slot)
  let i := s.g (INJ_IJ_D1_INSTANCE slot)
  let prm := s.g (INJ_IJ_D2_PARAM slot)
  if mode = 0 then injStop s slot
  else if p = 0x16 then parFlip (injStop s slot) prm
  else if p = 0x14 then entFlip (injStop s slot) i prm
  else
    injShow (s.u [(INJ_IJ_STAT_ACTIVE slot, 1), (INJ_IJ_STAT_MODE slot, mode), (INJ_IJ_STAT_PAUSED slot, 0),
      (INJ_IJ_STAT_REMAIN slot, if mode = 2 then max 1 (bitsOf arg 16 16) else 0)])

/-- One unit at the ingress of channel `c`: the parameter where a slot injects. -/
def injCh (s : State) (p c n : Nat) : (Nat × Nat) × State := injUnit s p 0 (fun i => bitsOf i 0 8 == c) n

/-- The ODU-level instance of the HO ODU's level `lv` of channel `c`, or of the LO ODU at `idx`. -/
def oduInst (c : Nat) (idx : Option Nat) (lv i : Nat) : Bool :=
  bitsOf i 0 8 == c && bitsOf i 20 3 == lv &&
    match idx with
    | none => bitsOf i 19 1 == 0
    | some x => bitsOf i 19 1 == 1 && bitsOf i 8 11 == x

/-- BIP and BEI injection of one ODU level (points 0x09, 0x0A). -/
def injOdu (c : Nat) (idx : Option Nat) (lv : Nat) (s : State) (o : OduObs) : OduObs × State :=
  let (a, s) := injUnit s 0x09 0 (oduInst c idx lv) 1
  let o := if a.1 = 0 then o else { o with bip := flipLow o.bip (min 8 a.2) 8 }
  let (b, s) := if lv = 0 ∧ idx.isNone then ((0, 0), s) else injUnit s 0x0A 0 (oduInst c idx lv) 1
  (if b.1 = 0 then o else { o with bei := b.2 % 16 }, s)

/-- Injection ahead of the detectors of one line frame period (points 0x02 to 0x0A, 0x0C, 0x0D; R290, R291). While the carder hunts, a
flipped pattern hides the match at the position of the previous in-frame period. -/
def injLine (s : State) (c : Nat) (o : LineObs) : LineObs × State :=
  if !s.injecting then (o, s)
  else
    let fam := s.chFam c
    let l := s.lane c
    let a := injCh s 0x02 c 1
    let s := a.2
    let o := if a.1.1 = 0 then o else { o with fas := o.fas ^^^ 1, ms := o.ms.filter (fun m => some m.pos != l.prevPos) }
    let a := if fam = .otn then injCh s 0x03 c 1 else ((0, 0), s)
    let s := a.2
    let o := if a.1.1 = 0 then o else { o with mfas := (l.mfas + 2) % 256 }
    let a := injCh s 0x04 c 1
    let s := a.2
    let o := if a.1.1 = 0 ∨ fam ≠ .sdh then o else { o with k2 := o.k2 / 8 * 8 + 7 }
    let a := injCh s 0x05 c 1
    let s := a.2
    let o := if a.1.1 = 0 then o else if fam = .sdh then { o with k2 := o.k2 / 8 * 8 + 6 } else { o with sm := { o.sm with bdi := true } }
    let a := injCh s 0x06 c 1
    let s := a.2
    let o := if a.1.1 = 0 then o else if fam = .sdh then { o with b1 := flipLow o.b1 a.1.2 8 }
      else { o with sm := { o.sm with bip := flipLow o.sm.bip a.1.2 8 } }
    let a := injCh s 0x07 c 1
    let s := a.2
    let o := if a.1.1 = 0 then o else { o with b2 := flipLow o.b2 a.1.2 (8 * stsOf (s.g (CH_DISC_STAT_RATE c))) }
    let a := injUnit s 0x0A 0 (fun i => bitsOf i 0 8 == c && bitsOf i 8 16 == 0) 1
    let s := a.2
    let o := if a.1.1 = 0 then o else if fam = .sdh then { o with rei := a.1.2 } else { o with sm := { o.sm with bei := a.1.2 % 16 } }
    let x := injOdu c none 0 s o.odu
    let s := x.2
    let o := { o with odu := x.1 }
    let tc := o.tcm.zipIdx.foldl (fun (r : List OduObs × State) p =>
      let y := injOdu c none (p.2 + 1) r.2 p.1
      (r.1 ++ [y.1], y.2)) ([], s)
    let s := tc.2
    let o := { o with tcm := tc.1 }
    let ps := o.paths.foldl (fun (r : List PathObs × State) p =>
      let a := injUnit r.2 0x08 0 (fun i => bitsOf i 0 8 == c && bitsOf i 8 11 == p.idx && bitsOf i 19 5 == p.trib) 1
      let p := if a.1.1 = 0 then p else { p with bip := flipLow p.bip a.1.2 (if p.trib = 0 then 8 else 2) }
      let y := if fam = .otn then injOdu c (some p.idx) 0 a.2 p.odu else (p.odu, a.2)
      (r.1 ++ [{ p with odu := y.1 }], y.2)) ([], s)
    let s := ps.2
    let o := { o with paths := ps.1 }
    let ts := o.tribs.foldl (fun (r : List TribObs × State) p =>
      let a := injUnit r.2 0x0C 0 (fun i => bitsOf i 0 4 == c / 12 && bitsOf i 4 1 == p.kind && bitsOf i 5 8 == p.num) 1
      let p := if a.1.1 = 0 then p
        else match a.1.2 % 4 with
          | 0 => { p with c0 := p.c0 + 1 }
          | 1 => { p with c1 := p.c1 + 1 }
          | 2 => { p with c2 := p.c2 + 1 }
          | _ => { p with c3 := p.c3 + 1 }
      (r.1 ++ [p], a.2)) ([], s)
    let s := ts.2
    let o := { o with tribs := ts.1 }
    let a := if fam = .eth then injCh s 0x0D c o.nblk else ((0, 0), s)
    let s := a.2
    ({ o with blocks := min (max o.nblk o.blocks) (o.blocks + a.1.1) }, s)

/-- GO and STOP (R289, R294): taken at the boundary that R17 gives; STOP acts as GO with MODE 0. -/
def injCommand (s : State) (m cmd : Nat) (late : Bool) : State :=
  let slot := s.g (perMaster INJ_IJ_SEL_SLOT m)
  let arg := if cmd = 1 then 0 else s.g INJ_IJ_ARG_ARG
  ({ s with inj := s.inj ++ [InjReq.mk slot arg (if late then 1 else 0) cmd] }.begin INJ_IJ_CTRL_VALID.addr).u [(bitOf INJ_IJ_CMD_GO cmd, 1)]

/-- PAUSED of every active slot (R290). -/
def injPause (s : State) : State :=
  if !s.injecting then s
  else ((List.range 64).filter (fun i => s.on (INJ_IJ_STAT_ACTIVE i))).foldl (fun t i => t.u [(INJ_IJ_STAT_PAUSED i, bit (injHeld t i))]) s

/-- The requests due at a boundary (R289), and the slots whose target has failed or returned. -/
def injBoundary (s : State) : State :=
  injPause <|
  let due := s.inj.filter (fun r => r.wait == 0)
  let rest := (s.inj.filter (fun r => r.wait != 0)).map (fun r => { r with wait := r.wait - 1 })
  due.foldl (fun t r =>
    let code := if r.arg % 4 = 0 then 0 else injCheck t r.slot
    let t := if code = 0 then injApply t r.slot r.arg else t
    (t.result INJ_IJ_CTRL_VALID.addr (code != 0) [(INJ_IJ_CODE_CODE, code), (bitOf INJ_IJ_CMD_GO r.cmd, 0),
      (resBusy INJ_IJ_CTRL_VALID.addr, bit (!rest.isEmpty))])) { s with inj := rest }

/-- The software reset of the INJ page stops every slot and keeps the descriptors (R290). -/
def injReset (s : State) : State := (List.range 64).foldl (fun t i => if t.on (INJ_IJ_STAT_ACTIVE i) then injStop t i else t) s

def execGo (m : Fin 8) (late : Bool) (s : State) : Host.Outcome State Fault Refusal :=
  done (s.command m INJ_IJ_CMD_GO (fun t => injCommand t m 0 late))

def execStop (m : Fin 8) (late : Bool) (s : State) : Host.Outcome State Fault Refusal :=
  done (s.command m INJ_IJ_CMD_STOP (fun t => injCommand t m 1 late))

end Sys2Proof.Machine
end

