-- ==== Sys2Proof/Machine/Overhead.lean ====
section
/-!
DEFINITION. Overhead, defects and performance monitoring (06_overhead_defects_pm.md R103 to R127): what one line frame does to the
monitors, the counters and the overhead buffer; declaring and clearing defects; the path and tributary windows.
LINE_FRAME itself stands in Ingress.lean, which adds the mapping's part.
-/

namespace Sys2Proof.Machine

open Sys2Proof

/-- How many of the low `w` bits are 1. -/
def popCount (v w : Nat) : Nat := ((List.range w).filter (fun i => v / 2 ^ i % 2 == 1)).length

/-- The monitor of an entity. -/
def entMon : Ent → Nat
  | .line c => lineMon c.val 0
  | .odu c lv => lineMon c.val (1 + lv.val)
  | .path c i t lv => monKey c.val i.val t.val lv.val

def entCh : Ent → Nat
  | .line c => c.val
  | .odu c _ => c.val
  | .path c _ _ _ => c.val

/-- A monitored path or tributary of a channel in its bank in force (R126, R103). -/
def State.pathHere (s : State) (c idx trib : Nat) : Bool :=
  match s.pathOver c idx with
  | none => false
  | some p =>
    if trib = 0 then p.first == idx
    else p.kind == 1 && (match s.loThrough (512 * c + idx) with | some n => trib ≤ n | none => false)

/-! ### Buffered writes -/

/-- Enter a buffered write of the bits `mask` of a register (R17, R36): a read returns the new value at once, the old one stays in
force until the boundary. -/
def bufWriteBy (s : State) (m off k : Nat) (mask v : Word) (line : Option Nat) (late : Bool) : State :=
  let old := s.rd k
  if mask = 0 then s
  else { s.setWord k ((old &&& ~~~mask) ||| (v &&& mask)) with pend := s.pend ++ [⟨k, mask, old, line, if late then 1 else 0, off, m⟩] }

/-- A buffered write that no scheduled item can meet: of a window entry, or by the device. -/
def bufWrite (s : State) (k : Nat) (mask v : Word) (line : Option Nat) (late : Bool) : State := bufWriteBy s 7 0 k mask v line late

/-- PG_CMD.PEND of a page: some write to it waits (R36). A window entry's write waits on the page that shows the window. -/
def pendPage (k : Nat) : Nat :=
  let i := k % 0x100000000000000 / 256
  match k / 0x100000000000000 with
  | 0 => pageOf k
  | 1 => lgBase (i / 32 / 2048 / 12) + 0xE000
  | 2 => lgBase (i / 512) + 0xE000
  | 3 => lgBase (i / 512 / 12)
  | 4 => lgBase (i / 16)
  | 5 => lgBase (i / 256) + 0xF000
  | _ => 0xB000

/-- What comes into force with some writes: the BER windows of an entity whose exponents they set start empty (R114). -/
def berRestart (s : State) (k : Nat) : State :=
  let wipe (t : State) (i : Nat) : State := t.setMn i { t.mn i with errs := [] }
  if k / 0x100000000000000 = 1 ∧ k % 256 = 4 then
    [0, 1, 2, 3, 4, 5, 6].foldl (fun t l => wipe t (0x10000 + 8 * (k % 0x100000000000000 / 256) + l)) s
  else if k < 0x100000000 ∧ pageKind (pageOf k) = some .ch ∧ k % 0x1000 = 0xD4 then
    let c := (k - 0x100000) / 0x10000 * 12 + (k / 0x1000 % 16 - 1)
    [0, 1, 2, 3, 4, 5, 6, 7].foldl (fun t l => wipe t (lineMon c l)) s
  else s

/-! ### One line frame at the monitors -/

/-- Add the errors of a BIP to a PM counter: bits, or one per errored frame (R119). -/
def bipCount (s : State) (c : Nat) (f : Fld) (n : Nat) : State :=
  s.pmAdd f (if s.f (CH_DEF_CFG_PM_BLOCK c) = 1 then (if n = 0 then 0 else 1) else n)

/-- Add a remote indication; more than the BIP's width counts as 0 (R119). -/
def reiCount (s : State) (f : Fld) (n w : Nat) : State := s.pmAdd f (if w < n then 0 else n)

/-- OPU bits under each BIP-8 bit of an ODU or OTU frame (Table 6-5). -/
def opuM : Nat := 15240

/-- One frame of OTN overhead at a monitor: the conditions of Table 6-4, trace and PT acceptance, BER (R111, R114). Behind a server
defect the accepted values stay and the BER window rests (R109). -/
def oduStep (x : Mon) (o : OduObs) (masked : Bool) (sfx sdx : Nat) : Mon :=
  let x := { x with runs := runsStep [o.stat == 7, o.bdi, o.stat == 6, o.stat == 5, o.stat == 0, false,
    o.stat == 6 || o.stat == 5] x.runs }
  if masked then x
  else
    let x := x.trace o.tti
    let x := match o.pt with
      | none => x
      | some p => { x with accs := [accStep 3 p (x.accs.getD 0 accReset)] }
    x.ber 8 opuM 5 sfx sdx (popCount o.bip 8)

/-- The line or OTU monitors, the HO ODU's and the TCM levels' of one frame. -/
def lineMonitors (s : State) (c : Nat) (o : LineObs) (v : ChView) : State :=
  let sfx := s.f (CH_BER_CFG_SF_EXP c)
  let sdx := s.f (CH_BER_CFG_SD_EXP c)
  match s.chFam c with
  | .sdh =>
    let n := stsOf (s.g (CH_DISC_STAT_RATE c))
    let x := s.mn (lineMon c 0)
    let m := v.stat &&& 0x5 != 0
    let x := { x with runs := runsStep [o.k2 % 8 == 7, o.k2 % 8 == 6] x.runs }
    let x := if m then x
      else ({ x with accs := [accStep 3 o.k1 (x.accs.getD 0 accReset), accStep 3 o.k2 (x.accs.getD 1 accReset),
        accStep 8 o.s1 (x.accs.getD 2 accReset)] }.trace o.trace)
    let x := if v.stat &&& 0x25 != 0 then x else x.ber (8 * n) 801 3 sfx sdx (popCount o.b2 (8 * n))
    (s.setMn (lineMon c 0) x).setLane c { s.lane c with back := popCount o.b2 (8 * n) }
  | .otn =>
    let bad := v.stat &&& 0x3D != 0
    let s := s.setMn (lineMon c 0) (oduStep (s.mn (lineMon c 0)) { o.sm with stat := 1, pt := none } bad sfx sdx)
    let s := s.setMn (lineMon c 1) (oduStep (s.mn (lineMon c 1)) o.odu (bad || v.stat / 0x1000 % 2 == 1) sfx sdx)
    let s := o.tcm.zipIdx.foldl (fun t p =>
      if p.2 < 6 && t.tcmMon c (p.2 + 1) then
        t.setMn (lineMon c (2 + p.2)) (oduStep (t.mn (lineMon c (2 + p.2))) p.1 bad sfx sdx)
      else t) s
    s.setLane c { s.lane c with back := popCount o.sm.bip 8, backs := popCount o.odu.bip 8 :: o.tcm.map (fun x => popCount x.bip 8) }
  | _ => s

/-- The channel PM counters of one frame (Table 6-8, R119); `v` is the state of the defects in this frame. -/
def linePm (s : State) (c : Nat) (o : LineObs) (v : ChView) : State :=
  let cnt (i : Nat) : Fld := CH_PMC_COUNT c i
  match s.chFam c with
  | .sdh =>
    let w := 8 * stsOf (s.g (CH_DISC_STAT_RATE c))
    let s := if v.stat &&& 0x85 = 0 then bipCount s c (cnt 0) (popCount o.b1 8) else s
    if v.stat &&& 0xA5 = 0 then reiCount (bipCount s c (cnt 1) (popCount o.b2 w)) (cnt 2) o.rei w else s
  | .otn =>
    let s := if v.stat &&& 0xBD = 0 then reiCount (bipCount s c (cnt 0) (popCount o.sm.bip 8)) (cnt 1) o.sm.bei 8 else s
    let s := if v.stat &&& 0x370BD = 0 ∧ !v.sf then reiCount (bipCount s c (cnt 2) (popCount o.odu.bip 8)) (cnt 3) o.odu.bei 8 else s
    o.tcm.zipIdx.foldl (fun t p =>
      if p.2 < 6 && t.tcmMon c (p.2 + 1) && v.stat &&& 0xBD == 0 && !v.sf && v.tcm / 2 ^ (4 * p.2) % 8 == 0 then
        reiCount (bipCount t c (cnt (4 + 2 * p.2)) (popCount p.1.bip 8)) (cnt (5 + 2 * p.2)) p.1.bei 8
      else t) s
  | _ => s

/-- The pointer of a path frame: runs of equal valid pointers, and the accepted pointer (G.783: three equal ones, or one with NDF
enabled; a line justification moves it by one). -/
def ptrStep (x : Mon) (p : PathObs) : Mon :=
  let a := x.accs.getD 1 accReset
  match p.ptr with
  | .valid v ndf =>
    let same := decide (x.eqA ≠ 0) && x.ptr == v
    let eqA := if same then x.eqA + 1 else 1
    let eqN := if ndf then 0 else if same && decide (x.eqN ≠ 0) then x.eqN + 1 else 1
    let moved := if p.pj then a.acc.map (fun q => (q + 1) % 783) else if p.nj then a.acc.map (fun q => (q + 782) % 783) else a.acc
    let acc := if ndf ∨ 3 ≤ eqA then some v else moved
    { x with ptr := v, eqA := eqA, eqN := eqN, accs := [x.accs.getD 0 accReset, { a with acc := acc }] }
  | _ => { x with eqA := 0, eqN := 0 }

/-- n, m and the exponent floor of a SONET/SDH path's BER source (Table 6-5). -/
def pathBer (s : State) (c idx trib slots : Nat) : Nat × Nat × Nat :=
  if trib = 0 then (8, 783 * slots, 4)
  else (2, if s.loThrough (512 * c + idx) = some 21 then 560 else 416, 3)

/-- One frame of a SONET/SDH path (R110, R114). A newly accepted pointer, or the first one after admission, recentres the elastic
store (R159). -/
def hoPathStep (s : State) (c slots : Nat) (p : PathObs) (masked : Bool) : State :=
  let k := pathKey c p.idx p.trib
  let key := monKey c p.idx p.trib 0
  let x := s.mn key
  let bad := match p.ptr with | .valid _ ndf => ndf | .invalid => true | .ones => false
  let x := { x with runs := runsStep [p.ptr == .ones, p.rdi, false, false, false, bad] x.runs }
  let y := ptrStep x p
  let old := (x.accs.getD 1 accReset).acc
  let new := (y.accs.getD 1 accReset).acc
  let shifted := if p.pj then old.map (fun q => (q + 1) % 783) else if p.nj then old.map (fun q => (q + 782) % 783) else old
  let s := if p.trib ≠ 0 ∨ new = shifted then s else speFresh s (512 * c + p.idx)
  let y := if masked then y
    else
      let b := pathBer s c p.idx p.trib slots
      let z := { y with accs := [accStep 5 p.label (y.accs.getD 0 accReset), y.accs.getD 1 accReset] }.trace p.trace
      z.ber b.1 b.2.1 b.2.2 (s.f (paSfExp k)) (s.f (paSdExp k)) (popCount p.bip b.1)
  s.setMn key y

/-- One frame of an LO ODU and its TCM levels (R111). -/
def loOduStep (s : State) (c : Nat) (p : PathObs) (masked : Bool) : State :=
  let k := pathKey c p.idx 0
  let sfx := s.f (paSfExp k)
  let sdx := s.f (paSdExp k)
  let s := s.setMn (monKey c p.idx 0 0) (oduStep (s.mn (monKey c p.idx 0 0)) p.odu masked sfx sdx)
  p.tcm.zipIdx.foldl (fun t q =>
    if q.2 < 6 && t.f (paTcmMode k) / 4 ^ q.2 % 2 == 1 then
      t.setMn (monKey c p.idx 0 (1 + q.2)) (oduStep (t.mn (monKey c p.idx 0 (1 + q.2))) q.1 masked sfx sdx)
    else t) s

/-- The counters of a path (Table 6-12), inhibited by its own near-end defects and its server's SF (R119). -/
def pathPm (s : State) (v : ChView) (c : Nat) (p : PathObs) : State :=
  let k := pathKey c p.idx p.trib
  let w := s.pathView v c p.idx p.trib
  if s.chFam c = .otn then
    let srv := v.oduSf || v.server true
    let s := if w.1 &&& 0x6F = 0 ∧ !srv then
        reiCount (bipCount s c (paCnt k 0) (popCount p.odu.bip 8)) (paCnt k 1) p.odu.bei 8 else s
    p.tcm.zipIdx.foldl (fun t q =>
      if q.2 < 6 && t.f (paTcmMode k) / 4 ^ q.2 % 2 == 1 && !srv && w.2 / 2 ^ (4 * q.2) % 8 == 0 then
        reiCount (bipCount t c (paCnt k (2 + 2 * q.2)) (popCount q.1.bip 8)) (paCnt k (3 + 2 * q.2)) q.1.bei 8
      else t) s
  else
    let n := if p.trib = 0 then 8 else 2
    let srv := if p.trib = 0 then v.sf
      else s.on (paSf (pathKey c ((s.pathOver c p.idx).elim p.idx (fun q => q.first)) 0))
    if w.1 &&& 0x6F = 0 ∧ !srv ∧ !v.server false then
      reiCount (bipCount s c (paCnt k 0) (popCount p.bip n)) (paCnt k 1) p.rei n
    else s

/-- One path's part of a line frame. -/
def pathFrame (v : ChView) (c : Nat) (s : State) (p : PathObs) : State :=
  if p.idx < 2048 ∧ p.trib ≤ 28 ∧ s.pathHere c p.idx p.trib then
    match s.pathOver c p.idx with
    | none => s
    | some q =>
      let own := (s.pathView v c p.idx p.trib).1 &&& (if q.kind = 3 then 1 else 3) != 0
      let masked := own || v.server (q.kind == 3) || (if q.kind = 3 then v.oduSf else v.sf) ||
        (p.trib != 0 && s.on (paSf (pathKey c q.first 0)))
      let s := if q.kind = 3 then loOduStep s c p masked else hoPathStep s c q.slots p masked
      pathPm s v c p
  else s

/-! ### Tributary monitors -/

def tribStReset : TribSt := ⟨0, [], [], [], [], false⟩

/-- What a detector has read last, `n` at most, the latest first. -/
def latest {α : Type} (n : Nat) (new old : List α) : List α := (new.reverse ++ old).take n

/-- At least `m` of the last `n`. -/
def outOf (m n : Nat) (l : List Bool) : Bool := decide (m ≤ ((l.take n).filter id).length)

/-- The detectors of a monitor read on (R123). -/
def tribRead (s : State) (k : Nat) (o : TribObs) : State :=
  let x := tget (fun _ => tribStReset) s.trib k
  let y : TribSt := ⟨o.zeros, latest 16 o.frame x.frame, latest 4 o.mbits x.mbits, latest 2 o.ais x.ais, latest 255 o.alarm x.alarm, o.crc4⟩
  { s with trib := tset (fun _ => tribStReset) s.trib k y }

/-- The condition of Table 6-9 for defect `d` (0 LOS, 1 LOF, 2 AIS, 3 RAI) of format `f` of a kind. -/
def tribMet (kind f d : Nat) (x : TribSt) : Bool :=
  let ds1 := kind == 0 && decide (f < 2)
  let ds3 := kind == 1 && decide (f < 2)
  match d with
  | 0 => decide ((if ds1 || ds3 then 175 else 255) ≤ x.zeros)
  | 1 =>
    if ds1 then outOf 2 4 x.frame
    else if ds3 then outOf 3 16 x.frame || outOf 2 4 x.mbits
    else if kind = 0 then outOf 3 3 x.frame || (f == 3 && x.crc4)
    else outOf 4 4 x.frame
  | 2 => x.ais.head?.any (· < 3)
  | _ => if ds1 then (if f = 0 then outOf 255 255 x.alarm else outOf 8 16 x.alarm) else outOf 3 3 x.alarm

/-- The counts of a tributary monitor in a period, where it is attached to channel `c` and nothing inhibits it (R119, R122). RAI,
the far-end indication, does not inhibit. -/
def tribFrame (c : Nat) (s : State) (o : TribObs) : State :=
  let lg := c / 12
  let k := tribKey lg o.kind o.num
  if o.kind < 2 ∧ o.num < (if o.kind = 0 then 252 else 24) ∧ s.tribEn o.kind k ∧ s.tribCh lg k = c ∧ !s.tribDetached lg o.kind k ∧
      !s.tribMasked lg o.kind k then
    let cols : Nat := if o.kind = 0 then [1, 2, 1, 3].getD (s.f (trFmt k)) 0 else [2, 4, 1].getD (s.f (trFmt k)) 0
    let s := tribRead s k o
    if s.g (trStat k) &&& 7 ≠ 0 then s
    else [o.c0, o.c1, o.c2, o.c3].zipIdx.foldl (fun t p => if p.2 < cols then t.pmAdd (trCnt k p.2) p.1 else t) s
  else s

/-! ### The overhead buffer -/

/-- The key of byte `off` of local channel `ch`'s area of a half (R106). -/
def ohbKey (lg half ch off : Nat) : Nat := ((2 * lg + half) * 12 + ch) * 2048 + off
def ohbGet (s : State) (k : Nat) : Nat := (tget (fun _ => (0 : Byte)) s.ohb k).toNat
def ohbPut (s : State) (k v : Nat) : State := { s with ohb := tset (fun _ => (0 : Byte)) s.ohb k (BitVec.ofNat 8 v) }
/-- Word 0 of an area: FRAMES, STREAM_LEN in [17:8], GAP in [18]. -/
def ohbWord0 (s : State) (k : Nat) : Nat := ohbGet s k + 256 * ohbGet s (k + 1) + 65536 * ohbGet s (k + 2) + 16777216 * ohbGet s (k + 3)
def ohbPutWord (s : State) (k v : Nat) : State :=
  [0, 1, 2, 3].foldl (fun t i => ohbPut t (k + i) (v / 256 ^ i % 256)) s

def State.lineHalf (s : State) (lg : Nat) : Nat := tget (fun _ => 0) s.ohbLine lg

/-- The bytes that a format defines in the receive area (Table 6-2). -/
def ohbDefined (f : Fam) (off : Nat) : Bool :=
  match f with
  | .sdh => decide (4 ≤ off) && decide (off ≤ 0xC)
  | .otn => (decide (4 ≤ off) && decide (off ≤ 0xC)) || (decide (0x10 ≤ off) && decide (off ≤ 0x21)) ||
      (decide (0x80 ≤ off) && decide (off ≤ 0x9F))
  | _ => false

/-- Stream bytes per frame for a STREAM_SEL in a family (Table 6-10). -/
def streamBytes (f : Fam) (sel : Nat) : Nat :=
  match f with
  | .sdh => if sel = 1 then 3 else if sel = 2 then 9 else if sel = 3 then 12 else 0
  | .otn => if sel = 4 then 2 else if sel = 5 then 4 else if sel = 6 then 6 else 0
  | _ => 0

/-- One frame of an admitted channel enters the line-side receive area (R105, R106); a frame out of frame leaves a gap. -/
def ohbFrame (s : State) (c : Nat) (o : LineObs) (inFrame : Bool) : State :=
  let f := s.chFam c
  if !s.admitted c || (f != .sdh && f != .otn) then s
  else
    let b := ohbKey (c / 12) (s.lineHalf (c / 12)) (c % 12) 0
    let w := ohbWord0 s b
    if !inFrame then ohbPutWord s b (w ||| 0x40000)
    else
      let len := w / 256 % 1024
      let new := (o.stream.take (streamBytes f (s.f (CH_TX_OH_STREAM_SEL c)))).take (768 - len)
      let s := ohbPutWord s b (min 255 (w % 256 + 1) + 256 * (len + new.length) + (w &&& 0x40000))
      let s := o.oh.foldl (fun t p => if ohbDefined f p.1 then ohbPut t (b + p.1) p.2.toNat else t) s
      new.zipIdx.foldl (fun t p => ohbPut t (b + 0x100 + len + p.2) p.1.toNat) s

/-- A receive byte of a half of an LG's buffer, by its key. -/
def ohbIn (lg half k : Nat) : Bool := decide (ohbKey lg half 0 0 ≤ k) && decide (k < ohbKey lg half 12 0) && decide (k % 2048 < 0x400)

/-- The halves change places at the tick (R105); the new line-side receive area starts empty of frames. Its APS/PCC bytes are the latest
received for each m (Table 6-2), in whichever half. -/
def ohbSwap (s : State) (lg : Nat) : State :=
  let was := s.lineHalf lg
  let h := 1 - was
  let aps := s.ohb.filter (fun p => ohbIn lg was p.1 && decide (0x80 ≤ p.1 % 2048) && decide (p.1 % 2048 < 0xA0) &&
    s.chFam (12 * lg + (p.1 - ohbKey lg was 0 0) / 2048) == .otn)
  let s := { s with ohbLine := tset (fun _ => 0) s.ohbLine lg h, ohb := s.ohb.filter (fun p => !ohbIn lg h p.1) }
  aps.foldl (fun t p => ohbPut t (p.1 - ohbKey lg was 0 0 + ohbKey lg h 0 0) p.2.toNat) s

/-- CH.TX_OH selects the engine for the byte at offset `off` of a channel's transmit area (R107, Tables 6-2 and 6-10). -/
def ohEngine (s : State) (c off : Nat) : Bool :=
  let fam := fmtFam (s.f (CH_TX_CFG_TX_FMT c))
  if off < 4 ∨ 0x100 ≤ off then s.f (CH_TX_OH_STREAM c) == 2 && streamBytes fam (s.f (CH_TX_OH_STREAM_SEL c)) != 0
  else if fam = .sdh then
    if off = 4 then s.f (CH_TX_OH_TRACE c) == 2
    else if off = 5 ∨ off = 6 ∨ off = 0xA then s.f (CH_TX_OH_ORDERWIRE c) == 2
    else if off = 7 ∨ off = 8 then s.f (CH_TX_OH_APS c) == 2
    else off == 9 && s.f (CH_TX_OH_SYNC c) == 2
  else fam == .otn && decide (0x80 ≤ off) && decide (off < 0xA0) && s.f (CH_TX_OH_APS c) == 2

/-- A channel's frame of SFN `n` lies outside the guarantee (R286). -/
def markUncov (s : State) (c n : Nat) : State := { s with uncov := tset (fun _ => 0) s.uncov c (n + 1) }

/-- The frame `n` that begins sends the line-side half's transmit bytes: one that a late write has left as it was (R108), where TX_OH
takes it, puts the channel outside the guarantee. -/
def staleUncov (s : State) (n : Nat) : State :=
  s.ohbStale.foldl (fun t k =>
    let area := k / 2048
    let lg := area / 12 / 2
    let c := 12 * lg + area % 12
    if area / 12 % 2 = t.lineHalf lg ∧ ohEngine t c (k % 2048 - 0x400) then markUncov t c n else t) s

/-! ### Declaring and clearing -/

/-- A frame count of 0 selects a value (R110). -/
def orDefault (n d : Nat) : Nat := if n = 0 then d else n

/-- The channel's format is an SDH one (Table 4-1: even codes up to 8). -/
def State.isSdh (s : State) (c : Nat) : Bool :=
  if s.admitted c then s.g (CH_DISC_STAT_ADM_FMT c) % 2 == 0 else (s.lane c).flav == some true

/-- Frames that a SONET/SDH defect needs to be detected (Table 6-3). -/
def sdhCount (s : State) (c : Nat) (e : Ent) (d : Defect) : Option (Nat × Nat) :=
  match e, d with
  | .line _, .ais => some (0, orDefault (s.f (CH_DEF_CFG_AIS_N c)) (if s.isSdh c then 3 else 5))
  | .line _, .rdi => some (1, orDefault (s.f (CH_DEF_CFG_RDI_N c)) 5)
  | .path _ _ _ 0, .ais => some (0, 3)
  | .path _ _ _ 0, .rdi => some (1, orDefault (s.f (CH_DEF_CFG_RDI_N c)) 5)
  | .path _ _ _ 0, .lop => some (5, orDefault (s.f (CH_DEF_CFG_LOP_N c)) 8)
  | _, _ => none

/-- Condition and frames of an OTN defect (Table 6-4). OTU-AIS has no count here: it is detected per G.798. -/
def otnCount (e : Ent) (d : Defect) : Option (Nat × Nat) :=
  match e, d with
  | .line _, .rdi => some (1, 5)
  | .odu _ 0, .ais => some (0, 3)
  | .odu _ 0, .oci => some (2, 3)
  | .odu _ 0, .lck => some (3, 3)
  | .odu _ 0, .rdi => some (1, 5)
  | .path _ _ _ 0, .ais => some (0, 3)
  | .path _ _ _ 0, .oci => some (2, 3)
  | .path _ _ _ 0, .lck => some (3, 3)
  | .path _ _ _ 0, .rdi => some (1, 5)
  | .odu _ _, .ltc => some (4, 3)
  | .odu _ _, .ais => some (0, 3)
  | .odu _ _, .ociLck => some (6, 3)
  | .odu _ _, .rdi => some (1, 5)
  | .path _ _ _ _, .ltc => some (4, 3)
  | .path _ _ _ _, .ais => some (0, 3)
  | .path _ _ _ _, .ociLck => some (6, 3)
  | .path _ _ _ _, .rdi => some (1, 5)
  | _, _ => none

/-- An entity's monitor exists: a path needs a container in force, a TCM level a mode that includes MONITOR. -/
def State.watched (s : State) (e : Ent) : Bool :=
  match e with
  | .line _ => true
  | .odu c lv => lv.val == 0 || s.tcmMon c.val lv.val
  | .path c i t lv => s.pathHere c.val i.val t.val && (lv.val == 0 || s.f (paTcmMode (pathKey c.val i.val 0)) / 4 ^ (lv.val - 1) % 2 == 1)

/-- Run `k` where the lane's page is ready and the entity is watched in family `f`; then the status words follow. -/
def onEntity (s : State) (e : Ent) (f : Fam) (k : State → State) : State :=
  let c := entCh e
  if s.laneOn c && !s.bonded c && s.chFam c == f && s.watched e then refreshCh (k s) c else s

/-- Put a defect of an entity. AIS and LOP of one path exclude each other (R109). -/
def putDefect (s : State) (e : Ent) (d : Defect) (b : Bool) : State :=
  let x := s.mn (entMon e)
  let x := if b ∧ d = .ais then x.put .lop false else if b ∧ d = .lop then x.put .ais false else x
  s.setMn (entMon e) (x.put d b)

/-- DEFECT_DECLARE (R110): the count of Table 6-3 has been reached. -/
def execDefectDeclare (e : Ent) (d : Defect) (s : State) : Host.Outcome State Fault Refusal :=
  done (onEntity s e .sdh (fun s =>
    match sdhCount s (entCh e) e d with
    | some (i, n) => if (s.mn (entMon e)).held i true n then putDefect s e d true else s
    | none => s))

/-- A SONET/SDH defect's clearing condition holds (Table 6-3). -/
def sdhClears (s : State) (e : Ent) (d : Defect) : Bool :=
  let x := s.mn (entMon e)
  match e, d with
  | .path .., .ais => decide (3 ≤ x.eqA)
  | .path .., .lop => decide (3 ≤ x.eqN)
  | _, _ => match sdhCount s (entCh e) e d with | some (i, n) => x.held i false n | none => false

/-- DEFECT_CLEAR (R110). When a pointer defect clears, the elastic store acts as on a new pointer (R159). -/
def execDefectClear (e : Ent) (d : Defect) (s : State) : Host.Outcome State Fault Refusal :=
  done (onEntity s e .sdh (fun s =>
    if sdhClears s e d then
      let s := putDefect s e d false
      match e, d with
      | .path c i t _, .ais | .path c i t _, .lop => if t.val = 0 then speFresh s (512 * c.val + i.val) else s
      | _, _ => s
    else s))

/-- OTU-AIS of a line is detected and cleared per G.798 (Table 6-4). -/
def isOtuAis (e : Ent) (d : Defect) : Bool := match e, d with | .line _, .ais => true | _, _ => false

/-- OTN_DEFECT_DECLARE (R111): the count of Table 6-4 has been reached. -/
def execOtnDefectDeclare (e : Ent) (d : Defect) (s : State) : Host.Outcome State Fault Refusal :=
  done (onEntity s e .otn (fun s =>
    if isOtuAis e d then putDefect s e d true
    else
      match otnCount e d with
      | some (i, n) => if (s.mn (entMon e)).held i true n then s.setMn (entMon e) ((s.mn (entMon e)).put d true) else s
      | none => s))

/-- OTN_DEFECT_CLEAR (R111). -/
def execOtnDefectClear (e : Ent) (d : Defect) (s : State) : Host.Outcome State Fault Refusal :=
  done (onEntity s e .otn (fun s =>
    if isOtuAis e d then putDefect s e d false
    else
      match otnCount e d with
      | some (i, n) => if (s.mn (entMon e)).held i false n then s.setMn (entMon e) ((s.mn (entMon e)).put d false) else s
      | none => s))

/-- ETH_DEFECT_CHANGE (R112): hi_ber, local fault, remote fault follow the PCS. -/
def execEthDefectChange (c : Fin 192) (d : Fin 3) (on : Bool) (s : State) : Host.Outcome State Fault Refusal :=
  done (onEntity s (.line c) .eth (fun s =>
    let l := s.lane c
    s.setLane c { l with eth := l.eth - (if l.eth / 2 ^ d.val % 2 = 1 then 2 ^ d.val else 0) + (if on then 2 ^ d.val else 0) }))

/-- TRIB_DEFECT_DECLARE (R123): a defect is declared once its condition in Table 6-9 holds. It clears once the condition holds no more: AIS by
the interval read last, the others where the recommendation's framing recovery, which the command brings, allows it. -/
def execTribDefectDeclare (lg : Fin 16) (kind : Fin 2) (num : Fin 252) (d : Fin 4) (on : Bool) (s : State) :
    Host.Outcome State Fault Refusal :=
  let k := tribKey lg kind num
  done (if s.ready (lgBase lg + 0xE000) ∧ (kind.val = 0 ∨ num.val < 24) ∧ s.tribEn kind k ∧
      tribMet kind (s.f (trFmt k)) d (tget (fun _ => tribStReset) s.trib k) = on then
      tribRefresh (s.u [(bitOf (trStat k) d.val, bit on)]) lg
    else s)

/-! ### The windows -/

/-- A window's data word `i`, the words of an entry from its key. -/
def entryWord (s : State) (k i : Nat) : Word := s.rd (k + 4 * i)

/-- The holding copy of an entry (R45, R120). -/
def heldKey (k : Nat) : Nat := k + 16 * 0x100000000000000

/-- The words that a HO path or a VT does not have: TCM_MODE, TCM_ST and PCNT2 to PCNT13 are an LO ODU's (Table 6-12, R126). -/
def pathUnused (q : Option PathInfo) (trib i : Nat) : Bool :=
  !(trib == 0 && q.any (fun p => p.kind == 3)) && (i == 2 || i == 4 || (decide (8 ≤ i) && decide (i ≤ 19)))

/-- The image of a path entry (Table 6-12): live, or with counter and history words from the holding copies (SRC). -/
def pathImage (s : State) (c idx trib : Nat) (src : Bool) : List Nat :=
  let k := pathKey c idx trib
  let head := match s.pathOver c idx with
    | some p => if s.pathHere c idx trib then (if trib = 0 then p.kind + 4 * p.slots else 2) else 0
    | none => 0
  let tr := ((s.mn (monKey c idx trib 0)).msgAcc.getD [])
  (List.range 52).map (fun i =>
    if i = 0 then head
    else if pathUnused (s.pathOver c idx) trib i then 0
    else if src && decide (5 ≤ i) && decide (i ≤ 19) then (s.rd (heldKey k + 4 * i)).toNat
    else if i < 36 then (entryWord s k i).toNat
    else packWord tr (i - 36))

/-- Whether a window access is refused, in the order bonded or beyond, tributary, no path, source (Table 6-11). -/
def pwCode (s : State) (lg : Nat) (write : Bool) : Nat :=
  let lc := s.g (LGM_PW_SEL_CH lg)
  let c := lg * 12 + lc
  let idx := s.g (LGM_PW_SEL_IDX lg)
  let trib := s.g (LGM_PW_SEL_TRIB lg)
  if 12 ≤ lc ∨ s.bonded c ∨ (if (s.lane c).bond then 2048 else 512) ≤ idx then 0x03
  else if 28 < trib then 0x02
  else
    match s.pathOver c idx with
    | none => 0x01
    | some p =>
      if trib ≠ 0 ∧ (p.kind ≠ 1 ∨ (s.loThrough (512 * c + idx)).isNone ∨ !s.pathHere c idx trib) then 0x02
      else if trib = 0 ∧ p.first ≠ idx then 0x01
      else if write ∧ s.g (LGM_PW_SEL_SRC lg) = 1 then 0x04
      else 0x00

/-- PW_CMD.READ: the whole entry is latched into the data words (R125); an index where no path starts reads TYPE = 0. -/
def pwReadCmd (s : State) (lg : Nat) : State :=
  let code := pwCode s lg false
  let c := lg * 12 + s.g (LGM_PW_SEL_CH lg)
  let im := pathImage s c (s.g (LGM_PW_SEL_IDX lg)) (s.g (LGM_PW_SEL_TRIB lg)) (s.g (LGM_PW_SEL_SRC lg) == 1)
  s.result (LGM_PW_CTRL_VALID lg).addr (code != 0) ((LGM_PW_CODE_CODE lg, code) ::
    (if code = 0 ∨ code = 1 then im.zipIdx.map (fun p => (LGM_PW_D_DATA lg p.2, p.1)) else []))

/-- The MONITOR bits of a TCM mode word, and the SOURCE bits (R104). -/
def tcmMonBits : Word := 0x555
def tcmSrcBits : Word := 0xAAA

/-- PW_CMD.WRITE (R125, R36): configuration words wait for their boundary, counters are preset at once. -/
def pwWriteCmd (s : State) (lg : Nat) (late : Bool) : State :=
  let code := pwCode s lg true
  let c := lg * 12 + s.g (LGM_PW_SEL_CH lg)
  let k := pathKey c (s.g (LGM_PW_SEL_IDX lg)) (s.g (LGM_PW_SEL_TRIB lg))
  let d (i : Nat) : Word := s.rd (LGM_PW_D_DATA lg i).addr
  let lo := s.chFam c == .otn
  let s := if code ≠ 0 then s
    else
      let s := bufWrite s (k + 4) 0x3FFFFF (d 1) (some c) late
      let s := if lo then bufWrite (bufWrite s (k + 8) tcmMonBits (d 2) (some c) late) (k + 8) tcmSrcBits (d 2) none late else s
      let s := (List.range (if lo then 14 else 2)).foldl (fun t i => t.setWord (k + 24 + 4 * i) (d (6 + i))) s
      (List.range 16).foldl (fun t i => bufWrite t (k + 80 + 4 * i) 0xFFFFFFFF (d (20 + i)) (some c) late) s
  s.result (LGM_PW_CTRL_VALID lg).addr (code != 0) [(LGM_PW_CODE_CODE lg, code)]

def tmCode (s : State) (lg : Nat) (write : Bool) : Nat :=
  if (if s.g (LGM_TM_SEL_KIND lg) = 0 then 252 else 24) ≤ s.g (LGM_TM_SEL_NUM lg) then 0x01
  else if write ∧ s.g (LGM_TM_SEL_SRC lg) = 1 then 0x04 else 0x00

def tmSelKey (s : State) (lg : Nat) : Nat := tribKey lg (s.g (LGM_TM_SEL_KIND lg)) (s.g (LGM_TM_SEL_NUM lg))

def tmReadCmd (s : State) (lg : Nat) : State :=
  let code := tmCode s lg false
  let k := tmSelKey s lg
  let src := s.g (LGM_TM_SEL_SRC lg) == 1
  s.result (LGM_TM_CTRL_VALID lg).addr (code != 0) ((LGM_TM_CODE_CODE lg, code) ::
    (if code = 0 then (List.range 7).map (fun i =>
        (LGM_TM_D_DATA lg i, (s.rd ((if src && decide (2 ≤ i) then heldKey k else k) + 4 * i)).toNat)) else []))

def tmWriteCmd (s : State) (lg : Nat) (late : Bool) : State :=
  let code := tmCode s lg true
  let k := tmSelKey s lg
  let d (i : Nat) : Word := s.rd (LGM_TM_D_DATA lg i).addr
  let s := if code ≠ 0 then s
    else (List.range 4).foldl (fun t i => t.setWord (k + 12 + 4 * i) (d (3 + i))) (bufWrite s k 0x7FFFFF (d 0) none late)
  s.result (LGM_TM_CTRL_VALID lg).addr (code != 0) [(LGM_TM_CODE_CODE lg, code)]

/-- PW_READ (R125). -/
def execPwRead (m : Fin 8) (lg : Fin 16) (s : State) : Host.Outcome State Fault Refusal :=
  done (s.command m (LGM_PW_CMD_READ lg) (fun t => pwReadCmd t lg))

/-- PW_WRITE (R125). -/
def execPwWrite (m : Fin 8) (lg : Fin 16) (late : Bool) (s : State) : Host.Outcome State Fault Refusal :=
  done (s.regionCmd m (LGM_PW_CMD_WRITE lg) (fun t => pwWriteCmd t lg late))

/-- TM_READ (R125). -/
def execTmRead (m : Fin 8) (lg : Fin 16) (s : State) : Host.Outcome State Fault Refusal :=
  done (s.command m (LGM_TM_CMD_READ lg) (fun t => tmReadCmd t lg))

/-- TM_WRITE (R125). -/
def execTmWrite (m : Fin 8) (lg : Fin 16) (late : Bool) (s : State) : Host.Outcome State Fault Refusal :=
  done (s.regionCmd m (LGM_TM_CMD_WRITE lg) (fun t => tmWriteCmd t lg late))

end Sys2Proof.Machine
end

