-- ==== Sys2Proof/Machine/Interchange.lean ====
section
/-!
DEFINITION. The slot interchange and its lower-order stage (07_slot_interchange.md R128 to R151): the two pages of each, the standby
window, SEAL, ABANDON, COPY_ACTIVE, the swap, storage errors, and where an egress slot takes its bytes. `lox` names the lower-order
stage, else the interchange.
-/

namespace Sys2Proof.Machine

open Sys2Proof

def icPage (lox : Bool) : Nat := if lox then loxPage else tsiPage
def State.ic (s : State) (lox : Bool) : Ic := if lox then s.lox else s.tsi
def State.setIc (s : State) (lox : Bool) (x : Ic) : State := if lox then { s with lox := x } else { s with tsi := x }

/-- Where an entry of a page is held. -/
def icKey (page w : Nat) : Nat := page * 0x100000 + w

/-- The reset entries (R132, R149). -/
def icReset (lox : Bool) (w : Nat) : Word := icDefault (if lox then w + 0x200000 else w)
def icDflt (lox : Bool) (k : Nat) : Word := icReset lox (k % 0x100000)

/-- The bits that an entry has: all 32 of a connection entry; of the lower-order entries those of Table 7-8. `none`: an offset
without storage (R136, R149). -/
def icBits (lox : Bool) (w : Nat) : Option Word :=
  if !lox then (if w < 128256 then some 0xFFFFFFFF else none)
  else if w < 1344 then some 0x003FFFFF
  else if 0x800 ≤ w ∧ w < 0x800 + 1344 then some 0x7
  else if 0x4000 ≤ w ∧ w < 0x4000 + 37632 then some 0x3FFFF
  else none

def State.icActive (s : State) (lox : Bool) : Nat := s.g (IC_STAT_ACTIVE (icPage lox))
def State.icStandby (s : State) (lox : Bool) : Nat := 1 - s.icActive lox
def State.icState (s : State) (lox : Bool) : Nat := s.g (IC_STAT_STBY_STATE (icPage lox))

/-- The stored error of an entry: 0 none, 1 single-bit, 2 uncorrectable (R144). -/
def State.icBad (s : State) (lox : Bool) (page w : Nat) : Nat := tget (fun _ => 0) (s.ic lox).bad (icKey page w)

/-- An active entry as in force: an uncorrectable one reads as the fill of R144 and R151. -/
def State.icEntry (s : State) (lox : Bool) (w : Nat) : Word :=
  let pg := s.icActive lox
  if s.icBad lox pg w = 2 then (if !lox then 0x00020000 else if 0x4000 ≤ w then 0x00010000 else 0)
  else tget (icDflt lox) (s.ic lox).ent (icKey pg w)

/-- ACT_ENT as read (Table 7-6). -/
def icActEnt (s : State) (lox : Bool) : Word :=
  let w := s.g (IC_ACT_SEL_SLOT (icPage lox))
  match icBits lox w with
  | none => 0
  | some _ => s.icEntry lox w

/-- A window write (R136, R137, R149): accepted in EDIT only; an offset without storage takes nothing and refuses nothing. A write
replaces a faulty entry. -/
def icWrite (s : State) (lox : Bool) (m off : Nat) (v : Word) : State :=
  let pg := icPage lox
  if !s.usable pg ∨ off % 4 ≠ 0 then s.answer m false []
  else
    match icBits lox (off / 4) with
    | none => s.answer m true []
    | some bits =>
      if s.icState lox ≠ 0 then (s.occ (pg + 0x70)).answer m false []
      else
        let k := icKey (s.icStandby lox) (off / 4)
        let x := s.ic lox
        (s.setIc lox { x with ent := tset (icDflt lox) x.ent k (v &&& bits), bad := tset (fun _ => 0) x.bad k 0 }).answer m true []

/-- A window read (R137, R144): accepted in every state; an uncorrectable entry is a bus error. -/
def icRead (s : State) (lox : Bool) (m off : Nat) : State :=
  if !s.usable (icPage lox) ∨ off % 4 ≠ 0 then s.answer m false []
  else
    match icBits lox (off / 4) with
    | none => s.answer m true [0]
    | some _ =>
      if s.icBad lox (s.icStandby lox) (off / 4) = 2 then s.answer m false []
      else s.answer m true [tget (icDflt lox) (s.ic lox).ent (icKey (s.icStandby lox) (off / 4))]

/-- A page command's result (Table 7-5); BUSY stays while another command of the page runs. -/
def icResult (s : State) (lox : Bool) (cmd code : Nat) (l : List (Fld × Nat)) : State :=
  let pg := icPage lox
  (s.result (IC_CMD_CTRL_VALID pg).addr (code != 0)
    ([(IC_CMD_CODE_CODE pg, code), (IC_CMD_CODE_CMD pg, cmd), (bitOf (IC_CMD_SEAL pg) cmd, 0)] ++ l)).u
    [(IC_CMD_CTRL_BUSY pg, bit ((s.ic lox).run != 0))]

/-- Start SEAL (`cmd` 0) or COPY_ACTIVE (2): in EDIT only (R140). -/
def icStart (s : State) (lox : Bool) (cmd : Nat) : State :=
  let pg := icPage lox
  let st := s.icState lox
  if st ≠ 0 then icResult s lox cmd (if st = 4 ∧ cmd = 2 then 0x05 else 0x04) []
  else ((s.setIc lox { s.ic lox with run := cmd + 1 }).begin (IC_CMD_CTRL_VALID pg).addr).u
    [(IC_STAT_STBY_STATE pg, if cmd = 0 then 1 else 3), (bitOf (IC_CMD_SEAL pg) cmd, 1)]

/-- Stop a running command with code ABORTED (R139, R143). -/
def icStop (s : State) (lox : Bool) : State :=
  let r := (s.ic lox).run
  if r = 0 then s
  else (icResult (s.setIc lox { s.ic lox with run := 0 }) lox (r - 1) 0x06 []).u [(IC_STAT_STBY_STATE (icPage lox), 0)]

/-- One page's entries below a word index become a copy of the other's (R140); a faulty entry carries over (R144). -/
def pageCopy {α : Type} (t : Tab α) (a b upto : Nat) : Tab α :=
  (t.filter (fun p => p.1 / 0x100000 == a && decide (p.1 % 0x100000 < upto))).foldl
    (fun acc p => tins (icKey b (p.1 % 0x100000)) p.2 acc)
    (t.filter (fun p => !(p.1 / 0x100000 == b && decide (p.1 % 0x100000 < upto))))

/-- ABANDON (R139). Of a copy that it stops, the standby keeps the entries below `copied`: how far the copy had come is the
interval that has passed. -/
def icAbandon (s : State) (lox : Bool) (copied : Nat) : State :=
  let pg := icPage lox
  if s.icState lox = 4 then icResult s lox 1 0x05 []
  else
    let x := s.ic lox
    let a := s.icActive lox
    let b := s.icStandby lox
    let s := if x.run = 3 then s.setIc lox { x with ent := pageCopy x.ent a b copied, bad := pageCopy x.bad a b copied } else s
    icResult ((icStop s lox).u [(IC_STAT_STBY_STATE pg, 0), (IC_STBY_SUM_SUM pg, 0)]) lox 1 0x00 []

/-! ### SEAL -/

/-- The fault of a connection entry (R138), by its code of Table 7-5; 0 none. -/
def tsiCheck (e : Word) : Nat :=
  let src := wordGet e 0 17
  let fill := wordGet e 17 2
  if fill = 3 then 0x02
  else if fill ≠ 0 then 0
  else if e.getLsbD 19 then (if 1343 < src ∨ wordGet e 20 12 ≠ 0 then 0x03 else 0)
  else if 128256 ≤ src then 0x01 else 0

/-- A word of the standby page. -/
def State.icWord (s : State) (lox : Bool) (w : Nat) : Word := tget (icDflt lox) (s.ic lox).ent (icKey (s.icStandby lox) w)

/-- Tributaries of a SIZE code. -/
def tribCount (size : Nat) : Nat := if size = 0 then 28 else 21

/-- The fault of a lower-order entry (R150), by word index. -/
def loxCheck (s : State) (w : Nat) : Nat :=
  let e := s.icWord true w
  if w < 1344 then
    let st := wordGet e 17 2
    if st = 0 then 0
    else if 128256 ≤ wordGet e 0 17 + 2 * (st - 1) then 0x01
    else if st = 3 ∨ wordGet e 19 2 = 3 then 0x08 else 0
  else if w < 0x4000 then
    let j := w - 0x800
    let st := wordGet e 0 2
    let o (i : Nat) : Word := s.icWord true (0x800 + j / 3 * 3 + i)
    if st = 3 then 0x08
    else if st = 2 ∧ !([0, 1, 2].all (fun i => wordGet (o i) 0 2 == 2 && wordGet (o i) 2 1 == wordGet (o 0) 2 1)) then 0x08
    else 0
  else
    let j := (w - 0x4000) / 28
    let t := (w - 0x4000) % 28
    let h := s.icWord true (0x800 + j)
    if wordGet h 0 2 = 0 ∨ tribCount (wordGet h 2 1) ≤ t then 0
    else if wordGet e 16 2 = 3 then 0x02
    else if wordGet e 16 2 ≠ 0 then 0
    else
      let src := wordGet e 0 11
      let i := s.icWord true src
      if 1343 < src ∨ wordGet i 17 2 = 0 ∨ wordGet i 21 1 ≠ wordGet h 2 1 ∨ tribCount (wordGet i 21 1) ≤ wordGet e 11 5 then 0x09
      else 0

/-- The words of a page in checksum order (R138, R149). -/
def icOrder (lox : Bool) : List Nat :=
  if lox then List.range 1344 ++ (List.range 1344).map (· + 0x800) ++ (List.range 37632).map (· + 0x4000)
  else List.range 128256

/-- The first faulty word with its code. -/
def icFirstFault (s : State) (lox : Bool) : List Nat → Option (Nat × Nat)
  | [] => none
  | w :: l =>
    let c := if s.icBad lox (s.icStandby lox) w = 2 then 0x07 else if lox then loxCheck s w else tsiCheck (s.icWord lox w)
    if c = 0 then icFirstFault s lox l else some (w, c)

/-- CRC-32C over words, least significant byte first (R138). -/
def crcWords (s : State) (lox : Bool) (l : List Nat) : Word :=
  ~~~(l.foldl (fun c w =>
    let e := s.icWord lox w
    [0, 1, 2, 3].foldl (fun c i => crcByte polyCrc32c c (e.extractLsb' (8 * i) 8)) c) 0xFFFFFFFF)

/-- The seal completes (R138). -/
def icSealDone (s : State) (lox : Bool) : State :=
  let pg := icPage lox
  if (s.ic lox).run ≠ 1 then s
  else
    let t := s.setIc lox { s.ic lox with run := 0 }
    match icFirstFault s lox (icOrder lox) with
    | some (w, c) => icResult (t.u [(IC_STAT_STBY_STATE pg, 0), (IC_STBY_SUM_SUM pg, 0)]) lox 0 c [(IC_CMD_ENT_WORD pg, w)]
    | none =>
      let sum := (crcWords s lox (icOrder lox)).toNat
      icResult (t.u [(IC_STAT_STBY_STATE pg, 2), (IC_STBY_SUM_SUM pg, sum)]) lox 0 0x00 [(IC_CMD_SUM_SUM pg, sum)]

/-- The copy completes (R140). -/
def icCopyDone (s : State) (lox : Bool) : State :=
  if (s.ic lox).run ≠ 3 then s
  else
    let x := s.ic lox
    let a := s.icActive lox
    let b := s.icStandby lox
    icResult ((s.setIc lox { x with run := 0, ent := pageCopy x.ent a b 0x100000, bad := pageCopy x.bad a b 0x100000 }).u
      [(IC_STAT_STBY_STATE (icPage lox), 0)]) lox 2 0x00 []

/-- A swap item's precondition (R141, R144, R145): 0x02 not ready, 0x03 held, 0x01 not sealed or, mirrored, of another checksum. -/
def icSwapReady (s : State) (lox : Bool) (mirrored : Bool) (check : Nat) : Nat :=
  let pg := icPage lox
  if !s.ready pg then 0x02
  else if s.on (PG_PAR_HOLD pg) then 0x03
  else if s.icState lox ≠ 2 then 0x01
  else if mirrored && s.g (IC_STBY_SUM_SUM pg) != check then 0x01
  else 0

/-- Dispatch of a swap; its withdrawal or failure (Table 7-4). -/
def icCommit (s : State) (lox : Bool) : State := s.u [(IC_STAT_STBY_STATE (icPage lox), 4)]
def icUncommit (s : State) (lox : Bool) : State :=
  if s.icState lox = 4 then s.u [(IC_STAT_STBY_STATE (icPage lox), 2)] else s

/-- STAT.ENT_ERR: the active page holds an uncorrectable entry that has been found (R144). -/
def icErrShow (s : State) (lox : Bool) : State :=
  s.u [(IC_STAT_ENT_ERR (icPage lox), bit ((s.ic lox).found.any (fun k => k / 0x100000 == s.icActive lox)))]

/-- The swap at boundary `n` (R141). -/
def icSwap (s : State) (lox : Bool) (n : Nat) : State :=
  let pg := icPage lox
  let old := s.icActive lox
  let x := s.ic lox
  icErrShow ((s.setIc lox { x with found := x.found.filter (fun k => k / 0x100000 != old) }).u
    [(IC_STAT_ACTIVE pg, 1 - old), (IC_ACT_SUM_SUM pg, s.g (IC_STBY_SUM_SUM pg)), (IC_STBY_SUM_SUM pg, 0),
     (IC_SWAP_SFN_LO_SFN_LO pg, n), (IC_SWAP_SFN_HI_SFN_HI pg, n / 0x100000000), (IC_SWAP_SEQ_SEQ pg, s.g (IC_SWAP_SEQ_SEQ pg) + 1),
     (IC_STAT_STBY_STATE pg, 0)]) lox

/-- The foreground reads every active entry in every column (R132): errors of the active page are found (R144). -/
def icFrame (s : State) (lox : Bool) : State :=
  let a := s.icActive lox
  let pg := icPage lox
  let here := (s.ic lox).bad.filter (fun p => p.1 / 0x100000 == a)
  icErrShow (here.foldl (fun t p =>
    let x := t.ic lox
    if p.2 = 1 then (t.setIc lox { x with bad := tset (fun _ => 0) x.bad p.1 0 }).occ (pg + 0x78)
    else if p.1 ∈ x.found then t
    else ((t.setIc lox { x with found := p.1 :: x.found }).occ (pg + 0x74)).u
      [(IC_ERR_LAST_SLOT pg, p.1 % 0x100000), (IC_ERR_LAST_PAGE pg, a)]) s) lox

/-- The software reset of the page (R143). -/
def icSrst (s : State) (lox : Bool) : State :=
  let pg := icPage lox
  ((icStop s lox).setIc lox ⟨[], [], [], 0⟩).u
    [(IC_STAT_ACTIVE pg, 0), (IC_STAT_STBY_STATE pg, 0), (IC_ACT_SUM_SUM pg, 0), (IC_STBY_SUM_SUM pg, 0), (IC_STAT_ENT_ERR pg, 0)]

/-! ### Where an egress slot takes its bytes -/

/-- What an egress slot carries in a frame (R132 to R134): an ingress slot, an ingress slot through a batt path, a lower-order output
slot, AIS fill, unequipped fill. -/
inductive SlotFrom where
  | slot (n : Nat)
  | batt (path n : Nat)
  | lower (j : Nat)
  | ais
  | unequipped
  deriving DecidableEq, Repr

/-- The choice that the active entry of egress slot `e` makes. -/
def State.egressFrom (s : State) (e : Nat) : SlotFrom :=
  let w := s.icEntry false e
  let fill := wordGet w 17 2
  let src := wordGet w 0 17
  if fill = 2 then .unequipped
  else if fill ≠ 0 then .ais
  else if w.getLsbD 19 then (if wordGet (s.icEntry true (0x800 + src)) 0 2 = 0 then .ais else .lower src)
  else if wordGet w 20 12 = 0 then .slot src
  else .batt (wordGet w 20 12) src

/-- What a tributary of a lower-order output slot carries (R148): a tributary of an input, AIS-V, or unequipped. -/
inductive TribFrom where
  | trib (input t : Nat)
  | ais
  | unequipped
  deriving DecidableEq, Repr

def State.lowerFrom (s : State) (j t : Nat) : TribFrom :=
  let h := s.icEntry true (0x800 + j)
  let e := s.icEntry true (0x4000 + 28 * j + t)
  if tribCount (wordGet h 2 1) ≤ t then .unequipped
  else if wordGet e 16 2 = 2 then .unequipped
  else if wordGet e 16 2 ≠ 0 then .ais
  else .trib (wordGet e 0 11) (wordGet e 11 5)

/-- TSI_WINDOW_WRITE (R137). -/
def execTsiWindowWrite (m : Fin 8) (off : Fin 0x80000) (v : Word) (s : State) : Host.Outcome State Fault Refusal :=
  done (regionWrite s m tsiPage (0x800000 + off) v 0xFFFFFFFF (fun t => icWrite t false m off v))

/-- SEAL (R138). -/
def execSeal (m : Fin 8) (s : State) : Host.Outcome State Fault Refusal :=
  done (s.regionCmd m (IC_CMD_SEAL tsiPage) (fun t => icStart t false 0))

/-- SEAL_DONE (R138). -/
def execSealDone (s : State) : Host.Outcome State Fault Refusal := done (icSealDone s false)

/-- ABANDON (R139). -/
def execAbandon (m : Fin 8) (copied : Fin 0x100000) (s : State) : Host.Outcome State Fault Refusal :=
  done (s.regionCmd m (IC_CMD_ABANDON tsiPage) (fun t => icAbandon t false copied))

/-- COPY_ACTIVE (R140). -/
def execCopyActive (m : Fin 8) (s : State) : Host.Outcome State Fault Refusal :=
  done (s.regionCmd m (IC_CMD_COPY_ACTIVE tsiPage) (fun t => icStart t false 2))

/-- COPY_ACTIVE_DONE (R140). -/
def execCopyActiveDone (s : State) : Host.Outcome State Fault Refusal := done (icCopyDone s false)

/-- LOX_WINDOW_WRITE (R149). -/
def execLoxWindowWrite (m : Fin 8) (off : Fin 0x40000) (v : Word) (s : State) : Host.Outcome State Fault Refusal :=
  done (regionWrite s m loxPage (0x880000 + off) v 0xFFFFFFFF (fun t => icWrite t true m off v))

/-- LOX_SEAL (R150). -/
def execLoxSeal (m : Fin 8) (s : State) : Host.Outcome State Fault Refusal :=
  done (s.regionCmd m (IC_CMD_SEAL loxPage) (fun t => icStart t true 0))

/-- LOX_SEAL_DONE (R150). -/
def execLoxSealDone (s : State) : Host.Outcome State Fault Refusal := done (icSealDone s true)

/-- LOX_ABANDON (R149). -/
def execLoxAbandon (m : Fin 8) (copied : Fin 0x100000) (s : State) : Host.Outcome State Fault Refusal :=
  done (s.regionCmd m (IC_CMD_ABANDON loxPage) (fun t => icAbandon t true copied))

/-- LOX_COPY_ACTIVE (R149). -/
def execLoxCopyActive (m : Fin 8) (s : State) : Host.Outcome State Fault Refusal :=
  done (s.regionCmd m (IC_CMD_COPY_ACTIVE loxPage) (fun t => icStart t true 2))

/-- LOX_COPY_ACTIVE_DONE (R149). -/
def execLoxCopyActiveDone (s : State) : Host.Outcome State Fault Refusal := done (icCopyDone s true)

end Sys2Proof.Machine
end

