-- ==== Sys2Proof/Machine/Rings.lean ====
section
/-!
DEFINITION. The ring pool of the batt store (12_batt_store.md R273): one pool of 24,576 rings for batt paths and VCAT sinks.
-/

namespace Sys2Proof.Machine

open Sys2Proof

/-- The number of rings. -/
def ringTotal : Nat := 24576

def State.ringsOf (s : State) (o : Nat) : List Nat := tget (fun _ => []) s.rings o

/-- Rings taken. -/
def State.ringsTaken (s : State) : List Nat := s.rings.flatMap (fun p => p.2)
def State.ringsFree (s : State) : Nat := ringTotal - s.ringsTaken.length

/-- The `n` lowest-numbered free rings from `r` on. -/
def freeRings (taken : List Nat) : Nat → Nat → Nat → List Nat
  | 0, _, _ => []
  | _, _, 0 => []
  | fuel + 1, r, n + 1 => if r ∈ taken then freeRings taken fuel (r + 1) (n + 1) else r :: freeRings taken fuel (r + 1) n

/-- RSV.FREE and RSV.USED (Table 12-2). -/
def ringShow (s : State) : State := s.u [(BAT_RSV_FREE, s.ringsFree), (BAT_RSV_USED, s.ringsTaken.length)]

/-- The rings return to the pool with what they hold. -/
def ringsDrop (s : State) (o : Nat) : State :=
  let l := s.ringsOf o
  ringShow { s with rings := tset (fun _ => []) s.rings o [], cells := s.cells.filter (fun p => !(l.contains (p.1 / 1024))) }

/-- An owner takes `n` rings: the lowest-numbered free ones, empty. -/
def ringsTake (s : State) (o n : Nat) : State :=
  ringShow { s with rings := tset (fun _ => []) s.rings o (freeRings s.ringsTaken ringTotal 0 n) }

/-- The channel and the local ring of a ring (R273). -/
def ringChan (r : Nat) : Nat := r % 16
def ringLocal (r : Nat) : Nat := r / 16

/-- The codeword of frame `n`'s cell of a ring (R273). -/
def cellCw (r n : Nat) : Nat := 16 * (516 * ringLocal r + n % 516)

def cellKey (r n : Nat) : Nat := 1024 * r + n % 516
/-- A cell without valid data. -/
def noCell : Cell := ⟨0, 0, [], 0⟩
def State.cellOf (s : State) (r n : Nat) : Cell := tget (fun _ => noCell) s.cells (cellKey r n)
def State.setCell (s : State) (r n : Nat) (c : Cell) : State := { s with cells := tset (fun _ => noCell) s.cells (cellKey r n) c }

/-- What stands in a cell: 0 nothing, 1 sound, 2 errors in data symbols, 3 an uncorrectable codeword, 4 errors in check symbols only, 5 an
uncorrectable codeword that a read has met, 6 one for which the scrubber has marked the cell invalid (R270, R277, R278). -/
def cellClass (c : Cell) : Nat := c.good % 16

/-- A cell holds frame `n`'s data. -/
def cellValid (c : Cell) (n : Nat) : Bool := cellClass c != 0 && cellClass c != 6 && c.sfn == n

/-- It can be read: no codeword of it is uncorrectable. -/
def cellGood (c : Cell) (n : Nat) : Bool := cellValid c n && cellClass c != 3 && cellClass c != 5

/-- The owner of a ring and the ring's place among the owner's (R273). -/
def State.ringOwner (s : State) (r : Nat) : Nat × Nat :=
  match s.rings.find? (fun p => p.2.contains r) with
  | some p => (p.1, p.2.idxOf r)
  | none => (0, 0)

/-- A GDDR6 channel is trained and has not failed (R275). -/
def State.memUp (s : State) (ch : Nat) : Bool := s.on (bitOf MEM_STAT_TRAINED ch) && !s.on (bitOf MEM_STAT_FAIL ch)

end Sys2Proof.Machine
end

