-- ==== Sys2Proof/Machine/Plank.lean ====
section
/-!
DEFINITION. The Plank's staging, admission, cancellation and journal (03_plank_and_determinism.md R47 to R58, R62, R64 to R67).
Dispatch and application at the boundary stand in Frame.lean.
-/

namespace Sys2Proof.Machine

open Sys2Proof

def blankItem : Item := ⟨0, 0, 0⟩

/-- An item of a staging bank. -/
def State.stagedItem (s : State) (b i : Nat) : Item := tget (fun _ => blankItem) s.plk.staged (256 * b + i)

/-- A write of ST_ITEM_B (R58): ST_ITEM_A and the argument go to item IDX, COUNT covers it, IDX advances modulo 256. -/
def stageItem (s : State) (b : Nat) (arg : Word) : State :=
  let idx := s.g (PLK_ST_IDX_IDX b)
  let it : Item := ⟨s.g (PLK_ST_ITEM_A_KIND b), s.g (PLK_ST_ITEM_A_TARGET b), arg.toNat⟩
  (s.onPlk (fun p => { p with staged := tset (fun _ => blankItem) p.staged (256 * b + idx) it })).u
    [(PLK_ST_ITEM_B_ARG b, arg.toNat), (PLK_ST_IDX_COUNT b, max (s.g (PLK_ST_IDX_COUNT b)) (idx + 1)),
     (PLK_ST_IDX_IDX b, idx + 1)]

/-- The staged action's items and header (R52). -/
def State.stagedItems (s : State) (b : Nat) : List Item :=
  (List.range (s.g (PLK_ST_IDX_COUNT b))).map (fun i => s.stagedItem b i)

def State.stagedHdr (s : State) (b : Nat) : ActHdr :=
  ⟨s.on (PLK_ST_HDR_LATE_POL b), s.on (PLK_ST_HDR_GROUP b), s.on (PLK_ST_HDR_NOMIRROR b), s.g (PLK_ST_HDR_GMASK b),
    s.g (PLK_ST_HDR_TAG b)⟩

/-- The kinds of Table 3-1; those of the 1 µs class; those that allow NOMIRROR. -/
def kindListed (k : Nat) : Bool := 1 ≤ k && k ≤ 0xE
def kindUs (k : Nat) : Bool := k == 5 || k == 7 || k == 0xD
def kindNomirror (k : Nat) : Bool := k == 5 || k == 7 || k == 9 || k == 0xD || k == 0xE

/-- A batch is of the 1 µs class unless some item is of the system-frame class (R51); a kind that Table 3-1 does not list has none. -/
def itemsUs (l : List Item) : Bool := !l.any (fun i => kindListed i.kind && !kindUs i.kind)

/-- Extend EPOCH_SEC to 48 bits around the present time in ns (R49): the second that lies from 2^31 s before it to less than 2^31 s after
it; `none` below second 0. -/
def extendSec (now lowSec : Nat) : Option Nat :=
  let sec := now / 1000000000
  let c := sec - sec % 0x100000000 + lowSec
  if now + 0x80000000 * 1000000000 ≤ c * 1000000000 then (if c < 0x100000000 then none else some (c - 0x100000000))
  else if c * 1000000000 + 0x80000000 * 1000000000 < now then some (c + 0x100000000)
  else some c

/-- The boundary an epoch resolves to, in ns, for the period of its class (R50). -/
def resolveNs (t p : Nat) : Nat :=
  let r := t % p
  if r ≠ 0 ∧ p - r ≤ 32 then t - r + p else t - r

/-- SFN and tick of a boundary in ns (R50). -/
def sfnOfNs (b : Nat) : Nat := b / 125000
def tickOfNs (us : Bool) (b : Nat) : Nat := if us then b % 125000 / 1000 else 0

/-- The first boundary of a class at or after a time (R55). -/
def nextBoundary (t p : Nat) : Nat := (t + p - 1) / p * p

/-- The period of a class (R50). -/
def classPeriod (us : Bool) : Nat := if us then 1000 else 125000

/-- The extended epoch of a staging bank in ns (R49): `none` where it is malformed, below second 0 or beyond the horizon. -/
def epochNs (s : State) (b : Nat) : Option Nat :=
  let ns := s.g (PLK_ST_EPOCH_NS_NS b)
  if 1000000000 ≤ ns then none
  else
    match extendSec s.nowNs (s.g (PLK_ST_EPOCH_SEC_SEC b)) with
    | none => none
    | some sec =>
      let t := sec * 1000000000 + ns
      if s.nowNs + 1048576 * 1000000000 < t then none else some t

/-- Another owner keeps TB_INC (R48, R303, R329): TB_FOLLOW on a standby, GRP TIME on a worker that is not one. -/
def State.incOwned (s : State) : Bool :=
  (s.mode == 4 && s.on TWN_CFG_TB_FOLLOW) ||
    (s.mode != 4 && s.isWorker && (s.g GRP_CFG_TIME == 1 || s.g GRP_CFG_TIME == 2))

/-- The writable bits of a register row. -/
def descWritable (d : RegDesc) : Nat := d.rw ||| d.rwh ||| d.rws ||| d.lck ||| d.cmd

/-- A register row's LCK bits are locked: by the page's lock (R26), CORE_CFG by its own bit (R19). -/
def State.locked (s : State) (a : Nat) (d : RegDesc) : Bool :=
  d.lck != 0 && (s.on (PG_LOCK_LOCK (pageOf a)) || (pageOf a == 0x2000 && d.off == 0x20 && (s.on CLK_CORE_CFG_LOCKED || s.mode != 0))
    || (pageOf a == 0x8000 && d.off == 0x38 && s.hst.remapLk))

/-- The target of a CFG_WRITE (`imm` false) or REG_WRITE (`imm` true) (R48): a word of an implemented page other than PLK and JNL,
whose writable fields are all buffered, or all immediate, none of them locked. A register without a writable field is of neither class
(DESIGN CHOICE, log 69: R48 does not name it). -/
def wordTargetOk (s : State) (imm : Bool) (a : Nat) : Bool :=
  a % 4 == 0 && a < 0x240000 && pageOf a != 0x4000 && pageOf a != 0x5000 &&
    match regDesc a with
    | none => false
    | some d => descWritable d != 0 && (if imm then d.imm == descWritable d else d.imm &&& descWritable d == 0) && !s.locked a d

/-- A port number of the time base: line, timing, Gelvy (R222, Table 10-6). -/
def tbPort (p : Nat) : Bool := p < 192 || (0x100 ≤ p && p < 0x104) || (0x200 ≤ p && p < 0x208)

/-- Whether an item's target exists and is of the right class (Table 3-1, check 5 of Table 3-3). -/
def targetOk (s : State) (nomirror : Bool) (i : Item) : Bool :=
  (!nomirror || kindNomirror i.kind) &&
  match i.kind with
  | 3 => i.target < 4096
  | 4 => wordTargetOk s false i.target
  | 5 => wordTargetOk s true i.target &&
      !((i.target % 0x400 == 0x38 || i.target % 0x400 == 0x3C) && pageOf i.target == 0x3000 &&
        ((s.mode == 3 && !nomirror) || s.incOwned))
  | 8 => tbPort i.target
  | 0xA => i.target < 64
  | 0xB => i.target < 64
  | 0xC => i.target < 192
  | 0xD => i.target < 4
  | _ => i.target == 0

/-- The action is mirrored (R56): admitted in ACTIVE without NOMIRROR. -/
def actMirrored (s : State) (h : ActHdr) : Bool := s.mode == 3 && !h.nomirror

/-- The mode and the group role permit the action (R56; Table 17-5: none in BOOT). -/
def roleOk (s : State) (h : ActHdr) (l : List Item) : Bool :=
  s.mode != 0 && (!h.group || s.isManager) && (s.mode != 4 || (l.all (fun i => kindNomirror i.kind) && !h.group))

/-- Index of the first element for which a check fails. -/
def firstBad {α : Type} (ok : α → Bool) : List α → Nat → Option Nat
  | [], _ => none
  | x :: r, i => if ok x then firstBad ok r (i + 1) else some i

/-- The stages an action swaps (kinds 1 and 2). -/
def isSwap (i : Item) : Bool := i.kind == 1 || i.kind == 2

/-- Index of an item that swaps a stage that an earlier item of the action, or a pending action of the same boundary, swaps (check 7). -/
def swapConflict (s : State) (sfn : Nat) (l : List Item) : Option Nat :=
  let taken (k : Nat) : Bool :=
    s.plk.queue.any (fun a => a.sfn == sfn && a.items.any (fun i => i.kind == k))
  firstBad (fun p : Item × Nat => !(isSwap p.1 && (taken p.1.kind || (l.take p.2).any (fun j => j.kind == p.1.kind))))
    l.zipIdx 0

/-- Pending entries in use, one per item (check 9): an action holds them to its boundary, since its dispatch changes nothing visible
(DEDUCED from Table 3-7). -/
def State.pendUsed (s : State) : Nat := ((s.plk.queue ++ s.plk.sent).map (fun a => a.items.length)).sum

/-- The register that reports them (R58). -/
def State.showUsed (s : State) : State := s.u [(PLK_STAT_PEND_USED, s.pendUsed)]

/-- Change the pending queue. -/
def State.setQueue (s : State) (q : List Action) : State := (s.onPlk (fun p => { p with queue := q })).showUsed

/-- Change the list of dispatched actions. -/
def State.setSent (s : State) (q : List Action) : State := (s.onPlk (fun p => { p with sent := q })).showUsed

/-- The number of the next action; numbers wrap from 0xFFFF_FFFF to 1 (R58). -/
def State.takeSeq (s : State) : State :=
  s.onPlk (fun p => { p with nextSeq := if p.nextSeq = 0xFFFFFFFF then 1 else p.nextSeq + 1 })

def blankRec : JRec := ⟨0, 0, 0, 0, 0, 0, 0, false, 0, 0, 0, 0, false, false, false, false, 0, 0⟩

/-- The record of an action with a status, an index, the number applied and a reason (R64). -/
def recOf (a : Action) (status index applied reason : Nat) : JRec :=
  { seq := a.seq, sfn := a.sfn, status := status, tick := a.tick, items := a.items.length, index := index, master := a.master,
    latePol := a.hdr.latePol, applied := applied, failed := 0, reason := reason, tag := a.hdr.tag, mirroredIn := a.mirroredIn,
    mirrorOut := a.mirrorOut, unmirrored := a.unmirrored, group := a.hdr.group, peerSeq := a.peerSeq, map := 0 }

/-- The applied map of a PARTIAL record (R65). -/
def pmapShow (s : State) (seq map : Nat) : State :=
  s.u ((JNL_PMAP_SEQ_SEQ, seq) :: (List.range 8).map (fun k => (JNL_PMAP_MAP k, map / 2 ^ (32 * k) % 0x100000000)))

/-- Enter a record into the ring (R66): HEAD rises; NDONE_OCC counts every record but DONE and CANCELLED (R67), FAULT_OCC the
NOT_SEALED, PARTIAL and FAULT ones (R58); a PARTIAL one shows its applied map (R65). -/
def State.record (s : State) (r : JRec) : State :=
  let h := s.g JNL_HEAD_HEAD
  let s := if r.status = 4 then pmapShow s r.seq r.map else s
  let s := if r.status = 0 then s else prfCount s 7 (fun _ => true)
  let s := (s.onPlk (fun p => { p with ring := tset (fun _ => blankRec) p.ring (h % 1024) r })).u [(JNL_HEAD_HEAD, h + 1)]
  let s := if r.status = 0 ∨ r.status = 6 then s else s.occ 0x5090
  if r.status = 3 ∨ r.status = 4 ∨ r.status = 5 then s.occ 0x4074 else s

/-- A group action's record once every member has reported or is gone (R64): FAULT with the members that did not report DONE, unless
the action was cancelled; else this unit's own outcome. Bit 0 of the members is never set: the manager's own failure shows in the record's
status (DESIGN CHOICE, log 72). -/
def groupRec (j : GroupJob) (r : JRec) : JRec :=
  if j.failed = 0 ∨ r.status = 6 then { r with failed := j.failed } else { r with status := 5, failed := j.failed, reason := j.reason }

/-- Write the records of the group actions that are complete (R64, R330). -/
def groupClose (s : State) : State :=
  let fin := s.plk.groups.filter (fun j => j.waiting.isEmpty && j.own.isSome)
  let s := s.onPlk (fun p => { p with groups := p.groups.filter (fun j => !(j.waiting.isEmpty && j.own.isSome)) })
  s.each fin (fun t j => match j.own with | some r => t.record (groupRec j r) | none => t)

/-- A member's outcome of a group action (R330): anything but DONE counts it as failed; the first reason stays. -/
def groupReport (s : State) (seq i status reason : Nat) : State :=
  groupClose (s.onPlk (fun p => { p with groups := p.groups.map (fun j =>
    if j.act.seq = seq ∧ i ∈ j.waiting then
      { j with waiting := j.waiting.filter (fun k => k != i),
               failed := if status = 0 then j.failed else j.failed + 2 ^ i,
               reason := if status = 0 ∨ j.failed ≠ 0 then j.reason else reason }
    else j) }))

/-- A unit's record of an action (R64, R330): a manager's group record waits for the members; a member returns the outcome. -/
def State.outcome (s : State) (a : Action) (r : JRec) : State :=
  if s.plk.groups.any (fun j => j.act.seq == a.seq) then
    groupClose (s.onPlk (fun p => { p with groups := p.groups.map (fun j => if j.act.seq = a.seq then { j with own := some r } else j) }))
  else
    let s := s.record r
    if a.groupIn then s.sendMsg (s.g GRP_STAT_MGR_PORT) (.result a.peerSeq r.status r.reason r.applied r.index) else s

/-- The members a group action is sent to: ids 1 to 7 of GMASK. -/
def groupMembers (gmask : Nat) : List Nat := [1, 2, 3, 4, 5, 6, 7].filter (fun i => gmask / 2 ^ i % 2 == 1)

/-- Deliver a group action to its members (R330, R57): an absent member has failed with MEMBER_ABSENT. -/
def deliverGroup (s : State) (a : Action) (check : List Nat) : State :=
  let all := groupMembers a.hdr.gmask
  let here := all.filter (fun i => s.memberPresent i)
  let gone := all.filter (fun i => !s.memberPresent i)
  let s := s.each here (fun t i => t.sendMsg (t.memberPort i) (.action ⟨a.sfn, a.tick, a.us, a.items, a.hdr, a.seq⟩ check))
  groupClose (s.onPlk (fun p => { p with groups := p.groups ++
    [{ act := a, waiting := here, failed := (gone.map (fun i => 2 ^ i)).sum, reason := if gone.isEmpty then 0 else 0x06,
       own := if a.hdr.gmask % 2 = 1 then none else some (recOf a 0 0 0 0) }] }))

/-- The word that travels with each item, so that the peer can compare (R145, R261): STBY_SUM of a swap, the idle bank's CRC of an image
change, 0 of any other. -/
def checkWords (s : State) (l : List Item) : List Nat :=
  l.map (fun i => if i.kind = 1 then s.g (IC_STBY_SUM_SUM tsiPage) else if i.kind = 2 then s.g (IC_STBY_SUM_SUM loxPage)
    else if i.kind = 0xB then s.g (FE_IDLE_CRC_CRC i.target) else 0)

/-- Enqueue an admitted action; an ACTIVE unit mirrors it, or marks it UNMIRRORED with the link down (R56). A group action that does not
address the manager itself takes no pending entries there (DESIGN CHOICE, log 71). -/
def enqueue (s : State) (a : Action) : State :=
  let mir := actMirrored s a.hdr && !a.mirroredIn
  let up := s.mirrorUp
  let a := { a with mirrorOut := mir && up, unmirrored := mir && !up }
  let s := (s.takeSeq)
  let s := if a.hdr.group ∧ !a.groupIn ∧ a.hdr.gmask % 2 = 0 then s else s.setQueue (s.plk.queue ++ [a])
  let s := if a.mirrorOut then
      { s with twn := { s.twn with actSeq := a.seq } }.sendMsg s.mirrorPort
        (.action ⟨a.sfn, a.tick, a.us, a.items, a.hdr, a.seq⟩ (checkWords s a.items))
    else s
  if a.unmirrored then { s.occ 0xD0AC with twn := { s.twn with unmirrored := s.twn.unmirrored + 1 } } else s

/-- The result words of an admission (R53). -/
def admitResult (s : State) (b code item seq sfn tick : Nat) : State :=
  (if code ≤ 2 then prfCount s 5 (fun _ => true) else s).result (PLK_RES_CTRL_VALID b).addr (code != 0 && code != 2)
    [(PLK_RES_CODE_CODE b, code), (PLK_RES_CODE_ITEM b, item), (PLK_RES_SEQ_SEQ b, seq), (PLK_RES_SFN_LO_SFN_LO b, sfn),
     (PLK_RES_SFN_HI_SFN_HI b, sfn / 0x100000000), (PLK_RES_TICK_TICK b, tick)]

/-- A refusal by a check (R53): no record, REFUSE_OCC rises. -/
def admitRefuse (s : State) (b code item sfn tick : Nat) : State := (admitResult s b code item 0 sfn tick).occ 0x4078

/-- The action that a bank stages, at a boundary. -/
def stagedAction (s : State) (b m bns : Nat) (late : Bool) : Action :=
  let us := itemsUs (s.stagedItems b)
  { seq := s.plk.nextSeq, sfn := sfnOfNs bns, tick := tickOfNs us bns, us := us, items := s.stagedItems b, hdr := s.stagedHdr b,
    master := m, mirroredIn := false, mirrorOut := false, unmirrored := false, groupIn := false, late := late, peerSeq := 0,
    check := [] }

/-- Check 9 and acceptance at a boundary (R53, R55): a shortage names the first item without an entry, and shows the boundary `ns` to which
the epoch resolved. -/
def admitAt (s : State) (b m bns code ns : Nat) : State :=
  let a := stagedAction s b m bns (code == 2)
  if 4096 < s.pendUsed + a.items.length then admitRefuse s b 0x04 (4096 - s.pendUsed) (sfnOfNs ns) (tickOfNs a.us ns)
  else
    let t := enqueue s a
    let t := if a.hdr.group then deliverGroup t a (checkWords s a.items) else t
    let t := if code = 2 then t.occ 0x4070 else t
    admitResult t b code 0 a.seq a.sfn a.tick

/-- Checks 7 to 9 of Table 3-3 (R53 to R55). -/
def admitTimed (s : State) (b m bns : Nat) : State :=
  let l := s.stagedItems b
  let h := s.stagedHdr b
  let us := itemsUs l
  let a := stagedAction s b m bns false
  match swapConflict s (sfnOfNs bns) l with
  | some i => admitRefuse s b 0x08 i a.sfn a.tick
  | none =>
    let wide := h.group || actMirrored s h
    let lead := 1000 * (if wide then s.g PLK_LEAD_WIDE_US else s.g PLK_LEAD_LOCAL_US)
    -- point 0x1B: the master's next admissions fail the lead test
    let inj := injAny s 0x1B (· == m) 1
    let s := inj.2
    if s.nowNs + lead ≤ bns ∧ inj.1.1 = 0 then admitAt s b m bns 0 bns
    else if h.latePol && !wide then
      let nb := nextBoundary (s.nowNs + 64000) (classPeriod us)
      match swapConflict s (sfnOfNs nb) l with
      | some i => admitRefuse s b 0x08 i a.sfn a.tick
      | none => admitAt s b m nb 2 bns
    else
      admitResult ((s.takeSeq.record (recOf a 1 0 0 0x0A)).occ 0x4070) b 0x01 0 a.seq a.sfn a.tick

/-- ADMIT (R53): the checks of Table 3-3 in order. `b` is the staging bank, `m` the master the journal names. RES_CODE.ITEM shows 0 for codes
0x03 and 0x07, which no item fails (DESIGN CHOICE, log 70). -/
def admitBank (s : State) (b m : Nat) : State :=
  let l := s.stagedItems b
  let h := s.stagedHdr b
  if s.parBad.any (fun k => decide (0x100000000 * (b + 1) + 0x4028 ≤ k) && decide (k < 0x100000000 * (b + 1) + 0x4040)) then
    admitRefuse s b 0x0A 0 0 0
  else if l.isEmpty then admitRefuse s b 0x07 0 0 0
  else
    match epochNs s b with
    | none => admitRefuse s b 0x03 0 0 0
    | some t =>
      let us := itemsUs l
      let bns := resolveNs t (classPeriod us)
      match firstBad (fun i => kindListed i.kind) l 0 with
      | some i => admitRefuse s b 0x05 i (sfnOfNs bns) (tickOfNs us bns)
      | none =>
        match firstBad (targetOk s h.nomirror) l 0 with
        | some i => admitRefuse s b 0x06 i (sfnOfNs bns) (tickOfNs us bns)
        | none =>
          if roleOk s h l then admitTimed s b m bns
          else admitRefuse s b 0x09 0 (sfnOfNs bns) (tickOfNs us bns)

/-- Boundary of an action in ns. -/
def Action.ns (a : Action) : Nat := a.sfn * 125000 + a.tick * 1000

/-- A cancellation is delivered to every other unit that holds the action (R62): the peer of a pair, the members of a group, or the manager
that sent it; never back to the port it came from. -/
def cancelTell (s : State) (a : Action) (from_ : Option Nat) : State :=
  let tell (t : State) (p seq : Nat) : State := if from_ = some p then t else t.sendMsg p (.cancel seq)
  let s := if a.mirroredIn then tell s s.mirrorPort a.peerSeq else if a.mirrorOut then tell s s.mirrorPort a.seq else s
  if a.groupIn then tell s (s.g GRP_STAT_MGR_PORT) a.peerSeq
  else if a.hdr.group && !a.mirroredIn then s.each (groupMembers a.hdr.gmask) (fun t i => tell t (t.memberPort i) a.seq)
  else s

/-- CANCEL (R62): before dispatch start for a local action, 256 µs ahead for a mirrored or group action, whether or not the link carried it;
the cancellation goes to every unit that holds the action. -/
def cancelBank (s : State) (b : Nat) : State :=
  let n := s.g (PLK_CANCEL_SEQ_SEQ b)
  let words (t : State) (code : Nat) (sfn tick : Nat) : State :=
    t.result (PLK_RES_CTRL_VALID b).addr (code != 0x10)
      [(PLK_RES_CODE_CODE b, code), (PLK_RES_CODE_ITEM b, 0), (PLK_RES_SEQ_SEQ b, n), (PLK_RES_SFN_LO_SFN_LO b, sfn),
       (PLK_RES_SFN_HI_SFN_HI b, sfn / 0x100000000), (PLK_RES_TICK_TICK b, tick)]
  match s.plk.queue.find? (fun a => a.seq == n) with
  | some a =>
    let lead := if a.mirrorOut || a.mirroredIn || a.unmirrored || a.hdr.group then 256000 else 32000
    if s.nowNs + lead < a.ns then
      let s := cancelTell (s.setQueue (s.plk.queue.filter (fun x => x.seq != n))) a none
      words (s.outcome a (recOf a 6 0 0 0x0B)) 0x10 a.sfn a.tick
    else words s 0x11 a.sfn a.tick
  | none =>
    match s.plk.sent.find? (fun a => a.seq == n) with
    | some a => words s 0x11 a.sfn a.tick
    | none =>
      match s.plk.groups.find? (fun j => j.act.seq == n && j.act.hdr.gmask % 2 == 0 && j.own.all (fun r => r.status != 6)) with
      | some j =>
        if s.nowNs + 256000 < j.act.ns then
          let s := s.each (groupMembers j.act.hdr.gmask) (fun t i => t.sendMsg (t.memberPort i) (.cancel n))
          words (s.onPlk (fun p => { p with groups := p.groups.map (fun k => if k.act.seq = n then { k with own := some (recOf k.act 6 0 0 0x0B) } else k) }))
            0x10 j.act.sfn j.act.tick
        else words s 0x11 j.act.sfn j.act.tick
      | none => words s 0x12 0 0

/-- CLEAR (R58): COUNT and IDX become 0. -/
def clearBank (s : State) (b : Nat) : State := s.u [(PLK_ST_IDX_COUNT b, 0), (PLK_ST_IDX_IDX b, 0)]

/-- The page whose unit an item acts on (R59, Table 3-1); SNAPSHOT and MARK act on no page. -/
def itemPage (i : Item) : Option Nat :=
  match i.kind with
  | 1 => some tsiPage
  | 2 => some loxPage
  | 3 => some (lgBase (i.target / 256) + 0xF000)
  | 4 | 5 => some (pageOf i.target)
  | 6 | 7 | 8 | 0xD => some 0x3000
  | 0xA => some 0x20000
  | 0xB => some (0x200000 + 0x1000 * i.target)
  | 0xC => some (chBase i.target)
  | _ => none

/-- A page is reset: the items it has accepted for a boundary to come are lost (R60); a lost item keeps its kind plus 0x100. -/
def loseItems (s : State) (pg : Nat) : State :=
  s.onPlk (fun p => { p with sent := p.sent.map (fun a =>
    { a with items := a.items.map (fun i => if itemPage i = some pg then { i with kind := i.kind + 0x100 } else i) }) })

/-- The software reset of PLK (R63): every action still pending is cancelled, on this unit only. -/
def plkReset (s : State) : State :=
  let q := s.plk.queue
  (s.setQueue []).each q (fun t a => t.outcome a (recOf a 6 0 0 0x0C))

/-- Record `n` is in the ring (R66): one of the latest 1,024 that HEAD counts, modulo 2^32; no record has the number 0 for its action. -/
def inRing (s : State) (n : Nat) : Bool :=
  let age := (s.g JNL_HEAD_HEAD + 0x100000000 - n) % 0x100000000
  decide (1 ≤ age) && decide (age ≤ 1024) && (tget (fun _ => blankRec) s.plk.ring (n % 1024)).seq != 0

/-- Latch record `n` (R66, R67). -/
def latchRecord (s : State) (m n : Nat) : State :=
  let h := s.g JNL_HEAD_HEAD
  let ahead := !inRing s n && decide (h ≤ n)
  let gone := !inRing s n && decide (n < h)
  let r := if ahead || gone then blankRec else tget (fun _ => blankRec) s.plk.ring (n % 1024)
  s.u [(JNL_RD_IDX_IDX m, n), (JNL_REC_CTRL_VALID m, bit (!ahead && !gone)), (JNL_REC_CTRL_GONE m, bit gone),
    (JNL_REC_CTRL_AHEAD m, bit ahead), (JNL_REC_SEQ_SEQ m, r.seq), (JNL_REC_SFN_LO_SFN_LO m, r.sfn),
    (JNL_REC_SFN_HI_SFN_HI m, r.sfn / 0x100000000), (JNL_REC_INFO_STATUS m, r.status), (JNL_REC_INFO_TICK m, r.tick),
    (JNL_REC_INFO_ITEMS m, r.items), (JNL_REC_INFO_INDEX m, r.index), (JNL_REC_INFO_MASTER m, r.master),
    (JNL_REC_INFO_LATE_POL m, bit r.latePol), (JNL_REC_AUX_APPLIED m, r.applied), (JNL_REC_AUX_FAILED_MEMBERS m, r.failed),
    (JNL_REC_AUX_REASON m, r.reason), (JNL_REC_TAG_TAG m, r.tag), (JNL_REC_TAG_MIRRORED_IN m, bit r.mirroredIn),
    (JNL_REC_TAG_MIRROR_OUT m, bit r.mirrorOut), (JNL_REC_TAG_UNMIRRORED m, bit r.unmirrored), (JNL_REC_TAG_GROUP m, bit r.group),
    (JNL_REC_PEER_PEER_SEQ m, r.peerSeq)]

/-- Search the ring backwards from the record before number `n`, modulo 2^32, for a sequence number (R67: the most recent one is named). 0
names no action. -/
def searchRing (ring : Tab JRec) (seq : Nat) : Nat → Nat → Nat × Nat
  | 0, _ => (0, 0)
  | fuel + 1, n =>
    let k := (n + 0xFFFFFFFF) % 0x100000000
    if seq ≠ 0 ∧ (tget (fun _ => blankRec) ring (k % 1024)).seq = seq then (1, k) else searchRing ring seq fuel k

/-- JCMD.FIND (R67): FIND_SEQ is sampled and the ring searched as it stands now; the result follows at FIND_COMPLETE. -/
def findStart (s : State) (m : Nat) : State :=
  let r := searchRing s.plk.ring (s.g (JNL_FIND_SEQ_SEQ m)) 1024 (s.g JNL_HEAD_HEAD)
  (s.onPlk (fun p => { p with find := tset (fun _ => (0, 0)) p.find m r })).u
    [(JNL_JCMD_FIND m, 1), (resBusy (JNL_FIND_CTRL_VALID m).addr, 1)]

/-- The search ends (R67): LAST_FAILED where no such record is in the ring. -/
def findEnd (s : State) (m : Nat) : State :=
  if s.on (JNL_JCMD_FIND m) then
    let r := tget (fun _ => (0, 0)) s.plk.find m
    let t := (s.onPlk (fun p => { p with find := tset (fun _ => (0, 0)) p.find m (0, 0) })).result (JNL_FIND_CTRL_VALID m).addr (r.1 == 0)
      (if r.1 = 0 then [] else [(JNL_FIND_IDX_IDX m, r.2)])
    t.u [(JNL_JCMD_FIND m, 0)]
  else s

/-- A mirrored or group action arrives (R56, R57, R330, R331). It is queued whatever number of entries is in use: check 9 belongs to an
admission (DESIGN CHOICE, log 71). -/
def actionRx (s : State) (port : Nat) (a : ActMsg) (check : List Nat) : State :=
  let mirror := s.on TWN_CFG_TWIN_EN && port == s.mirrorPort
  let act : Action :=
    { seq := s.plk.nextSeq, sfn := a.sfn, tick := a.tick, us := a.us, items := a.items, hdr := a.hdr, master := 3,
      mirroredIn := mirror, mirrorOut := false, unmirrored := false, groupIn := !mirror, late := false, peerSeq := a.peerSeq,
      check := check }
  if mirror then
    if s.mode ≠ 4 then s
    else
      let s := { s with twn := { s.twn with actSeq := a.peerSeq } }
      if act.ns < s.nowNs + 32000 then s.takeSeq.record (recOf act 5 0 0 0x08) else enqueue s act
  else if !s.isWorker || port != s.g GRP_STAT_MGR_PORT || !(s.g (GP_STAT_PEER_MODE port) == 2 || s.g (GP_STAT_PEER_MODE port) == 3) then s
  else if s.mode = 4 ∨ s.mode = 5 then s.sendMsg port (.result a.peerSeq 5 0x02 0 0)
  else if act.ns < s.nowNs + 32000 then
    (s.takeSeq.record (recOf act 5 0 0 0x07)).sendMsg port (.result a.peerSeq 5 0x07 0 0)
  else enqueue s act

/-- ST_ITEM_B_WRITE (R58). -/
def execStItemBWrite (m : Fin 8) (arg : Word) (s : State) : Host.Outcome State Fault Refusal :=
  done (if s.usable 0x4000 then (stageItem s m.val arg).answer m.val true [] else s.answer m.val false [])

/-- ADMIT (R53): the admission completes in the command. -/
def execAdmitCmd (m : Fin 8) (s : State) : Host.Outcome State Fault Refusal :=
  done (s.command m.val ⟨0x4040, 0, 1⟩ (fun t => admitBank t m.val m.val))

/-- CANCEL (R62). -/
def execCancel (m : Fin 8) (s : State) : Host.Outcome State Fault Refusal :=
  done (s.command m.val ⟨0x4040, 1, 1⟩ (fun t => cancelBank t m.val))

/-- CLEAR (R58). -/
def execClear (m : Fin 8) (s : State) : Host.Outcome State Fault Refusal :=
  done (s.command m.val ⟨0x4040, 2, 1⟩ (fun t => clearBank t m.val))

/-- RD_IDX_WRITE (R66). -/
def execRdIdxWrite (m : Fin 8) (idx : Word) (s : State) : Host.Outcome State Fault Refusal :=
  done (if s.usable 0x5000 then (latchRecord s m.val idx.toNat).answer m.val true [] else s.answer m.val false [])

/-- FIND (R67). -/
def execFind (m : Fin 8) (s : State) : Host.Outcome State Fault Refusal :=
  done (s.command m.val (JNL_JCMD_FIND m.val) (fun t => findStart t m.val))

/-- FIND_COMPLETE (R67). -/
def execFindComplete (m : Fin 8) (s : State) : Host.Outcome State Fault Refusal := done (findEnd s m.val)

/-- ACTION_MESSAGE_RX (R56, R330, R342). -/
def execActionMessageRx (e : Env) (a : ActMsg) (check : List Nat) (s : State) : Host.Outcome State Fault Refusal :=
  let r := s.recvMsg e false true
  done (if r.2 then actionRx r.1 e.port.val a check else r.1)

end Sys2Proof.Machine
end

