-- ==== Sys2Proof/Machine/TimeBase.lean ====
section
/-!
DEFINITION. The time base, timestamps, PPS, ToD and the timing ports (10_time_base_timestamping.md R210 to R239).
-/

namespace Sys2Proof.Machine

open Sys2Proof

/-- STEP_REM as a signed number (R215). -/
def State.stepRem (s : State) : Int := (BitVec.ofNat 32 (s.g TB_STEP_REM_REM)).toInt

/-- Bits of a signed number in a 32-bit field. -/
def intBits (i : Int) : Nat := (BitVec.ofInt 32 i).toNat

/-- The nanoseconds a slew has added or withheld after `n` more cycles (R215): one in every 1,000th cycle, at most |STEP_REM|. -/
def slewed (rem : Int) (cnt n : Nat) : Nat := min rem.natAbs ((cnt + n) / 1000)

/-- The time value after `n` TCLK cycles (R210, R215), in 2^-32 ns. -/
def timeAfter (t inc cnt : Nat) (rem : Int) (n : Nat) : Nat :=
  (Int.ofNat (t + n * inc) + rem.sign * Int.ofNat (slewed rem cnt n) * 0x100000000).toNat

/-- SEC has 48 bits: the time value is taken modulo 2^48 seconds. -/
def timeWrap (t : Nat) : Nat := t % (0x1000000000000 * 1000000000 * 0x100000000)

/-- The fewest cycles after which the time value has reached `target` ns, `m` slewed nanoseconds into the slew: within each run of
1,000 cycles the clock advances evenly. -/
def cyclesFrom (t inc cnt : Nat) (rem : Int) (target : Nat) : Nat → Nat → Nat
  | 0, m => 1000 * m
  | fuel + 1, m =>
    let here := Int.ofNat t + rem.sign * Int.ofNat m * 0x100000000
    let need := (Int.ofNat (target * 0x100000000) - here).toNat
    let n := max (if m = 0 then 0 else 1000 * m - cnt) ((need + inc - 1) / inc)
    if rem.natAbs ≤ m ∨ n + cnt < 1000 * (m + 1) then n else cyclesFrom t inc cnt rem target fuel (m + 1)

/-- Advance the time base by `n` cycles (R210, R215). -/
def tbAdvance (s : State) (n : Nat) : State :=
  let rem := s.stepRem
  let left := rem - rem.sign * Int.ofNat (slewed rem s.tb.slewCnt n)
  { s with tb := { s.tb with t := timeWrap (timeAfter s.tb.t s.tb.inc s.tb.slewCnt rem n),
                             slewCnt := (s.tb.slewCnt + n) % 1000 } }.u
    [(TB_STEP_REM_REM, intBits left), (TB_STAT_STEP_ACT, bit (left != 0))]

/-- Advance to the cycle in which T first reaches `target` ns (R210). -/
def tbReach (s : State) (target : Nat) : State :=
  tbAdvance s (cyclesFrom s.tb.t s.tb.inc s.tb.slewCnt s.stepRem target 300 0)

/-- A discipline event (R216): HOLDOVER clears and its window starts again. -/
def disciplined (s : State) : State := { s with tb := { s.tb with disc := s.tb.t } }.u [(TB_STAT_HOLDOVER, 0)]

/-- TB.CMD.LOAD (R211): refused with a bus error while running and for LOAD_NS of 10^9 or more. -/
def tbLoad (s : State) (m : Nat) : State :=
  if s.running ∨ 1000000000 ≤ s.g TB_LOAD_NS_NS then s.answer m false []
  else
    let sec := s.g TB_LOAD_SEC_LO_SEC_LO + 0x100000000 * s.g TB_LOAD_SEC_HI_SEC_HI
    (disciplined ({ s with tb := { s.tb with t := (sec * 1000000000 + s.g TB_LOAD_NS_NS) * 0x100000000, slewCnt := 0 } }.u
      [(TB_STAT_RUN, 1)])).answer m true []

/-- The software reset of the TB page (R211, R377). -/
def tbReset (s : State) : State :=
  { s with tb := { s.tb with t := 0, slewCnt := 0, disc := 0 }, pin := { s.pin with pps := [], pulse := none, todEdge := false, todSending := false } }.u
    [(TB_STAT_RUN, 0), (TB_STEP_REM_REM, 0), (TB_STAT_STEP_ACT, 0), (TB_STAT_HOLDOVER, 0), (TB_PPS_OUT_STAT_LEVEL, 0),
     (TB_TOD_STAT_TX_ABANDON, bit (s.on TB_TOD_CMD_ARM || s.on TB_TOD_STAT_TX_ABANDON)), (TB_TOD_CMD_ARM, 0)]

/-- A read of NOW_NS by a master (R212): the two words of the seconds are latched for it in the same cycle. -/
def nowRead (s : State) (m : Nat) : State :=
  let sec := s.nowNs / 1000000000
  s.u [(TB_NOW_SEC_LO_SEC_LO m, sec), (TB_NOW_SEC_HI_SEC_HI m, sec / 0x100000000), (TB_NOW_SEC_HI_FRAC m, s.tb.t / 0x10000)]

/-- The master that may write TB_INC (R303, R329): any, unless TB_FOLLOW or GRP TIME owns the increment: how much the
owner corrects it is the operand of its TB_INC_WRITE, since the spec gives the 1 ns bound alone (DESIGN CHOICE, log 65). -/
def incMaster (s : State) (m : Nat) : Bool :=
  !s.incOwned || (if s.mode = 4 ∨ s.g GRP_CFG_TIME = 1 then m == 1 else m == 3)

/-- A write of TB_INC (R213): commits NS with the staged fraction, within ±200 ppm; otherwise a bus error. -/
def incWrite (s : State) (m : Nat) (v : Word) : State :=
  let c := wordGet v 0 4 * 0x100000000 + s.g TB_TB_INC_FRAC_FRAC
  if incMaster s m && decide (0x1FFE5C91D ≤ c) && decide (c ≤ 0x2001A36E3) then
    ((disciplined { s with tb := { s.tb with inc := c } }).u [(TB_TB_INC_NS, wordGet v 0 4)]).answer m true []
  else s.answer m false []

/-- A timestamp in 2^-16 ns as the words E0 to E2 of Table 10-5; FRAC [9:0] are 0 (R218). -/
def stampWords (x : Nat) : List Word :=
  let ns := x / 0x10000
  let sec := ns / 1000000000
  [BitVec.ofNat 32 (ns % 1000000000), BitVec.ofNat 32 sec,
   BitVec.ofNat 32 (sec / 0x100000000 % 0x10000 + 0x10000 * (x % 0x10000 / 1024 * 1024))]

/-- Receive and transmit latency of a line port by rate index, in 0.01 ns (Table 10-3). -/
def lineLat (rate : Nat) : Nat × Nat :=
  [(26681, 22347), (7265, 6120), (6144, 5208), (2452, 2093), (2341, 1986), (3126, 2784), (4480, 3910), (3002, 2677),
   (2898, 2583), (2990, 2695), (2251, 1964), (1435, 1271)].getD rate (0, 0)

/-- Stated MAC correction of a timing port by TPT.CFG.RATE (Table 10-4); 3 acts as 0 (R239). -/
def tportLat (rate : Nat) : Nat × Nat :=
  if rate = 1 then (5824, 4992) else if rate = 2 then (3648, 3104) else (11240, 9616)

/-- The latencies of a port in 0.01 ns (R220, R221): of a line port at the rate it receives and at that of the format it sends. -/
def portLat (s : State) (port : Nat) : Nat × Nat :=
  if port < 192 then ((lineLat (s.g (CH_DISC_STAT_RATE port))).1, (lineLat (fmtRate (s.f (CH_TX_CFG_TX_FMT port)))).2)
  else if port < 0x200 then tportLat (s.f (TPT_CFG_RATE (port - 0x100)))
  else (9625, 4150)

/-- The latency in force in 2^-16 ns, with what the timestamp-point calibration refined (R220). -/
def latInForce (s : State) (port : Nat) (tx : Bool) : Int :=
  let l := portLat s port
  Int.ofNat ((if tx then l.2 else l.1) * 0x10000 / 100) + tget (fun _ => 0) s.calTs (tsKey s port tx)

/-- A port's asymmetry A in force, in 2^-8 ns (R222). -/
def portAsym (s : State) (port : Nat) : Int := (BitVec.ofNat 32 (s.g (TB_PT_ASYM_A port))).toInt

/-- The time-base value of an event (R218) that comes `off` after the state's own time, in 2^-16 ns and within one system frame. -/
def State.instant (s : State) (off : Nat) : Nat := s.tb.t / 0x10000 + off % 8192000000

/-- A raw stamp in 2^-16 ns moved to the reference plane (R220 to R222): an ingress stamp less the receive latency, the deskew delay
and A; an egress stamp plus the transmit latency, less A; to 1/64 ns (R218). -/
def corrected (s : State) (port : Nat) (tx : Bool) (raw deskew : Nat) : Nat :=
  let x := if tx then Int.ofNat raw + latInForce s port true else Int.ofNat raw - latInForce s port false - Int.ofNat deskew
  ((x - 256 * portAsym s port).toNat) / 1024 * 1024

def ptReset : PtSt := ⟨[], [], 0, 0⟩
def State.ptOf (s : State) (p : Nat) : PtSt := tget (fun _ => ptReset) s.pt p
def State.setPt (s : State) (p : Nat) (x : PtSt) : State := { s with pt := tset (fun _ => ptReset) s.pt p x }

/-- FIFO depth of a port per direction (R224). -/
def ptDepth (port : Nat) : Nat := if 0x100 ≤ port ∧ port < 0x104 then 64 else 16

/-- A PT_LOST_OCC occurrence of a port (R224). -/
def ptLost (s : State) (port : Nat) : State := s.occ (TB_PT_LOST_OCC_COUNT port).addr

/-- Put an entry into a port's FIFO; a full FIFO loses it (R224). -/
def ptPush (s : State) (port : Nat) (tx : Bool) (id kind : Nat) (oneStep : Bool) (stamp : Nat) : State :=
  let p := s.ptOf port
  let n := if tx then p.txNum else p.rxNum
  let l := if tx then p.tx else p.rx
  if ptDepth port ≤ l.length then ptLost s port
  else
    let e3 := id % 0x10000 + 0x10000 * (kind % 16) + 0x100000 * bit tx + 0x200000 * bit oneStep + 0x400000 + 0x800000 * (n % 512)
    let e := stampWords stamp ++ [BitVec.ofNat 32 e3]
    if tx then s.setPt port { p with tx := l ++ [e], txNum := (n + 1) % 512 }
    else s.setPt port { p with rx := l ++ [e], rxNum := (n + 1) % 512 }

/-- A port's capture selection, as the rules of R224 read it. -/
def capRx (s : State) (port : Nat) : Bool :=
  if port < 192 then s.f (TB_PT_CFG_RX_CAP port) == 2 else 0x100 ≤ port && port < 0x104 && s.f (TB_PT_CFG_RX_CAP port) == 1
def capTx (s : State) (port : Nat) : Bool := port < 0x104 && tbPort port && s.f (TB_PT_CFG_TX_CAP port) == 1

/-- POP of the selected FIFO; an empty one is left (R225). PT_SEL naming no port: bus error (R238). -/
def ptPop (s : State) (m : Nat) (tx : Bool) : State :=
  let port := s.g (TB_PT_SEL_PORT m)
  if !s.usable 0x3000 || !tbPort port then s.answer m false []
  else
    let p := s.ptOf port
    (s.setPt port (if tx then { p with tx := p.tx.tail } else { p with rx := p.rx.tail })).answer m true []

/-- Byte `i` of a frame. -/
def fb (l : List Byte) (i : Nat) : Nat := (l.getD i 0).toNat
def fb16 (l : List Byte) (i : Nat) : Nat := 256 * fb l i + fb l (i + 1)

/-- Where the Ethertype stands, after up to two VLAN tags (R226). -/
def etherAt (l : List Byte) : Nat :=
  let tag (i : Nat) : Bool := fb16 l i == 0x8100 || fb16 l i == 0x88A8
  if tag 12 then (if tag 16 then 20 else 16) else 12

/-- The PTP header of an event message: its offset, and the offset of the UDP checksum with 4 for IPv4 and 6 for IPv6 (R226). -/
def ptpHeader (l : List Byte) : Option (Nat × Nat × Nat) :=
  let e := etherAt l
  let h :=
    if fb16 l e = 0x88F7 then some (e + 2, 0, 0)
    else if fb16 l e = 0x0800 ∧ fb l (e + 2) = 0x45 ∧ fb l (e + 11) = 17 ∧ fb16 l (e + 24) = 319 then some (e + 30, e + 28, 4)
    else if fb16 l e = 0x86DD ∧ fb l (e + 8) = 17 ∧ fb16 l (e + 44) = 319 then some (e + 50, e + 48, 6)
    else none
  match h with
  | none => none
  | some x => if fb l (x.1 + 1) % 16 = 2 ∧ fb l x.1 % 16 ≤ 3 ∧ x.1 + 34 ≤ l.length then some x else none

/-- Replace `v.length` bytes from an offset. -/
def putBytes (l : List Byte) (o : Nat) (v : List Byte) : List Byte := l.take o ++ v ++ l.drop (o + v.length)

/-- `n` bytes of a number, most significant first. -/
def beBytes (v : Nat) : Nat → List Byte
  | 0 => []
  | n + 1 => BitVec.ofNat 8 (v / 256 ^ n) :: beBytes v n

/-- One's complement sum of the 16-bit words of a byte string. -/
def sum16 : List Byte → Nat
  | a :: b :: r => 256 * a.toNat + b.toNat + sum16 r
  | [a] => 256 * a.toNat
  | [] => 0

/-- A one's complement sum folded to 16 bits; two folds suffice for a frame. -/
def fold16 (x : Nat) : Nat := let y := x % 0x10000 + x / 0x10000; y % 0x10000 + y / 0x10000

/-- Update a UDP checksum over the bytes that changed, from an even offset of the datagram (R228). -/
def udpFix (l l' : List Byte) (h : Nat × Nat × Nat) : List Byte :=
  if h.2.2 = 0 then l'
  else
    let c := fb16 l h.2.1
    if h.2.2 = 4 ∧ c = 0 then l'
    else
      let old := sum16 ((l.drop h.1).take (l.length - 4 - h.1))
      let new := sum16 ((l'.drop h.1).take (l.length - 4 - h.1))
      let f := fold16 (fold16 ((0xFFFF - c) + (0xFFFF - fold16 old) + fold16 new))
      putBytes l' h.2.1 (beBytes (0xFFFF - f) 2)

/-- The FCS of a frame, least significant byte first in its last four bytes, and what the frame's bytes give (R228). -/
def fcsOf (l : List Byte) : Word :=
  BitVec.ofNat 32 (fb l (l.length - 4) + 0x100 * fb l (l.length - 3) + 0x10000 * fb l (l.length - 2) + 0x1000000 * fb l (l.length - 1))
def fcsCalc (l : List Byte) : Word := crc32 polyFcs (l.take (l.length - 4))

/-- Recompute the FCS of an altered frame; the error syndrome of the original stays (R228). -/
def fcsFix (l l' : List Byte) : List Byte :=
  let f := (fcsCalc l' ^^^ (fcsCalc l ^^^ fcsOf l)).toNat
  putBytes l' (l'.length - 4) [BitVec.ofNat 8 f, BitVec.ofNat 8 (f / 0x100), BitVec.ofNat 8 (f / 0x10000), BitVec.ofNat 8 (f / 0x1000000)]

/-- The 64-bit correctionField, with an amount in 2^-16 ns added (R227, R231). -/
def addCorrection (l : List Byte) (o : Nat) (x : Nat) : List Byte :=
  let c := (List.range 8).foldl (fun acc i => 256 * acc + fb l (o + 8 + i)) 0
  putBytes l (o + 8) (beBytes ((c + x) % 0x10000000000000000) 8)

/-- Insert an egress timestamp (R227): originTimestamp takes SEC and NS, FRAC is added to correctionField; then the checks that cover
the frame are repaired (R228). -/
def oneStep (l : List Byte) (h : Nat × Nat × Nat) (stamp : Nat) : List Byte :=
  let ns := stamp / 0x10000
  let l1 := putBytes l (h.1 + 34) (beBytes (ns / 1000000000) 6 ++ beBytes (ns % 1000000000) 4)
  fcsFix l (udpFix l (addCorrection l1 h.1 (stamp % 0x10000)) h)

/-- A queued frame leaves a timing port (R227): insertion where the control word and PT_CFG ask for it and the message is a Sync,
Delay_Req or Pdelay_Req; a capture where CAPTURE and TX_CAP select it. Disabled ports and squelched ones (R382) send idle (R239). -/
def tportSend (s : State) (p : Nat) (ctrl : Word) (frame : List Byte) (raw : Nat) : State :=
  if s.f (TPT_CFG_EN p) = 0 ∨ !s.usable (0x18000 + 0x1000 * p) ∨ s.outMode = 0 then s
  else
    let port := 0x100 + p
    let stamp := corrected s port true (s.instant raw) 0
    let h := ptpHeader frame
    let ask := ctrl.getLsbD 0
    let ins := ask && s.f (TB_PT_CFG_ONE_STEP port) == 1 && (match h with | some x => fb frame x.1 % 16 ≤ 2 | none => false)
    let out := match h with | some x => if ins then oneStep frame x stamp else frame | none => frame
    let s := if ask && !ins then s.occ (TPT_ONESTEP_SKIP_OCC_COUNT p).addr else s
    let s := match h with
      | some x => if ctrl.getLsbD 1 && capTx s port then ptPush s port true (wordGet ctrl 16 16) (fb frame x.1 % 16) ins stamp else s
      | none => s
    s.send (.tport p out)

/-- A frame arrives on a timing port (R227, R350, R351): it is stamped; an event message enters the FIFO where RX_CAP selects it; the
frame waits in the port's receive queue, or is discarded: without a count while the channel is disabled, counted in DROP_OCC while
the ring is empty. -/
def tportRecv (s : State) (p : Nat) (frame : List Byte) (raw : Nat) : State :=
  if s.f (TPT_CFG_EN p) = 0 ∨ !s.usable (0x18000 + 0x1000 * p) then s
  else
    let port := 0x100 + p
    let stamp := corrected s port false (s.instant raw) 0
    let h := ptpHeader frame
    let kind := match h with | some x => fb frame x.1 % 16 | none => 0
    let seqId := match h with | some x => fb16 frame (x.1 + 30) | none => 0
    let s := if fcsOf frame = fcsCalc frame then s else s.occ (TPT_FCS_ERR_OCC_COUNT p).addr
    let s := if h.isSome && capRx s port then ptPush s port false seqId kind false stamp else s
    let c := 4 + p
    if s.g (BMX_DMA_CFG_EN c) = 0 then s
    else if s.g (BMX_DMA_PTR_HEAD c) = s.g (BMX_DMA_PTR_TAIL c) then s.occ (BMX_DROP_OCC_COUNT c).addr
    else
      let e := stampWords stamp ++ [BitVec.ofNat 32 (seqId + 0x10000 * kind + 0x400000)]
      { s with pin := { s.pin with tpRx := tset (fun _ => []) s.pin.tpRx p (tget (fun _ => []) s.pin.tpRx p ++ [(e, frame)]) } }

/-- AVG_LOG2 of a port, above 10 as 10 (Table 10-6). -/
def avgCount (s : State) (p : Nat) : Nat := 2 ^ min 10 (s.g (TB_TT_CFG_AVG_LOG2 p))

/-- The stamp of a superframe's start marker that crosses the ball `off` after the state's time joins a port's latest 64 (R219; how
many are kept is a DESIGN CHOICE, log 78). -/
def stampIn (s : State) (p : Nat) (tx : Bool) (off k : Nat) (l : List (Nat × Nat)) : List (Nat × Nat) :=
  (k, corrected s (0x200 + p) tx (s.instant off) 0) :: l.take 63
def markerOut (s : State) (p k off : Nat) : State :=
  let g := s.gpOf p
  s.setGp p { g with deps := stampIn s p true off k g.deps }
def markerIn (s : State) (p k off : Nat) : State :=
  let g := s.gpOf p
  s.setGp p { g with arrs := stampIn s p false off k g.arrs }

/-- The message with this end's stamps of superframe `k` (R233, Table 15-5): none while its departure has no stamp. -/
def ttMessage (s : State) (p k : Nat) : Option Msg :=
  let g := s.gpOf p
  (g.deps.lookup k).map (fun d => .ttStamp k d ((g.arrs.lookup k).getD 0) (g.arrs.lookup k).isSome)

/-- A TT_STAMP message completes the exchange of superframe `k` (R233): `t2` and `t3` are the peer's arrival and departure, `t1` and
`t4` this end's, all in 2^-16 ns. A superframe of which one of the four is missing completes nothing. Twice the offset and the delay are
summed, so that the average halves once. -/
def ttStamp (s : State) (p k : Nat) (t3 t2 : Nat) (valid : Bool) : State :=
  let g := s.gpOf p
  match g.deps.lookup k, g.arrs.lookup k, valid with
  | some t1, some t4, true =>
    let a : Int := Int.ofNat t4 - Int.ofNat t3
    let b : Int := Int.ofNat t2 - Int.ofNat t1
    (s.setGp p { g with ttN := g.ttN + 1, ttOff := g.ttOff + (a - b), ttDly := g.ttDly + (a + b) }).u [(TB_TT_INFO_PEER_OK p, 1)]
  | _, _, _ => s.u [(TB_TT_INFO_PEER_OK p, 0)]

/-- The averages are published after 2^AVG_LOG2 complete exchanges (R233); the skew flags follow the latest result (R303, R329). -/
def ttPublish (s : State) (p : Nat) : State :=
  let g := s.gpOf p
  let n := avgCount s p
  if g.ttN < n then s
  else
    let off := g.ttOff / (2 * Int.ofNat g.ttN)
    let dly := g.ttDly / (2 * Int.ofNat g.ttN)
    let skew := decide (4 * 0x10000 < off.natAbs)
    let s := (s.setGp p { g with ttN := 0, ttOff := 0, ttDly := 0 }).result (TB_TT_CTRL_VALID p).addr false
      [(TB_TT_OFF_NS_OFF p, intBits (off / 0x10000)), (TB_TT_FRAC_OFF_FRAC p, (off % 0x10000).toNat),
       (TB_TT_FRAC_DLY_FRAC p, (dly % 0x10000).toNat), (TB_TT_DLY_NS_DLY p, intBits (dly / 0x10000)),
       (TB_TT_INFO_SAMPLES p, g.ttN)]
    let s := if p = s.mirrorPort then s.u [(TWN_STAT_TB_SKEW, bit skew)] else s
    if p = s.g GRP_STAT_MGR_PORT ∧ s.on GRP_STAT_MGR_UP then s.u [(GRP_STAT_TB_SKEW, bit skew)] else s

/-- LOAD (R211). -/
def execLoad (m : Fin 8) (s : State) : Host.Outcome State Fault Refusal :=
  done (if s.usable 0x3000 then tbLoad s m.val else s.answer m.val false [])

/-- NOW_NS_READ (R212): the read returns NS and latches the seconds for the reading master. -/
def execNowNsRead (m : Fin 8) (s : State) : Host.Outcome State Fault Refusal :=
  done (if s.usable 0x3000 then (nowRead s m.val).answer m.val true [BitVec.ofNat 32 (s.nowNs % 1000000000)]
    else s.answer m.val false [])

/-- TB_INC_WRITE (R213). -/
def execTbIncWrite (m : Fin 8) (v : Word) (s : State) : Host.Outcome State Fault Refusal :=
  done (if s.usable 0x3000 then incWrite s m.val v else s.answer m.val false [])

/-- SLEW_STEP (R215): the time base runs to the next 1,000th cycle and adds or withholds one nanosecond there, where that cycle comes
before the next 1 µs tick. -/
def execSlewStep (s : State) : Host.Outcome State Fault Refusal :=
  let n := 1000 - s.tb.slewCnt
  if s.running ∧ s.stepRem ≠ 0 ∧ timeAfter s.tb.t s.tb.inc s.tb.slewCnt s.stepRem n < (s.nowNs / 1000 + 1) * 1000 * 0x100000000 then
    done (tbAdvance s n)
  else done s

/-- HOLDOVER (R216): HO_WIN seconds of time-base time without a discipline event; never with HO_WIN = 0 or while stopped. -/
def execHoldover (s : State) : Host.Outcome State Fault Refusal :=
  let w := s.g TB_CFG_HO_WIN
  if s.running ∧ w ≠ 0 ∧ s.tb.disc + w * 1000000000 * 0x100000000 ≤ s.tb.t then done (s.u [(TB_STAT_HOLDOVER, 1)]) else done s

/-- PORT_TIMESTAMP (R224): an event the port's PT_CFG selects. -/
def execPortTimestamp (port : Fin 1024) (tx : Bool) (id kind raw deskew : Nat) (s : State) : Host.Outcome State Fault Refusal :=
  if (if tx then capTx s port.val else capRx s port.val) then
    done (ptPush s port.val tx id kind false (corrected s port.val tx (s.instant raw) deskew))
  else done s

/-- RX_POP (R225). -/
def execRxPop (m : Fin 8) (s : State) : Host.Outcome State Fault Refusal := done (ptPop s m.val false)

/-- TX_POP (R225). -/
def execTxPop (m : Fin 8) (s : State) : Host.Outcome State Fault Refusal := done (ptPop s m.val true)

/-- TIMING_PORT_FRAME_TX (R227). -/
def execTimingPortFrameTx (p : Fin 4) (ctrl : Word) (frame : List Byte) (raw : Nat) (s : State) :
    Host.Outcome State Fault Refusal := done (tportSend s p.val ctrl frame raw)

/-- TIMING_PORT_FRAME_RX (R227). -/
def execTimingPortFrameRx (p : Fin 4) (frame : List Byte) (raw : Nat) (s : State) : Host.Outcome State Fault Refusal :=
  done (tportRecv s p.val frame raw)

/-- TT_STAMP_RX (R233, R341): the peer's stamps of superframe `k`. This end's stand in the state, so the last two operands say nothing
that it uses. -/
def execTtStampRx (e : Env) (k departure arrival : Nat) (valid : Bool) (_ownDeparture _ownArrival : Nat) (s : State) :
    Host.Outcome State Fault Refusal :=
  let r := s.recvMsg e false false
  done (if r.2 then ttStamp r.1 e.port.val k departure arrival valid else r.1)

/-- TT_RESULT (R233). -/
def execTtResult (p : Fin 8) (s : State) : Host.Outcome State Fault Refusal := done (ttPublish s p.val)

/-- An edge of PPS_IN closer than 1 µs to the edge taken before it is ignored (R424). -/
def ppsNear (s : State) (x : Nat) : Bool := s.pin.ppsIn.any (fun y => decide ((Int.ofNat x - Int.ofNat y).natAbs < 65536000))

/-- PPS_IN_EDGE (R234): an active edge, of the polarity of IN_POL, while IN_EN is set. -/
def execPpsInEdge (falling : Bool) (raw : Nat) (s : State) : Host.Outcome State Fault Refusal :=
  if s.on TB_PPS_CFG_IN_EN ∧ s.on TB_PPS_CFG_IN_POL = falling ∧ !ppsNear s (s.instant raw) then
    let w := stampWords (s.instant raw)
    done (({ s with pin := { s.pin with ppsIn := some (s.instant raw) } }.result (TB_PPS_IN_CTRL_VALID).addr false
      [(⟨0x3068, 0, 32⟩, (w.getD 0 0).toNat), (⟨0x306C, 0, 32⟩, (w.getD 1 0).toNat), (⟨0x3070, 0, 32⟩, (w.getD 2 0).toNat)]).occ 0x3074)
  else done s

/-- PPS_PULSE_START (R235): the earliest edge due before the next 1 µs tick; the time base runs to its instant. A pulse in progress
restarts with the new width and polarity; a ToD send that is armed has its edge. -/
def execPpsPulseStart (s : State) : Host.Outcome State Fault Refusal :=
  match s.pin.pps with
  | [] => done s
  | e :: r =>
    if s.running ∧ e.start < (s.nowNs / 1000 + 1) * 1000 then
      let t := tbReach s e.start
      done ({ t with pin := { t.pin with pps := r, pulse := some e.low, todEdge := t.on TB_TOD_CMD_ARM || t.pin.todEdge } }.u
        [(TB_PPS_OUT_STAT_LEVEL, bit (!e.low))])
    else done s

/-- PPS_PULSE_END (R235): the output returns to the opposite level. -/
def execPpsPulseEnd (s : State) : Host.Outcome State Fault Refusal :=
  match s.pin.pulse with
  | none => done s
  | some back => done ({ s with pin := { s.pin with pulse := none } }.u [(TB_PPS_OUT_STAT_LEVEL, bit back)])

/-- ARM (R236). -/
def execArm (m : Fin 8) (s : State) : Host.Outcome State Fault Refusal :=
  done (s.command m.val TB_TOD_CMD_ARM (fun t =>
    { t with pin := { t.pin with todEdge := false, todSending := false } }.u [(TB_TOD_CMD_ARM, 1), (TB_TOD_STAT_TX_ABANDON, 0)]))

/-- The first TX_LEN bytes of TOD_TXBUF, at most 64 (R236). -/
def todBytes (s : State) : List Byte :=
  (List.range (min 64 (s.g TB_TOD_CFG_TX_LEN))).map (fun i => BitVec.ofNat 8 (s.g (TB_TOD_TXBUF_BYTES (i / 4)) / 256 ^ (i % 4)))

/-- TOD_SEND_START (R236): after the edge that followed ARM. -/
def execTodSendStart (s : State) : Host.Outcome State Fault Refusal :=
  if s.on TB_TOD_CMD_ARM ∧ s.pin.todEdge ∧ !s.pin.todSending then
    done ({ s with pin := { s.pin with todSending := true } }.send (.tod (todBytes s)))
  else done s

/-- TOD_SEND_DONE (R236): ARM clears with the last stop bit. -/
def execTodSendDone (s : State) : Host.Outcome State Fault Refusal :=
  if s.pin.todSending then
    done ({ s with pin := { s.pin with todSending := false, todEdge := false } }.u [(TB_TOD_CMD_ARM, 0)])
  else done s

/-- TX_ABANDON (R236): no edge has followed ARM. -/
def execTxAbandon (s : State) : Host.Outcome State Fault Refusal :=
  if s.on TB_TOD_CMD_ARM ∧ !s.pin.todEdge then done (s.u [(TB_TOD_CMD_ARM, 0), (TB_TOD_STAT_TX_ABANDON, 1)]) else done s

/-- The little-endian word of four bytes of a buffer from byte `4k`. -/
def leWord (l : List Byte) (k : Nat) : Nat :=
  fb l (4 * k) + 0x100 * fb l (4 * k + 1) + 0x10000 * fb l (4 * k + 2) + 0x1000000 * fb l (4 * k + 3)

/-- TOD_RX_MESSAGE (R236): up to 64 bytes, the stamp of the first start bit; more bytes are discarded and OVERRUN set. -/
def execTodRxMessage (bytes : List Byte) (raw : Nat) (s : State) : Host.Outcome State Fault Refusal :=
  if !s.usable 0x3000 ∨ bytes.isEmpty then done s
  else
    let w := stampWords (s.instant raw)
    let b := bytes.take 64
    done (s.result (TB_TOD_RX_CTRL_VALID).addr false
      ([(⟨0x30A0, 0, 32⟩, (w.getD 0 0).toNat), (⟨0x30A4, 0, 32⟩, (w.getD 1 0).toNat), (⟨0x30A8, 0, 32⟩, (w.getD 2 0).toNat),
        (TB_TOD_RX_INFO_LEN, b.length), (TB_TOD_RX_INFO_OVERRUN, bit (decide (64 < bytes.length)))] ++
       (List.range 16).map (fun k => (TB_TOD_RXBUF_BYTES k, leWord b k))))

/-- TIMING_PORT_LINK_CHANGE (R239): LINK, LF and RF follow the port; a link needs a locked port PLL. Recovered-clock squelch follows
LINK where it is read (R237). -/
def execTimingPortLinkChange (p : Fin 4) (link lf rf : Bool) (s : State) : Host.Outcome State Fault Refusal :=
  done (s.u [(TPT_STAT_LINK p.val, bit link), (TPT_STAT_LF p.val, bit lf), (TPT_STAT_RF p.val, bit rf)])

end Sys2Proof.Machine
end

