-- ==== Sys2Proof/Machine/Mapping.lean ====
section
/-!
DEFINITION. Mapping into and out of slots (08_mapping.md R152 to R181): container banks and their windows, CHECK, bank changes, the
slot carrier's checks, the pointer processor's elastic stores, Ethernet clients over GFP-F, VCAT and LCAS.
-/

namespace Sys2Proof.Machine

open Sys2Proof

/-! ### CHECK -/

/-- Tributary slots of a HO ODU by header format (Table 8-5): OTU1 to OTU4. -/
def hoSlots (fmt : Nat) : Nat := if fmt = 9 then 2 else if fmt = 0xA then 8 else if fmt = 0xC then 32 else if fmt = 0xD then 80 else 0

/-- The THROUGH container of an OTU header (Table 8-2). -/
def throughType (fmt : Nat) : Nat := if fmt = 9 then 7 else if fmt = 0xA then 8 else if fmt = 0xC then 10 else if fmt = 0xD then 11 else 0

/-- Tributary slots of an LO ODU in a HO ODU (Table 8-5), as least and most; `none` where it is not permitted. -/
def loCount (fmt ty : Nat) : Option (Nat × Nat) :=
  let n := hoSlots fmt
  if ty = 6 ∧ n ≠ 0 then some (1, 1)
  else if ty = 7 ∧ 8 ≤ n then some (2, 2)
  else if ty = 8 ∧ 32 ≤ n then some (8, 8)
  else if ty = 9 ∧ 32 ≤ n then some (if n = 32 then 9 else 8, if n = 32 then 9 else 8)
  else if ty = 10 ∧ n = 80 then some (31, 31)
  else if ty = 12 ∧ 8 ≤ n then some (1, n)
  else none

/-- The types that a sole entry may have under a header format (Table 8-2). -/
def soleTypes (fmt : Nat) : List Nat :=
  if fmt = 0xB then [9] else if fmt = 0xE then [14, 6] else if fmt = 0xF then [14, 9] else if fmt = 0x10 then [14, 12] else []

/-- TSMASK of an entry, 80 bits. -/
def State.tsMask (s : State) (k : Nat) : Nat :=
  s.g (contMask0 k) + 0x100000000 * s.g (contMask1 k) + 0x10000000000000000 * s.g (contMask2 k)

/-- The slots against which CHECK tests a run (R156). -/
def checkSlots (fmt : Nat) : Nat := if fmt = 0xC ∨ fmt = 0xD then 2048 else 512

/-- The structure rules of Table 8-2 for one used entry, in the order of R156; 0 passes. `before` are the used entries before it. -/
def checkEntry (s : State) (c b fmt : Nat) (before : List Nat) (e : Nat) : Nat :=
  let k := contKey c b e
  let t := s.g (contType k)
  let st := s.g (contStart k)
  let n := s.contSlots c b e false
  let ts := s.tsMask k
  let key (i : Nat) : Nat := contKey c b i
  let sdh := fmtFam fmt == .sdh && fmt != 0
  let through := throughType fmt != 0 && t == throughType fmt
  let sole := through || (soleTypes fmt).contains t
  let mux := (loCount fmt t).isSome
  let was := before.any (fun i => s.g (contType (key i)) == throughType fmt)
  if checkSlots fmt = 2048 ∧ c % 12 % 4 ≠ 0 then 0x09
  else if !((sdh && decide (1 ≤ t) && decide (t ≤ 5)) || sole || mux) || (sole && !before.isEmpty) || (was && throughType fmt != 0) then 0x06
  else if (sdh ∧ st % n ≠ 0) ∨ (sole ∧ st ≠ 0) then 0x03
  else if t = 12 ∧ s.g (contNsl k) = 0 then 0x07
  else if (if sdh then stsOf (fmtRate fmt) else checkSlots fmt) < st + n then 0x02
  else if before.any (fun i => decide (st < s.g (contStart (key i)) + s.contSlots c b i false) &&
      decide (s.g (contStart (key i)) < st + n)) then 0x01
  else if ((through || (soleTypes fmt).contains t && fmt == 0xB) && ts != 0) then 0x05
  else if mux && !through && !(match loCount fmt t with
      | some (a, z) => ts != 0 && decide (ts < 2 ^ hoSlots fmt) && decide (a ≤ popCount ts 80) && decide (popCount ts 80 ≤ z) &&
          before.all (fun i => s.tsMask (key i) &&& ts == 0 && s.g (contTpn (key i)) != s.g (contTpn k)) &&
          decide (1 ≤ s.g (contTpn k)) && decide (s.g (contTpn k) ≤ hoSlots fmt)
      | none => false) then 0x05
  else if s.g (contEgsrc k) ≠ 0 ∧ t ≠ 1 then 0x0A
  else 0

/-- The entries in order, with those before each. -/
def checkEntries (s : State) (c b fmt : Nat) : List Nat → List Nat → Option (Nat × Nat)
  | _, [] => none
  | before, e :: r =>
    let x := checkEntry s c b fmt before e
    if x = 0 then checkEntries s c b fmt (before ++ [e]) r else some (x, e)

/-- The first uncovered offset of a SONET/SDH bank that has a used entry (COVER). -/
def checkCover (s : State) (c b fmt : Nat) (l : List Nat) : Option Nat :=
  if l.isEmpty || fmtFam fmt != .sdh || fmt == 0 then none
  else (List.range (stsOf (fmtRate fmt))).find? (fun o => !(l.any (fun e =>
    decide (s.g (contStart (contKey c b e)) ≤ o) && decide (o < s.g (contStart (contKey c b e)) + s.contSlots c b e false))))

/-- CHECK's verdict (R156): code and entry. -/
def checkBank (s : State) (c b : Nat) : Nat × Nat :=
  let fmt := s.g (bankFmt c b)
  let l := s.used c b
  match checkEntries s c b fmt [] l with
  | some x => x
  | none => match checkCover s c b fmt l with
    | some o => (0x04, o)
    | none => (0, 0)

/-! ### The mapping window -/

/-- The CHECKED flag of a bank (R153). -/
def bankChecked (c b : Nat) : Fld := bitOf (LGC_BANK_STAT_CHECKED (c / 12)) (2 * (c % 12) + b)

/-- A write of MAP_CFG that waits names bank `b`, or a dispatched CFG_WRITE does (R154). -/
def bankAwaited (s : State) (c b : Nat) : Bool :=
  let a := (CH_MAP_CFG_RX_BANK c).addr
  s.pend.any (fun p => p.addr == a && ((p.mask.getLsbD 0 && s.g (CH_MAP_CFG_RX_BANK c) == b) ||
      (p.mask.getLsbD 1 && s.g (CH_MAP_CFG_TX_BANK c) == b))) ||
    s.plk.sent.any (fun x => x.items.any (fun i => i.kind == 4 && plainAddr i.target == a &&
      (let v := (aliasWord (aliasOf i.target) (s.rd a) (BitVec.ofNat 32 i.arg)).toNat
       (v % 2 == b && s.rxBank c != b) || (v / 2 % 2 == b && s.txBank c != b))))

/-- A bank that no WRITE may change (R154). -/
def bankProtected (s : State) (c b : Nat) : Bool := s.rxBank c == b || s.txBank c == b || bankAwaited s c b

/-- A WRITE or CHECK of the window, which alters region fields (R302). -/
def windowRegion (s : State) (m : Nat) (c : Fld) (running : Bool) (k : State → State) : State :=
  s.regionCmd m c (fun t => if running then t.wlost m (c.addr % 0x100000000) else k t)

/-- Another command of the window runs (R179): the command is ignored and counted in PG_WLOST (Table 2-6). -/
def windowCmd (s : State) (m : Nat) (c : Fld) (running : Bool) (k : State → State) : State :=
  s.command m c (fun t => if running then t.wlost m (c.addr % 0x100000000) else k t)

/-- The channel is out of range or a bonded member (0x09). -/
def mwBadCh (s : State) (lg : Nat) : Bool :=
  decide (12 ≤ s.g (LGC_MW_SEL_CH lg)) || s.bonded (lg * 12 + s.g (LGC_MW_SEL_CH lg))

/-- A container entry as MW_CMD.READ shows it (R180): NSL reads the slot count, counters from the holding copies with SRC. -/
def mwImage (s : State) (c b e : Nat) (src : Bool) : List Nat :=
  let k := contKey c b e
  (List.range 9).map (fun i =>
    let w := (s.rd ((if src && decide (5 ≤ i) then heldKey k else k) + 4 * i)).toNat
    if i = 0 ∧ e ≠ 255 then w % 0x8000 + 0x8000 * (s.contSlots c b e false % 0x800) else w)

def mwReadCmd (s : State) (lg : Nat) : State :=
  let bad := mwBadCh s lg
  let im := mwImage s (lg * 12 + s.g (LGC_MW_SEL_CH lg)) (s.g (LGC_MW_SEL_BANK lg)) (s.g (LGC_MW_SEL_IDX lg)) (s.g (LGC_MW_SEL_SRC lg) == 1)
  s.result (LGC_MW_CTRL_VALID lg).addr bad ([(LGC_MW_CODE_CODE lg, if bad then 0x09 else 0), (LGC_MW_CODE_ENT lg, 0)] ++
    if bad then [] else im.zipIdx.map (fun p => (LGC_MW_D_DATA lg p.2, p.1)))

/-- MW_CMD.WRITE (R153, R154, R180). -/
def mwWriteCmd (s : State) (lg : Nat) : State :=
  let c := lg * 12 + s.g (LGC_MW_SEL_CH lg)
  let b := s.g (LGC_MW_SEL_BANK lg)
  let e := s.g (LGC_MW_SEL_IDX lg)
  let code := if mwBadCh s lg then 0x09 else if s.g (LGC_MW_SEL_SRC lg) = 1 ∨ bankProtected s c b then 0x08 else 0
  let d (i : Nat) : Word := s.rd (LGC_MW_D_DATA lg i).addr
  let k := contKey c b e
  let s := if code ≠ 0 then s
    else if e = 255 then s.u [(bankFmt c b, wordGet (d 0) 0 5), (bankChecked c b, 0)]
    else
      let flex := wordGet (d 0) 11 4 == 12
      (((((s.setWord k (d 0 &&& if flex then 0x03FFFFFF else 0x7FFF)).setWord (k + 4) (d 1)).setWord (k + 8) (d 2)).setWord (k + 12)
        (d 3 &&& 0x07FFFFFF)).u [(bankChecked c b, 0), (contCnt k 0, (d 5).toNat), (contCnt k 1, (d 6).toNat), (contCnt k 2, (d 7).toNat),
          (contCnt k 3, (d 8).toNat)])
  s.result (LGC_MW_CTRL_VALID lg).addr (code != 0) [(LGC_MW_CODE_CODE lg, code), (LGC_MW_CODE_ENT lg, 0)]

/-- MW_CMD.CHECK starts (R179); a channel that has no banks to check fails at once. -/
def checkStart (s : State) (lg : Nat) : State :=
  if mwBadCh s lg then
    s.result (LGC_MW_CTRL_VALID lg).addr true [(LGC_MW_CODE_CODE lg, 0x09), (LGC_MW_CODE_ENT lg, 0)]
  else
    ({ s with chk := tset (fun _ => 0) s.chk lg (2 * s.g (LGC_MW_SEL_CH lg) + s.g (LGC_MW_SEL_BANK lg) + 1) }.begin
      (LGC_MW_CTRL_VALID lg).addr).u [(LGC_MW_CMD_CHECK lg, 1)]

/-- CHECK ends (R156). -/
def checkEnd (s : State) (lg : Nat) : State :=
  let x := tget (fun _ => 0) s.chk lg
  if x = 0 then s
  else
    let c := lg * 12 + (x - 1) / 2
    let b := (x - 1) % 2
    let r := checkBank s c b
    ({ s with chk := tset (fun _ => 0) s.chk lg 0 }.result (LGC_MW_CTRL_VALID lg).addr (r.1 != 0)
      [(LGC_MW_CODE_CODE lg, r.1), (LGC_MW_CODE_ENT lg, r.2)]).u [(LGC_MW_CMD_CHECK lg, 0), (bankChecked c b, bit (r.1 == 0))]

/-! ### Banks in force -/

/-- Two entries name the same container (R155). -/
def sameCont (s : State) (k l : Nat) : Bool :=
  s.g (contType k) == s.g (contType l) && s.g (contStart k) == s.g (contStart l) && s.g (contNsl k) == s.g (contNsl l) &&
    s.tsMask k == s.tsMask l && s.g (contTpn k) == s.g (contTpn l)

/-- The entry carries an ODU (Table 8-1). -/
def isOdu (t : Nat) : Bool := 6 ≤ t && t ≤ 12

/-- Some entry in force reports a fault (MAP_STAT.CONT_FAULT); the headers fit the formats (R155). -/
def mapRefresh (s : State) (c : Nat) : State :=
  let rx := (s.used c (s.rxBank c)).any (fun e => s.on (contRxFault (contKey c (s.rxBank c) e)))
  let tx := (s.used c (s.txBank c)).any (fun e => s.on (contTxFault (contKey c (s.txBank c) e)))
  s.u [(CH_MAP_STAT_RX_FMT_MIS c, bit (!s.rxFits c)), (CH_MAP_STAT_TX_FMT_MIS c, bit (!s.txFits c)),
    (CH_MAP_STAT_CONT_FAULT c, bit (rx || tx))]

/-- A fault flag of a container rises or falls; a rise counts in MAP_OCC. -/
def contFault (s : State) (c : Nat) (f : Fld) (b : Bool) : State :=
  let s := if b ∧ !s.on f then s.occ (CH_MAP_OCC_COUNT c).addr else s
  s.u [(f, bit b)]

/-- Forget what the paths in a run of slots have accepted (R110, R111: since the bank that carries the path came into force). -/
def pathsForget (s : State) (c st n : Nat) : State :=
  { pathsClear s ((s.chPaths c).filter (fun ix => decide (st ≤ ix / 32 % 2048) && decide (ix / 32 % 2048 < st + n))) with mon := s.mon.filter (fun p =>
      !(decide (0x10000 ≤ p.1) && (p.1 - 0x10000) / 8 / 32 / 2048 == c && decide (st ≤ (p.1 - 0x10000) / 8 / 32 % 2048) &&
        decide ((p.1 - 0x10000) / 8 / 32 % 2048 < st + n))) }

/-- The stores of the containers in a run of ingress slots start empty. -/
def storesForget (s : State) (g n : Nat) : State :=
  let out (k : Nat) : Bool := decide (k < g) || decide (g + n ≤ k)
  { s with spe := s.spe.filter (fun p => out p.1), odu := s.odu.filter (fun p => out p.1) }

/-- The remapper of an egress container, by the key of its entry. -/
def carReset : Car := { bad := 0, good := 0, clean := 0 }
def State.carOf (s : State) (k : Nat) : Car := tget (fun _ => carReset) s.car k
def State.setCar (s : State) (k : Nat) (x : Car) : State := { s with car := tset (fun _ => carReset) s.car k x }

/-- A bank comes into force in a direction (R155): a container that both banks have continues; every other starts afresh, with ACQ set
while it is acquired (at egress a native path needs no acquisition). -/
def bankChange (s : State) (c : Nat) (tx : Bool) (b : Nat) : State :=
  let old := if tx then s.txBank c else s.rxBank c
  if old = b then s
  else
    let kept (e : Nat) : Option Nat := (s.used c old).find? (fun o => sameCont s (contKey c b e) (contKey c old o))
    let one (t : State) (e : Nat) : State :=
      let k := contKey c b e
      match kept e with
      | some o =>
        let ko := contKey c old o
        if tx then
          (t.setCar k (t.carOf ko)).u
            [(contTxFault k, t.g (contTxFault ko)), (contCntLoss k, t.g (contCntLoss ko)), (contCsqErr k, t.g (contCsqErr ko)),
             (contKindErr k, t.g (contKindErr ko)), (contTxAcq k, t.g (contTxAcq ko))]
        else t.u [(contRxFault k, t.g (contRxFault ko)), (contMsim k, t.g (contMsim ko)), (contRxAcq k, t.g (contRxAcq ko))]
      | none =>
        if tx then
          (t.setCar k carReset).u
            [(contTxFault k, 0), (contCntLoss k, 0), (contCsqErr k, 0), (contKindErr k, 0), (contTxAcq k, bit (isOdu (t.g (contType k))))]
        else (storesForget (pathsForget t c (t.g (contStart k)) (t.contSlots c b e false)) (512 * c + t.g (contStart k))
            (t.contSlots c b e false)).u [(contRxFault k, 0), (contMsim k, 0), (contRxAcq k, 1)]
    let s := (s.used c b).foldl one s
    mapRefresh (s.u [(if tx then CH_MAP_STAT_TX_IN_FORCE c else CH_MAP_STAT_RX_IN_FORCE c, b)]) c

/-- MAP_CFG has come into force: the banks follow (R155). -/
def mapLand (s : State) (c : Nat) : State :=
  bankChange (bankChange s c false (s.f (CH_MAP_CFG_RX_BANK c))) c true (s.f (CH_MAP_CFG_TX_BANK c))

/-- CONTAINER_ACQUIRED (R155): the demapper or the remapper has acquired the container in force. -/
def contAcquired (s : State) (c e : Nat) (tx : Bool) : State :=
  s.u [(if tx then contTxAcq (contKey c (s.txBank c) e) else contRxAcq (contKey c (s.rxBank c) e), 0)]

/-- The received MSI against the RX bank (R167): a slot of the entry that carries another port, or a slot outside it that carries its
port, is MSIM. -/
def msiFrame (s : State) (c : Nat) (msi : List Nat) : State :=
  if !s.rxFits c then s
  else
    mapRefresh ((s.used c (s.rxBank c)).foldl (fun t e =>
      let k := contKey c (t.rxBank c) e
      let ts := t.tsMask k
      if ts = 0 then t
      else
        let bad := (List.range (hoSlots (t.g (bankFmt c (t.rxBank c))))).any (fun i =>
          (ts / 2 ^ i % 2 == 1) != (msi.getD i 0 == t.g (contTpn k)))
        (contFault t c (contRxFault k) bad).u [(contMsim k, bit bad)]) s) c

/-- Line justifications of a path, and uncorrectable justification control of an LO ODU, in the container's counters (R159, R167). -/
def contFrame (c : Nat) (s : State) (p : PathObs) : State :=
  if p.trib ≠ 0 ∨ !s.rxFits c then s
  else
    match s.contAt c p.idx false with
    | none => s
    | some e =>
      let k := contKey c (s.rxBank c) e
      if isOdu (s.g (contType k)) then (if p.jcBad then s.pmAdd (contCnt k 0) 1 else s)
      else
        let s := if p.pj then s.pmAdd (contCnt k 0) 1 else s
        if p.nj then s.pmAdd (contCnt k 1) 1 else s

/-- The slot carrier's checks of one egress container in a system frame (R165). -/
def carFrame (s : State) (o : CarObs) : State :=
  let c := o.c
  let k := contKey c (s.txBank c) o.e
  if 192 ≤ c ∨ 255 ≤ o.e ∨ !s.txFits c ∨ !isOdu (s.g (contType k)) then s
  else
    -- point 0x11: CHK spoilt in as many members as PARAM says
    let inj := injUnit s 0x11 1 (fun i => bitsOf i 0 8 == c && bitsOf i 8 11 == s.g (contStart k)) 1
    let s := inj.2
    let o := if inj.1.1 ≠ 0 ∧ s.contSlots c (s.txBank c) o.e true ≤ inj.1.2 then { o with chk := false } else o
    let x := s.carOf k
    let bad := if o.chk then 0 else x.bad + 1
    let good := if o.chk then x.good + 1 else 0
    let clean := if o.csq || (o.kind && !o.fill) then 0 else x.clean + 1
    let loss := (s.on (contCntLoss k) && good < 3) || 3 ≤ bad
    let csq := o.csq || (s.on (contCsqErr k) && clean < 2)
    let kind := (o.kind && !o.fill) || (s.on (contKindErr k) && clean < 2)
    let was := s.on (contTxFault k)
    let now := loss || csq || kind
    let s := s.setCar k { x with bad := min 3 bad, good := min 3 good, clean := min 2 clean, sync := x.sync && !now }
    let s := if o.chk then s else s.pmAdd (contCnt k 1) 1
    let s := if o.csq then s.pmAdd (contCnt k 2) 1 else s
    let s := if now then s.pmAdd (contCnt k 3) 1 else s
    mapRefresh ((contFault s c (contTxFault k) now).u [(contCntLoss k, bit loss), (contCsqErr k, bit csq), (contKindErr k, bit kind),
      (contTxAcq k, if was && !now then 1 else s.g (contTxAcq k))]) c

/-! ### Ethernet clients -/

def gfpReset : Gfp := { q := [], out := [], scr := [], sync := 0, csf := false, full := false }
def State.gfpOf (s : State) (c : Nat) : Gfp := tget (fun _ => gfpReset) s.gfp c
def State.setGfp (s : State) (c : Nat) (g : Gfp) : State := { s with gfp := tset (fun _ => gfpReset) s.gfp c g }

/-- The channel names a mapper that serves a lower-numbered channel of its LG (R170); a bonded member's CL_CFG counts for nothing
(R178). -/
def State.noMapper (s : State) (c : Nat) : Bool :=
  let m := s.f (CH_CL_CFG_MAPPER c)
  m != 3 && (List.range (c % 12)).any (fun i => !s.bonded (c / 12 * 12 + i) && s.f (CH_CL_CFG_MAPPER (c / 12 * 12 + i)) == m)
def State.hasMapper (s : State) (c : Nat) : Bool := !s.bonded c && s.f (CH_CL_CFG_MAPPER c) != 3 && !s.noMapper c

/-- The format of a channel's line slots: the admitted one, or out of service that whose replacement signal they carry (Table 4-4). -/
def State.inFmt (s : State) (c : Nat) : Nat := if s.disc c = 6 then s.g (CH_DISC_STAT_ADM_FMT c) else (s.lane c).repl

/-- The RX bank names that format. -/
def State.inFits (s : State) (c : Nat) : Bool := s.g (bankFmt c (s.rxBank c)) == s.inFmt c

/-- The type of the client's container at ingress and egress; 0 none. -/
def clientType (s : State) (c : Nat) (tx : Bool) : Nat :=
  if (if tx then s.txFits c && fmtFam (s.f (CH_TX_CFG_TX_FMT c)) == .eth else s.inFits c && fmtFam (s.inFmt c) == .eth) then
    match s.used c (if tx then s.txBank c else s.rxBank c) with
    | e :: _ => s.g (contType (contKey c (if tx then s.txBank c else s.rxBank c) e))
    | [] => 0
  else 0

/-- The descriptor bound in a direction, and whether a mapped client binds it (R174). -/
def boundGrp (s : State) (c : Nat) (sink : Bool) : Nat := s.f (if sink then CH_CL_CFG_SNK_GRP c else CH_CL_CFG_SRC_GRP c)
def isBound (s : State) (c : Nat) (sink : Bool) : Bool := s.hasMapper c && clientType s c sink == 14

/-- A bound descriptor fails its client (R174, R175, R275): direction, size, an unprovisioned or failed group, or no batt store. -/
def grpBad (s : State) (c : Nat) (sink : Bool) : Bool :=
  let k := vgKey (c / 12) (boundGrp s c sink)
  s.f (vgEn k) == 0 || s.f (vgDir k) != bit sink || decide (512 < s.f (vgNmem k) * s.vgW k) ||
    (if s.f (vgLcas k) = 1 then s.on (vgTlct k)
     else s.on (vgLoa k) || s.on (vgSqm k) ||
       s.f (vgProv k) + 0x100000000 * s.f (vgProvHi k) != 2 ^ s.f (vgNmem k) - 1) ||
    (sink && !s.ready 0xB000)

/-- CL_STAT of a channel follows (Table 8-9). -/
def clRefresh (s : State) (c : Nat) : State :=
  let snk := isBound s c true
  let src := isBound s c false
  let g := s.gfpOf c
  s.u [(CH_CL_STAT_NO_MAPPER c, bit (!s.bonded c && s.noMapper c)), (CH_CL_STAT_GFP_LOF c, bit (snk && g.sync != 2)), (CH_CL_STAT_CSF_RX c, bit g.csf),
    (CH_CL_STAT_GRP_FAIL c, bit ((snk && grpBad s c true) || (src && grpBad s c false))), (CH_CL_STAT_Q_FULL c, bit g.full)]

/-- CL_CFG of a channel has come into force: the mapper's other channels in the LG follow (R170). -/
def clLand (s : State) (c : Nat) : State := (List.range 12).foldl (fun t i => clRefresh t (c / 12 * 12 + i)) s

/-- Consequent action 9 is active, or the channel is not IN_SERVICE (R173). -/
def csfApplies (s : State) (c : Nat) : Bool := s.disc c != 6 || tget (fun _ => 0) s.ca c / 2 ^ 9 % 2 == 1

/-- Queue capacity of a mapper in bytes (R172). -/
def gfpQueueMax : Nat := 262144

/-- messageTypeSpecific of a PTP header (R231). -/
def msgSpecific (l : List Byte) (o : Nat) : Nat := fb16 l (o + 16) * 0x10000 + fb16 l (o + 18)

/-- A split transparent clock at client ingress (R231): the ingress time enters messageTypeSpecific; a field that is not 0 passes and
is counted. -/
def tcIngress (s : State) (c : Nat) (frame : List Byte) (raw : Nat) : List Byte × State :=
  match ptpHeader frame with
  | none => (frame, s)
  | some h =>
    if s.f (TB_PT_CFG_TC c) = 0 then (frame, s)
    else if msgSpecific frame h.1 ≠ 0 then (frame, ptLost s c)
    else
      let ns := corrected s c false (s.instant raw) 0 / 0x10000
      let v := 0x80000000 + 0x40000000 * (ns / 1000000000 % 2) + ns % 1000000000
      let l := putBytes frame (h.1 + 16) (beBytes v 4)
      (fcsFix frame (udpFix frame l h), s)

/-- At client egress (R231): the residence time, modulo 2 s, is added to correctionField and the field is cleared; the digest skips
the altered bytes (R232). -/
def tcEgress (s : State) (c : Nat) (frame : List Byte) (raw : Nat) : List Byte × State :=
  match ptpHeader frame with
  | none => (frame, s)
  | some h =>
    let v := msgSpecific frame h.1
    if s.f (TB_PT_CFG_TC c) = 0 ∨ v < 0x80000000 then (frame, s)
    else
      let two := 2 * 1000000000 * 0x10000
      let was := (v / 0x40000000 % 2 * 1000000000 + v % 0x40000000) * 0x10000
      let stay := (corrected s c true (s.instant raw) 0 % two + two - was % two) % two
      let l := addCorrection (putBytes frame (h.1 + 16) [0, 0, 0, 0]) h.1 stay
      (fcsFix frame (udpFix frame l h), { s with excl := tset (fun _ => 0) s.excl c (s.sfn + 1) })

/-- A client frame reaches the mapper (R172, R231). -/
def clientFrame (s : State) (c : Nat) (frame : List Byte) (raw : Nat) : State :=
  if !isBound s c false || csfApplies s c then s
  else
    let g := s.gfpOf c
    if fcsOf frame ≠ fcsCalc frame ∨ frame.length < 64 ∨ 9600 < frame.length then s.pmAdd (CH_CL_CNT_COUNT c 3) 1
    else if gfpQueueMax < (g.q.map List.length).sum + frame.length then
      clRefresh ((s.setGfp c { g with full := true }).pmAdd (CH_CL_CNT_COUNT c 2) 1) c
    else
      let r := tcIngress s c frame raw
      (r.2.setGfp c { g with q := g.q ++ [r.1] }).pmAdd (CH_CL_CNT_COUNT c 0) 1

/-- Octets of GFP-F that a group carries in a system frame: the payload columns of each active member (G.707: 84 of an STS-1/VC-3, 260
of a VC-4), nine rows. -/
def grpCapacity (s : State) (c : Nat) : Nat :=
  let k := vgKey (c / 12) (boundGrp s c false)
  let n := if s.f (vgLcas k) = 1 then popCount (s.g (vgAct k) + 0x100000000 * s.g (vgActHi k)) 64 else s.f (vgNmem k)
  n * (if s.f (vgMtype k) = 1 then 2340 else 756)

/-- The type field of a GFP frame (R172): PTI, PFI, EXI 0 and UPI, most significant byte first. -/
def gfpType (pti : Nat) (pfi : Bool) (upi : Nat) : List Byte := [BitVec.ofNat 8 (pti * 32 + 16 * bit pfi), BitVec.ofNat 8 upi]

/-- A GFP frame as the octets of the line (R172, G.7041): the core header of length and cHEC, XOR 0xB6AB31E0; the payload area of type,
tHEC, client frame and, with PFI, pFCS, scrambled by x^43 + 1. `flip` are exclusive or'd with cHEC and tHEC. -/
def gfpOctets (f : List Byte) (flip : Nat × Nat) (reg : List Bool) : List Byte × List Bool :=
  let be (v : Nat) : List Byte := beBytes v 2
  let fcs := if (f.headD 0).getLsbD 4 then beBytes (crc32 polyFcs (f.drop 2)).toNat 4 else []
  let area := f.take 2 ++ be (hec16 (f.take 2) ^^^ flip.2) ++ f.drop 2 ++ fcs
  let core := be area.length ++ be (hec16 (be area.length) ^^^ flip.1)
  let sc := selfScramble [43] reg (area.flatMap octetBits)
  (List.zipWith (· ^^^ ·) core [0xB6, 0xAB, 0x31, 0xE0] ++ (List.range area.length).map (fun i => bitsOctet ((sc.1.drop (8 * i)).take 8)), sc.2)

/-- A GFP frame, its type header first, begins to leave a mapper; point 0x10 spoils its header checks (Table 13-5). -/
def gfpSend (s : State) (c : Nat) (f : List Byte) : State :=
  let a := injUnit s 0x10 1 (fun i => bitsOf i 0 8 == c) 1
  let flip := if a.1.1 = 0 then (0, 0) else if a.1.2 = 0 then (1, 0) else if a.1.2 = 1 then (3, 0) else (0, 3)
  let g := a.2.gfpOf c
  let l := gfpOctets f flip g.scr
  (a.2.setGfp c { g with out := g.out ++ l.1, scr := l.2 }).send (if a.1.1 = 0 then .gfp c f else .badGfp c a.1.2 f)

/-- Frames leave the queue until `need` octets stand ready, idle frames where none is queued (R172); while client signal fail is sent,
idle frames alone (R173). -/
def gfpFill (s : State) (c need : Nat) : Nat → State
  | 0 => s
  | fuel + 1 =>
    let g := s.gfpOf c
    if need ≤ g.out.length then s
    else
      match (if csfApplies s c && s.f (CH_CL_CFG_CSF_EN c) == 1 then [] else g.q) with
      | f :: r =>
        gfpFill (gfpSend (s.setGfp c { g with q := r, full := false }) c (gfpType 0 (s.f (CH_CL_CFG_PFCS c) == 1) 1 ++ f)) c need fuel
      | [] => gfpFill (s.setGfp c { g with out := g.out ++ [0xB6, 0xAB, 0x31, 0xE0] }) c need fuel

/-- The octets of the GFP stream that a group takes in a system frame. -/
def gfpTake (s : State) (c : Nat) : List Byte × State :=
  let need := grpCapacity s c
  let s := gfpFill s c need (need / 4 + 1)
  let g := s.gfpOf c
  (g.out.take need, clRefresh (s.setGfp c { g with out := g.out.drop need }) c)

/-- The sink of an Ethernet channel delivers no client frames (R170, R173). -/
def sinkFails (s : State) (c : Nat) : Bool :=
  let g := s.gfpOf c
  !s.hasMapper c ||
    (if clientType s c true = 14 then g.sync != 2 || g.csf || grpBad s c true
     else
       match s.used c (s.txBank c) with
       | e :: _ => clientType s c true == 0 || s.on (contTxFault (contKey c (s.txBank c) e)) || !(s.carOf (contKey c (s.txBank c) e)).sync
       | [] => true)

/-- What the egress lane of an Ethernet channel sends (R173): 0 client frames, 1 local fault, 2 electrical idle. -/
def ethSends (s : State) (c : Nat) : Nat :=
  if !sinkFails s c then 0 else if s.f (CH_TX_CFG_TX_FMT c) = 0xE then 2 else 1

/-- The sink delivers client frames (R173). -/
def sinkDelivers (s : State) (c : Nat) : Bool :=
  clientType s c true == 14 && !sinkFails s c

/-- A GFP frame meets the demapper (R172, R173): delineation with DELTA = 1, single-bit cHEC correction in SYNC; CSF sets CSF_RX until
a client data frame arrives. -/
def gfpRx (s : State) (c : Nat) (o : GfpObs) (raw : Nat) : State :=
  if !isBound s c true then s
  else
    -- point 0x10: header errors of the frame
    let inj := injUnit s 0x10 0 (fun i => bitsOf i 0 8 == c) 1
    let s := inj.2
    let o := if inj.1.1 = 0 then o
      else if inj.1.2 = 0 then { o with chec := if o.chec = 0 then 1 else 2 }
      else if inj.1.2 = 1 then { o with chec := 2 } else { o with thecBad := true }
    let g := s.gfpOf c
    let drop (t : State) : State := t.pmAdd (CH_CL_CNT_COUNT c 3) 1
    let serve (t : State) : State :=
      if o.thecBad then drop t
      else if o.pti = 4 then (if o.upi = 1 ∨ o.upi = 2 then t.setGfp c { t.gfpOf c with csf := true } else t)
      else if o.upi ≠ 1 ∨ (o.pfi ∧ o.pfcsBad) then drop t
      else
        let t := t.setGfp c { t.gfpOf c with csf := false }
        if sinkDelivers t c then
          let r := tcEgress t c o.payload raw
          (r.2.sendLine (.client c r.1)).pmAdd (CH_CL_CNT_COUNT c 1) 1
        else t
    let s :=
      if g.sync = 2 then
        if o.chec.val = 2 then drop (s.setGfp c { g with sync := 0 }) else serve s
      else if o.chec.val ≠ 0 then s.setGfp c { g with sync := 0 }
      else if g.sync = 0 then s.setGfp c { g with sync := 1 }
      else serve (s.setGfp c { g with sync := 2 })
    clRefresh s c

/-- A client management frame (R173). -/
def csfSend (s : State) (c : Nat) : State :=
  if isBound s c false && csfApplies s c && s.f (CH_CL_CFG_CSF_EN c) == 1 then
    gfpSend s c (gfpType 4 false (if s.chLos c then 1 else 2))
  else s

/-! ### VCAT and LCAS -/

/-- Channels of an LG that bind descriptor `g` to a mapped client (R174). -/
def grpUsers (s : State) (lg g : Nat) : List Nat :=
  ((List.range 12).map (fun i => 12 * lg + i)).filter (fun c =>
    (isBound s c true && boundGrp s c true == g) || (isBound s c false && boundGrp s c false == g))

/-- The owner number of a sink's rings (R176). -/
def vgOwner (lg g : Nat) : Nat := 0x10000 + 16 * lg + g

/-- Members that carry payload, and the group defects (R175, G.7042): without LCAS every provisioned member; with it those that have
not failed. TLCT: none of the provisioned members is active; PLCT: some are not. -/
def vgRefresh (s : State) (lg g : Nat) : State :=
  let k := vgKey lg g
  let prov := s.g (vgProv k) + 0x100000000 * s.g (vgProvHi k)
  let fail := s.g (vgFail k) + 0x100000000 * s.g (vgFailHi k)
  let lcas := s.f (vgLcas k) == 1
  let act := if s.f (vgEn k) = 0 then 0 else if lcas then prov &&& (fail ^^^ 0xFFFFFFFFFFFFFFFF) else prov
  let s := s.u [(vgAct k, act), (vgActHi k, act / 0x100000000), (vgPlct k, bit (lcas && act != 0 && act != prov)),
    (vgTlct k, bit (lcas && act == 0 && prov != 0))]
  (grpUsers s lg g).foldl clRefresh s

/-- A descriptor as VG_CMD.READ shows it. -/
def vgReadCmd (s : State) (lg : Nat) : State :=
  let k := vgKey lg (s.g (LGC_VG_SEL_GRP lg))
  s.result (LGC_VG_CTRL_VALID lg).addr false ((LGC_VG_CODE_CODE lg, 0) ::
    (List.range 9).map (fun i => (LGC_VG_D_DATA lg i, (s.rd (k + 4 * i)).toNat)))

/-- VG_CMD.WRITE (R174, R176, R181): refused for its values, for a descriptor in use, for want of rings; a sink that is enabled takes its
rings anew. A PROV change with LCAS takes effect at once, the rest at the next system frame (R36). -/
def vgWriteCmd (s : State) (lg : Nat) (late : Bool) : State :=
  let g := s.g (LGC_VG_SEL_GRP lg)
  let k := vgKey lg g
  let d (i : Nat) : Word := s.rd (LGC_VG_D_DATA lg i).addr
  let en := (d 0).getLsbD 0
  let dir := wordGet (d 0) 1 1
  let lcas := wordGet (d 0) 2 1
  let w := if wordGet (d 0) 3 1 = 1 then 3 else 1
  let n := wordGet (d 0) 4 7
  let prov := (d 2).toNat + 0x100000000 * (d 3).toNat
  let provWas := s.g (vgProv k) + 0x100000000 * s.g (vgProvHi k)
  let owner := vgOwner lg g
  let bad := n == 0 || decide (64 < n) || decide (512 < n * w) || decide (2 ^ n ≤ prov)
  let used := !(grpUsers s lg g).isEmpty && (dir != s.g (vgDir k) || wordGet (d 0) 3 1 != s.g (vgMtype k) || n != s.g (vgNmem k) ||
    (lcas == 0 && prov != provWas))
  let need := if en && dir == 1 then n * w else 0
  let code := if bad then 0x02 else if used then 0x04 else if s.ringsFree + (s.ringsOf owner).length < need then 0x03 else 0
  let s := if code ≠ 0 then s
    else
      let s := if (s.ringsOf owner).length = need then s else ringsTake (ringsDrop s owner) owner need
      let s := bufWrite (bufWrite s k 0x1FFFFF (d 0) none late) (k + 4) 0xFFFF (d 1) none late
      let s := if lcas = 1 then (s.setWord (k + 8) (d 2)).setWord (k + 12) (d 3)
        else bufWrite (bufWrite s (k + 8) 0xFFFFFFFF (d 2) none late) (k + 12) 0xFFFFFFFF (d 3) none late
      vgRefresh s lg g
  s.result (LGC_VG_CTRL_VALID lg).addr (code != 0) [(LGC_VG_CODE_CODE lg, code)]

/-- A sink member fails or returns (R175): HOLDOFF and WTR have run. -/
def lcasMember (s : State) (lg g m : Nat) (fail : Bool) : State :=
  let k := vgKey lg g
  if s.f (vgEn k) = 1 ∧ s.f (vgDir k) = 1 ∧ s.f (vgLcas k) = 1 ∧ m < s.f (vgNmem k) then
    let f := bitOf (if m < 32 then vgFail k else vgFailHi k) (m % 32)
    vgRefresh (s.u [(f, bit fail)]) lg g
  else s

/-- One system frame of a VCAT sink (R175, R176): DD_MEAS follows the delay upward at once, downward by one frame per second. -/
def vcatFrame (s : State) (sfn : Nat) (o : VcatObs) : State :=
  let k := vgKey o.lg o.g
  if 16 ≤ o.lg ∨ 16 ≤ o.g ∨ s.f (vgEn k) = 0 ∨ s.f (vgDir k) = 0 then s
  else
    let dd := s.g (vgDdMeas k)
    let lc := s.f (vgLcas k) == 1
    let most := if s.f (vgDdMax k) = 0 then 512 else s.f (vgDdMax k)
    let loa := o.loa || o.mem.any (fun x => decide (most < x.delay) || x.sf || x.lost)
    vgRefresh (s.u [(vgDdMeas k, if dd ≤ o.dd then min o.dd 1023 else if sfn % 8000 = 0 then dd - 1 else dd), (vgLoa k, bit (!lc && loa)),
      (vgSqm k, bit (!lc && o.sqm)), (vgFop k, bit (lc && o.fop))]) o.lg o.g

/-! ### Commands -/

/-- MW_READ (R179). -/
def execMwRead (m : Fin 8) (lg : Fin 16) (s : State) : Host.Outcome State Fault Refusal :=
  done (windowCmd s m (LGC_MW_CMD_READ lg) (s.on (LGC_MW_CMD_CHECK lg)) (fun t => mwReadCmd t lg))

/-- MW_WRITE (R154). -/
def execMwWrite (m : Fin 8) (lg : Fin 16) (s : State) : Host.Outcome State Fault Refusal :=
  done (windowRegion s m (LGC_MW_CMD_WRITE lg) (s.on (LGC_MW_CMD_CHECK lg)) (fun t => mwWriteCmd t lg))

/-- CHECK (R156, R179). -/
def execCheck (m : Fin 8) (lg : Fin 16) (s : State) : Host.Outcome State Fault Refusal :=
  done (windowRegion s m (LGC_MW_CMD_CHECK lg) false (fun t => checkStart t lg))

/-- CHECK_DONE (R156). -/
def execCheckDone (lg : Fin 16) (s : State) : Host.Outcome State Fault Refusal := done (checkEnd s lg)

/-- VG_READ (R181). -/
def execVgRead (m : Fin 8) (lg : Fin 16) (s : State) : Host.Outcome State Fault Refusal :=
  done (windowCmd s m (LGC_VG_CMD_READ lg) false (fun t => vgReadCmd t lg))

/-- VG_WRITE (R181). -/
def execVgWrite (m : Fin 8) (lg : Fin 16) (late : Bool) (s : State) : Host.Outcome State Fault Refusal :=
  done (windowRegion s m (LGC_VG_CMD_WRITE lg) false (fun t => vgWriteCmd t lg late))

/-- CONTAINER_ACQUIRED (R155, R165). -/
def execContainerAcquired (c : Fin 192) (e : Fin 255) (tx : Bool) (s : State) : Host.Outcome State Fault Refusal :=
  done (contAcquired s c e tx)

/-- CLIENT_FRAME_MAP (R172). -/
def execClientFrameMap (c : Fin 192) (frame : List Byte) (raw : Nat) (s : State) : Host.Outcome State Fault Refusal :=
  done (clientFrame s c frame raw)

/-- GFP_FRAME_RX (R172). -/
def execGfpFrameRx (c : Fin 192) (o : GfpObs) (raw : Nat) (s : State) : Host.Outcome State Fault Refusal := done (gfpRx s c o raw)

/-- CSF_SEND (R173). -/
def execCsfSend (c : Fin 192) (s : State) : Host.Outcome State Fault Refusal := done (csfSend s c)

/-- LCAS_MEMBER_FAIL (R175). -/
def execLcasMemberFail (lg : Fin 16) (g : Fin 16) (mem : Fin 64) (s : State) : Host.Outcome State Fault Refusal :=
  done (lcasMember s lg g mem true)

/-- LCAS_MEMBER_RESTORE (R175). -/
def execLcasMemberRestore (lg : Fin 16) (g : Fin 16) (mem : Fin 64) (s : State) : Host.Outcome State Fault Refusal :=
  done (lcasMember s lg g mem false)

end Sys2Proof.Machine
end

