-- ==== Sys2Proof/Machine/Protection.lean ====
section
/-!
DEFINITION. Protection switching and hitless paths (09_protection_hitless.md R182 to R209): selectors, their requests, the positions,
sequence keys, equalisation, delay steps and realignment, the selector window.
-/

namespace Sys2Proof.Machine

open Sys2Proof

/-- The key of selector `n`'s entry (R208) and its fields. -/
def selKey (n : Nat) : Nat := entryKey 5 n
def seEn (k : Nat) : Fld := ⟨k, 0, 1⟩
def seScheme (k : Nat) : Fld := ⟨k, 1, 2⟩
def seRevert (k : Nat) : Fld := ⟨k, 3, 1⟩
def seSdEn (k : Nat) : Fld := ⟨k, 4, 1⟩
def seEnt (k : Nat) : Fld := ⟨k, 5, 4⟩
def seHoldoff (k : Nat) : Fld := ⟨k, 9, 8⟩
def seWtr (k : Nat) : Fld := ⟨k, 17, 8⟩
def seWch (k : Nat) : Fld := ⟨k + 4, 0, 4⟩
def seWstart (k : Nat) : Fld := ⟨k + 4, 4, 11⟩
def seNslot (k : Nat) : Fld := ⟨k + 4, 15, 12⟩
def sePslot (k : Nat) : Fld := ⟨k + 8, 0, 17⟩
def seWbpath (k : Nat) : Fld := ⟨k + 12, 0, 12⟩
def sePbpath (k : Nat) : Fld := ⟨k + 12, 12, 12⟩
def seTmode (k : Nat) : Fld := ⟨k + 12, 24, 1⟩
def sePol (k : Nat) : Fld := ⟨k + 12, 25, 1⟩
def seHeadroom (k : Nat) : Fld := ⟨k + 16, 0, 16⟩
def seThr (k : Nat) : Fld := ⟨k + 16, 16, 8⟩
def seSelected (k : Nat) : Fld := ⟨k + 20, 0, 1⟩
def seBridge (k : Nat) : Fld := ⟨k + 20, 1, 1⟩
def seReq (k : Nat) : Fld := ⟨k + 20, 2, 4⟩
def seWsf (k : Nat) : Fld := ⟨k + 20, 6, 1⟩
def seWsd (k : Nat) : Fld := ⟨k + 20, 7, 1⟩
def sePsf (k : Nat) : Fld := ⟨k + 20, 8, 1⟩
def sePsd (k : Nat) : Fld := ⟨k + 20, 9, 1⟩
def seHl (k : Nat) : Fld := ⟨k + 20, 10, 3⟩
def seWlate (k : Nat) : Fld := ⟨k + 20, 13, 1⟩
def sePlate (k : Nat) : Fld := ⟨k + 20, 14, 1⟩
def seWkey (k : Nat) : Fld := ⟨k + 20, 15, 1⟩
def sePkey (k : Nat) : Fld := ⟨k + 20, 16, 1⟩
def seStepCopy (k : Nat) : Fld := ⟨k + 20, 17, 1⟩
def seWtrRun (k : Nat) : Fld := ⟨k + 20, 18, 1⟩
def seOp (k : Nat) : Fld := ⟨k + 20, 19, 4⟩
def seDiff (k : Nat) : Fld := ⟨k + 24, 0, 32⟩
def seSlackW (k : Nat) : Fld := ⟨k + 28, 0, 32⟩
def seSlackP (k : Nat) : Fld := ⟨k + 32, 0, 32⟩
def seStep (k : Nat) : Fld := ⟨k + 36, 0, 32⟩
def seRcnt (k : Nat) : Fld := ⟨k + 40, 0, 16⟩
def seRseq (k : Nat) : Fld := ⟨k + 40, 16, 16⟩
def seSwcnt (k : Nat) : Fld := ⟨k + 44, 0, 32⟩
def seRframes (k : Nat) : Fld := ⟨k + 48, 0, 32⟩

/-- A batt path's entry (Table 12-2). -/
def bpKey (p : Nat) : Nat := entryKey 6 p
def bpFirst (k : Nat) : Fld := ⟨k, 0, 17⟩
def bpNslot (k : Nat) : Fld := ⟨k, 17, 11⟩
def bpEn (k : Nat) : Fld := ⟨k + 4, 0, 1⟩
def bpMode (k : Nat) : Fld := ⟨k + 4, 1, 1⟩
def bpDelay (k : Nat) : Fld := ⟨k + 4, 2, 10⟩

def selReset : SelSt :=
  { on := false, sfN := 0, sdN := 0, freeW := 0, freeP := 0, wtrAt := 0, ask := none, once := none, lastW := [], lastP := [],
    period := 125000, src := 2 }

def State.selOf (s : State) (n : Nat) : SelSt := tget (fun _ => selReset) s.sel n
def State.setSel (s : State) (n : Nat) (x : SelSt) : State := { s with sel := tset (fun _ => selReset) s.sel n x }

/-- The selectors in force, in order. -/
def State.sels (s : State) : List Nat := (s.sel.filter (fun p => p.2.on)).map (fun p => p.1)

/-- The channel that owns a line slot, and the slot's offset in it: a bonded member's slots belong to its lead lane (R7, R128). -/
def State.slotCh (s : State) (g : Nat) : Nat := if s.bonded (g / 512) then leadOf (g / 512) else g / 512
def State.slotOff (s : State) (g : Nat) : Nat := g - 512 * s.slotCh g

/-- Slots of a channel (R152). -/
def State.chSlots (s : State) (c : Nat) : Nat := if (s.lane c).bond then 2048 else 512

/-- The elastic stores and the ODU stores of a channel recentre (R18, R159): those of its slots. -/
def recentre (s : State) (c : Nat) : State :=
  let mine (k : Nat) : Bool := decide (512 * c ≤ k) && decide (k < 512 * c + s.chSlots c)
  { s with
    spe := s.spe.map (fun p => if mine p.1 then (p.1, { p.2 with fresh := true }) else p),
    odu := s.odu.map (fun p => if mine p.1 then (p.1, { p.2 with buf := [], run := false }) else p) }

/-- W's channel and first slot. -/
def State.selWch (s : State) (n : Nat) : Nat := n / 256 * 12 + s.f (seWch (selKey n))
def State.selWfirst (s : State) (n : Nat) : Nat := 512 * s.selWch n + s.f (seWstart (selKey n))

/-- A Gelvy port's through-slots carry traffic (SLOTS, R343). -/
def State.portSlots (s : State) (p : Nat) : Bool := s.g (GP_STAT_STATE p) == 5

/-! ### Keys -/

/-- The sequence extension's derivation of a channel (R194). -/
def extStep (s : State) (c : Nat) (o : Option Nat) : State :=
  let l := s.lane c
  let e := o.getD 0 % 0x8000
  let ok := (match o with | some v => decide (0x8000 ≤ v) | none => false) && (e == l.ext || e == (l.ext + 1) % 0x8000)
  let good := if ok then min 3 (l.extGood + 1) else 0
  let bad := if ok then 0 else min 3 (l.extBad + 1)
  let lock := if l.extLock then decide (bad < 3) else decide (3 ≤ good)
  s.setLane c { l with ext := e, extGood := good, extBad := bad, extLock := lock }

/-- The path tag that an ingress container carries in the current frame: TSEQ and TV (R166). -/
def State.pathTag (s : State) (c e : Nat) : Nat × Bool :=
  let t := s.g (contTag (contKey c (s.rxBank c) e))
  if t = 1 then (s.sfn % 0x10000, true)
  else if t = 2 ∧ isOdu (s.g (contType (contKey c (s.rxBank c) e))) then ((s.lane c).ext, (s.lane c).extLock) else (0, false)

/-- The sequence extension that a channel exports in its OTU overhead RES bytes (R193): EXT and TV of the container's tag, with export
on and a sole THROUGH container at egress. -/
def State.exports (s : State) (c : Nat) : Bool :=
  s.f (bitOf (LGP_TAG_EXP_EXP (c / 12)) (c % 12)) == 1 && s.txFits c && fmtFam (s.f (CH_TX_CFG_TX_FMT c)) == .otn &&
    (match s.used c (s.txBank c) with
     | [e] => s.tsMask (contKey c (s.txBank c) e) == 0
     | _ => false)

/-! ### Requests -/

/-- Status words of a channel and of its paths, as the selectors read them: those that stood 2 µs before the boundary (R116), or now. -/
def statusKey (k : Nat) : Bool :=
  (decide (k / 0x100000000000000 = 1) && k % 256 == 12) ||
    (decide (0x100000 ≤ k) && decide (k < 0x200000) && (k % 0x1000 == 0xF0 || k % 0x1000 == 0xF8) && decide (1 ≤ k / 0x1000 % 16) &&
      decide (k / 0x1000 % 16 ≤ 12))

/-- The status words at the 2 µs mark are kept for the boundary (R116). -/
def sampleSeen (s : State) : State := { s with seen := s.regs.filter (fun p => statusKey p.1) }

/-- A status field: as seen, or live. -/
def stField (s : State) (live : Bool) (f : Fld) : Bool :=
  if live then s.on f else wordGet (tget (fun _ => (0 : Word)) s.seen f.addr) f.lo f.w == 1

/-- SF and SD of the entity that ENT names, at a line slot (R187). -/
def lineSfSd (s : State) (live : Bool) (ent c off : Nat) : Bool × Bool :=
  if s.disc c ≠ 6 then (true, false)
  else if ent = 0 then (stField s live (CH_SFSD_SF c), stField s live (CH_SFSD_SD c))
  else if ent = 1 then (stField s live (paSf (pathKey c off 0)), stField s live (paSd (pathKey c off 0)))
  else if ent = 2 then (stField s live (CH_SFSD_ODU_SF c), stField s live (CH_SFSD_ODU_SD c))
  else (stField s live (bitOf (CH_SFSD_TCM_SF c) (ent - 3)), stField s live (bitOf (CH_SFSD_TCM_SD c) (ent - 3)))

/-- A P copy in Gelvy through-slots has SF without slot traffic, or with a fill indication on any of its slots (R187). -/
def gelvySf (s : State) (first n : Nat) : Bool :=
  let p := (first - 98304) / 3744
  let g := s.gpOf p
  !s.portSlots p || (List.range n).any (fun i => tget (fun _ => 1) g.rxFill ((first - 98304) % 3744 + i) != 0)

/-- W_SF, W_SD, P_SF, P_SD of a selector (R187). -/
def selInputs (s : State) (live : Bool) (n : Nat) : Bool × Bool × Bool × Bool :=
  let k := selKey n
  let ent := s.f (seEnt k)
  let w := lineSfSd s live ent (s.selWch n) (s.f (seWstart k))
  let ps := s.f (sePslot k)
  let p := if ps < 98304 then lineSfSd s live ent (s.slotCh ps) (s.slotOff ps) else (gelvySf s ps (s.f (seNslot k)), false)
  (w.1, w.2, p.1, p.2)

/-- The highest active request (Table 9-3), given held-off SF and SD of W, and SF and SD of P. -/
def selRequest (s : State) (n : Nat) (sfW sdW sfP sdP : Bool) : Nat :=
  let k := selKey n
  let op := s.g (seOp k)
  let sd := s.f (seSdEn k) == 1
  if op = 1 then 1
  else if op = 2 ∨ op = 3 then 2
  else if sfP then 3
  else if sfW then 4
  else if sd && sdP then 5
  else if sd && sdW then 6
  else if op = 4 ∨ op = 5 then 7
  else if s.on (seWtrRun k) then 8
  else 9

/-- The position a request calls for (Table 9-3). -/
def selWants (s : State) (n req : Nat) : Nat :=
  let k := selKey n
  let op := s.g (seOp k)
  if req = 2 then (if op = 2 then 1 else 0)
  else if req = 4 ∨ req = 6 ∨ req = 8 then 1
  else if req = 7 then (if op = 4 then 1 else 0)
  else if req = 9 then (if s.f (seRevert k) = 1 then 0 else s.g (seSelected k))
  else 0

/-- Evaluate the requests of a selector (R188): report them, drop a manual request that a higher one overtakes, start or end WTR.
`step` counts the boundary. Answers the position called for. -/
def selEval (s : State) (n : Nat) (live step : Bool) : Nat × State :=
  let k := selKey n
  let x := s.selOf n
  let i := selInputs s live n
  let inc (b : Bool) (c : Nat) : Nat := if b then (if step then c + 1 else max 1 c) else 0
  let sfN := inc i.1 x.sfN
  let sdN := inc i.2.1 x.sdN
  let free (sf : Bool) (c : Nat) : Nat := if sf then 0 else if step then c + 1 else c
  let s := s.setSel n { x with sfN := sfN, sdN := sdN, freeW := free i.1 x.freeW, freeP := free i.2.2.1 x.freeP }
  let hold := 80 * s.f (seHoldoff k)
  let sfW := decide (hold < sfN)
  let sdW := decide (hold < sdN)
  let was := s.g (seReq k)
  let r0 := selRequest s n sfW sdW i.2.2.1 i.2.2.2
  -- WTR starts when the last request on W clears while P is selected because of it
  let start := (was == 4 || was == 6) && decide (7 < r0) && s.on (seSelected k) && s.f (seRevert k) == 1 && s.f (seWtr k) != 0
  let s := if start then (s.setSel n { s.selOf n with wtrAt := s.sfn }).u [(seWtrRun k, 1)]
    else if r0 < 8 then s.u [(seWtrRun k, 0)] else s
  let s := if r0 < 7 ∧ s.f (seScheme k) ≠ 1 ∧ (s.g (seOp k) = 4 ∨ s.g (seOp k) = 5) then s.u [(seOp k, 0xF)] else s
  let r := if start then 8 else r0
  (selWants s n r, s.u [(seReq k, r), (seWsf k, bit i.1), (seWsd k, bit i.2.1), (sePsf k, bit i.2.2.1), (sePsd k, bit i.2.2.2)])

/-! ### Hitless -/


/-- 64 ms in ns. -/
def slackMax : Int := 64000000
def State.headroom (s : State) (n : Nat) : Int := 1000 * Int.ofNat (s.f (seHeadroom (selKey n)))

/-- HL_STATE becomes LOST (R203): counted on entry; due times then follow the selected copy at HEADROOM. -/
def hlLost (s : State) (n : Nat) : State :=
  let k := selKey n
  let s := if s.g (seHl k) = 4 then s else s.occ (LGP_HLOST_OCC_COUNT (n / 256)).addr
  s.u [(seHl k, 4), (if s.on (seSelected k) then seSlackP k else seSlackW k, intBits (s.headroom n))]

/-- LATE of each copy and the state that the two make (Table 9-6, R198). -/
def hlJudge (s : State) (n : Nat) : State :=
  let k := selKey n
  let lateW := s.on (seWkey k) && decide (s.int (seSlackW k) < 0)
  let lateP := s.on (sePkey k) && decide (s.int (seSlackP k) < 0)
  let okW := s.on (seWkey k) && !lateW
  let okP := s.on (sePkey k) && !lateP
  s.u [(seWlate k, bit lateW), (sePlate k, bit lateP), (seHl k, if okW && okP then 2 else 3)]

/-- Mark the frame as an edge frame of a channel (R118, R201, R202). -/
def markEdge (s : State) (c : Nat) : State := if c ∈ s.edge then s else { s with edge := c :: s.edge }

/-- The egress channels that carry a selector's hitless output: their active entries read through either path of the pair (R195). -/
def hlReaders (s : State) (n : Nat) : List Nat :=
  let k := selKey n
  ((s.tsi.ent.filter (fun q => q.1 / 0x100000 == s.g (IC_STAT_ACTIVE tsiPage) && decide (q.1 % 0x100000 < 98304) &&
    wordGet q.2 17 3 == 0 && (wordGet q.2 20 12 == s.f (seWbpath k) || wordGet q.2 20 12 == s.f (sePbpath k)) && wordGet q.2 20 12 != 0)).map
    (fun q => s.slotCh (q.1 % 0x100000))).eraseDups

/-- The present frame is an edge frame of the channels that carry the hitless output (R118, R201, R202). -/
def hlEdge (s : State) (n : Nat) : State := (hlReaders s n).foldl markEdge s

/-- A realignment by `r` frames (R201): refused, as HITLESS_LOST, where it would leave a keyed copy above 64 ms. -/
def realign (s : State) (n : Nat) (r : Int) : State :=
  let k := selKey n
  let x := s.selOf n
  let d := r * Int.ofNat x.period
  let w := s.int (seSlackW k) + d
  let p := s.int (seSlackP k) + d
  if (s.on (seWkey k) && decide (slackMax < w)) || (s.on (sePkey k) && decide (slackMax < p)) then hlLost s n
  else
    let s := s.setSel n { x with lastW := x.lastW.map (· + d), lastP := x.lastP.map (· + d),
                                 rep := if x.src = 2 then 0 else (Int.ofNat x.rep + r).toNat }
    let s := (s.occ (LGP_REALIGN_OCC_COUNT (n / 256)).addr).pmAdd (seRframes k) r.natAbs
    hlEdge (hlJudge (s.u [(seSlackW k, intBits w), (seSlackP k, intBits p), (seRcnt k, (r % 65536).toNat),
      (seRseq k, s.g (seRseq k) + 1)]) n) n

/-- R for a late copy with slack `sl` (R201). -/
def realignCount (s : State) (n : Nat) (sl : Int) : Int :=
  let u := Int.ofNat (max 1 (s.selOf n).period)
  (s.headroom n - sl + u - 1) / u

/-- The position changes (R183): counted; in LOST a change re-acquires on the new copy by a counted realignment (R203). -/
def selMove (s : State) (n p : Nat) : State :=
  let k := selKey n
  if s.g (seSelected k) = p then s
  else
    let s := ((s.occ (LGP_SWITCH_OCC_COUNT (n / 256)).addr).pmAdd (seSwcnt k) 1).u [(seSelected k, p)]
    let s := s.setSel n { s.selOf n with moved := s.g (seHl k) != 2 && s.g (seHl k) != 3 }
    if s.g (seHl k) = 4 then
      let sl := s.int (if p = 1 then seSlackP k else seSlackW k)
      let r := realignCount s n sl
      let s := (s.occ (LGP_REALIGN_OCC_COUNT (n / 256)).addr).pmAdd (seRframes k) r.natAbs
      hlEdge (s.u [(seRcnt k, (r % 65536).toNat), (seRseq k, s.g (seRseq k) + 1),
        (if p = 1 then seSlackP k else seSlackW k, intBits (s.headroom n))]) n
    else s

/-- Acquisition (R197): eight DIFF measurements within 1 µs of one another set the due times; with keys on one copy only, on that copy
alone. -/
def hlAcquire (s : State) (n : Nat) (diffs : List Int) (period : Nat) : State :=
  let k := selKey n
  if !(s.selOf n).on || s.f (seScheme k) != 2 || s.g (seHl k) != 1 then s
  else
    let h := s.headroom n
    let x := { s.selOf n with period := if s.f (seTmode k) = 0 then 125000 else max 1 period, lastW := [], lastP := [] }
    let w := s.on (seWkey k)
    let p := s.on (sePkey k)
    if w && p then
      let d := diffs.getLast?.getD 0
      if diffs.length ≠ 8 ∨ diffs.any (fun a => diffs.any (fun b => decide (1000 < (a - b).natAbs))) then s
      else if slackMax < h + Int.ofNat d.natAbs then hlLost ((s.setSel n x).u [(seDiff k, intBits d)]) n
      else
        let sw := if d < 0 then h else h + d
        let sp := if d < 0 then h - d else h
        (s.setSel n { x with lastW := [sw], lastP := [sp] }).u
          [(seDiff k, intBits d), (seSlackW k, intBits sw), (seSlackP k, intBits sp), (seWlate k, 0), (sePlate k, 0), (seHl k, 2)]
    else if w then (s.setSel n { x with lastW := [h] }).u [(seSlackW k, intBits h), (seWlate k, 0), (seHl k, 3)]
    else if p then (s.setSel n { x with lastP := [h] }).u [(seSlackP k, intBits h), (sePlate k, 0), (seHl k, 3)]
    else s

/-- DSTEP_THR in ns; 0 acts as 1 µs. -/
def State.stepThr (s : State) (n : Nat) : Nat := 1000 * max 1 (s.f (seThr (selKey n)))

/-- The mean of a list of slacks. -/
def meanInt (l : List Int) : Int := if l.isEmpty then 0 else l.foldl (· + ·) 0 / Int.ofNat l.length

/-- A frame's slack joins the reference while it stays within DSTEP_THR of it (R199). -/
def slackPush (thr : Nat) (key : Bool) (sl : Int) (l : List Int) : List Int :=
  if !key then l
  else if l.isEmpty then [sl]
  else if (sl - meanInt l).natAbs ≤ thr then (sl :: l).take 8 else l

/-! ### Keys and frames of the copies (R192, R194, R198) -/

/-- The container type at a line slot in the RX bank in force; 0 none. -/
def typeAt (s : State) (g : Nat) : Nat :=
  let c := s.slotCh g
  match s.contAt c (s.slotOff g) false with
  | some e => if s.rxFits c then s.g (contType (contKey c (s.rxBank c) e)) else 0
  | none => 0

/-- The path tag in a slot's bytes: of a slot carrier, else of a native path (R166). -/
def slotTag (odu : Bool) (l : List Byte) : Nat × Bool := tagRead (if odu then (l.drop 6).take 4 else (l.drop 90).take 3 ++ (l.drop 180).take 1)

/-- The path and the first slot of a copy of selector `n`: W, or P. -/
def copyPath (s : State) (n : Nat) (p : Bool) : Nat := s.f (if p then sePbpath (selKey n) else seWbpath (selKey n))
def copyFirst (s : State) (n : Nat) (p : Bool) : Nat := if p then s.f (sePslot (selKey n)) else s.selWfirst n

/-- The SFN of the frame of a copy with slack `sl` that is due as the present frame begins (R196): the last byte of frame k enters the store
as frame k + 1 begins. -/
def dueSfn (s : State) (sl : Int) : Nat := s.sfn - 1 - sl.toNat / 125000

/-- The key of a copy is valid (R192, R194): in FRAME mode by the tag of the frame in the store; in ODU mode while the derivation of its channel is
locked and no consequent action replaces the container, of a copy in through-slots by its carrier's tag. -/
def copyKey (s : State) (n : Nat) (p : Bool) (sl : Int) : Bool :=
  let g := copyFirst s n p
  let odu := isOdu (typeAt s (s.selWfirst n))
  if s.f (seTmode (selKey n)) = 0 then
    match s.ringsOf (copyPath s n p) with
    | [] => false
    | r :: _ =>
      let c := s.cellOf r (dueSfn s sl)
      cellValid c (dueSfn s sl) && c.fill == 0 && (slotTag odu c.data).2
  else if g < 98304 then
    let c := s.slotCh g
    (s.lane c).extLock && s.disc c == 6 && tget (fun _ => 0) s.ca c &&& 0x103 == 0
  else
    match tget slotDflt s.slotIn g with
    | .data b => (slotTag true b).2
    | _ => false

/-- In FRAME mode no cell of the due frame bears a fill mark or is lost (R198). -/
def copyGood (s : State) (n : Nat) (p : Bool) (sl : Int) : Bool :=
  s.f (seTmode (selKey n)) == 1 || (s.ringsOf (copyPath s n p)).all (fun r =>
    let c := s.cellOf r (dueSfn s sl)
    s.memUp (ringChan r) && cellGood c (dueSfn s sl) && c.fill == 0)

/-- What is found at a due time, with what the slots and the store themselves show. -/
def hlSeen (s : State) (n : Nat) (o : HlObs) : HlObs :=
  { o with keyW := o.keyW && copyKey s n false o.slackW, keyP := o.keyP && copyKey s n true o.slackP,
           goodW := o.goodW && copyGood s n false o.slackW, goodP := o.goodP && copyGood s n true o.slackP }

/-- The output frame at a due time (R195, R198, R201): `x` is the selector before it, `c` the copy that the frame comes from. A frame to be
repeated goes out once more. -/
def hlOutput (s : State) (n : Nat) (o : HlObs) (x : SelSt) (t : State) : State :=
  let y := t.selOf n
  let odu := s.f (seTmode (selKey n)) == 1
  if 0 < y.rep then t.setSel n { y with rep := y.rep - 1, src := x.src, sent := x.sent, out := if odu then y.out ++ y.last else y.out }
  else if y.src = 2 then t
  else if odu then
    let l := if y.src = 0 then o.frameW else o.frameP
    t.setSel n { y with last := l, out := y.out ++ l, ext := (if y.src = 0 then o.extW else o.extP) % 0x8000 }
  else t.setSel n { y with sent := dueSfn s (if y.src = 0 then o.slackW else o.slackP) }

/-- A due time (R198): the frame comes from the selected copy if it is good there, else from the other; a copy that appears within
64 ms joins (R197). -/
def hlChoose (s : State) (n : Nat) (o : HlObs) : State :=
  let k := selKey n
  if !(s.selOf n).on || s.f (seScheme k) != 2 then s
  else
    let thr := s.stepThr n
    let x := s.selOf n
    let hl := s.g (seHl k)
    let s := s.u ([(seWkey k, bit o.keyW), (sePkey k, bit o.keyP)] ++
      (if o.keyW && hl != 1 then [(seSlackW k, intBits o.slackW)] else []) ++
      (if o.keyP && hl != 1 then [(seSlackP k, intBits o.slackP)] else []) ++
      (if o.keyW && o.keyP then [(seDiff k, intBits (o.slackW - o.slackP))] else []))
    if hl = 1 then s.setSel n { x with src := 2 }
    else
      let s := s.setSel n { x with lastW := slackPush thr o.keyW o.slackW x.lastW, lastP := slackPush thr o.keyP o.slackP x.lastP }
      let x := s.selOf n
      let selP := s.on (seSelected k)
      let gW := o.goodW && o.keyW && decide (0 ≤ o.slackW)
      let gP := o.goodP && o.keyP && decide (0 ≤ o.slackP)
      let near (sl : Int) : Bool := decide (sl.natAbs ≤ 2000)
      let take (t : State) (c : Nat) : State :=
        let t := t.setSel n { x with src := c }
        let t := if near (if c = 0 then o.slackW else o.slackP) then hlEdge t n else t
        if hl = 4 then t else hlJudge t n
      let sel := if selP then gP else gW
      let late (r : Int) : State :=
        let t := realign s n r
        if t.g (seHl k) = 4 then t.setSel n { x with src := 2 } else t
      if hl ≠ 4 ∧ ((o.keyW ∧ slackMax < o.slackW) ∨ (o.keyP ∧ slackMax < o.slackP)) then
        (hlLost s n).setSel n { x with src := if sel then bit selP else 2 }
      else if sel then take s (bit selP)
      else if hl ≠ 4 ∧ (if selP then gW else gP) then take s (if selP then 0 else 1)
      else if hl = 4 then s.setSel n { x with src := 2 }
      else if !o.keyW && !o.keyP then (s.setSel n { x with src := 2 }).u [(seHl k, 1)]
      else if o.keyW ∧ o.slackW < 0 ∧ !(o.keyP ∧ 0 ≤ o.slackP) then late (realignCount s n o.slackW)
      else if o.keyP ∧ o.slackP < 0 ∧ !(o.keyW ∧ 0 ≤ o.slackW) then late (realignCount s n o.slackP)
      else s.setSel n { x with src := 2 }

/-- A due time of selector `n`: the choice, and the output frame. -/
def hlDue (s : State) (n : Nat) (o : HlObs) : State :=
  if !(s.selOf n).on || s.f (seScheme (selKey n)) != 2 then s
  else hlOutput s n o (s.selOf n) (hlChoose s n (hlSeen s n o))

/-- A delay step (R199, R200): eight consecutive keyed frames off the reference, all to one side. -/
def hlStep (s : State) (n : Nat) (copyP : Bool) (sl : List Int) : State :=
  let k := selKey n
  let x := s.selOf n
  let ref := meanInt (if copyP then x.lastP else x.lastW)
  let thr := Int.ofNat (s.stepThr n)
  let hl := s.g (seHl k)
  if !x.on || s.f (seScheme k) != 2 || hl == 0 || hl == 1 || sl.length != 8 ||
      !(sl.all (fun a => decide (thr < a - ref)) || sl.all (fun a => decide (thr < ref - a))) then s
  else
    let m := meanInt sl
    let s := s.setSel n (if copyP then { x with lastP := sl } else { x with lastW := sl })
    let s := ((s.occ (LGP_DSTEP_OCC_COUNT (n / 256)).addr).u
      [(LGP_DSTEP_LAST_SEL (n / 256), n % 256), (seStep k, intBits (ref - m)), (seStepCopy k, bit copyP),
       (if copyP then seSlackP k else seSlackW k, intBits (sl.getLast?.getD 0)), (if copyP then sePkey k else seWkey k, 1)])
    let s := if s.on (seWkey k) ∧ s.on (sePkey k) then s.u [(seDiff k, intBits (s.int (seSlackW k) - s.int (seSlackP k)))] else s
    if hl = 4 then s
    else if slackMax < m then hlLost s n
    else if 0 ≤ m then hlJudge s n
    else
      let other := if copyP then s.on (seWkey k) && decide (0 ≤ s.int (seSlackW k)) else s.on (sePkey k) && decide (0 ≤ s.int (seSlackP k))
      if other then hlJudge s n else realign s n (realignCount s n m)

/-! ### SEL_SWITCH -/

/-- A SEL_SWITCH item's target is ready (R209). -/
def selReady (s : State) (n arg : Nat) : Bool :=
  (s.selOf n).on && decide (arg % 16 ≤ 9) && !(arg % 16 == 8 && s.f (seScheme (selKey n)) != 2)

/-- A SEL_SWITCH item applies (Table 9-5). -/
def selApply (s : State) (n arg : Nat) : State :=
  let k := selKey n
  let req := arg % 16
  let brg := arg / 16 % 4
  let s := if brg = 1 then s.u [(seBridge k, 0)] else if brg = 2 then s.u [(seBridge k, 1)] else s
  -- a scheme 1 selector holds CLEAR too, for its engine image to read (R186)
  if req = 0 then s.u [(seOp k, if s.f (seScheme k) = 1 then 0 else 0xF)]
  else if req ≤ 5 then s.u [(seOp k, req)]
  else if req = 6 ∨ req = 7 then
    let p := req - 6
    let s := s.setSel n { s.selOf n with ask := none }
    if s.f (seScheme k) = 1 ∨ s.mode = 3 ∨ s.mode = 4 then selMove s n p
    else selMove (s.setSel n { s.selOf n with once := some p }) n p
  else if req = 8 then
    let r := (BitVec.ofNat 16 (arg / 65536)).toInt
    if s.g (seHl k) = 4 then
      let t := realign (s.u [(seHl k, 3)]) n r
      if t.g (seHl k) = 4 then t else t.u [(seHl k, 1)]
    else realign s n r
  else s

/-- The boundary of one selector (R188 to R190): evaluation after the items. In ACTIVE and STANDBY the position moves by mirrored
actions only; a SET in SOLO holds for the one frame. -/
def selBoundary (s : State) (n : Nat) : State :=
  if s.f (seScheme (selKey n)) = 1 then (selEval s n false true).2
  else
    let r := selEval s n false true
    let x := r.2.selOf n
    if s.mode = 3 ∨ s.mode = 4 then r.2
    else
      match x.once with
      | some _ => r.2.setSel n { x with once := none }
      | none => selMove r.2 n r.1

/-- Admit a SEL_SWITCH through the internal bank (R190). The flag tells whether the Plank took it. -/
def selAdmit (s : State) (n arg : Nat) : State × Bool :=
  let bns := nextBoundary (s.nowNs + 256000) 125000
  if !s.usable 0x4000 || !s.running || decide (4096 < s.pendUsed + 1) then (s, false)
  else
    (enqueue s {
      seq := s.plk.nextSeq, sfn := bns / 125000, tick := 0, us := false, items := [⟨3, n, arg⟩],
      hdr := ⟨false, false, false, 0, 0xF000 + n⟩, master := 7, mirroredIn := false, mirrorOut := false, unmirrored := false,
      groupIn := false, late := false, peerSeq := 0, check := [] }, true)

/-- The selector's own admission waits in the Plank. -/
def selAsked (s : State) (n : Nat) : Bool :=
  (s.plk.queue ++ s.plk.sent).any (fun a => a.hdr.tag == 0xF000 + n && a.items.any (fun i => i.kind == 3 && i.target == n))

/-- Admit, or remember the refusal for the retry. -/
def selTry (s : State) (n arg : Nat) : State :=
  let r := selAdmit s n arg
  if r.2 then r.1.setSel n { r.1.selOf n with ask := none } else s.setSel n { s.selOf n with ask := some arg }

/-- An input of a selector changes in ACTIVE (R190). -/
def selectorAdmit (s : State) (n : Nat) : State :=
  let k := selKey n
  if s.mode ≠ 3 ∨ !(s.selOf n).on ∨ s.f (seScheme k) = 1 then s
  else
    let r := selEval s n true false
    if r.1 = s.g (seSelected k) ∨ selAsked s n ∨ (r.2.selOf n).ask.isSome then r.2 else selTry r.2 n (6 + r.1)

/-- The retry (R190). -/
def selectorRetry (s : State) (n : Nat) : State :=
  match (s.selOf n).ask with
  | some arg => if s.mode = 3 then selTry s n arg else s.setSel n { s.selOf n with ask := none }
  | none => s

/-- WTR has run its system frames (R188). -/
def wtrExpiry (s : State) (n : Nat) : State :=
  let k := selKey n
  if s.on (seWtrRun k) ∧ (s.selOf n).wtrAt + 80000 * s.f (seWtr k) ≤ s.sfn then s.u [(seWtrRun k, 0)] else s

/-- A late copy has been free of SF for 10 ms (R201): in SOLO the selector realigns; in ACTIVE it admits the REALIGN. -/
def realignAuto (s : State) (n : Nat) : State :=
  let k := selKey n
  let x := s.selOf n
  if !x.on || s.f (seScheme k) != 2 || s.f (sePol k) == 1 || s.g (seHl k) != 3 then s
  else
    let lw := s.on (seWlate k) && decide (80 ≤ x.freeW)
    let lp := s.on (sePlate k) && decide (80 ≤ x.freeP)
    if !lw && !lp then s
    else
      let r := realignCount s n (s.int (if lw then seSlackW k else seSlackP k))
      if s.mode = 3 then (if selAsked s n then s else selTry s n (8 + 65536 * (r % 65536).toNat))
      else if s.mode = 4 then s
      else realign s n r

/-- An entry has come into force (R207): a selector that is enabled starts on W with no request held, one that is disabled stops. -/
def selLand (s : State) (n : Nat) : State :=
  let k := selKey n
  let en := s.f (seEn k) == 1
  let x := s.selOf n
  if en = x.on then s
  else if en then
    ((s.setSel n { selReset with on := true }).setWord (k + 20) 0x00780000).u [(seHl k, if s.f (seScheme k) = 2 then 1 else 0)]
  else (s.setSel n selReset).setWord (k + 20) 0x00780000

/-! ### The slots behind a selector -/

/-- The selector in force that covers ingress slot `g` as slot `i` of its W container (R183). -/
def State.selOver (s : State) (g : Nat) : Option (Nat × Nat) :=
  (s.sels.find? (fun n => decide (s.selWfirst n ≤ g) && decide (g < s.selWfirst n + s.f (seNslot (selKey n))))).map
    (fun n => (n, g - s.selWfirst n))

/-- The internal pointer of a path's first slot with NDF enabled, where its value differs from that of another slot (R185). -/
def withNdf (d left : SlotData) : SlotData :=
  match d, left with
  | .data b, .data l =>
    let v (x : List Byte) : Nat := (x.getD 270 0).toNat % 4 * 256 + (x.getD 271 0).toNat
    if v b = v l then d else .data (b.set 270 (BitVec.ofNat 8 (0x90 + (b.getD 270 0).toNat % 16)))
  | _, _ => d

/-- What the interchange reads in ingress slot `g` (R129, R183): in the first frame after a conventional change of position a native path
carries NDF (R185). -/
def State.slotRead (s : State) (g : Nat) : SlotData :=
  let raw (x : Nat) : SlotData := tget slotDflt s.slotIn x
  match s.selOver g with
  | some (n, i) =>
    let p := raw (s.f (sePslot (selKey n)) + i)
    let on := s.on (seSelected (selKey n))
    let d := if on then p else raw g
    if (s.selOf n).moved && i == 0 && decide (1 ≤ typeAt s g) && decide (typeAt s g ≤ 5) then withNdf d (if on then raw g else p) else d
  | none => raw g

/-- The choice for egress slot `e` with bridges (R184): while BRIDGE is on, P's egress slots carry what the map delivers to W's. -/
def State.egressMap (s : State) (e : Nat) : SlotFrom :=
  match s.sels.find? (fun n => s.on (seBridge (selKey n)) && decide (s.f (sePslot (selKey n)) ≤ e) &&
      decide (e < s.f (sePslot (selKey n)) + s.f (seNslot (selKey n)))) with
  | some n => s.egressFrom (s.selWfirst n + (e - s.f (sePslot (selKey n))))
  | none => s.egressFrom e

/-! ### The selector window -/

/-- A run of slots lies within one channel or one Gelvy port (R182). -/
def runOk (s : State) (first n : Nat) : Bool :=
  if first < 98304 then decide (s.slotOff first + n ≤ s.chSlots (s.slotCh first))
  else decide (first < 128256) && decide ((first - 98304) % 3744 + n ≤ 3744)

/-- A batt path carries exactly a container, as one copy of a hitless pair (R195, R274). -/
def bpMatches (s : State) (p first n : Nat) : Bool :=
  let k := bpKey p
  p != 0 && s.on (bpEn k) && s.on (bpMode k) && s.g (bpFirst k) == first && s.g (bpNslot k) == n

/-- Why a WRITE of an entry is refused (Table 9-8), for the words written. -/
def swCode (s : State) (lg : Nat) : Nat :=
  let i := s.g (LGP_SW_SEL_IDX lg)
  let n := 256 * lg + i
  let k := selKey n
  let d (j : Nat) : Word := s.rd (LGP_SW_D_DATA lg j).addr
  let scheme := wordGet (d 0) 1 2
  let wch := wordGet (d 1) 0 4
  let ws := wordGet (d 1) 4 11
  let nsl := wordGet (d 1) 15 12
  let ps := wordGet (d 2) 0 17
  let c := 12 * lg + wch
  let first := 512 * c + ws
  let meets (m : Nat) : Bool := m != n && s.g (seEn (selKey m)) == 1 &&
    (let f := 512 * (lg * 12 + s.g (seWch (selKey m))) + s.g (seWstart (selKey m))
     decide (first < f + s.g (seNslot (selKey m))) && decide (f < first + nsl))
  if 11 < wch ∨ s.bonded c ∨ s.chSlots c < ws + nsl then 0x01
  else if nsl = 0 ∨ 2047 < nsl ∨ !runOk s ps nsl then 0x02
  else if (List.range 256).any (fun j => meets (256 * lg + j)) then 0x03
  else if scheme = 3 ∨ 8 < wordGet (d 0) 5 4 then 0x04
  else if scheme = 2 ∧ (!bpMatches s (wordGet (d 3) 0 12) first nsl ∨ !bpMatches s (wordGet (d 3) 12 12) ps nsl ∨
      ((d 3).getLsbD 24 ∧ (!isOdu (typeAt s first) ∨ (ps < 98304 ∧ typeAt s ps ≠ typeAt s first)))) then 0x05
  else if s.g (seEn k) = 1 ∧ (d 0).getLsbD 0 ∧ ((d 1) &&& 0x07FFFFFF ≠ s.rd (k + 4) ∨ ps ≠ s.g (sePslot k) ∨ scheme ≠ s.g (seScheme k) ∨
      wordGet (d 3) 0 25 ≠ s.g ⟨k + 12, 0, 25⟩) then 0x06
  else if s.g (LGP_SW_SEL_SRC lg) = 1 then 0x07
  else 0

/-- A stamp of R204 in ns modulo 4 s, and a signed difference of two in (−2 s, 2 s] (R205). -/
def stampNs (w : Word) : Int := Int.ofNat (wordGet w 30 2 * 1000000000 + wordGet w 0 30)
def stampDiff (a b : Word) : Int :=
  let d := (stampNs a - stampNs b) % 4000000000
  if 2000000000 < d then d - 4000000000 else d

/-- DRX, DTX and ASYM of one copy's four input words (R205). -/
def delays (arrIn depIn farArr farDep : Word) : Int × Int × Int :=
  let rx := stampDiff arrIn farDep
  let tx := stampDiff farArr depIn
  (rx, tx, (rx - tx) / 2)

/-- The status words of a selector entry (Table 9-9). -/
def selStatusWord (i : Nat) : Bool := (decide (5 ≤ i) && decide (i ≤ 10)) || i == 14 || i == 15 || i == 23 || i == 24

/-- SW_CMD.READ (R125, R207): the status words are SCLK copies (R34). -/
def swReadCmd (s : State) (lg : Nat) : State :=
  let k := selKey (256 * lg + s.g (LGP_SW_SEL_IDX lg))
  let src := s.g (LGP_SW_SEL_SRC lg) == 1
  s.result (LGP_SW_CTRL_VALID lg).addr false ((LGP_SW_CODE_CODE lg, 0) ::
    (List.range 32).map (fun i => (LGP_SW_D_DATA lg i, 
      (if selStatusWord i then tget resetWordOf s.copy (k + 4 * i) else s.rd ((if src && (i == 11 || i == 12) then heldKey k else k) + 4 * i)).toNat)))

/-- SW_CMD.WRITE (R205, R207): configuration waits for the next system frame; presets, inputs and what follows from them are at once. -/
def swWriteCmd (s : State) (lg : Nat) (late : Bool) : State :=
  let k := selKey (256 * lg + s.g (LGP_SW_SEL_IDX lg))
  let code := swCode s lg
  let d (j : Nat) : Word := s.rd (LGP_SW_D_DATA lg j).addr
  let copy (t : State) (b : Nat) : State :=
    let t := [0, 1, 2, 3].foldl (fun t j => t.setWord (k + 4 * (b + j)) (d (b + j))) t
    let r := delays (d b) (d (b + 1)) (d (b + 2)) (d (b + 3))
    t.u [(⟨k + 4 * (if b = 16 then 20 else 29), 0, 32⟩, intBits r.1), (⟨k + 4 * (if b = 16 then 21 else 30), 0, 32⟩, intBits r.2.1),
      (⟨k + 4 * (if b = 16 then 22 else 31), 0, 32⟩, intBits r.2.2)]
  let s := if code ≠ 0 then s
    else
      let masks : List (Nat × Word) := [(0, 0x01FFFFFF), (1, 0x07FFFFFF), (2, 0x1FFFF), (3, 0x03FFFFFF), (4, 0x00FFFFFF)]
      let t := masks.foldl (fun t p => bufWrite t (k + 4 * p.1) p.2 (d p.1) none late) s
      copy (copy ((t.setWord (k + 44) (d 11)).setWord (k + 48) (d 12)) 16) 25
  s.result (LGP_SW_CTRL_VALID lg).addr (code != 0) [(LGP_SW_CODE_CODE lg, code)]

/-- The software reset of an LGP page leaves every selector of the LG disabled, every entry at its reset values (R208). -/
def lgpReset (s : State) (lg : Nat) : State :=
  { s with sel := s.sel.filter (fun p => p.1 / 256 != lg),
           regs := s.regs.filter (fun p => !(p.1 / 0x100000000000000 == 5 && p.1 % 0x100000000000000 / 256 / 256 == lg)),
           pend := s.pend.filter (fun p => !(p.addr / 0x100000000000000 == 5 && p.addr % 0x100000000000000 / 256 / 256 == lg)) }

/-! ### Commands -/

/-- SELECTOR_ADMIT (R190). -/
def execSelectorAdmit (n : Fin 4096) (s : State) : Host.Outcome State Fault Refusal := done (selectorAdmit s n)

/-- SELECTOR_ADMIT_RETRY (R190). -/
def execSelectorAdmitRetry (n : Fin 4096) (s : State) : Host.Outcome State Fault Refusal := done (selectorRetry s n)

/-- WTR_EXPIRY (R188). -/
def execWtrExpiry (n : Fin 4096) (s : State) : Host.Outcome State Fault Refusal := done (wtrExpiry s n)

/-- SW_READ (R207). -/
def execSwRead (m : Fin 8) (lg : Fin 16) (s : State) : Host.Outcome State Fault Refusal :=
  done (s.command m (LGP_SW_CMD_READ lg) (fun t => swReadCmd t lg))

/-- SW_WRITE (R205, R207). -/
def execSwWrite (m : Fin 8) (lg : Fin 16) (late : Bool) (s : State) : Host.Outcome State Fault Refusal :=
  done (s.regionCmd m (LGP_SW_CMD_WRITE lg) (fun t => swWriteCmd t lg late))

/-- HITLESS_ACQUIRED (R197). -/
def execHitlessAcquired (n : Fin 4096) (diffs : List Int) (period : Nat) (s : State) : Host.Outcome State Fault Refusal :=
  done (hlAcquire s n diffs period)

/-- HITLESS_FRAME_DUE (R198). -/
def execHitlessFrameDue (n : Fin 4096) (o : HlObs) (s : State) : Host.Outcome State Fault Refusal := done (hlDue s n o)

/-- DELAY_STEP (R199). -/
def execDelayStep (n : Fin 4096) (copyP : Bool) (slacks : List Int) (s : State) : Host.Outcome State Fault Refusal :=
  done (hlStep s n copyP slacks)

/-- REALIGN_AUTO (R201). -/
def execRealignAuto (n : Fin 4096) (s : State) : Host.Outcome State Fault Refusal := done (realignAuto s n)

end Sys2Proof.Machine
end

