-- ==== Sys2Proof/Machine/Engines.lean ====
section
/-!
DEFINITION. The Fuller engines (11_fuller_engines.md R240 to R266): fetch, decoding, instructions, events, mailboxes, images, bank swap,
faults. The HDLC assist stands in Hdlc.lean, the bus port's accesses in Bus.lean.
-/

namespace Sys2Proof.Machine

open Sys2Proof

def feBase (e : Nat) : Nat := 0x200000 + 0x1000 * e

def engReset : Eng := ⟨[], [], [], [], [], [], [], false, false, 0, 0, false⟩
def State.engOf (s : State) (e : Nat) : Eng := tget (fun _ => engReset) s.eng e
def State.setEng (s : State) (e : Nat) (x : Eng) : State := { s with eng := tset (fun _ => engReset) s.eng e x }
def State.onEng (s : State) (e : Nat) (f : Eng → Eng) : State := s.setEng e (f (s.engOf e))

/-- Control pages are ready, states by STAT.STATE: 0 STOPPED, 1 RUNNING, 2 WAITING, 3 FAULTED. -/
def State.feState (s : State) (e : Nat) : Nat := s.g (FE_STAT_STATE e)
def State.feAct (s : State) (e : Nat) : Nat := s.g (FE_STAT_ACT_BANK e)
def State.fePc (s : State) (e : Nat) : Nat := s.g (FE_PC_PC e)

/-- General registers (R240). -/
def State.gr (s : State) (e r : Nat) : Word := tget (fun _ => 0) (s.engOf e).gr r
def State.setGr (s : State) (e r : Nat) (v : Word) : State := s.onEng e (fun x => { x with gr := tset (fun _ => 0) x.gr r v })

/-- CSRs that no page register holds, and the Hatter mailbox words. -/
def State.csr (s : State) (e k : Nat) : Word := tget (fun _ => 0) (s.engOf e).csr k
def State.setCsr (s : State) (e k : Nat) (v : Word) : State := s.onEng e (fun x => { x with csr := tset (fun _ => 0) x.csr k v })

/-- Keys of an engine's memory words. -/
def feInstr (bank w : Nat) : Nat := 8192 * bank + w
def feData (w : Nat) : Nat := 16384 + w

def State.feWord (s : State) (e k : Nat) : Word := tget (fun _ => 0) (s.engOf e).mem k
/-- Write a memory word: its check bits are right again. -/
def State.setFeWord (s : State) (e k : Nat) (v : Word) : State :=
  s.onEng e (fun x => { x with mem := tset (fun _ => 0) x.mem k v, ecc := tset (fun _ => 0) x.ecc k 0 })

/-- VALIDb. -/
def feValid (e b : Nat) : Fld := if b = 0 then FE_STAT_VALID0 e else FE_STAT_VALID1 e

/-- IDLE_CRC and ACT_CRC: word 7 of a valid bank (Table 11-9). -/
def feCrcShow (s : State) (e : Nat) : State :=
  let a := s.feAct e
  let crc (b : Nat) : Nat := if s.on (feValid e b) then (s.feWord e (feInstr b 7)).toNat else 0
  s.u [(FE_IDLE_CRC_CRC e, crc (1 - a)), (FE_ACT_CRC_CRC e, crc a)]

/-- Read a memory word with its SECDED (R263): a single-bit error is corrected, rewritten and counted; `none` is an uncorrectable one.
An injection slot may make the next read of the word err (point 0x15). -/
def feRead (s : State) (e k : Nat) : Option Word × State :=
  let hit (i : Nat) : Bool :=
    let p := s.g (INJ_IJ_D2_PARAM i)
    s.g (INJ_IJ_D1_INSTANCE i) == e && (if bitsOf p 15 1 = 0 then feInstr (s.feAct e) (p % 8192) else feData (p % 8192)) == k
  let (a, s) := injUnitP s 0x15 hit 1
  let stored := tget (fun _ => 0) (s.engOf e).ecc k
  let bad := if a.1 = 0 then stored else if bitsOf a.2 16 1 = 1 then 2 else max stored 1
  if bad = 2 then (none, s.onEng e (fun x => { x with ecc := tset (fun _ => 0) x.ecc k 2 }))
  else if bad = 1 then
    (some (s.feWord e k), (s.occ (FE_ECC_OCC_COUNT e).addr).onEng e (fun x => { x with ecc := tset (fun _ => 0) x.ecc k 0 }))
  else (some (s.feWord e k), s)

/-! ### Instruction words (R242, R243) -/

/-- The instructions of Table 11-3. -/
inductive FeOp where
  | add | sub | and | or | xor | shl | shr | sha | clt | cltu | mul | mulhi
  | addk | andk | ork | xork | cltk | khi | shlk | shrk | shak
  | ldw | ldh | ldhu | ldb | ldbu | stw | sth | stb | oldw | oldbu | ostw | ostb
  | bld | bst | bsync | breq | brne | brlt | brge | brlo | brhs | call | jmp | wait | rdc | wrc | crcb | crcw | halt
  deriving DecidableEq, Repr

/-- The fields of an instruction word. -/
def feD (w : Word) : Nat := wordGet w 6 5
def feA (w : Word) : Nat := wordGet w 11 5
def feB (w : Word) : Nat := wordGet w 19 5
def feFn (w : Word) : Nat := wordGet w 24 8
def feImm (w : Word) : Word := (w.extractLsb' 16 16).signExtend 32
def feImmZ (w : Word) : Word := (w.extractLsb' 16 16).setWidth 32

/-- An R-format word without a function (FN and [18:16] are 0). -/
def feR (w : Word) (op : FeOp) : Option FeOp := if feFn w = 0 ∧ wordGet w 16 3 = 0 then some op else none

/-- A listed CSR number (Table 11-4). -/
def feCsrListed (n : Nat) : Bool := n ≤ 0x18 || (0x20 ≤ n && n < 0x40)

/-- Decoding (R242, R243): `none` is an ILLEGAL word. -/
def feDecode (w : Word) : Option FeOp :=
  match wordGet w 0 6 with
  | 0x01 => if wordGet w 16 3 = 0 then
      [FeOp.add, .sub, .and, .or, .xor, .shl, .shr, .sha, .clt, .cltu, .mul, .mulhi][feFn w]? else none
  | 0x02 => some .addk
  | 0x03 => some .andk
  | 0x04 => some .ork
  | 0x05 => some .xork
  | 0x06 => some .cltk
  | 0x07 => some .khi
  | 0x08 => some .shlk
  | 0x09 => some .shrk
  | 0x0A => some .shak
  | 0x10 => some .ldw
  | 0x11 => some .ldh
  | 0x12 => some .ldhu
  | 0x13 => some .ldb
  | 0x14 => some .ldbu
  | 0x15 => some .stw
  | 0x16 => some .sth
  | 0x17 => some .stb
  | 0x18 => some .oldw
  | 0x19 => some .oldbu
  | 0x1A => some .ostw
  | 0x1B => some .ostb
  | 0x20 => some .bld
  | 0x21 => some .bst
  | 0x22 => feR w .bsync
  | 0x28 => some .breq
  | 0x29 => some .brne
  | 0x2A => some .brlt
  | 0x2B => some .brge
  | 0x2C => some .brlo
  | 0x2D => some .brhs
  | 0x2E => some .call
  | 0x2F => if feFn w ≤ 1 ∧ wordGet w 16 3 = 0 then some .jmp else none
  | 0x30 => feR w .wait
  | 0x31 => if feCsrListed (wordGet w 16 8) then some .rdc else none
  | 0x32 => if feCsrListed (wordGet w 16 8) then some .wrc else none
  | 0x33 => feR w .crcb
  | 0x34 => feR w .crcw
  | 0x3F => feR w .halt
  | _ => none

/-- The registers that an instruction reads or writes: it stalls while one of them is pending (R245). -/
def feUses (op : FeOp) (w : Word) : List Nat :=
  match op with
  | .add | .sub | .and | .or | .xor | .shl | .shr | .sha | .clt | .cltu | .mul | .mulhi | .crcb | .crcw => [feD w, feA w, feB w]
  | .bsync | .halt => []
  | .call | .rdc => [feD w]
  | .wrc => [feA w]
  | .jmp => if feFn w = 1 then [feD w, feA w] else [feA w]
  | _ => [feD w, feA w]

/-- Registers whose BLD data has not returned (R245). -/
def fePending (x : Eng) : List Nat := (x.ops.filter (fun o => !o.write && !o.drop)).map (fun o => o.dest)

/-! ### Faults, events -/

/-- Outstanding loads lose their data (R259, R262). -/
def feDrop (s : State) (e : Nat) : State := s.onEng e (fun x => { x with ops := x.ops.map (fun o => { o with drop := true }) })

/-- A fault (R262): FAULTED, cause and address, the count, load data discarded, the streams of CTL.OWN silenced at the next tick. -/
def feFault (s : State) (e cause : Nat) : State :=
  (((feDrop s e).onEng e (fun x => { x with mute := true })).occ (FE_FAULT_OCC_COUNT e).addr).u
    [(FE_STAT_STATE e, 3), (FE_FAULT_CAUSE e, cause), (FE_FAULT_PC_PC e, s.fePc e)]

/-- The next instruction. -/
def feNext (s : State) (e : Nat) : State := s.u [(FE_PC_PC e, s.fePc e + 4)]

/-- WAIT (R243, R264): the masked events are returned and cleared, or the engine waits. -/
def feTryWait (s : State) (e : Nat) (w : Word) : State :=
  let ev := BitVec.ofNat 32 (s.g (FE_EVPEND_EV e)) &&& s.gr e (feA w)
  if ev = 0 then (if s.feState e = 2 then s else prfCount (s.u [(FE_STAT_STATE e, 2)]) 10 (fun i => i == e))
  else (feNext (s.setGr e (feD w) ev) e).u [(FE_EVPEND_EV e, s.g (FE_EVPEND_EV e) - ev.toNat), (FE_STAT_STATE e, 1)]

/-- An event is set (R248); an engine that waits for it goes on. -/
def feEvent (s : State) (e i : Nat) : State :=
  let s := s.u [(bitOf (FE_EVPEND_EV e) i, 1)]
  if s.feState e = 2 then feTryWait s e (s.feWord e (feInstr (s.feAct e) (s.fePc e / 4))) else s

/-! ### Issue -/

/-- The engine stalls (R240, R245). -/
def feStall (s : State) (e : Nat) : State := prfCount s 9 (fun i => i == e)

/-- Issue the instruction at the PC, which must be `op` (R240 to R245): an engine that does not run, and one that fetches another
instruction, is left as it is; a bad PC, an uncorrectable or an undefined word faults whichever instruction is asked for. -/
def feIssue (s : State) (e : Nat) (op : FeOp) (run : State → Word → State) : State :=
  let x := s.engOf e
  if s.feState e ≠ 1 ∨ x.halting ∨ !s.usable (feBase e) then s
  else if s.fePc e % 4 ≠ 0 ∨ 0x7FFC < s.fePc e then feFault s e 0x2
  else
    let r := feRead s e (feInstr (s.feAct e) (s.fePc e / 4))
    match r.1 with
    | none => feFault r.2 e 0x9
    | some w =>
      match feDecode w with
      | none => feFault r.2 e 0x1
      | some o =>
        if o ≠ op then s
        else if (feUses op w).any (fun i => (fePending x).contains i) then feStall r.2 e
        else run (prfCount r.2 8 (fun i => i == e)) w

/-- d := v and on. -/
def feSet (s : State) (e : Nat) (w v : Word) : State := feNext (s.setGr e (feD w) v) e

/-- d := a op b. -/
def feAlu (e : Nat) (f : Word → Word → Word) (s : State) (w : Word) : State := feSet s e w (f (s.gr e (feA w)) (s.gr e (feB w)))

/-- d := a op constant. -/
def feAluK (e : Nat) (k : Word → Word) (f : Word → Word → Word) (s : State) (w : Word) : State := feSet s e w (f (s.gr e (feA w)) (k w))

/-- The operations of Table 11-3. -/
def feShl (a b : Word) : Word := a <<< (b.toNat % 32)
def feShr (a b : Word) : Word := a >>> (b.toNat % 32)
def feSha (a b : Word) : Word := a.sshiftRight (b.toNat % 32)
def feClt (a b : Word) : Word := if a.slt b then 1 else 0
def feCltu (a b : Word) : Word := if a.ult b then 1 else 0
def feMulhi (a b : Word) : Word := BitVec.ofNat 32 (a.toNat * b.toNat / 0x100000000)
def feKhi (a k : Word) : Word := (k <<< 16) ||| (a &&& 0xFFFF)

/-! ### Data and overhead (R241, R243, R252) -/

/-- Where an access goes. -/
def feAddr (s : State) (e : Nat) (w : Word) : Nat := (s.gr e (feA w) + feImm w).toNat

/-- A word of the mailbox and snapshot regions, as LDW reads it (Table 11-1); `none` outside them. -/
def feRegion (s : State) (e a : Nat) : Option Word :=
  if 0x8000 ≤ a ∧ a < 0x8040 then some (BitVec.ofNat 32 (s.g (FE_H_IN_D_DATA e ((a - 0x8000) / 4))))
  else if 0x8040 ≤ a ∧ a < 0x8080 then some (BitVec.ofNat 32 (s.g (FE_H_OUT_D_DATA e ((a - 0x8040) / 4))))
  else if 0x8080 ≤ a ∧ a < 0x8100 then some (s.csr e (0x100 + (a - 0x8080) / 4))
  else if 0x8100 ≤ a ∧ a < 0x8130 then some (tget (fun _ => 0) (s.engOf e).snap ((a - 0x8100) / 4))
  else if 0x8140 ≤ a ∧ a < 0x8160 then some (tget (fun _ => 0) (s.engOf e).snap (12 + (a - 0x8140) / 4))
  else none

/-- A load of `n` bytes; `ext` makes the register value of them. -/
def feLoad (e n : Nat) (ext : Nat → Word) (s : State) (w : Word) : State :=
  let a := feAddr s e w
  if a % n ≠ 0 then feFault s e 0x3
  else if a < 0x8000 then
    let r := feRead s e (feData (a / 4))
    match r.1 with
    | none => feFault r.2 e 0x9
    | some v => feSet r.2 e w (ext (v.toNat / 256 ^ (a % 4) % 256 ^ n))
  else
    match if n = 4 then feRegion s e a else none with
    | some v => feSet s e w v
    | none => feFault s e 0x4

/-- A store to an outbound mailbox word: ignored and counted while a message is unacknowledged (R257). -/
def feMailOut (s : State) (e i : Nat) (core : Bool) (v : Word) : State :=
  let busy := if core then s.csr e 0x16 != s.csr e 0x17 else s.g (FE_H_OUT_DB_SEQ e) != s.g (FE_H_OUT_ACK_ACK e)
  if busy then s.occ (FE_MBX_OVR_OCC_COUNT e).addr
  else if core then s.setCsr e (0x110 + i) v else s.u [(FE_H_OUT_D_DATA e i, v.toNat)]

/-- A store of the low `n` bytes of d. -/
def feStore (e n : Nat) (s : State) (w : Word) : State :=
  let a := feAddr s e w
  let v := s.gr e (feD w)
  if a % n ≠ 0 then feFault s e 0x3
  else if a < 0x8000 then
    let k := feData (a / 4)
    if n = 4 then feNext (s.setFeWord e k v) e
    else feNext (s.onEng e (fun x => { x with mem := tset (fun _ => 0) x.mem k (wordSet (s.feWord e k) (8 * (a % 4)) (8 * n) v.toNat) })) e
  else if n = 4 ∧ 0x8040 ≤ a ∧ a < 0x8080 then feNext (feMailOut s e ((a - 0x8040) / 4) false v) e
  else if n = 4 ∧ 0x80C0 ≤ a ∧ a < 0x8100 then feNext (feMailOut s e ((a - 0x80C0) / 4) true v) e
  else feFault s e 0x4

/-- The engine-side half of the LG's overhead buffer (R105). -/
def State.engHalf (s : State) (lg : Nat) : Nat := 1 - s.lineHalf lg

/-- The key of overhead address `a` as engine `e` sees it. -/
def feOhb (s : State) (e a : Nat) : Nat := ohbKey (e / 4) (s.engHalf (e / 4)) (a / 0x800) (a % 0x800)

/-- An overhead load of `n` bytes. -/
def feOhLoad (e n : Nat) (s : State) (w : Word) : State :=
  let a := feAddr s e w
  if a % n ≠ 0 then feFault s e 0x3
  else if 0x5FFF < a then feFault s e 0x5
  else feSet s e w (BitVec.ofNat 32 (if n = 4 then ohbWord0 s (feOhb s e a) else ohbGet s (feOhb s e a)))

def hdlcReset : Hdlc := ⟨0, false, [], false, [], 0, false, 0, 0, []⟩
def State.hdlcOf (s : State) (e x : Nat) : Hdlc := tget (fun _ => hdlcReset) (s.engOf e).hdlc x
def State.setHdlc (s : State) (e x : Nat) (h : Hdlc) : State := s.onEng e (fun y => { y with hdlc := tset (fun _ => hdlcReset) y.hdlc x h })

/-- HC_CFG of context `x` as written, and as the latest pass took it (R253). -/
def State.hcCfg (s : State) (e x : Nat) : Nat := (s.csr e (0x20 + 8 * x)).toNat
def State.hcForce (s : State) (e x : Nat) : Nat := (s.hdlcOf e x).cfg

/-- A configuration sends on local channel `ch` (R253). -/
def hcSends (cfg ch : Nat) : Bool := bitsOf cfg 1 1 == 1 && bitsOf cfg 2 4 == ch

/-- The context that owns a channel's transmit stream (R253): lowest engine, then lowest context, as 4 × engine + context, by the
configurations `cfg`. A faulted engine's contexts have stopped (R262). -/
def hcOwner (s : State) (cfg : Nat → Nat → Nat) (lg ch : Nat) : Option Nat :=
  ((List.range 16).find? (fun i => s.feState (4 * lg + i / 4) != 3 && hcSends (cfg (4 * lg + i / 4) (i % 4)) ch)).map
    (fun i => 16 * lg + i)

/-- The offsets of a transmit area that an owner takes: STREAM_LEN and the stream (R252). -/
def ohOwnedOff (off n : Nat) : Bool := (off < 4 && off + n > 1 && off < 3) || 0x100 ≤ off

/-- Put byte `i` of a transmit area's word 0 or any other byte: of word 0 only STREAM_LEN is stored (Table 6-2). -/
def ohTxByte (s : State) (k off v : Nat) : State :=
  if off = 0 ∨ off = 3 then s else if off = 2 then ohbPut s k (v % 4) else ohbPut s k v

/-- The 2 µs before a tick in which engine writes are discarded (R108). -/
def State.lateOh (s : State) : Bool := decide (123000 ≤ s.nowNs % 125000)

/-- A late write leaves its bytes as they were; a write in time makes them good (R108). -/
def ohStale (s : State) (k n : Nat) (late : Bool) : State :=
  let ks := (List.range n).map (fun i => k + i)
  let rest := s.ohbStale.filter (fun x => !ks.contains x)
  { s with ohbStale := if late then rest ++ ks else rest }

/-- An overhead store of `n` bytes (R252, R108). -/
def feOhStore (e n : Nat) (s : State) (w : Word) : State :=
  let a := feAddr s e w
  let off := a % 0x800
  let lg := e / 4
  let ch := a / 0x800
  if a % n ≠ 0 then feFault s e 0x3
  else if 0x5FFF < a ∨ off < 0x400 then feFault s e 0x5
  else if ohOwnedOff (off - 0x400) n ∧ (hcOwner s s.hcForce lg ch).isSome then feFault s e 0x6
  else if s.lateOh then feNext (ohStale (s.occ (LGM_OHB_LATE_OCC_COUNT lg).addr) (feOhb s e a) n true) e
  else
    feNext ((List.range n).foldl (fun t i => ohTxByte t (feOhb s e a + i) (off - 0x400 + i) ((s.gr e (feD w)).toNat / 256 ^ i % 256))
      (ohStale s (feOhb s e a) n false)) e

/-! ### CSRs (Table 11-4) -/

def feCsrRead (s : State) (e n : Nat) : Word :=
  match n with
  | 0x00 => BitVec.ofNat 32 (s.g (FE_EVPEND_EV e))
  | 0x04 => s.drawn
  | 0x07 => BitVec.ofNat 32 e
  | 0x10 => BitVec.ofNat 32 (s.g (FE_H_IN_DB_SEQ e))
  | 0x11 => BitVec.ofNat 32 (s.g (FE_H_IN_ACK_ACK e))
  | 0x12 => BitVec.ofNat 32 (s.g (FE_H_OUT_DB_SEQ e))
  | 0x13 => BitVec.ofNat 32 (s.g (FE_H_OUT_ACK_ACK e))
  | 0x18 => BitVec.ofNat 32 (s.g (FE_BERR_OCC_COUNT e))
  | _ => s.csr e n

/-- The writable bits of a CSR; 0 of a read-only one. -/
def feCsrMask (n : Nat) : Nat :=
  if n = 3 then 0xFFFF else if n = 5 then 3 else if n = 6 then 0xFFF else if 8 ≤ n ∧ n ≤ 0xF then 0x1FF
  else if n = 0x15 ∨ n = 0x16 then 0xFFFF
  else if 0x20 ≤ n then [0xFFFFF, 0x7FFF7FFF, 0x7FFF7FFF, 0x7FFF, 0, 0x7FFF, 0, 0].getD (n % 8) 0
  else 0

def feCsrWrite (s : State) (e n : Nat) (v : Word) : State :=
  if n = 0x11 then s.u [(FE_H_IN_ACK_ACK e, v.toNat)]
  else if n = 0x12 then s.u [(FE_H_OUT_DB_SEQ e, v.toNat)]
  else if feCsrMask n = 0 then s
  else s.setCsr e n (v &&& BitVec.ofNat 32 (feCsrMask n))

/-- All CSRs, the doorbells and the acknowledgements take their reset values (R247, R259); the Hatter mailbox words stay. -/
def feCsrReset (s : State) (e : Nat) : State :=
  (s.onEng e (fun x => { x with csr := x.csr.filter (fun p => decide (0x100 ≤ p.1)), tmr := false })).u
    [(FE_EVPEND_EV e, 0), (FE_H_IN_DB_SEQ e, 0), (FE_H_IN_ACK_ACK e, 0), (FE_H_OUT_DB_SEQ e, 0), (FE_H_OUT_ACK_ACK e, 0)]

/-! ### CRC assist (R244) -/

/-- One byte into a CRC state. -/
def feCrcByte (sel : Nat) (c : Word) (b : Byte) : Word :=
  match sel with
  | 0 => crcByte 0x8408 (c &&& 0xFFFF) b
  | 1 => crcByte polyFcs c b
  | 2 => crcByte polyCrc32c c b
  | _ => (List.range 8).foldl (fun c _ => (if c.getLsbD 7 then (c <<< 1) ^^^ 0x07 else c <<< 1) &&& 0xFF) ((c ^^^ b.setWidth 32) &&& 0xFF)

/-- The bytes of a word, least significant first. -/
def wordBytes (v : Word) : List Byte := [v.extractLsb' 0 8, v.extractLsb' 8 8, v.extractLsb' 16 8, v.extractLsb' 24 8]

/-! ### The bus port (R245) -/

/-- Show the operations outstanding. -/
def feOutst (s : State) (e : Nat) : State := s.u [(FE_STAT_OUTST e, (s.engOf e).ops.length)]

/-- The windows of BAR 0 (Table 2-4): outside the bus space, but an access of theirs ends in a bus error, not in a fault (R246). -/
def feWindowAddr (a : Nat) : Bool :=
  (decide (0x300000 ≤ a) && decide (a < 0x700000)) || (decide (0x800000 ≤ a) && decide (a < 0x900000)) ||
    (decide (0x1000000 ≤ a) && decide (a < 0x2000000))

/-- Post a bus operation: an address that Table 11-1 does not list is a D_RANGE fault (R241); a ninth operation stalls. -/
def fePost (e : Nat) (write : Bool) (s : State) (w : Word) : State :=
  let a := feAddr s e w
  if a % 4 ≠ 0 then feFault s e 0x3
  else if 0x240000 ≤ a ∧ !feWindowAddr a then feFault s e 0x4
  else if 8 ≤ (s.engOf e).ops.length then feStall s e
  else
    feOutst (feNext (s.onEng e (fun x => { x with ops := x.ops ++ [⟨write, a, if write then s.gr e (feD w) else 0, feD w, false⟩] })) e) e

/-- The engine stops once no bus operation is outstanding (R259). -/
def feHalted (s : State) (e : Nat) : State :=
  if (s.engOf e).halting ∧ (s.engOf e).ops = [] ∧ !s.on (FE_CMD_STOP e) then
    (s.onEng e (fun x => { x with halting := false })).u [(FE_STAT_STATE e, 0)]
  else s

/-! ### Branches -/

/-- Branch to PC + 4 × OFF (R242) if the condition holds. -/
def feBranch (e : Nat) (cond : Word → Word → Bool) (s : State) (w : Word) : State :=
  if cond (s.gr e (feA w)) (s.gr e (feD w)) then s.u [(FE_PC_PC e, (BitVec.ofNat 32 (s.fePc e) + (feImm w <<< 2)).toNat)] else feNext s e

/-! ### Control page (R258, R259, R265) -/

/-- A command's result (Table 11-9). -/
def feResult (s : State) (e cmd code : Nat) : State :=
  let s := s.result (FE_CMD_CTRL_VALID e).addr (code != 0 && code != 3)
    [(FE_CMD_CODE_CODE e, code), (FE_CMD_CODE_CMD e, cmd), (bitOf (FE_CMD_START e) cmd, 0)]
  s.u [(resBusy (FE_CMD_CTRL_VALID e).addr, bit (s.on (FE_CMD_STOP e) || s.on (FE_CMD_CHECK e)))]

/-- START (R259). -/
def feStart (s : State) (e : Nat) : State :=
  let b := s.g (FE_BANK_SEL_BANK e)
  if s.feState e = 1 ∨ s.feState e = 2 then feResult s e 0 0x01
  else if !s.on (feValid e b) then feResult s e 0 0x02
  else
    let s := feCsrReset (s.onEng e (fun x => { x with gr := [], halting := false, wd := 0 })) e
    let entry := 4 * wordGet (s.feWord e (feInstr b 2)) 0 13
    feResult (feCrcShow (s.u [(FE_STAT_ACT_BANK e, b), (FE_STAT_STATE e, 1), (FE_PC_PC e, entry), (FE_FAULT_CAUSE e, 0)]) e) e 0 0

/-- STOP (R259): it completes at FE_STOP_DONE. -/
def feStop (s : State) (e : Nat) : State :=
  if s.feState e = 0 then feResult s e 1 0x03
  else ((feDrop s e).onEng e (fun x => { x with halting := true })).u [(FE_CMD_STOP e, 1), (resBusy (FE_CMD_CTRL_VALID e).addr, 1)]

def feStopDone (s : State) (e : Nat) : State :=
  if s.on (FE_CMD_STOP e) ∧ (s.engOf e).ops = [] then
    (feResult (s.onEng e (fun x => { x with halting := false })) e 1 0).u [(FE_STAT_STATE e, 0)]
  else s

/-- CHECK (R258). -/
def feCheck (s : State) (e : Nat) : State :=
  let b := s.g (FE_BANK_SEL_BANK e)
  if s.on (FE_STAT_SWAP_PEND e) ∧ b ≠ s.feAct e then feResult s e 2 0x06
  else (s.onEng e (fun x => { x with chk := b + 1 })).u [(FE_CMD_CHECK e, 1), (resBusy (FE_CMD_CTRL_VALID e).addr, 1)]

/-- The header of Table 11-7. -/
def feHeaderOk (s : State) (e b : Nat) : Bool :=
  let h (i : Nat) : Word := s.feWord e (feInstr b i)
  let len := wordGet (h 1) 0 14
  let entry := wordGet (h 2) 0 13
  h 0 == 0x00FE1192 && decide (8 ≤ len) && decide (len ≤ 8192) && decide (8 ≤ entry) && decide (entry < len) && h 5 == 0 && h 6 == 0

/-- The image CRC: words 0 to 6, then 8 to LEN - 1. -/
def feImageCrc (s : State) (e b : Nat) : Word :=
  let len := wordGet (s.feWord e (feInstr b 1)) 0 14
  crc32 polyCrc32c ((List.range 7 ++ (List.range len).drop 8).flatMap (fun i => wordBytes (s.feWord e (feInstr b i))))

/-- What CHECK of a bank finds (R258, R263). -/
def feCheckCode (s : State) (e b : Nat) : Nat :=
  if (s.engOf e).ecc.any (fun p => p.1 / 8192 == b && p.2 == 2) then 0x07
  else if !feHeaderOk s e b then 0x04
  else if feImageCrc s e b ≠ s.feWord e (feInstr b 7) then 0x05
  else 0

def feCheckDone (s : State) (e : Nat) : State :=
  if (s.engOf e).chk = 0 then s
  else
    let b := (s.engOf e).chk - 1
    let code := feCheckCode s e b
    let s := s.onEng e (fun x => { x with chk := 0 })
    feResult (feCrcShow (if code = 0 then s.u [(feValid e b, 1)] else s) e) e 2 code

/-- FE_SWAP at its boundary (R260): the answer tells whether the item was applied. -/
def feSwap (s : State) (e : Nat) : State × Bool :=
  let a := s.feAct e
  let st := s.feState e
  let s := s.u [(FE_STAT_SWAP_PEND e, 0)]
  if st = 1 then (s, false)
  else
    let s := s.u [(FE_STAT_ACT_BANK e, 1 - a)]
    let s := if st = 2 then
        ((s.setGr e 1 1).setGr e 2 (s.feWord e (feInstr a 3))).u
          [(FE_PC_PC e, 4 * wordGet (s.feWord e (feInstr (1 - a) 2)) 0 13), (FE_STAT_STATE e, 1)]
      else s
    (feCrcShow s e, true)

/-- The software reset (R259): as STOP, with CSRs, doorbells, acknowledgements and partial frames reset. -/
def feReset (s : State) (e : Nat) : State :=
  let s := feCsrReset ((feDrop s e).onEng e (fun x => { x with hdlc := [], halting := !x.ops.isEmpty, chk := 0 })) e
  if (s.engOf e).ops = [] then s.u [(FE_STAT_STATE e, 0), (FE_CMD_STOP e, 0), (FE_CMD_CHECK e, 0)]
  else s.u [(FE_CMD_STOP e, 0), (FE_CMD_CHECK e, 0)]

/-- The engine memory window's bank and data writes (R259). -/
def feWindowWrite (s : State) (m e off : Nat) (v : Word) : State :=
  if !s.usable (feBase e) ∨ off % 4 ≠ 0 then s.answer m false []
  else if 0x8000 ≤ off then (s.setFeWord e (feData ((off - 0x8000) / 4)) v).answer m true []
  else
    let act := s.on (FE_CTL_IWIN e)
    let refused := if act then s.feState e == 1 || s.feState e == 2 else s.on (FE_STAT_SWAP_PEND e)
    if refused then s.answer m false []
    else
      let b := if act then s.feAct e else 1 - s.feAct e
      (feCrcShow ((s.setFeWord e (feInstr b (off / 4)) v).u [(feValid e b, 0)]) e).answer m true []

/-- A read through the window (R259, R263). -/
def feWindowRead (s : State) (m e off : Nat) : State :=
  if !s.usable (feBase e) ∨ off % 4 ≠ 0 then s.answer m false []
  else
    let b := if s.on (FE_CTL_IWIN e) then s.feAct e else 1 - s.feAct e
    let r := feRead s e (if 0x8000 ≤ off then feData ((off - 0x8000) / 4) else feInstr b (off / 4))
    match r.1 with
    | none => r.2.answer m false []
    | some v => r.2.answer m true [v]

/-! ### Mailboxes (R257) -/

/-- A write of the inbound doorbell: the host's own, or the Hatter core's of its pair. -/
def feInDb (s : State) (e v : Nat) (core : Bool) : State :=
  let v := v % 0x10000
  if core then
    let s := s.setCsr e 0x14 (BitVec.ofNat 32 v)
    if (s.csr e 0x15).toNat ≠ v then feEvent s e 6 else s
  else
    let s := s.u [(FE_H_IN_DB_SEQ e, v)]
    if s.g (FE_H_IN_ACK_ACK e) ≠ v then feEvent s e 5 else s

/-- A write of the outbound acknowledgement. -/
def feOutAck (s : State) (e v : Nat) (core : Bool) : State :=
  let v := v % 0x10000
  if core then s.setCsr e 0x17 (BitVec.ofNat 32 v)
  else
    let s := s.u [(FE_H_OUT_ACK_ACK e, v)]
    if s.g (FE_H_OUT_DB_SEQ e) = v then feEvent s e 7 else s

/-- A write of an inbound data word; refused, with a bus error, while a message is unacknowledged. -/
def feInD (s : State) (m e i : Nat) (v : Word) (core : Bool) : State :=
  if core then
    if s.csr e 0x14 ≠ s.csr e 0x15 then s.answer m false [] else (s.setCsr e (0x100 + i) v).answer m true []
  else if s.g (FE_H_IN_DB_SEQ e) ≠ s.g (FE_H_IN_ACK_ACK e) then s.answer m false []
  else (s.u [(FE_H_IN_D_DATA e i, v.toNat)]).answer m true []

/-! ### The tick (R248 to R250, R262) -/

/-- The channel snapshot word (R249), from the status as the selectors see it (R116). -/
def feChSnap (s : State) (c : Nat) : Word :=
  let old (f : Fld) : Nat := wordGet (tget resetWordOf s.seen f.addr) f.lo f.w
  BitVec.ofNat 32 (old ⟨chBase c + 0xF0, 0, 18⟩ + 0x40000 * old ⟨chBase c + 0xF8, 0, 4⟩ + 0x400000 * bit (s.disc c == 6))

/-- The selector snapshot word of SWATCH i (R249). -/
def feSelSnap (s : State) (e i : Nat) : Word :=
  let cfg := (s.csr e (8 + i)).toNat
  if bitsOf cfg 8 1 = 0 then 0
  else
    let n := 256 * (e / 4) + cfg % 256
    let k := selKey n
    BitVec.ofNat 32 (s.g (seSelected k) + 2 * s.g (seBridge k) + 4 * s.g (seReq k) + 0x40 * s.g (seWsf k) + 0x80 * s.g (seWsd k) +
      0x100 * s.g (sePsf k) + 0x200 * s.g (sePsd k) + 0x400 * bit (s.selOf n).on)

/-- Silence the streams of CTL.OWN (R262): STREAM_LEN becomes 0 in the transmit areas of both halves. -/
def feMute (s : State) (e : Nat) : State :=
  let lg := e / 4
  (List.range 12).foldl (fun t c =>
    if t.f (FE_CTL_OWN e) / 2 ^ c % 2 = 1 then ohbPutWord (ohbPutWord t (ohbKey lg 0 c 0x400) 0) (ohbKey lg 1 c 0x400) 0 else t)
    (s.onEng e (fun x => { x with mute := false }))

/-- A tick at an engine, after the halves have changed places and the boundary's items have applied. -/
def feTick (s : State) (e : Nat) : State :=
  if !s.ready (feBase e) then s
  else
    let s := if (s.engOf e).mute then feMute s e else s
    let n := (s.csr e 3).toNat
    let s := if n = 0 then s else s.setCsr e 3 (BitVec.ofNat 32 (n - 1))
    let s := s.onEng e (fun x => { x with tmr := x.tmr || n == 1, wd := if s.feState e = 1 then x.wd + 1 else 0 })
    let s := (s.setCsr e 1 (BitVec.ofNat 32 s.sfn)).setCsr e 2 (BitVec.ofNat 32 (s.sfn / 0x100000000))
    let lg := e / 4
    let new (i : Nat) : Word := if i < 12 then feChSnap s (12 * lg + i) else feSelSnap s e (i - 12)
    let old := (s.engOf e).snap
    let watched (i : Nat) : Bool := if i < 12 then (s.csr e 6).getLsbD i else (s.csr e (8 + (i - 12))).getLsbD 8
    let changed := (List.range 20).any (fun i => watched i && tget (fun _ => 0) old i != new i)
    let s := s.onEng e (fun x => { x with snap := (List.range 20).foldl (fun t i => tset (fun _ => (0 : Word)) t i (new i)) [] })
    let s := if changed then s.u [(bitOf (FE_EVPEND_EV e) 1, 1)] else s
    feEvent s e 0

/-! ### The commands -/

def execFeAdd (e : Fin 64) (s : State) : Host.Outcome State Fault Refusal := done (feIssue s e .add (feAlu e (· + ·)))
def execFeSub (e : Fin 64) (s : State) : Host.Outcome State Fault Refusal := done (feIssue s e .sub (feAlu e (· - ·)))
def execFeAnd (e : Fin 64) (s : State) : Host.Outcome State Fault Refusal := done (feIssue s e .and (feAlu e (· &&& ·)))
def execFeOr (e : Fin 64) (s : State) : Host.Outcome State Fault Refusal := done (feIssue s e .or (feAlu e (· ||| ·)))
def execFeXor (e : Fin 64) (s : State) : Host.Outcome State Fault Refusal := done (feIssue s e .xor (feAlu e (· ^^^ ·)))
def execFeShl (e : Fin 64) (s : State) : Host.Outcome State Fault Refusal := done (feIssue s e .shl (feAlu e feShl))
def execFeShr (e : Fin 64) (s : State) : Host.Outcome State Fault Refusal := done (feIssue s e .shr (feAlu e feShr))
def execFeSha (e : Fin 64) (s : State) : Host.Outcome State Fault Refusal := done (feIssue s e .sha (feAlu e feSha))
def execFeClt (e : Fin 64) (s : State) : Host.Outcome State Fault Refusal := done (feIssue s e .clt (feAlu e feClt))
def execFeCltu (e : Fin 64) (s : State) : Host.Outcome State Fault Refusal := done (feIssue s e .cltu (feAlu e feCltu))
def execFeMul (e : Fin 64) (s : State) : Host.Outcome State Fault Refusal := done (feIssue s e .mul (feAlu e (· * ·)))
def execFeMulhi (e : Fin 64) (s : State) : Host.Outcome State Fault Refusal := done (feIssue s e .mulhi (feAlu e feMulhi))
def execFeAddk (e : Fin 64) (s : State) : Host.Outcome State Fault Refusal := done (feIssue s e .addk (feAluK e feImm (· + ·)))
def execFeAndk (e : Fin 64) (s : State) : Host.Outcome State Fault Refusal := done (feIssue s e .andk (feAluK e feImmZ (· &&& ·)))
def execFeOrk (e : Fin 64) (s : State) : Host.Outcome State Fault Refusal := done (feIssue s e .ork (feAluK e feImmZ (· ||| ·)))
def execFeXork (e : Fin 64) (s : State) : Host.Outcome State Fault Refusal := done (feIssue s e .xork (feAluK e feImmZ (· ^^^ ·)))
def execFeCltk (e : Fin 64) (s : State) : Host.Outcome State Fault Refusal := done (feIssue s e .cltk (feAluK e feImm feClt))
def execFeKhi (e : Fin 64) (s : State) : Host.Outcome State Fault Refusal := done (feIssue s e .khi (feAluK e feImmZ feKhi))
def execFeShlk (e : Fin 64) (s : State) : Host.Outcome State Fault Refusal := done (feIssue s e .shlk (feAluK e feImmZ feShl))
def execFeShrk (e : Fin 64) (s : State) : Host.Outcome State Fault Refusal := done (feIssue s e .shrk (feAluK e feImmZ feShr))
def execFeShak (e : Fin 64) (s : State) : Host.Outcome State Fault Refusal := done (feIssue s e .shak (feAluK e feImmZ feSha))

def execFeLdw (e : Fin 64) (s : State) : Host.Outcome State Fault Refusal := done (feIssue s e .ldw (feLoad e 4 (BitVec.ofNat 32)))
def execFeLdh (e : Fin 64) (s : State) : Host.Outcome State Fault Refusal :=
  done (feIssue s e .ldh (feLoad e 2 (fun v => (BitVec.ofNat 16 v).signExtend 32)))
def execFeLdhu (e : Fin 64) (s : State) : Host.Outcome State Fault Refusal := done (feIssue s e .ldhu (feLoad e 2 (BitVec.ofNat 32)))
def execFeLdb (e : Fin 64) (s : State) : Host.Outcome State Fault Refusal :=
  done (feIssue s e .ldb (feLoad e 1 (fun v => (BitVec.ofNat 8 v).signExtend 32)))
def execFeLdbu (e : Fin 64) (s : State) : Host.Outcome State Fault Refusal := done (feIssue s e .ldbu (feLoad e 1 (BitVec.ofNat 32)))
def execFeStw (e : Fin 64) (s : State) : Host.Outcome State Fault Refusal := done (feIssue s e .stw (feStore e 4))
def execFeSth (e : Fin 64) (s : State) : Host.Outcome State Fault Refusal := done (feIssue s e .sth (feStore e 2))
def execFeStb (e : Fin 64) (s : State) : Host.Outcome State Fault Refusal := done (feIssue s e .stb (feStore e 1))
def execFeOldw (e : Fin 64) (s : State) : Host.Outcome State Fault Refusal := done (feIssue s e .oldw (feOhLoad e 4))
def execFeOldbu (e : Fin 64) (s : State) : Host.Outcome State Fault Refusal := done (feIssue s e .oldbu (feOhLoad e 1))
def execFeOstw (e : Fin 64) (s : State) : Host.Outcome State Fault Refusal := done (feIssue s e .ostw (feOhStore e 4))
def execFeOstb (e : Fin 64) (s : State) : Host.Outcome State Fault Refusal := done (feIssue s e .ostb (feOhStore e 1))
def execFeBld (e : Fin 64) (s : State) : Host.Outcome State Fault Refusal := done (feIssue s e .bld (fePost e false))
def execFeBst (e : Fin 64) (s : State) : Host.Outcome State Fault Refusal := done (feIssue s e .bst (fePost e true))
def execFeBsync (e : Fin 64) (s : State) : Host.Outcome State Fault Refusal :=
  done (feIssue s e .bsync (fun t _ => if (t.engOf e).ops = [] then feNext t e else feStall t e))
def execFeBreq (e : Fin 64) (s : State) : Host.Outcome State Fault Refusal := done (feIssue s e .breq (feBranch e (· == ·)))
def execFeBrne (e : Fin 64) (s : State) : Host.Outcome State Fault Refusal := done (feIssue s e .brne (feBranch e (· != ·)))
def execFeBrlt (e : Fin 64) (s : State) : Host.Outcome State Fault Refusal := done (feIssue s e .brlt (feBranch e BitVec.slt))
def execFeBrge (e : Fin 64) (s : State) : Host.Outcome State Fault Refusal := done (feIssue s e .brge (feBranch e (fun a b => !a.slt b)))
def execFeBrlo (e : Fin 64) (s : State) : Host.Outcome State Fault Refusal := done (feIssue s e .brlo (feBranch e BitVec.ult))
def execFeBrhs (e : Fin 64) (s : State) : Host.Outcome State Fault Refusal := done (feIssue s e .brhs (feBranch e (fun a b => !a.ult b)))
def execFeCall (e : Fin 64) (s : State) : Host.Outcome State Fault Refusal :=
  done (feIssue s e .call (fun t w => (t.setGr e (feD w) (BitVec.ofNat 32 (t.fePc e + 4))).u
    [(FE_PC_PC e, (BitVec.ofNat 32 (t.fePc e) + (feImm w <<< 2)).toNat)]))
def execFeJmp (e : Fin 64) (s : State) : Host.Outcome State Fault Refusal :=
  done (feIssue s e .jmp (fun t w =>
    let u := if feFn w = 1 then t.setGr e (feD w) (BitVec.ofNat 32 (t.fePc e + 4)) else t
    u.u [(FE_PC_PC e, (t.gr e (feA w)).toNat)]))
def execFeWait (e : Fin 64) (s : State) : Host.Outcome State Fault Refusal :=
  done (feIssue s e .wait (fun t w =>
    if t.gr e (feA w) = 0 then feFault t e 0x7 else feTryWait (t.onEng e (fun x => { x with wd := 0 })) e w))
def execFeRdc (e : Fin 64) (s : State) : Host.Outcome State Fault Refusal :=
  done (feIssue s e .rdc (fun t w =>
    let n := wordGet w 16 8
    feSet (if n = 4 then t.draw else t) e w (feCsrRead t e n)))
def execFeWrc (e : Fin 64) (s : State) : Host.Outcome State Fault Refusal :=
  done (feIssue s e .wrc (fun t w => feNext (feCsrWrite t e (wordGet w 16 8) (t.gr e (feA w))) e))
def execFeCrcb (e : Fin 64) (s : State) : Host.Outcome State Fault Refusal :=
  done (feIssue s e .crcb (fun t w => feAlu e (fun a b => feCrcByte (t.csr e 5).toNat a (b.extractLsb' 0 8)) t w))
def execFeCrcw (e : Fin 64) (s : State) : Host.Outcome State Fault Refusal :=
  done (feIssue s e .crcw (fun t w => feAlu e (fun a b => (wordBytes b).foldl (feCrcByte (t.csr e 5).toNat) a) t w))
def execFeHalt (e : Fin 64) (s : State) : Host.Outcome State Fault Refusal :=
  done (feIssue s e .halt (fun t _ => feHalted ((feDrop (feNext t e) e).onEng e (fun x => { x with halting := true })) e))

/-- FE_WATCHDOG (R262, Table 11-8): WDOG_FR ticks without a WAIT. -/
def execFeWatchdog (e : Fin 64) (s : State) : Host.Outcome State Fault Refusal :=
  let n := s.f (FE_CTL_WDOG_FR e)
  done (if s.feState e = 1 ∧ n ≠ 0 ∧ n ≤ (s.engOf e).wd ∧ s.ready (feBase e) then feFault s e 0x8 else s)

/-- FE_TIMER_EXPIRY (R250). -/
def execFeTimerExpiry (e : Fin 64) (s : State) : Host.Outcome State Fault Refusal :=
  done (if (s.engOf e).tmr then feEvent (s.onEng e (fun x => { x with tmr := false })) e 2 else s)

/-- H_IN_DB_WRITE (R257). -/
def execHInDbWrite (m : Fin 8) (e : Fin 64) (v : Word) (core : Bool) (s : State) : Host.Outcome State Fault Refusal :=
  let k (t : State) : State := if t.usable (feBase e) then (feInDb t e v.toNat core).answer m true [] else t.answer m false []
  done (if core then k s else regionWrite s m (feBase e) (feBase e + 0xC0) v 0xFFFFFFFF k)

/-- H_OUT_ACK_WRITE (R257). -/
def execHOutAckWrite (m : Fin 8) (e : Fin 64) (v : Word) (core : Bool) (s : State) : Host.Outcome State Fault Refusal :=
  done (if s.usable (feBase e) then (feOutAck s e v.toNat core).answer m true [] else s.answer m false [])

/-- H_IN_D_WRITE (R257). -/
def execHInDWrite (m : Fin 8) (e : Fin 64) (i : Fin 16) (v : Word) (core : Bool) (s : State) : Host.Outcome State Fault Refusal :=
  let k (t : State) : State := if t.usable (feBase e) then feInD t m e i v core else t.answer m false []
  done (if core then k s else regionWrite s m (feBase e) (feBase e + 0x80 + 4 * i) v 0xFFFFFFFF k)

/-- FE_START (R259). -/
def execFeStart (m : Fin 8) (e : Fin 64) (s : State) : Host.Outcome State Fault Refusal :=
  done (s.regionCmd m (FE_CMD_START e) (fun t => feStart t e))

/-- FE_STOP (R259). -/
def execFeStop (m : Fin 8) (e : Fin 64) (s : State) : Host.Outcome State Fault Refusal :=
  done (s.regionCmd m (FE_CMD_STOP e) (fun t => feStop t e))

/-- FE_STOP_DONE (R259). -/
def execFeStopDone (e : Fin 64) (s : State) : Host.Outcome State Fault Refusal := done (feStopDone s e)

/-- FE_CHECK (R258). -/
def execFeCheck (m : Fin 8) (e : Fin 64) (s : State) : Host.Outcome State Fault Refusal :=
  done (s.regionCmd m (FE_CMD_CHECK e) (fun t => feCheck t e))

/-- FE_CHECK_DONE (R258). -/
def execFeCheckDone (e : Fin 64) (s : State) : Host.Outcome State Fault Refusal := done (feCheckDone s e)

/-- FE_WINDOW_WRITE (R259). -/
def execFeWindowWrite (m : Fin 8) (e : Fin 64) (off : Fin 0x10000) (v : Word) (s : State) : Host.Outcome State Fault Refusal :=
  done (regionWrite s m (feBase e) (0x300000 + 0x10000 * e + off) v 0xFFFFFFFF (fun t => feWindowWrite t m e off v))

/-- FE_SCRUB (R263): a read of one word of the engine's memories. -/
def execFeScrub (e : Fin 64) (w : Fin 24576) (s : State) : Host.Outcome State Fault Refusal :=
  done (if s.ready (feBase e) then (feRead s e w).2 else s)

end Sys2Proof.Machine
end

