-- ==== Sys2Proof/Machine/Hdlc.lean ====
section
/-!
DEFINITION. The HDLC assist (11_fuller_engines.md R253 to R256; insertion of timestamps, R229).
-/

namespace Sys2Proof.Machine

open Sys2Proof

/-- Fields of a configuration (Table 11-4). -/
def hcBit (cfg : Nat) : Bool := bitsOf cfg 6 1 == 1
def hcFcs32 (cfg : Nat) : Bool := bitsOf cfg 7 1 == 1
def hcMax (cfg : Nat) : Nat := max 4 (bitsOf cfg 8 12)
def hcFcsLen (cfg : Nat) : Nat := if hcFcs32 cfg then 4 else 2

/-- A ring register's base and size in bytes, both multiples of 4. -/
def ringBase (w : Word) : Nat := wordGet w 0 15 / 4 * 4
def ringSize (w : Word) : Nat := wordGet w 16 15 / 4 * 4

/-- FCS-16 and FCS-32 (R253). -/
def hcFcs (cfg : Nat) (l : List Byte) : List Byte :=
  if hcFcs32 cfg then wordBytes (crc32 polyFcs l)
  else (wordBytes ((l.foldl (crcByte 0x8408) 0xFFFF) ^^^ 0xFFFF)).take 2

/-! ### Receiving (R254) -/

/-- What a context has received when a frame ends. -/
structure HcRec where
  data : List Byte
  flags : Nat
  pos : Nat
  sfn6 : Nat
  badFcs : Bool
  deriving DecidableEq, Repr

/-- A frame ends: complete, aborted, or cut by a gap (R254). A frame of fewer than 4 bytes leaves no record. -/
def hcFinish (cfg : Nat) (h : Hdlc) (flip abort gap odd : Bool) : Option HcRec :=
  let n := hcFcsLen cfg
  let body := if abort then h.rx else h.rx.take (h.rx.length - n)
  if !h.inFr || h.rx.length < 4 then none
  else if h.long || decide (hcMax cfg < body.length) then
    some ⟨body.take (hcMax cfg), (if abort then 2 else 0) + 4 + (if gap then 8 else 0), h.pos, h.sfn6, false⟩
  else if abort then some ⟨body, 2 + (if gap then 8 else 0), h.pos, h.sfn6, false⟩
  else
    let good := !odd && !flip && h.rx.drop (h.rx.length - n) == hcFcs cfg body
    some ⟨body, if good then 1 else 0, h.pos, h.sfn6, !good⟩

/-- Frame bytes beyond what a record can hold are not kept. -/
def hcKeep (cfg : Nat) (h : Hdlc) (b : Byte) : Hdlc :=
  if hcMax cfg + 4 < h.rx.length then { h with long := true } else { h with rx := h.rx ++ [b] }

/-- No frame in progress, at an opening flag. -/
def hcOpen (h : Hdlc) (pos sfn6 : Nat) : Hdlc :=
  { h with inFr := true, rx := [], esc := false, bits := [], long := false, pos := pos, sfn6 := sfn6 }

/-- Between frames. -/
def hcIdle (h : Hdlc) : Hdlc := { h with inFr := false, rx := [], esc := false, bits := [], long := false }

/-- One octet of an octet-stuffed stream: flag 0x7E, escape 0x7D with XOR 0x20, abort 0x7D 0x7E. -/
def hcOctet (cfg sfn6 : Nat) (r : Hdlc × List (Hdlc × Bool × Bool)) (p : Byte × Nat) : Hdlc × List (Hdlc × Bool × Bool) :=
  let h := r.1
  if p.1 = 0x7E then (hcOpen h p.2 sfn6, if h.inFr ∧ (!h.rx.isEmpty || h.esc) then r.2 ++ [(h, h.esc, false)] else r.2)
  else if !h.inFr then r
  else if p.1 = 0x7D then ({ h with esc := true }, r.2)
  else (hcKeep cfg { h with esc := false } (if h.esc then p.1 ^^^ 0x20 else p.1), r.2)

/-- Octets of a list of bits, first bit least significant. -/
def packBits : List Bool → Nat → List Byte
  | a :: b :: c :: d :: e :: f :: g :: h :: r, fuel + 1 =>
    BitVec.ofNat 8 (bit a + 2 * bit b + 4 * bit c + 8 * bit d + 16 * bit e + 32 * bit f + 64 * bit g + 128 * bit h) :: packBits r fuel
  | _, _ => []

/-- One bit of a bit-stuffed stream, at bit `p.2` of the stream area: a zero after five ones is dropped, 01111110 is a flag, seven
ones an abort. -/
def hcBitStep (cfg sfn6 : Nat) (r : Hdlc × List (Hdlc × Bool × Bool)) (p : Bool × Nat) : Hdlc × List (Hdlc × Bool × Bool) :=
  let h := r.1
  if p.1 then
    let h := { h with ones := h.ones + 1, bits := if h.long then h.bits else true :: h.bits }
    if h.ones = 7 ∧ h.inFr then
      let d := (h.bits.drop 8).reverse
      (hcIdle h, r.2 ++ [({ h with rx := packBits d d.length }, true, false)])
    else (h, r.2)
  else if h.ones = 6 then
    let d := (h.bits.drop 7).reverse
    (hcOpen { h with ones := 0 } ((p.2 - 7) / 8) sfn6,
      if h.inFr ∧ !d.isEmpty then r.2 ++ [({ h with rx := packBits d d.length }, false, d.length % 8 != 0)] else r.2)
  else
    let h' := { h with ones := 0, bits := if h.long ∨ h.ones = 5 then h.bits else false :: h.bits }
    (if 8 * (hcMax cfg + 6) < h'.bits.length then { h' with long := true } else h', r.2)

/-- The bits of an octet in the order of the line: most significant first. -/
def lineBits (b : Byte) : List Bool := (List.range 8).map (fun i => b.getLsbD (7 - i))
/-- The bits of an HDLC octet: least significant first. -/
def hdlcBits (b : Byte) : List Bool := (List.range 8).map (fun i => b.getLsbD i)

/-- Write bytes as whole words into a ring at an offset. -/
def ringPut (s : State) (e base off : Nat) (ws : List Word) : State :=
  ws.zipIdx.foldl (fun t p => t.setFeWord e (feData ((base + off) / 4 + p.2)) p.1) s

/-- Data bytes as words, byte 4k + i in bits [8i+7:8i] of word k. -/
def packWords : List Byte → Nat → List Word
  | [], _ => []
  | _, 0 => []
  | l, fuel + 1 => BitVec.ofNat 32 (packWord l 0) :: packWords (l.drop 4) fuel

/-- Add to a 16-bit or 15-bit count of HC_STAT, wrapping (Table 11-4). -/
def hcCount (s : State) (e x lo w : Nat) : State :=
  let v := s.csr e (0x27 + 8 * x)
  s.setCsr e (0x27 + 8 * x) (wordSet v lo w (wordGet v lo w + 1))

/-- A record enters the receive ring if at least 4 bytes stay free between the new RX_WR and RX_RD; otherwise the frame is dropped and
counted (R254, R256). The flag tells whether it was written. -/
def hcWrite (s : State) (e x : Nat) (r : HcRec) : State × Bool :=
  let ring := s.csr e (0x21 + 8 * x)
  let size := ringSize ring
  let rd := (s.csr e (0x23 + 8 * x)).toNat
  let wr := (s.csr e (0x24 + 8 * x)).toNat
  let words := [BitVec.ofNat 32 (r.data.length + 0x10000 * r.flags), BitVec.ofNat 32 (r.pos % 1024 + 1024 * (r.sfn6 % 64))] ++
    packWords r.data r.data.length
  let len := 4 * words.length
  let skip := if size < wr + len then size - wr else 0
  let used := (wr + size - rd % (size + 1)) % max 1 size
  if size = 0 ∨ size ≤ wr ∨ size < used + skip + len + 4 then (hcCount s e x 0 16, false)
  else
    let s := if skip = 0 then s else ringPut s e (ringBase ring) wr [0xFFFF]
    let off := if skip = 0 then wr else 0
    ((ringPut s e (ringBase ring) off words).setCsr e (0x24 + 8 * x) (BitVec.ofNat 32 ((off + len) % size)), true)

/-- A ring lies in data memory (R253). -/
def ringFits (w : Word) : Bool := decide (ringBase w + ringSize w ≤ 0x8000)

/-- Octets of bits in the order of the line; the last one is filled with zeros. -/
def lineBytes : List Bool → Nat → List Byte
  | [], _ => []
  | _, 0 => []
  | l, fuel + 1 =>
    BitVec.ofNat 8 (((List.range 8).map (fun i => if l.getD i false then 2 ^ (7 - i) else 0)).sum) :: lineBytes (l.drop 8) fuel

/-- Write a channel's transmit stream and STREAM_LEN for the next system frame. -/
def hcStream (s : State) (lg ch : Nat) (l : List Byte) : State :=
  let k := ohbKey lg (s.engHalf lg) ch 0x400
  l.zipIdx.foldl (fun t p => ohbPut t (k + 0x100 + p.2) p.1.toNat) (ohbPutWord s k (256 * l.length))

/-- A pass takes HC_CFG (R253): a change of CH, STUFF or FCS discards the partial frames. The sequence that ends a transmit one goes
ahead of the next frame, or, where the channel changes, into the old channel's stream if nothing owns it. -/
def hcTake (s : State) (e x : Nat) : State :=
  let h := s.hdlcOf e x
  let c := s.hcCfg e x
  if c &&& 0xFC ≠ h.cfg &&& 0xFC then
    let tail := if h.tx = [] then [] else if hcBit h.cfg then List.replicate 7 true else [0x7D, 0x7E].flatMap lineBits
    let ch := bitsOf h.cfg 2 4
    if tail = [] then s.setHdlc e x { hdlcReset with cfg := c }
    else if ch = bitsOf c 2 4 then s.setHdlc e x { hdlcReset with cfg := c, tx := tail }
    else
      let t := if (hcOwner s s.hcCfg (e / 4) ch).isNone then hcStream s (e / 4) ch (lineBytes tail tail.length) else s
      t.setHdlc e x { hdlcReset with cfg := c }
  else s.setHdlc e x { h with cfg := c }

/-- The receive pass of one context (R254); the flag tells whether it wrote a record. -/
def hcRxOne (s : State) (e x : Nat) : State × Bool :=
  let s := hcTake s e x
  let c := (s.hdlcOf e x).cfg
  let ch := bitsOf c 2 4
  if bitsOf c 0 1 = 0 ∨ 12 ≤ ch ∨ !ringFits (s.csr e (0x21 + 8 * x)) then (s, false)
  else
    let k := ohbKey (e / 4) (s.engHalf (e / 4)) ch 0
    let w0 := ohbWord0 s k
    let len := min 768 (w0 / 256 % 1024)
    let area := (List.range len).map (fun i => BitVec.ofNat 8 (ohbGet s (k + 0x100 + i)))
    let sfn6 := s.sfn % 64
    let gap := w0 / 0x40000 % 2 == 1
    let h0 := s.hdlcOf e x
    let cut := if hcBit c then { h0 with rx := packBits h0.bits.reverse h0.bits.length } else h0
    let early : List (HcRec × Bool) := if gap then ((hcFinish c cut false true true false).toList.map (fun r => (r, false))) else []
    let h1 := if gap then hcIdle { h0 with ones := 0 } else h0
    let run := if hcBit c then (area.flatMap lineBits).zipIdx.foldl (hcBitStep c sfn6) (h1, [])
      else area.zipIdx.foldl (hcOctet c sfn6) (h1, [])
    let s := s.setHdlc e x { run.1 with tx := (s.hdlcOf e x).tx }
    let (recs, s) := run.2.foldl (fun (r : List (HcRec × Bool) × State) f =>
      let (a, t) := injUnit r.2 0x0F 0 (fun i => bitsOf i 0 8 == 12 * (e / 4) + ch) 1
      ((r.1 ++ (hcFinish c f.1 (a.1 != 0) f.2.1 false f.2.2).toList.map (fun q => (q, q.badFcs))), t)) (early, s)
    recs.foldl (fun (r : State × Bool) q =>
      let t := if q.2 then hcCount r.1 e x 16 15 else r.1
      let (t, b) := hcWrite t e x q.1
      (t, r.2 || b)) (s, false)

/-- HDLC_RX_PASS (R254): the four contexts; a faulted engine's have stopped (R262). -/
def hcRxPass (s : State) (e : Nat) : State :=
  if s.feState e = 3 ∨ !s.ready (feBase e) then s
  else
    let r := [0, 1, 2, 3].foldl (fun (r : State × Bool) x => let (t, b) := hcRxOne r.1 e x; (t, r.2 || b)) (s, false)
    if r.2 then feEvent r.1 e 3 else r.1

/-! ### Sending (R255) -/

/-- Octet stuffing of a frame's bytes. -/
def hcStuff (l : List Byte) : List Byte := l.flatMap (fun b => if b = 0x7E ∨ b = 0x7D then [0x7D, b ^^^ 0x20] else [b])

/-- Bit stuffing: a zero after five ones. -/
def hcBitStuff : List Bool → Nat → List Bool
  | [], _ => []
  | b :: r, n => if b then (if n = 4 then true :: false :: hcBitStuff r 0 else true :: hcBitStuff r (n + 1)) else false :: hcBitStuff r 0

/-- A frame as it goes on the line: flag, stuffed data and FCS, flag. -/
def hcFrameBits (cfg : Nat) (data fcs : List Byte) : List Bool :=
  if hcBit cfg then hdlcBits 0x7E ++ hcBitStuff ((data ++ fcs).flatMap hdlcBits) 0 ++ hdlcBits 0x7E
  else ([0x7E] ++ hcStuff (data ++ fcs) ++ [0x7E]).flatMap lineBits

/-- A transmit record at an offset: LEN and marks, TAG, data (Table 11-6). An uncorrectable word reads as any value. -/
def hcRecord (s : State) (e base off : Nat) : State × Nat × Nat :=
  let get (t : State) (i : Nat) : Nat × State :=
    let r := feRead t e (feData ((base + off) / 4 + i))
    match r.1 with
    | some v => (v.toNat, r.2)
    | none => (r.2.drawn.toNat, r.2.draw)
  let (a, s) := get s 0
  if a % 0x10000 = 0xFFFF then (s, a, 0) else let (b, s) := get s 1; (s, a, b)

/-- The data bytes of a record. -/
def hcData (s : State) (e base off len : Nat) : List Byte × State :=
  let r := (List.range ((len + 3) / 4)).foldl (fun (r : List Byte × State) i =>
    let q := feRead r.2 e (feData ((base + off) / 4 + 2 + i))
    match q.1 with
    | some v => (r.1 ++ wordBytes v, q.2)
    | none => (r.1 ++ wordBytes q.2.drawn, q.2.draw)) ([], s)
  (r.1.take len, r.2)

/-- What the transmit pass of a context has assembled. -/
structure HcTx where
  s : State
  bits : List Bool
  took : Bool
  stamps : List Nat
  full : Bool

/-- The frame a record sends, with its insertion (R229, R255): bits, state, whether the pass must end before it. -/
def hcSendRec (e x cap : Nat) (r : HcTx) (len w0 w1 : Nat) (data : List Byte) (next : Nat) : HcTx :=
  let s := r.s
  let cfg := s.hcCfg e x
  let c := 12 * (e / 4) + bitsOf cfg 2 4
  let off := bitsOf w0 18 8
  let mark := bitsOf w0 16 1 == 1
  let cap8 := 8 * cap
  let plain := hcFrameBits cfg data (hcFcs cfg data)
  let fits := decide (r.bits.length + plain.length + 192 ≤ cap8)
  let everFits := decide (plain.length + 192 ≤ cap8) && !hcBit cfg
  if mark && everFits && !fits then { r with full := true }
  else
    let stamp := corrected s c true (s.tb.t / 0x10000 + r.stamps.headD 0 % 16384000000) 0
    let kind := fb data off % 16
    let known := decide (off + 44 ≤ len) && fb data (off + 1) % 16 == 2 && decide (kind ≤ 3)
    let ins := mark && everFits && s.f (TB_PT_CFG_ONE_STEP c) == 1 && known && decide (kind ≤ 2)
    let ns := stamp / 0x10000
    let out := if ins then
        addCorrection (putBytes data (off + 34) (beBytes (ns / 1000000000) 6 ++ beBytes (ns % 1000000000) 4)) off (stamp % 0x10000)
      else data
    let (a, s) := injUnit s 0x0F 1 (fun i => bitsOf i 0 8 == c) 1
    let fcs := hcFcs cfg out
    let fcs := if a.1 = 0 then fcs
      else fcs.zipIdx.map (fun p => p.1 ^^^ BitVec.ofNat 8 ((2 ^ min a.2 32 - 1) / 256 ^ p.2 % 256))
    let lost := mark && !everFits
    let s := if lost then ptLost s c else s
    let s := if bitsOf w0 17 1 = 1 ∧ !lost ∧ capTx s c then ptPush s c true (w1 % 0x10000) kind ins stamp else s
    let s := if ins then { s with excl := tset (fun _ => 0) s.excl c (s.sfn + 2) } else s
    let marked := mark || bitsOf w0 17 1 == 1
    { s := s.setCsr e (0x26 + 8 * x) (BitVec.ofNat 32 next), bits := r.bits ++ hcFrameBits cfg out fcs, took := true,
      stamps := if marked then r.stamps.tail else r.stamps, full := false }

/-- Records from TX_RD up to TX_WR while the stream has room. A record of LEN 0 or above MAX_LEN is skipped and counted (R256). -/
def hcSendRecs (e x cap wr : Nat) : Nat → HcTx → HcTx
  | 0, r => r
  | fuel + 1, r =>
    let ring := r.s.csr e (0x22 + 8 * x)
    let rd := (r.s.csr e (0x26 + 8 * x)).toNat
    if r.full ∨ rd = wr ∨ ringSize ring ≤ rd ∨ 8 * cap ≤ r.bits.length then r
    else
      let q := hcRecord r.s e (ringBase ring) rd
      let s := q.1
      let w0 := q.2.1
      let len := w0 % 0x10000
      let next := (rd + 8 + (len + 3) / 4 * 4) % max 1 (ringSize ring)
      if len = 0xFFFF then hcSendRecs e x cap wr fuel { r with s := s.setCsr e (0x26 + 8 * x) 0 }
      else if len = 0 ∨ hcMax (s.hcCfg e x) < len then
        hcSendRecs e x cap wr fuel { r with s := (hcCount s e x 0 16).setCsr e (0x26 + 8 * x) (BitVec.ofNat 32 next) }
      else
        let b := hcData s e (ringBase ring) rd len
        hcSendRecs e x cap wr fuel (hcSendRec e x cap { r with s := b.2 } len w0 q.2.2 b.1 next)

/-- The transmit pass of one context (R253, R255). -/
def hcTxOne (s : State) (e x : Nat) (caps stamps : List Nat) : State × Bool × List Nat :=
  let s := hcTake s e x
  let h := s.hdlcOf e x
  let ch := bitsOf h.cfg 2 4
  let lg := e / 4
  let statKey := 0x27 + 8 * x
  if bitsOf h.cfg 1 1 = 0 ∨ 12 ≤ ch ∨ !ringFits (s.csr e (0x22 + 8 * x)) then
    (s.setCsr e statKey (wordSet (s.csr e statKey) 31 1 0), false, stamps)
  else if hcOwner s s.hcCfg lg ch ≠ some (4 * e + x) then
    (s.setCsr e statKey (wordSet (s.csr e statKey) 31 1 1), false, stamps)
  else
    let s := s.setCsr e statKey (wordSet (s.csr e statKey) 31 1 0)
    let cap := min 768 (caps.getD ch 0)
    let wr := (s.csr e (0x25 + 8 * x)).toNat
    let r := hcSendRecs e x cap wr 8192 ⟨s, h.tx, false, stamps, false⟩
    let s := hcStream r.s lg ch (lineBytes (r.bits.take (8 * cap)) cap)
    (s.setHdlc e x { s.hdlcOf e x with tx := r.bits.drop (8 * cap) }, r.took, r.stamps)

/-- HDLC_TX_PASS (R255): `caps` are the stream capacities of the LG's channels in the next system frame (R107), `stamps` the raw
departure times of the line frames that carry the opening flags of the marked frames, in 2^-16 ns. -/
def hcTxPass (s : State) (e : Nat) (caps stamps : List Nat) : State :=
  if s.feState e = 3 ∨ !s.ready (feBase e) then s
  else
    let r := [0, 1, 2, 3].foldl (fun (r : State × Bool × List Nat) x =>
      let (t, b, st) := hcTxOne r.1 e x caps r.2.2
      (t, r.2.1 || b, st)) (s, false, stamps)
    if r.2.1 then feEvent r.1 e 4 else r.1

/-- HDLC_RX_PASS (R254). -/
def execHdlcRxPass (e : Fin 64) (s : State) : Host.Outcome State Fault Refusal := done (hcRxPass s e)

/-- HDLC_TX_PASS (R255). -/
def execHdlcTxPass (e : Fin 64) (caps stamps : List Nat) (s : State) : Host.Outcome State Fault Refusal := done (hcTxPass s e caps stamps)

end Sys2Proof.Machine
end

