-- ==== Sys2Proof/Machine/Batt.lean ====
section
/-!
DEFINITION. The batt store and the external memory (12_batt_store.md R268 to R281): batt paths and their rings, cells, reads, scrubbing,
the window, readiness; what an egress slot carries.
-/

namespace Sys2Proof.Machine

open Sys2Proof

/-! ### Paths and rings (R273, R274) -/

/-- The rings that the words of a path ask for: one per slot of an enabled path, none for an unbuffered one. -/
def bpRings (d0 d1 : Word) : Nat := if d1.getLsbD 0 && (d1.getLsbD 1 || wordGet d1 2 10 != 0) then wordGet d0 17 11 else 0

/-- The words of a path in force. -/
def bpWord (s : State) (p i : Nat) : Word := forceWord s.pend (bpKey p + 4 * i) (s.rd (bpKey p + 4 * i))

/-- Rings promised to paths whose writes still wait. -/
def bpPromised (s : State) (p : Nat) : Nat :=
  let ps := (((s.pend.filter (fun w => w.addr / 0x100000000000000 == 6)).map (fun w => w.addr % 0x100000000000000 / 256)).eraseDups).filter (· != p)
  (ps.map (fun q => bpRings (s.rd (bpKey q)) (s.rd (bpKey q + 4)) - (s.ringsOf q).length)).sum

/-- An enabled scheme 2 selector names the path (R274). -/
def bpNamed (s : State) (p : Nat) : Bool :=
  s.sels.any (fun n => s.f (seScheme (selKey n)) == 2 && (s.f (seWbpath (selKey n)) == p || s.f (sePbpath (selKey n)) == p))

/-- Why PATH_CMD.WRITE is refused (Table 12-2). The slot set is judged for an entry that enables its path. -/
def bpCode (s : State) : Nat :=
  let p := s.g BAT_PATH_SEL_PATH
  let d0 := s.rd 0xB040
  let d1 := s.rd 0xB044
  let first := wordGet d0 0 17
  let n := wordGet d0 17 11
  let en := d1.getLsbD 0
  if p = 0 then 0x01
  else if en ∧ n ≠ 0 ∧ !runOk s first n then 0x02
  else if (s.ringsFree - bpPromised s p) + (s.ringsOf p).length < bpRings d0 d1 then 0x03
  else if bpNamed s p ∧ (s.rd (bpKey p) &&& 0xFFFFFFF ≠ d0 &&& 0xFFFFFFF ∨ s.rd (bpKey p + 4) &&& 3 ≠ d1 &&& 3) then 0x04
  else if en ∧ n = 0 then 0x05
  else 0

/-- PATH_CMD.WRITE (R125, R280): the entry waits for the next system frame. -/
def bpWrite (s : State) (late : Bool) : State :=
  let code := bpCode s
  let k := bpKey (s.g BAT_PATH_SEL_PATH)
  let s := if code ≠ 0 then s else bufWrite (bufWrite s k 0xFFFFFFF (s.rd 0xB040) none late) (k + 4) 0xFFF (s.rd 0xB044) none late
  s.result BAT_PATH_CTRL_VALID.addr (code != 0) [(BAT_PATH_CODE_CODE, code)]

/-- The valid frames held (PATH_D3.DEPTH, 0 to 515): the cells of slot 0's ring. -/
def bpDepth (s : State) (p : Nat) : Nat :=
  match s.ringsOf p with
  | r :: _ => min 515 (s.cells.filter (fun q => q.1 / 1024 == r && cellValid q.2 q.2.sfn)).length
  | [] => 0

/-- PATH_CMD.READ. -/
def bpRead (s : State) : State :=
  let p := s.g BAT_PATH_SEL_PATH
  if p = 0 then s.result BAT_PATH_CTRL_VALID.addr true [(BAT_PATH_CODE_CODE, 1)]
  else
    let k := bpKey p
    s.result BAT_PATH_CTRL_VALID.addr false
      [(BAT_PATH_CODE_CODE, 0), (⟨0xB040, 0, 32⟩, (s.rd k).toNat), (⟨0xB044, 0, 32⟩, (s.rd (k + 4)).toNat),
       (BAT_PATH_D2_RING0, (s.ringsOf p).headD 0), (BAT_PATH_D2_ALLOC, bit (!(s.ringsOf p).isEmpty)), (BAT_PATH_D3_DEPTH, bpDepth s p)]

/-- A path's entry has come into force (R273, R274): its rings are taken or returned; a path whose slot set changes starts empty. -/
def bpLand (s : State) (p : Nat) (old0 : Word) : State :=
  let d0 := bpWord s p 0
  let need := bpRings d0 (bpWord s p 1)
  if need = (s.ringsOf p).length ∧ d0 &&& 0xFFFFFFF = old0 &&& 0xFFFFFFF then s
  else ringsTake (ringsDrop s p) p need

/-! ### Cells (R271) -/

/-- FILL mark of Table 7-2, and the bytes of a slot. -/
def slotFill : SlotData → Nat
  | .data _ => 0
  | .ais => 1
  | .unequipped => 2
def slotBytes : SlotData → List Byte
  | .data b => b.take 810
  | _ => []

/-- What a cell gives back. -/
def cellSlot (c : Cell) : SlotData := if c.fill = 1 then .ais else if c.fill = 2 then .unequipped else .data c.data

/-- A little-endian number of `n` bytes. -/
def leBytes (v : Nat) : Nat → List Byte
  | 0 => []
  | n + 1 => BitVec.ofNat 8 v :: leBytes (v / 256) n

/-- The 1,024 data bytes of a cell (R271). -/
def cellBytes (c : Cell) : List Byte :=
  let b := (c.data ++ List.replicate (810 - c.data.length) 0) ++ [0, 0, 0, BitVec.ofNat 8 (1 + 2 * c.fill)] ++ leBytes c.sfn 8 ++
    List.replicate 198 0
  b ++ leBytes (crc32 polyCrc32c b).toNat 4

/-! ### Codewords (R269, R272) -/

/-- A codeword of RS(72,64): 64 data symbols, then the check symbols by the generator of roots α^0 to α^7; symbol 0 stands for the highest
power (log 89). -/
def rsWord (data : List Byte) : List Byte := data ++ (rsParity 8 0x11D 8 (data.map BitVec.toNat)).map (BitVec.ofNat 8)

/-- Codeword and symbol that a channel byte holds; the last 64 bytes are unused. -/
def bytePlace (b : Nat) : Option (Nat × Nat) := if b < 72 * 14913080 then some (b / 72, b % 72) else none

/-- Codeword and data symbol of a data address. -/
def dataPlace (a : Nat) : Nat × Nat := (a / 64, a % 64)

/-- The 16 codewords of a cell as the channel stores them. -/
def cellWords (c : Cell) : List (List Byte) := (List.range 16).map (fun k => rsWord (((cellBytes c).drop (64 * k)).take 64))

/-- A burst of the injection point RS_BURST in a codeword of 72 symbols (R269, Table 13-5): 1 untouched, 4 check symbols only, 2
corrected data, 3 uncorrectable. -/
def burstClass (prm : Nat) : Nat :=
  let start := prm / 64 % 1024
  let sy := ((List.range (prm % 64)).map (fun j => (start + j) % 576 / 8)).eraseDups
  if sy.isEmpty then 1 else if 4 < sy.length then 3 else if sy.any (· < 64) then 2 else 4

/-- Write a cell into a ring (R273); a failed channel takes nothing. The class of an injected burst stays with the cell, and 16 times
the codewords it hit. -/
def cellWrite (s : State) (r n : Nat) (d : SlotData) : State :=
  if !s.memUp (ringChan r) then s
  else
    let (a, s) := injAny s 0x13 (· == ringChan r) 16
    let cls := if a.1 = 0 then 1 else burstClass a.2
    let d := if s.xingAis.contains (0xC, ringChan r) then .ais else d
    s.setCell r n ⟨n, slotFill d, slotBytes d, if cls = 1 then 1 else cls + 16 * a.1⟩

/-- STAT.UE: a ring in use holds a cell whose uncorrectable codeword a read or the scrubber has met (R277). -/
def battUeShow (s : State) : State := s.u [(BAT_STAT_UE, bit (s.cells.any (fun p => cellClass p.2 == 5 || cellClass p.2 == 6)))]

/-- UE_OCC and UE_LAST of an uncorrectable codeword (R277). -/
def ueNote (s : State) (path slot sfn ch cw : Nat) : State :=
  (s.occ BAT_UE_OCC_COUNT.addr).u [(BAT_UE_LAST_PATH, path), (BAT_UE_LAST_SLOT, slot), (BAT_UE_SFN_LO_SFN, sfn),
    (BAT_UE_SFN_HI_SFN, sfn / 0x100000000), (BAT_UE_CW_CW, cw), (BAT_UE_CW_CH, ch)]

/-! ### Reads (R276, R277) -/

/-- DELAY_FR in force: 1 acts as 2 (R274). -/
def bpDelayFr (s : State) (p : Nat) : Nat := let d := s.f (bpDelay (bpKey p)); if d = 1 then 2 else d

/-- What a fixed path delivers for its slot `i` in the current frame (R274, R277). -/
def battSlot (s : State) (p i : Nat) : SlotData :=
  match (s.ringsOf p)[i]? with
  | none => .ais
  | some r =>
    let n := s.sfn - bpDelayFr s p
    let c := s.cellOf r n
    if !s.ready 0xB000 || !s.memUp (ringChan r) || !cellGood c n || s.battLate.contains (2048 * p + i) ||
        s.xingAis.contains (0xC, ringChan r) then .ais
    else cellSlot c

/-- Slot `i` of the output of a hitless pair, by either of its paths (R195, R198): of the frame that the selector has chosen, in ODU mode of
its new slot carrier; AIS fill while it has none. -/
def hitlessSlot (s : State) (p i : Nat) : SlotData :=
  match s.sels.find? (fun n => s.f (seScheme (selKey n)) == 2 && (s.f (seWbpath (selKey n)) == p || s.f (sePbpath (selKey n)) == p)) with
  | none => .ais
  | some n =>
    let x := s.selOf n
    if x.src = 2 then .ais
    else if s.f (seTmode (selKey n)) = 1 then (match x.img[i]? with | some l => .data l | none => .ais)
    else
      match (s.ringsOf (s.f (if x.src = 0 then seWbpath (selKey n) else sePbpath (selKey n))))[i]? with
      | none => .ais
      | some r =>
        let c := s.cellOf r x.sent
        if !s.ready 0xB000 || !s.memUp (ringChan r) || !cellGood c x.sent then .ais else cellSlot c

/-- What the interchange delivers through a batt path for ingress slot `g` (R134): a path that does not cover the slot or is disabled gives
AIS fill; one without delay is read unbuffered. -/
def battVia (s : State) (p g : Nat) : SlotData :=
  let k := bpKey p
  let first := s.f (bpFirst k)
  if s.f (bpEn k) = 0 ∨ g < first ∨ first + s.f (bpNslot k) ≤ g then .ais
  else if s.f (bpMode k) = 1 then hitlessSlot s p (g - first)
  else if s.f (bpDelay k) = 0 then s.slotRead g
  else battSlot s p (g - first)

/-- The slots whose frames the rings of an owner hold, in ring order (R273, R274): those of a batt path; the egress slots from which a VCAT sink
takes its members, of the lowest channel that binds it. -/
def ringSlot (s : State) (o i : Nat) : Option (Sum Nat Nat) :=
  if o < 0x10000 then some (.inl (s.f (bpFirst (bpKey o)) + i))
  else
    let lg := (o - 0x10000) / 16
    match ((List.range 12).map (fun j => 12 * lg + j)).find? (fun c => isBound s c true && boundGrp s c true == o % 16) with
    | some c => some (.inr (512 * c + i))
    | none => none

/-- What egress slot `e` carries in the current frame (R129 to R134, R148, R184). -/
def State.egressSlot (s : State) (e : Nat) : SlotData :=
  match s.egressMap e with
  | .slot g => s.slotRead g
  | .batt p g => battVia s p g
  | .lower j => .data (tget (fun _ => []) s.loOut j)
  | .ais => .ais
  | .unequipped => .unequipped

/-- The batt store writes the cells of frame `n`, the frame that has ended (R273, R274). -/
def battFrame (s : State) (n : Nat) : State :=
  if s.rings.isEmpty then s
  else
    battUeShow (s.rings.foldl (fun t p => p.2.zipIdx.foldl (fun u q =>
      match ringSlot s p.1 q.2 with
      | some (.inl g) => cellWrite u q.1 n (s.slotRead g)
      | some (.inr e) => cellWrite u q.1 n (s.egressSlot e)
      | none => u) t) s)

/-- The paths whose readers take a cell of path `p`: a hitless pair is read by either of its paths (R195). -/
def readPaths (s : State) (p : Nat) : List Nat :=
  if s.f (bpMode (bpKey p)) = 0 then [p]
  else
    match s.sels.find? (fun n => s.f (seScheme (selKey n)) == 2 && (s.f (seWbpath (selKey n)) == p || s.f (sePbpath (selKey n)) == p)) with
    | some n => [s.f (seWbpath (selKey n)), s.f (sePbpath (selKey n))]
    | none => [p]

/-- The egress channels whose slots read slot `i` of path `p`. -/
def battReaders (s : State) (p i : Nat) : List Nat :=
  (readPaths s p).flatMap (fun q =>
    (s.tsi.ent.filter (fun x => x.1 / 0x100000 == s.icActive false && wordGet x.2 20 12 == q && wordGet x.2 0 17 == s.f (bpFirst (bpKey q)) + i &&
      decide (x.1 % 0x100000 < 98304))).map (fun x => s.slotCh (x.1 % 0x100000)))

/-- The frame of every reader lies outside the Same-Output Guarantee (R69, R276, R277). -/
def battUncov (s : State) (p i : Nat) : State := (battReaders s p i).foldl (fun t c => markUncov t c t.sfn) s

/-- A read meets an uncorrectable codeword of cell `c` of ring `r`, frame `n`, at codeword `k` of the cell (R277). A VCAT sink's cell has path 0
and the slot that its egress slot reads (log 89). -/
def cellUe (s : State) (r n k : Nat) (c : Cell) : State :=
  let o := s.ringOwner r
  let slot := match ringSlot s o.1 o.2 with
    | some (.inl g) => g
    | some (.inr e) => (match s.egressMap e with | .slot g => g | .batt _ g => g | _ => 0)
    | none => 0
  battUeShow ((ueNote s (if o.1 < 0x10000 then o.1 else 0) slot n (ringChan r) (cellCw r n + k)).setCell r n { c with good := 5 + 16 * (c.good / 16) })

/-- A read of a cell has been decoded (R270, R271, R276, R277). -/
def battReturn (s : State) (p i : Nat) (o : BattObs) : State :=
  match (s.ringsOf p)[i]? with
  | none => s
  | some r =>
    let ch := ringChan r
    let n := s.sfn - (if s.f (bpMode (bpKey p)) = 1 then o.back else bpDelayFr s p)
    let c := s.cellOf r n
    if !s.ready 0xB000 || !s.memUp ch then s
    else
      let s := s.u [(MEM_INFL_NOW, min 3072 o.infl), (MEM_INFL_PEAK, max (s.g MEM_INFL_PEAK) (min 3072 o.infl))]
      let s := prfCount (gaugeSample s 4 ch (Int.ofNat o.latency)) 11 (· == ch)
      let s := if o.late then battUncov { s.occ (BAT_LATE_OCC_COUNT).addr with battLate := (2048 * p + i) :: s.battLate } p i else s
      if !cellValid c n then s
      else
        let s := if i = 0 then gaugeSample s 3 p (Int.ofNat o.waited) else s
        let k := c.good / 16
        let cls := cellClass c
        let s := s.perfAdd BAT_CHK_ONLY_COUNT.addr (o.chk + (if cls = 4 then k else 0))
        let s := s.perfAdd BAT_CORR_COUNT.addr (o.corr + (if cls = 2 then k else 0))
        if cls = 3 ∨ cls = 5 ∨ o.ue.isSome ∨ o.crcBad then
          let s := if o.crcBad then s.occ BAT_CELL_CRC_OCC_COUNT.addr else s
          battUncov (cellUe s r n (o.ue.getD 0) c) p i
        else s

/-- BATT_READ_RETURN. -/
def execBattReadReturn (p : Fin 4096) (i : Fin 2048) (o : BattObs) (s : State) : Host.Outcome State Fault Refusal :=
  done (battReturn s p i o)

/-! ### Scrubbing (R278) -/

/-- The cell that codeword `cw` of a channel belongs to: ring and position modulo 516; beyond the cell region none. -/
def cwCell (ch cw : Nat) : Option (Nat × Nat) :=
  if cw < 12681216 then some (16 * (cw / 16 / 516) + ch, cw / 16 % 516) else none

/-- The cell at a codeword, by its key, and what the decoder makes of the codeword: 0 no error, 1 check symbols only, 2 corrected, 3
uncorrectable. -/
def cwHere (s : State) (ch cw : Nat) : Option (Nat × Cell) :=
  (cwCell ch cw).map (fun p => (1024 * p.1 + p.2, tget (fun _ => noCell) s.cells (1024 * p.1 + p.2)))
def cwClass (s : State) (ch cw : Nat) : Nat :=
  match cwHere s ch cw with
  | some (_, c) => if c.good / 16 ≤ cw % 16 then 0 else [0, 0, 2, 3, 1, 3, 3].getD (cellClass c) 0
  | none => 0

/-- The scrubber reads codeword `cw`: `cls` 0 none, 1 check symbols only, 2 corrected, 3 uncorrectable. In the cell region an uncorrectable one
marks its cell invalid; beyond it R277 holds. -/
def scrubRead (s : State) (ch cw cls : Nat) (passMs : Option Nat) : State :=
  if !s.ready 0xC000 || !s.memUp ch then s
  else
    let s := match passMs with
      | some t => s.u [(MEM_SCRUB_LAST_MS, t), (MEM_SCRUB_PASSES, s.g MEM_SCRUB_PASSES + 1)]
      | none => s
    let here := cwHere s ch cw
    let stored := cwClass s ch cw
    let cls := max cls stored
    let put (c : Cell) (k : Nat) : State := { s with cells := tset (fun _ => noCell) s.cells k c }
    match cls with
    | 0 => s
    | 3 =>
      match here with
      | some (k, c) => if c = noCell then s.occ BAT_SCRUB_UE_OCC_COUNT.addr
          else battUeShow ((put { c with good := 6 + 16 * (c.good / 16) } k).occ BAT_SCRUB_UE_OCC_COUNT.addr)
      | none => ueNote s 0 0 0 ch cw
    | _ =>
      let s1 := match here with
        | some (k, c) => if stored = 0 then s else put { c with good := if cw % 16 + 1 = c.good / 16 then 1 else c.good } k
        | none => s
      s1.perfAdd (if cls = 1 then BAT_CHK_ONLY_COUNT.addr else BAT_CORR_COUNT.addr) 1

/-- PATH_READ. -/
def execPathRead (m : Fin 8) (s : State) : Host.Outcome State Fault Refusal := done (s.command m BAT_PATH_CMD_READ bpRead)

/-- PATH_WRITE. -/
def execPathWrite (m : Fin 8) (late : Bool) (s : State) : Host.Outcome State Fault Refusal :=
  done (s.regionCmd m BAT_PATH_CMD_WRITE (fun t => bpWrite t late))

/-! ### The window (R279) -/

/-- The data word of a channel at a byte address: a cell's, a state-copy word; the training region's patterns are not stated. -/
def battWord (s : State) (ch a : Nat) : Word :=
  if a < 0x30600000 then
    match cwCell ch (a / 64) with
    | some (r, j) =>
      let c := tget (fun _ => noCell) s.cells (1024 * r + j)
      if c = noCell then 0 else BitVec.ofNat 32 (packWord (cellBytes c) (a % 1024 / 4))
    | none => 0
  else if a < 0x30E38E00 then s.drawn
  else tget (fun _ => 0) s.scopy (0x2000000 * ch + (a - 0x30E38E00) / 4)

/-- An access of the window at byte offset `off`: a read, or a write of `w`; `cls` is the decoder's outcome. -/
def battWindow (s : State) (m off : Nat) (w : Option Word) (cls : Nat) : State :=
  let ch := s.g BAT_WIN_CFG_CH
  let a := 0x1000000 * min 56 (s.g BAT_WIN_CFG_DBASE) + off
  if off % 4 ≠ 0 ∨ !s.usable 0xC000 ∨ !s.memUp ch ∨ 0x38E38DFF < a then s.answer m false []
  else
    match w with
    | some v =>
      if a < 0x30E38E00 ∨ s.g TWN_STAT_STATE = 2 then s.answer m false []
      else ({ s with scopy := tset (fun _ => 0) s.scopy (0x2000000 * ch + (a - 0x30E38E00) / 4) v }).answer m true []
    | none =>
      let x := max cls (cwClass s ch (a / 64))
      if x = 3 then
        (match cwHere s ch (a / 64) with
          | some (k, c) => if c = noCell then ueNote s 0 0 0 ch (a / 64) else cellUe s (k / 1024) c.sfn (a / 64 % 16) c
          | none => ueNote s 0 0 0 ch (a / 64)).answer m false []
      else
        let v := battWord s ch a
        let s := if x = 1 then s.perfAdd BAT_CHK_ONLY_COUNT.addr 1 else if x = 2 then s.perfAdd BAT_CORR_COUNT.addr 1 else s
        s.draw.answer m true [v]

/-! ### Readiness and failure (R268, R275) -/

/-- Every cell is invalid, and the hitless selectors acquire again (R377, R275). -/
def battEmpty (s : State) : State :=
  battUeShow ({ s with cells := [] }.u ((s.sels.filter (fun n => (s.selOf n).on && s.f (seScheme (selKey n)) == 2 &&
    (s.g (seHl (selKey n)) == 2 || s.g (seHl (selKey n)) == 3))).map (fun n => (seHl (selKey n), 1))))

/-- The cells of a channel hold no valid data. -/
def dropCells (s : State) (ch : Nat) : State := battUeShow { s with cells := s.cells.filter (fun p => p.1 / 1024 % 16 != ch) }

/-- MEM and BAT become ready with the channels (R275, Table 17-4). -/
def memReady (s : State) : State :=
  let t := s.g MEM_STAT_TRAINED
  let s := if t ≠ 0 then pageInit s 0xC000 true else s
  if t ≠ 0 ∧ (t ||| s.g MEM_STAT_FAIL) = 0xFFFF then pageInit s 0xB000 true else s

/-- A channel finishes training or fails it (R268). -/
def memTrained (s : State) (ch : Nat) (ok : Bool) : State :=
  if s.mode = 0 ∨ !s.on CLK_PLL_STAT_G6_LK then s
  else
    let s := dropCells s ch
    memReady (s.u (if ok then [(bitOf MEM_STAT_TRAINED ch, 1), (bitOf MEM_STAT_FAIL ch, 0)]
      else [(bitOf MEM_STAT_TRAINED ch, 0), (bitOf MEM_STAT_FAIL ch, 1)]))

/-- MEM_CHANNEL_TRAINED. -/
def execMemChannelTrained (ch : Fin 16) (ok : Bool) (s : State) : Host.Outcome State Fault Refusal := done (memTrained s ch ok)

/-- MEM_CHANNEL_FAIL (R275): a trained channel fails in service. -/
def execMemChannelFail (ch : Fin 16) (s : State) : Host.Outcome State Fault Refusal :=
  done (if s.on (bitOf MEM_STAT_TRAINED ch) then memReady (dropCells (s.u [(bitOf MEM_STAT_FAIL ch, 1)]) ch) else s)

/-- MEM_PLL_LOCK_LOSS (R20, R275): every channel fails and BAT.PG_READY clears. -/
def execMemPllLockLoss (s : State) : Host.Outcome State Fault Refusal :=
  done (if s.pwr.inReset then s
    else battEmpty (s.u [(CLK_PLL_STAT_G6_LK, 0), (MEM_STAT_FAIL, 0xFFFF), (PG_READY_READY 0xB000, 0)]))

end Sys2Proof.Machine
end

