-- ==== Sys2Proof/Machine/Integrity.lean ====
section
/-!
DEFINITION. Check values and configuration parity (13_integrity_injection.md R282 to R288; 02_register_conventions.md R38): Pounce
units, nap digests, parity faults and the held state of a page.
-/

namespace Sys2Proof.Machine

open Sys2Proof

/-! ### Pounce units -/

/-- The combinations that Table 13-1 marks, and instances that do not exist: the unit stays idle. -/
def pounceIdle (s : State) (u : Nat) : Bool :=
  let kind := s.f (PNC_U_CFG_SRC_KIND u)
  let idx := s.f (PNC_U_CFG_SRC_IDX u)
  let fr := s.f (PNC_U_CFG_FRAMING u)
  let combo : Bool := match kind with
    | 0 | 1 => decide (idx < 192)
    | 2 | 3 => fr != 2 && decide (idx < 8)
    | 4 => fr == 3
    | 5 => fr == 3 && decide (1 ≤ idx) && decide (idx < 4096)
    | _ => false
  !combo

/-- CFG_BAD as far as the configuration tells: a unit that stays idle (R282), or a POLY that an Ethernet FCS is not (R284). -/
def pounceBad (s : State) (u : Nat) : Bool :=
  pounceIdle s u || (s.f (PNC_U_CFG_CHECK u) == 1 && s.f (PNC_U_CFG_FRAMING u) == 2 && s.f (PNC_U_CFG_POLY u) != 0)

/-- U_CFG or U_BLOCK has come into force (R282, R284). -/
def pounceLand (s : State) (u : Nat) : State := s.u [(PNC_U_INFO_CFG_BAD u, bit (pounceBad s u))]

/-- The CRC of Table 13-2. -/
def pounceCrc (poly : Nat) (raw : Bool) (l : List Byte) : Word :=
  let run (sel : Nat) (init final : Word) : Word :=
    if raw then l.foldl (feCrcByte sel) 0 else l.foldl (feCrcByte sel) init ^^^ final
  match poly with
  | 0 => run 1 0xFFFFFFFF 0xFFFFFFFF
  | 1 => run 2 0xFFFFFFFF 0xFFFFFFFF
  | 2 => run 0 0xFFFF 0xFFFF
  | _ => run 3 0 0

/-- A computation unit ends (R284): its bytes, of BLOCK framing at most U_BLOCK, the check value it carries and, of HDLC framing, whether that
is an FCS-32. -/
def pounceEnd (s : State) (u : Nat) (l : List Byte) (carried : Word) (fcs32 : Bool) : State :=
  if s.f (PNC_U_CFG_EN u) = 0 ∨ !s.ready 0x1C000 ∨ (pounceIdle s u) then s
  else
    let poly := s.f (PNC_U_CFG_POLY u)
    let fr := s.f (PNC_U_CFG_FRAMING u)
    let l := if fr = 3 then l.take (max 4 (s.f (PNC_U_BLOCK_BLOCK u))) else l
    let check := s.f (PNC_U_CFG_CHECK u) == 1 && (fr == 1 || fr == 2)
    let fits := poly == (if fr = 2 ∨ fcs32 then 0 else 2)
    let compared := check && fits
    let v := pounceCrc poly (s.f (PNC_U_CFG_RAW u) == 1) l
    let s := if compared && v != carried then s.occ (PNC_U_MIS_OCC_COUNT u).addr else s
    s.result (PNC_U_CTRL_VALID u).addr false
      [(PNC_U_VAL_VAL u, v.toNat), (PNC_U_CARRIED_VAL u, if check then carried.toNat else 0), (PNC_U_INFO_LEN u, min 65535 l.length),
       (PNC_U_INFO_MATCH u, bit (compared && v == carried)), (PNC_U_INFO_CFG_BAD u, bit (check && !fits)),
       (PNC_U_UNITS_COUNT u, s.g (PNC_U_UNITS_COUNT u) + 1)]

/-- POUNCE_UNIT_COMPLETE. -/
def execPounceUnitComplete (u : Fin 32) (bytes : List Byte) (carried : Word) (fcs32 : Bool) (s : State) :
    Host.Outcome State Fault Refusal :=
  done (pounceEnd s u bytes carried fcs32)

/-! ### Nap digests (R285, R286) -/

/-- The flags of channel `c`'s digest of frame `n`: EDGE, EXCL, UNCOV, ABSENT in bits 0 to 3. -/
def digestFlags (s : State) (c n : Nat) : Nat :=
  bit (s.edge.contains c) + 2 * bit (tget (fun _ => 0) s.excl c == n + 1) +
    4 * bit (tget (fun _ => 0) s.uncov c == n + 1 || s.xingAis.any (fun p => p.1 ≤ 3 && p.2 == c)) + 8 * bit (s.bonded c)

/-- The digest of what channel `c` sends in a frame: the bytes of its egress line frames that begin in it, less those that R232 marks;
nothing sent, electrical idle and a bonded member give 0. -/
def digestOf (s : State) (eg : List (Nat × List Byte)) (c : Nat) : Word :=
  match eg.find? (fun p => p.1 == c) with
  | some (_, l) => if s.bonded c ∨ s.f (CH_TX_CFG_TX_FMT c) = 0 then 0 else crc32 polyCrc32c l
  | none => 0

/-- All 192 digests with their flags. -/
def digestAll (s : State) (eg : List (Nat × List Byte)) (n : Nat) : Digests :=
  (List.range 192).map (fun c => (digestOf s eg c, digestFlags s c n))

/-- A result's control word after one more success. -/
def ctrlNext (w : Word) : Word := BitVec.ofNat 32 ((w.toNat / 0x10000 + 1) % 0x10000 * 0x10000 + 1)

/-- The digests of frame `n` become the results that DIG_SEL shows. -/
def digestShow (s : State) (d : Digests) (n : Nat) : State :=
  if !s.ready 0x1C000 then s
  else
    d.zipIdx.foldl (fun t p =>
      let c := p.2
      let k := (PNC_DIG_CTRL_VALID c).addr
      ((((t.setWord k (ctrlNext (t.rd k))).setWord (PNC_DIG_VAL_DIGEST c).addr p.1.1).setWord (PNC_DIG_SFN_LO_SFN_LO c).addr (BitVec.ofNat 32 n)).setWord
        (PNC_DIG_SFN_HI_SFN_HI c).addr (BitVec.ofNat 32 (n / 0x100000000))).setWord (PNC_DIG_FLAGS_EDGE c).addr (BitVec.ofNat 32 p.1.2)) s

/-! ### Configuration parity (R38, R288) -/

/-- PG_PAR of a page: ERR, the lowest faulty register, how many. -/
def parShow (s : State) (pg : Nat) : State :=
  let l := (s.parSeen.filter (fun k => pageOf k == pg)).map (fun k => k % 0x1000 / 4)
  s.u [(PG_PAR_ERR pg, bit (!l.isEmpty)), (PG_PAR_WORD pg, l.foldl min (l.headD 0)), (PG_PAR_COUNT pg, min 255 l.length)]

/-- A page's function enters its safe state, or leaves it, at a boundary (R38): at once while the time base does not run. -/
def parSettle (s : State) (pg : Nat) : State :=
  if s.on (PG_PAR_HOLD pg) then
    if !s.on (PG_PAR_ERR pg) || s.on (PG_PAR_PAR_ACT pg) then
      { s with safe := s.safe.filter (· != pg) }.u [(PG_PAR_HOLD pg, 0)]
    else { s with safe := if pg ∈ s.safe then s.safe else pg :: s.safe }
  else { s with safe := s.safe.filter (· != pg) }

def parNow (s : State) (pg : Nat) : State := if s.running then s else parSettle s pg

/-- HOLD sets where the page is under SAFE (R38). -/
def parHold (s : State) (pg : Nat) : State :=
  if s.on (PG_PAR_ERR pg) && !s.on (PG_PAR_PAR_ACT pg) then parNow (s.u [(PG_PAR_HOLD pg, 1)]) pg else s

/-- A read or the scanner finds a faulty register (R38, R288): a fault in force is not counted again. -/
def parFound (s : State) (k : Nat) : State :=
  if k ∈ s.parSeen ∨ k ∉ s.parBad then s
  else
    parHold (parShow (({ s with parSeen := k :: s.parSeen }.occ PNC_PAR_OCC_COUNT.addr).u [(PNC_PAR_LAST_ADDR, k % 0x100000000)])
      (pageOf k)) (pageOf k)

/-- A write repairs a register's parity (R38). -/
def parRepair (s : State) (k : Nat) : State :=
  if k ∉ s.parBad then s
  else parNow (parShow { s with parBad := s.parBad.filter (· != k), parSeen := s.parSeen.filter (· != k) } (pageOf k)) (pageOf k)

/-- The held pages at a system-frame boundary. -/
def parBoundary (s : State) : State :=
  ((List.range 576).filter (fun p => s.on (PG_PAR_HOLD (0x1000 * p)) || s.safe.contains (0x1000 * p))).foldl (fun t p => parSettle t (0x1000 * p)) s

/-- A scanner pass (R288): it finds every register that holds a fault; `bad` are registers whose stored bits an upset has changed
since the pass before. -/
def parScan (s : State) (us : Nat) (bad : List Nat) : State :=
  let s := bad.foldl parFlip s
  (s.parBad.foldl parFound s).u [(PNC_PAR_SCAN_LAST_US, min 65535 us), (PNC_PAR_SCAN_PASSES, s.g PNC_PAR_SCAN_PASSES + 1)]

/-- PARITY_SCAN_PASS. -/
def execParityScanPass (us : Nat) (bad : List Nat) (s : State) : Host.Outcome State Fault Refusal :=
  done (if s.ready 0x1C000 then parScan s us bad else s)

/-- A write of PAR_ACT (R38). -/
def parActWrite (s : State) (pg v : Nat) : State := parHold (parRepair (s.u [(PG_PAR_PAR_ACT pg, v)]) (pg + 0x18)) pg

/-- PAR_ACT_WRITE: a plain write of PG_PAR. -/
def execParActWrite (m : Fin 8) (page : Fin 576) (v : Word) (s : State) : Host.Outcome State Fault Refusal :=
  let pg := 0x1000 * page.val
  done (if s.usable pg then (parActWrite s pg (wordGet v 2 1)).answer m.val true [] else s.answer m.val false [])

end Sys2Proof.Machine
end

