-- ==== Sys2Proof/Machine/Counters.lean ====
section
/-!
DEFINITION. Which register bits are counters, holding copies and copied configuration (02_register_conventions.md R40, R41, R45;
14_twin_operation.md Table 14-3), clearing a page's counters, taking a snapshot.
-/

namespace Sys2Proof.Machine

open Sys2Proof

/-- Space, index and offset of a window entry's word. -/
def entrySp (k : Nat) : Nat := k / 0x100000000000000
def entryIx (k : Nat) : Nat := k % 0x100000000000000 / 256
def entryOff (k : Nat) : Nat := k % 256

/-- The LG a window entry belongs to (Tables 6-11, 8-10, 9-6). -/
def entryLg (k : Nat) : Nat :=
  match entrySp k % 16 with
  | 1 => entryIx k / 65536 / 12
  | 2 => entryIx k / 512
  | 3 => entryIx k / 512 / 12
  | 4 => entryIx k / 16
  | 5 => entryIx k / 256
  | _ => 0

/-- A word lies between two offsets of its entry. -/
def offIn (k a b : Nat) : Bool := decide (a ≤ entryOff k) && decide (entryOff k ≤ b)

/-- A live word that has a holding copy (R45): counters, history registers, gauges. -/
def heldLive (k : Nat) : Bool :=
  match entrySp k with
  | 0 => (regDesc (k % 0x100000000)).any (fun d => d.held)
  | 1 => offIn k 20 79
  | 2 => offIn k 8 27
  | 3 => offIn k 20 35 && entryIx k % 256 != 255
  | 5 => entryOff k == 44 || entryOff k == 48
  | _ => false

/-- Where its holding copy stands (R23, R45). -/
def holdOf (k : Nat) : Nat := if entrySp k = 0 then k + 0x200 else heldKey k

/-- The word is a holding copy. -/
def isHolding (k : Nat) : Bool :=
  if entrySp k = 0 then
    decide (0x200 ≤ k % 0x400) && (regDesc (k % 0x100000000)).isNone && (regDesc (k % 0x100000000 - 0x200)).any (fun d => d.held)
  else decide (16 ≤ entrySp k)

/-- A history register (R120): of a channel, a path, a tributary. -/
def isHistory (k : Nat) : Bool :=
  match entrySp k with
  | 0 => decide (0x100000 ≤ k) && decide (k < 0x200000) && (k % 0x1000 == 0x180 || k % 0x1000 == 0x184)
  | 1 => entryOff k == 20
  | 2 => entryOff k == 8
  | _ => false

/-- A PM counter of an LG (R39): of a channel or its client, a path, a tributary, a container, a selector (R207). -/
def isPm (k : Nat) : Bool :=
  match entrySp k with
  | 0 => decide (0x100000 ≤ k) && decide (k < 0x200000) && heldLive k && !isHistory k
  | 1 => offIn k 24 79
  | 2 => offIn k 12 27
  | 3 => heldLive k
  | 5 => heldLive k
  | _ => false

/-- The low word of a 48-bit counter (R41): in BAT, TWN and the Gelvy ports, and P_VAL. -/
def isPerfLow (a : Nat) : Bool :=
  match pageKind a with
  | some .bat | some .twn => a % 0x1000 == 0x80 || a % 0x1000 == 0x88
  | some .gp => a % 0x1000 == 0x40 || a % 0x1000 == 0x48
  | some .prf => a % 0x1000 == 0x40
  | _ => false

/-- PG_CMD.CNT_CLR (R40, R125, R406): the page's PM and performance counters, on the LGM page its LG's path and tributary counters, on
the MON page every gauge. -/
def cntClr (s : State) (pg : Nat) : State :=
  let lg := (pg - 0x100000) / 0x10000
  let hit (k : Nat) : Bool :=
    if entrySp k = 0 then pageOf k == pg && heldLive k && !isHistory k
    else pageKind pg == some .lgm && (entrySp k == 1 || entrySp k == 2) && isPm k && entryLg k == lg
  let s := { s with regs := s.regs.filter (fun p => !hit p.1) }
  if pg = 0x1E000 then (List.range 16).foldl gaugeClear s else s

/-- The status word a history register follows (R120). -/
def historyOf (s : State) (k : Nat) : Nat :=
  match entrySp k with
  | 0 => if k % 0x1000 = 0x180 then (s.rd (k - 0x90)).toNat % 0x40000 else (s.rd (k - 0x90)).toNat % 0x1000000
  | 1 => (s.rd (k - 8)).toNat % 128
  | _ => (s.rd (k - 4)).toNat % 16

/-- The LG of a counter or history word, if it is one of an LG. -/
def heldLg (k : Nat) : Nat := if entrySp k = 0 then (k - 0x100000) / 0x10000 else entryLg k

/-- A snapshot (R45, R120, R178, R207, R406): every counter, history register and gauge is copied to its holding copy; with CLR_ON_SNAP the PM
counters of an LG, and the gauges, start again; history registers are reloaded with the defects present. -/
def snapTake (s : State) (sfn : Nat) : State :=
  let live := s.regs.filter (fun p => heldLive p.1)
  let regs := live.foldl (fun t p => tset resetWordOf t (holdOf p.1) p.2) (s.regs.filter (fun p => !isHolding p.1))
  let s := { s with regs := regs }
  let s := (List.range 16).foldl (fun t g =>
    (t.setWord ((MON_G_MIN_MIN g).addr + 0x200) (t.rd (MON_G_MIN_MIN g).addr)).setWord ((MON_G_MAX_MAX g).addr + 0x200)
      (t.rd (MON_G_MAX_MAX g).addr)) s
  let s := live.foldl (fun t p =>
    if isHistory p.1 then t.setWord p.1 (BitVec.ofNat 32 (historyOf t p.1))
    else if isPm p.1 && t.f (LGM_SNAP_CFG_CLR_ON_SNAP (heldLg p.1)) == 1 then t.setWord p.1 0
    else t) s
  let s := if s.f MON_MON_CFG_CLR_ON_SNAP = 1 then (List.range 16).foldl gaugeClear s else s
  s.u [(DEV_SNAP_SNAP_SEQ, s.g DEV_SNAP_SNAP_SEQ + 1), (DEV_SNAP_SFN_LO_SFN_LO, sfn), (DEV_SNAP_SFN_HI_SFN_HI, sfn / 0x100000000)]

/-! ### Configuration that a twin copies (Table 14-3) -/

/-- Configuration bits of a page register: RW and LCK bits that are no ACK, selector or window data (those are immediate). -/
def pageCfg (a : Nat) : Nat :=
  if a % 0x400 < 0x20 ∨ 0x3E0 ≤ a % 0x400 then 0
  else match regDesc a with
    | some d => if d.off = 0x60 ∧ pageKind a = some .lgs then 0 else (d.rw ||| d.rwh ||| d.lck) &&& (0xFFFFFFFF - d.imm)
    | none => 0

/-- The configuration bits of an entry's word. -/
def entryCfg (k : Nat) : Nat :=
  match entrySp k with
  | 1 => if entryOff k = 4 ∨ entryOff k = 8 ∨ offIn k 80 143 then 0xFFFFFFFF else 0
  | 2 => if entryOff k = 0 then 0xFFFFFFFF else 0
  | 3 => if entryOff k < 16 then 0xFFFFFFFF else 0
  | 4 => if entryOff k < 24 then 0xFFFFFFFF else 0
  | 5 => if entryOff k < 20 then 0xFFFFFFFF else if entryOff k = 20 then 0x00780003 else 0
  | 6 => if entryOff k < 8 then 0xFFFFFFFF else 0
  | _ => 0

/-- The image region a register key belongs to, and its bits that are copied (Table 14-3, regions 1 to 83). -/
def regionBits (k : Nat) : Option (Nat × Nat) :=
  if 0 < entrySp k then
    if entryCfg k = 0 then none
    else if entrySp k = 6 then some (1, entryCfg k) else some (4 + entryLg k, entryCfg k)
  else
    let a := k % 0x100000000
    match pageKind a with
    | some .tb => if a = 0x3144 then some (1, 0x1F) else if a = 0x3148 then some (1, 0xFFFFFFFF) else none
    | some .inj => if 0x20024 ≤ a ∧ a ≤ 0x2002C then some (1, 0xFFFFFFFF) else none
    | some .ic => if a % 0x1000 = 0x20 then some (if a < 0xA000 then 2 else 3, 0xF)
        else if a % 0x1000 = 0x24 ∨ a % 0x1000 = 0x28 then some (if a < 0xA000 then 2 else 3, 0xFFFFFFFF) else none
    | some .lgc | some .lgs | some .lgm | some .lgp =>
        if a % 0x10000 = 0x120 then some (4 + (a - 0x100000) / 0x10000, 0xFFFFFF)
        else if pageCfg a = 0 then none else some (4 + (a - 0x100000) / 0x10000, pageCfg a)
    | some .ch =>
        let n := 4 + (a - 0x100000) / 0x10000
        if a % 0x1000 = 0x2C then some (n, (fieldMask (CH_DISC_STAT_ADM_FMT 0).lo (CH_DISC_STAT_ADM_FMT 0).w).toNat)
        else if pageCfg a = 0 then none else some (n, pageCfg a)
    | some .fe =>
        let n := 20 + (a - 0x200000) / 0x1000
        if a % 0x1000 = 0x20 then some (n, ((fieldMask (FE_STAT_VALID0 0).lo 1 ||| fieldMask (FE_STAT_VALID1 0).lo 1) |||
          fieldMask (FE_STAT_ACT_BANK 0).lo 1).toNat)
        else if a % 0x1000 = 0x24 then some (n, 0x1FFFFE) else none
    | _ => none

/-- The PM region a counter or history word belongs to (regions 84 to 99). -/
def pmRegion (k : Nat) : Option Nat :=
  if isPm k || (isHistory k && heldLive k) then some (84 + heldLg k) else none

end Sys2Proof.Machine
end

