-- ==== Sys2Proof/Machine/Twin.lean ====
section
/-!
DEFINITION. Twin operation (14_twin_operation.md R295 to R324): heartbeats, joining, state copy, digests and divergence, takeover and
verification. Forwarded writes are performed in Remote.lean; what falls on a boundary is called by Frame.lean.
-/

namespace Sys2Proof.Machine

open Sys2Proof


/-- All hundred regions of Table 14-3. -/
def allRegions : Nat := 2 ^ 100 - 1

/-- COMPLETE of a region. -/
def State.regionDone (s : State) (r : Nat) : Bool := s.twn.complete / 2 ^ r % 2 == 1

/-- CMPL0 to CMPL3 (Table 14-7): own flags on a standby, the peer's from its heartbeat on an active. COPY_INCOMPLETE clears once all
are complete. -/
def cmplShow (s : State) : State :=
  let m := if s.mode = 3 then (match s.twn.beat with | some b => b.complete | none => 0) else s.twn.complete
  let s := s.u ((List.range 4).map (fun i => (TWN_CMPL_MAP i, m / 2 ^ (32 * i) % (if i = 3 then 16 else 0x100000000))))
  if s.twn.complete = allRegions then s.u [(TWN_STAT_COPY_INCOMPLETE, 0)] else s

/-- Enter a twin state (Table 14-2): CONV_TIMEOUT clears on leaving CONVERGING (R323), the run starts afresh on entering it. -/
def twinEnter (s : State) (st : Nat) : State :=
  let s := if s.twinState = 3 ∧ st ≠ 3 then s.u [(TWN_STAT_CONV_TIMEOUT, 0)] else s
  let s := if st = 3 then (s.onTwn (fun t => { t with convAt := s.nowNs })).u [(TWN_MATCH_RUN_RUN, 0)] else s
  s.u [(TWN_STAT_STATE, st)]

/-- A region loses COMPLETE (R308); a standby in CONVERGING or IN_STEP returns to COPYING for it (R304). -/
def twinLose (s : State) (mask : Nat) : State :=
  if s.twn.complete &&& mask = 0 then s
  else
    let s := s.onTwn (fun t => { t with complete := t.complete - (t.complete &&& mask) })
    cmplShow (if s.twinState = 3 ∨ s.twinState = 4 then twinEnter s 2 else s)

/-- An uncorrectable codeword of the state-copy region: what a standby has staged there is lost, and the region loses COMPLETE (R277, R308);
which region's staging it holds the spec does not say (log 89). -/
def stagingLost (s : State) (ch cw : Nat) : State :=
  let r := Config.copyRegion ch cw % 100
  if s.mode = 4 ∧ 12815928 ≤ cw ∧ (tget (fun _ => (0, [])) s.twn.staged r).2 ≠ [] then
    twinLose (s.onTwn (fun t => { t with
      staged := tset (fun _ => (0, [])) t.staged r (0, []), stagedMap := t.stagedMap - (t.stagedMap &&& 2 ^ r) })) (2 ^ r)
  else s

/-- BATT_SCRUB_READ (R278). -/
def execBattScrubRead (ch : Fin 16) (cw : Fin 14913080) (cls : Fin 4) (passMs : Option Nat) (s : State) : Host.Outcome State Fault Refusal :=
  done (let t := scrubRead s ch cw cls passMs
    if cls = 3 ∧ s.ready 0xC000 ∧ s.memUp ch then stagingLost t ch cw else t)

/-- BATT_WINDOW_ACCESS (R279). -/
def execBattWindowAccess (m : Fin 8) (off : Fin 0x1000000) (w : Option Word) (cls : Fin 4) (s : State) :
    Host.Outcome State Fault Refusal :=
  done (let t := battWindow s m off w cls
    let ch := s.g BAT_WIN_CFG_CH
    let a := 0x1000000 * min 56 (s.g BAT_WIN_CFG_DBASE) + off
    if off % 4 = 0 ∧ w = none ∧ cls = 3 ∧ s.usable 0xC000 ∧ s.memUp ch ∧ a ≤ 0x38E38DFF then stagingLost t ch (a / 64) else t)

/-- A TWN command ends (R324). -/
def twnDone (s : State) (cmd code : Nat) : State :=
  s.result (TWN_CMD_CTRL_VALID).addr (code != 0 && code != 7)
    [(TWN_CMD_CODE_CODE, code), (TWN_CMD_CODE_CMD, cmd), (bitOf TWN_CMD_JOIN cmd, 0),
      (resBusy (TWN_CMD_CTRL_VALID).addr, bit (cmd != 0 && s.on TWN_CMD_JOIN))]

/-! ### Heartbeats -/

/-- The HEARTBEAT a unit sends (Table 14-1). -/
def ownBeat (s : State) : Beat :=
  { sfn := s.sfn, ns := s.nowNs, mode := s.mode, twin := s.twinState, claim := s.on TWN_STAT_CLAIM_OUT, prefer := s.on TWN_STAT_PREFER,
    pairId := s.g TWN_CFG_PAIR_ID, actSeq := s.twn.actSeq, fwdSeq := if s.mode = 4 then s.twn.fwdDone else s.twn.fwdSeq,
    unmirrored := s.twn.unmirrored, complete := s.twn.complete }

/-- HEARTBEAT_SEND (R300). -/
def execHeartbeatSend (s : State) : Host.Outcome State Fault Refusal :=
  done (if s.twinOn then s.sendMsg s.mirrorPort (.heartbeat (ownBeat s)) else s)

/-- What a stepping and the pages' major versions come to, as a JOIN carries them (R304). -/
def unitVersion (s : State) : Nat :=
  ((List.range 0x21).map (fun p => 0x1000 * p) ++ [lgBase 0, chBase 0, lgBase 0 + 0xD000, lgBase 0 + 0xE000, lgBase 0 + 0xF000, 0x200000]).foldl
    (fun a pg => a * 256 + s.g (PG_VER_MAJOR pg)) (s.rd 0).toNat

/-- A join fails (Table 14-2): the unit is in SOLO with the result code. -/
def joinFail (s : State) (code : Nat) : State :=
  twnDone (setMode (s.onTwn (fun t => { t with joinAt := none })) 2) 0 code

/-- JOIN (R303, R304, R324): refused out of its states, with the link down, the time bases apart, the batt store not ready. -/
def twinJoin (s : State) : State :=
  if !s.twinOn ∨ !((s.mode = 2 ∧ !s.on TWN_STAT_CLAIM_OUT) ∨ (s.mode = 4 ∧ (s.twinState = 5 ∨ s.twinState = 3))) then twnDone s 0 0x01
  else if !s.mirrorUp then twnDone s 0 0x02
  else if s.on TWN_STAT_TB_SKEW then twnDone s 0 0x04
  else if !s.ready 0xB000 then twnDone s 0 0x06
  else
    let s := twinEnter (setMode s 4) 1
    (s.u [(TWN_CMD_JOIN, 1), (resBusy (TWN_CMD_CTRL_VALID).addr, 1), (TWN_STAT_ELIGIBLE, 0)]).sendMsg s.mirrorPort
      (.join (s.g TWN_CFG_PAIR_ID) (unitVersion s))

/-- The link returns to an ISOLATED standby (R318). -/
def twinReturn (s : State) (b : Beat) : State :=
  if b.unmirrored = 0 ∧ b.fwdSeq = s.twn.fwdDone then
    (twinEnter s s.twn.prev).u [(TWN_MATCH_RUN_RUN, 0), (TWN_STAT_ELIGIBLE, 0)]
  else if s.on TWN_CFG_AUTO_REJOIN then twinJoin s
  else s

/-- A CRC-good heartbeat (R301, R313, R318, Table 14-2). -/
def twinBeat (s : State) (b : Beat) : State :=
  let back := !s.mirrorUp
  let s := (s.onTwn (fun t => { t with beat := some b, unmirrored := if b.twin = 5 then t.unmirrored else if back then 0 else t.unmirrored })).u
    [(TWN_STAT_LINK_UP, 1), (TWN_STAT_PEER_STATE, b.twin)]
  let s := if s.twn.lost && b.claim then (s.onTwn (fun t => { t with lost := false })).u [(TWN_STAT_CLAIM_FAULT, 1)] else s
  let s := if b.claim = s.claimIn then s.u [(TWN_STAT_CLAIM_FAULT, 0)] else s
  let s := if s.mode = 4 ∧ s.twinState = 5 ∧ back then twinReturn s b else s
  let s := if s.mode = 3 ∧ s.twinState = 7 ∧ b.mode ≠ 4 then (twinEnter s 6).onTwn (fun t => { t with flight := none }) else s
  let s := if s.mode = 3 ∧ s.twinState = 6 ∧ b.mode = 4 ∧ 2 ≤ b.twin ∧ b.twin ≤ 4 ∧ back then twinEnter s 7 else s
  cmplShow s

/-- HEARTBEAT (R301). -/
def execHeartbeat (e : Env) (b : Beat) (s : State) : Host.Outcome State Fault Refusal :=
  let r := s.recvMsg e false false
  done (if r.2 && s.twinOn && e.port.val == s.mirrorPort then twinBeat r.1 b else r.1)

/-- ELIGIBLE on entry into ISOLATED (R315). -/
def eligible (s : State) : State :=
  match s.twn.beat with
  | none => s.u [(TWN_STAT_ELIGIBLE, 0)]
  | some b =>
    if b.actSeq = s.twn.actSeq then
      let n := nextBoundary (b.ns + 256000) 125000 / 125000
      s.u [(TWN_STAT_ELIGIBLE, 1), (TWN_ELIG_SFN_LO_SFN, n), (TWN_ELIG_SFN_HI_SFN, n / 0x100000000)]
    else s.u [(TWN_STAT_ELIGIBLE, 0)]

/-- A standby in states 2 to 4 whose link is lost while the peer claims is ISOLATED (Table 14-2). -/
def twinIsolate (s : State) : State :=
  if s.mode = 4 ∧ 2 ≤ s.twinState ∧ s.twinState ≤ 4 ∧ s.claimIn ∧ !s.mirrorUp then
    let held := (s.twn.held.map (fun p => 2 ^ p.1)).foldl (· ||| ·) 0
    let s := s.onTwn (fun t => { t with complete := t.complete - (t.complete &&& held) })
    cmplShow (eligible (twinEnter (s.onTwn (fun t => { t with prev := if t.complete = allRegions then s.twinState else 2 })) 5))
  else s

/-- MIRROR_LINK_LOSS (R301, R322). -/
def mirrorLost (s : State) : State :=
  if !s.twinOn ∨ !s.mirrorUp then s
  else
    let s := (s.occ 0xD0A4).u [(TWN_STAT_LINK_UP, 0)]
    if s.mode = 4 ∧ s.twinState = 1 then joinFail s 0x02
    else if s.mode = 3 then (twinEnter s 6).onTwn (fun t => { t with flight := none, joinAt := none })
    else twinIsolate s

def execMirrorLinkLoss (s : State) : Host.Outcome State Fault Refusal := done (mirrorLost s)

/-! ### Joining -/

/-- JOIN (R304). -/
def execJoin (m : Fin 8) (s : State) : Host.Outcome State Fault Refusal := done (s.command m.val TWN_CMD_JOIN twinJoin)

/-- JOIN_RX (R304): the active accepts and names C, the first boundary at least 256 µs ahead, or refuses. -/
def joinRx (s : State) (pairId version : Nat) : State :=
  let prefer := match s.twn.beat with | some b => b.prefer != s.on TWN_STAT_PREFER | none => false
  if s.mode ≠ 3 ∨ !s.on TWN_CFG_ACCEPT ∨ pairId ≠ s.g TWN_CFG_PAIR_ID ∨ !prefer ∨ version ≠ unitVersion s then
    s.sendMsg s.mirrorPort (.refuse 0x03)
  else if s.on TWN_STAT_TB_SKEW then s.sendMsg s.mirrorPort (.refuse 0x04)
  else
    let c := nextBoundary (s.nowNs + 256000) 125000 / 125000
    ((s.onTwn (fun t => { t with joinAt := some c, fwdSeq := 0, unmirrored := 0, flight := none })).u
      [(TWN_COPY_SFN_LO_SFN, c), (TWN_COPY_SFN_HI_SFN, c / 0x100000000)]).sendMsg s.mirrorPort (.accept c)

/-- What a message of the mirror link does once accepted, on a unit of a pair. -/
def mirrorMsg (e : Env) (s : State) (k : State → State) : State :=
  let r := s.recvMsg e false true
  if r.2 && s.twinOn && e.port.val == s.mirrorPort then k r.1 else r.1

def execJoinRx (e : Env) (pairId version : Nat) (s : State) : Host.Outcome State Fault Refusal :=
  done (mirrorMsg e s (fun t => joinRx t pairId version))

/-- ACCEPT (R304): COPYING begins at C; MISSED clears (R323). -/
def execAccept (e : Env) (c : Nat) (s : State) : Host.Outcome State Fault Refusal :=
  done (mirrorMsg e s (fun t =>
    if t.mode = 4 ∧ t.twinState = 1 then
      (t.onTwn (fun x => { x with joinAt := some c, fwdDone := 0 })).u
        [(TWN_COPY_SFN_LO_SFN, c), (TWN_COPY_SFN_HI_SFN, c / 0x100000000), (TWN_STAT_MISSED, 0)]
    else t))

/-- REFUSE (R304). -/
def execRefuse (e : Env) (code : Nat) (s : State) : Host.Outcome State Fault Refusal :=
  done (mirrorMsg e s (fun t => if t.mode = 4 ∧ t.twinState = 1 then joinFail t code else t))

/-- JOIN_TIMEOUT (R304): a join that the peer has not answered for 100 ms fails; no rule names its code, a free value. -/
def execJoinTimeout (s : State) : Host.Outcome State Fault Refusal :=
  done (if s.mode = 4 ∧ s.twinState = 1 ∧ s.twn.joinAt = none then joinFail s.draw (s.drawn.toNat % 256) else s)

/-- SERVE (R299). -/
def twinServe (s : State) : State :=
  if s.mode ≠ 2 ∨ !s.twinOn then twnDone s 1 0x01
  else if s.claimIn then twnDone s 1 0x05
  else twnDone (twinEnter (setMode s 3) 6) 1 0

def execServe (m : Fin 8) (s : State) : Host.Outcome State Fault Refusal := done (s.command m.val TWN_CMD_SERVE twinServe)

/-- A standby leaves (R299, Table 17-7): QUARANTINE at once. -/
def leavePair (s : State) : State := setMode (s.onTwn (fun t => { t with joinAt := none, lost := false, takeover := none })) 5

def twinLeave (s : State) : State := if s.mode ≠ 4 then twnDone s 2 0x01 else twnDone (leavePair s) 2 0

def execLeave (m : Fin 8) (s : State) : Host.Outcome State Fault Refusal := done (s.command m.val TWN_CMD_LEAVE twinLeave)

/-! ### State copy -/

/-- The register part of a region's image: the copied bits of its listed registers. -/
def regImage (s : State) (r : Nat) : List (Nat × Nat) :=
  s.regs.filterMap (fun p =>
    match regionBits p.1 with
    | some (q, m) => if q = r then some (p.1, (p.2 &&& BitVec.ofNat 32 m).toNat) else none
    | none => none)

/-- Bring a region's registers to an image: those it does not list take their reset value in the copied bits. -/
def putRegImage (s : State) (r : Nat) (l : List (Nat × Nat)) : State :=
  let keys := (s.regs.filter (fun p => match regionBits p.1 with | some (q, _) => q == r | none => false)).map (fun p => p.1)
  let put (t : State) (k : Nat) (w : Word) : State :=
    match regionBits k with
    | some (q, m) => if q = r then t.setWord k ((t.rd k &&& ~~~(BitVec.ofNat 32 m)) ||| (w &&& BitVec.ofNat 32 m)) else t
    | none => t
  l.foldl (fun t p => put t p.1 (BitVec.ofNat 32 p.2)) (keys.foldl (fun t k => put t k (resetWordOf k)) s)

/-- The cells of a pending action, from key 4,096 × `i` (region 0). -/
def actCells (i : Nat) (a : Action) : List (Nat × Nat) :=
  ([a.seq, a.sfn, a.tick, bit a.us, bit a.hdr.latePol, bit a.hdr.group, bit a.hdr.nomirror, a.hdr.gmask, a.hdr.tag].zipIdx.map
      (fun p => (4096 * i + p.2, p.1))) ++
    (a.items.zipIdx.map (fun p => [(4096 * i + 16 + 4 * p.2, p.1.kind), (4096 * i + 17 + 4 * p.2, p.1.target),
      (4096 * i + 18 + 4 * p.2, p.1.arg)])).flatten

/-- The pending action whose cells stand from key 4,096 × `i`; on the standby it counts as mirrored in. -/
def cellsAct (l : List (Nat × Nat)) (i : Nat) : Action :=
  let get (k : Nat) : Nat := ((l.find? (fun p => p.1 == 4096 * i + k)).map (fun p => p.2)).getD 0
  let n := (l.filter (fun p => p.1 / 4096 == i && decide (16 ≤ p.1 % 4096) && p.1 % 4 == 0)).length
  { seq := 0, sfn := get 1, tick := get 2, us := get 3 == 1,
    items := (List.range n).map (fun j => ⟨get (16 + 4 * j), get (17 + 4 * j), get (18 + 4 * j)⟩),
    hdr := ⟨get 4 == 1, get 5 == 1, get 6 == 1, get 7, get 8⟩, master := 3, mirroredIn := true, mirrorOut := false,
    unmirrored := false, groupIn := false, late := false, peerSeq := get 0, check := [] }

/-- First key of a region's cells that are no registers. -/
def cellBase : Nat := 2 ^ 80

/-- The cells of a selector: position in force, timers and, of a hitless one, its due-time reference (R307). -/
def selCells (n : Nat) (x : SelSt) : List (Nat × Nat) :=
  [(cellBase + 16 * n, bit x.on), (cellBase + 16 * n + 1, x.sfN), (cellBase + 16 * n + 2, x.sdN), (cellBase + 16 * n + 3, x.freeW),
    (cellBase + 16 * n + 4, x.freeP), (cellBase + 16 * n + 5, x.wtrAt), (cellBase + 16 * n + 6, x.period), (cellBase + 16 * n + 7, x.src)]

/-- The state of a selector taken over from an image: what its own inputs give stays its own. -/
def cellsSel (own : SelSt) (get : Nat → Nat) : SelSt :=
  { own with on := get 0 == 1, sfN := get 1, sdN := get 2, freeW := get 3, freeP := get 4, wtrAt := get 5, period := get 6, src := get 7 }

/-- The channel of a defect monitor's key. -/
def monCh (k : Nat) : Nat := if k < 0x10000 then k / 8 else (k - 0x10000) / 8 / 32 / 2048

/-- Where the internal pointers and counts of an LG stand among the cells: pointers from 2^40, holds from 2^41, counts from 2^42. -/
def lgCell (kind k : Nat) : Nat := cellBase + 2 ^ (40 + kind) + k

/-- The internal pointers of the pointer processors with the frames left of an internal justification, and the counts of the ODU mappers, of
an LG (R307). -/
def ptrCells (s : State) (lg : Nat) : List (Nat × Nat) :=
  (s.spe.filter (fun p => p.1 / 6144 == lg)).flatMap (fun p => [(lgCell 0 p.1, p.2.phase), (lgCell 1 p.1, p.2.hold)]) ++
    (s.odu.filter (fun p => p.1 / 6144 == lg)).map (fun p => (lgCell 2 p.1, p.2.cnt))

/-- They are adopted; the fill follows this unit's own arrivals (R307). -/
def ptrAdopt (s : State) (l : List (Nat × Nat)) : State :=
  l.foldl (fun t p =>
    if lgCell 2 0 ≤ p.1 then t.setOdu (p.1 - lgCell 2 0) { t.oduOf (p.1 - lgCell 2 0) with live := true, cnt := p.2 }
    else if lgCell 1 0 ≤ p.1 then t.setSpe (p.1 - lgCell 1 0) { t.speOf (p.1 - lgCell 1 0) with live := true, hold := p.2 }
    else if lgCell 0 0 ≤ p.1 then t.setSpe (p.1 - lgCell 0 0) { t.speOf (p.1 - lgCell 0 0) with live := true, phase := p.2 }
    else t) s

/-- Where an engine's state stands among the cells of its region. -/
def engStateCell : Nat := 2 ^ 20

/-- The image of a region as in force (R305, R306, Table 14-3); a PM region's image is its counters and history words. -/
def regionImage (s : State) (r : Nat) : List (Nat × Nat) :=
  if r = 0 then (s.plk.queue.zipIdx.map (fun p => actCells p.2 p.1)).flatten
  else if r = 2 ∨ r = 3 then
    regImage s r ++ ((s.ic (r == 3)).ent.map (fun p => (cellBase + p.1, p.2.toNat)))
  else if r < 4 then regImage s r
  else if r < 20 then
    regImage s r ++ ((s.sel.filter (fun p => p.1 / 256 == r - 4)).map (fun p => selCells p.1 p.2)).flatten ++ ptrCells s (r - 4)
  else if r < 84 then
    regImage s r ++ (s.engOf (r - 20)).mem.map (fun p => (cellBase + p.1, p.2.toNat)) ++ [(cellBase + engStateCell, s.feState (r - 20))]
  else (s.regs.filter (fun p => pmRegion p.1 == some r)).map (fun p => (p.1, p.2.toNat))

/-- What key `k` holds in an image. -/
def imgGet (l : List (Nat × Nat)) (k : Nat) : Nat := ((l.find? (fun p => p.1 == k)).map (fun p => p.2)).getD 0

/-- Cells of an image that are no registers, as a table of words. -/
def imgTable (l : List (Nat × Nat)) (d : Nat → Word) : Tab Word :=
  l.foldl (fun t p => if cellBase ≤ p.1 then tset d t (p.1 - cellBase) (BitVec.ofNat 32 p.2) else t) []

/-- Engine region (R307): stop, load, restart at this tick with START semantics if the active's engine ran. -/
def applyEngine (s : State) (e : Nat) (l : List (Nat × Nat)) : State :=
  let st := imgGet l (cellBase + engStateCell)
  let running := st == 1 || st == 2
  let words := l.filter (fun p => decide (p.1 < cellBase + engStateCell))
  let s := putRegImage (s.setEng e { engReset with mem := imgTable words (fun _ => 0), csr := (s.engOf e).csr }) (20 + e) words
  let s := s.u [(FE_STAT_STATE e, 0), (FE_STAT_OUTST e, 0)]
  let b := s.feAct e
  if running && s.on (feValid e b) then
    (feCsrReset s e).u [(FE_STAT_STATE e, 1), (FE_PC_PC e, 4 * wordGet (s.feWord e (feInstr b 2)) 0 13), (FE_FAULT_CAUSE e, 0)]
  else s

/-- PM region (R307): each counter takes the active's count and what this unit has counted since the capture; history bits are added. -/
def applyPm (s : State) (r : Nat) (img own : List (Nat × Nat)) : State :=
  let keys := ((img.map (fun p => p.1)) ++ ((s.regs.filter (fun p => pmRegion p.1 == some r)).map (fun p => p.1))).eraseDups
  keys.foldl (fun t k =>
    let v := if isHistory k then ((t.rd k) ||| BitVec.ofNat 32 (imgGet img k)).toNat
      else min 0xFFFFFFFF (imgGet img k + ((t.rd k).toNat - imgGet own k))
    t.setWord k (BitVec.ofNat 32 v)) s

/-- Apply a staged image atomically (R306, R307). -/
def applyImage (s : State) (r : Nat) (l : List (Nat × Nat)) : State :=
  if r = 0 then
    let n := (l.map (fun p => p.1 / 4096 + 1)).foldl max 0
    let acts := ((List.range n).map (cellsAct l)).filter (fun a => !s.plk.queue.any (fun b => b.mirroredIn && b.peerSeq == a.peerSeq))
    acts.foldl (fun t a => (t.setQueue (t.plk.queue ++ [{ a with seq := t.plk.nextSeq }])).takeSeq) s
  else if r = 2 ∨ r = 3 then
    let s := putRegImage s r l
    s.setIc (r == 3) { s.ic (r == 3) with ent := imgTable l (icDflt (r == 3)), bad := [], found := [], run := 0 }
  else if r < 4 then putRegImage s r l
  else if r < 20 then
    let s := putRegImage s r l
    ptrAdopt ((List.range 256).foldl (fun t i =>
      let n := 256 * (r - 4) + i
      let has := l.any (fun p => p.1 == cellBase + 16 * n)
      if has || (t.selOf n).on then t.setSel n (cellsSel (t.selOf n) (fun j => imgGet l (cellBase + 16 * n + j))) else t) s) l
  else if r < 84 then applyEngine s (r - 20) l
  else applyPm s r l (tget (fun _ => []) s.twn.own r)

/-- GEN of a region. -/
def State.genOf (s : State) (r : Nat) : Nat := tget (fun _ => 0) s.twn.gen r

/-- The active captures a region and sends its image (R305, R306). -/
def captureRegion (s : State) (r n : Nat) : State :=
  let g := (s.genOf r + 1) % 0x10000
  let s := s.onTwn (fun t => { t with gen := tset (fun _ => 0) t.gen r g, captureAt := tset (fun _ => 0) t.captureAt r n, flight := some (r, n) })
  s.sendMsg s.mirrorPort (.copy r g n 0 (regionImage s r) true)

/-- The active announces the next region that the standby misses, to be captured at the first boundary at least 256 µs ahead. -/
def announceRegion (s : State) (n : Nat) : State :=
  let peer := match s.twn.beat with | some b => b.complete | none => 0
  match (List.range 100).find? (fun r => peer / 2 ^ r % 2 == 0) with
  | none => s
  | some r =>
    (s.onTwn (fun t => { t with flight := some (r, n + 3) })).sendMsg s.mirrorPort (.copy r ((s.genOf r + 1) % 0x10000) (n + 3) 0 [] false)

/-- The active's part of a boundary (R304 to R306, R308): boundary C, captures, announcements. -/
def twinActiveTick (s : State) (n : Nat) : State :=
  if s.twn.joinAt = some n then
    captureRegion (cmplShow (twinEnter (s.onTwn (fun t => { t with joinAt := none })) 7)) 0 n
  else if s.twinState ≠ 7 ∨ !s.mirrorUp then s
  else
    match s.twn.flight with
    | some (r, at_) => if at_ = n then captureRegion s r n else s
    | none =>
      let st := s.g TWN_STAT_PEER_STATE
      if 2 ≤ st ∧ st ≤ 4 then announceRegion s n else s

/-- COPY on a standby (R306, R308): an announcement names S_r and starts a new generation; data is staged; the last of it is
acknowledged. -/
def copyRx (s : State) (region gen sfn offset : Nat) (data : List (Nat × Nat)) (last : Bool) : State :=
  if s.mode ≠ 4 ∨ 100 ≤ region then s
  else
    let st := tget (fun _ => (0, [])) s.twn.staged region
    let fresh := st.1 != gen || offset == 0
    let s := s.onTwn (fun t => { t with captureAt := tset (fun _ => 0) t.captureAt region sfn })
    let s := if gen ≠ s.genOf region ∧ s.regionDone region then twinLose s (2 ^ region) else s
    if data.isEmpty ∧ !last then s
    else
      let cells := if fresh then data else st.2 ++ data
      let s := s.onTwn (fun t => { t with
        staged := tset (fun _ => (0, [])) t.staged region (gen, cells),
        stagedMap := if last then t.stagedMap ||| 2 ^ region else t.stagedMap })
      if last then s.sendMsg s.mirrorPort (.copyAck region gen) else s

/-- COPY (R306). -/
def execCopy (e : Env) (region gen sfn offset : Nat) (data : List (Nat × Nat)) (last : Bool) (s : State) :
    Host.Outcome State Fault Refusal :=
  let r := s.recvMsg e true true
  done (if r.2 && s.twinOn && e.port.val == s.mirrorPort then copyRx r.1 region gen sfn offset data last else r.1)

/-- COPY_ACK (R300): the active goes on to the next region. -/
def execCopyAck (e : Env) (region gen : Nat) (s : State) : Host.Outcome State Fault Refusal :=
  done (mirrorMsg e s (fun t =>
    if t.mode = 3 ∧ gen = t.genOf region ∧ (t.twn.flight.any (fun f => f.1 == region)) then
      cmplShow (t.onTwn (fun x => { x with
        flight := none,
        beat := x.beat.map (fun b => { b with complete := b.complete ||| 2 ^ region }) }))
    else t))

/-- A standby's part of a boundary before images apply: boundary C (R304), and its own counters at S_r (R307). -/
def twinStandbyTick (s : State) (n : Nat) : State :=
  let s := if s.twn.joinAt = some n ∧ s.twinState = 1 then
      cmplShow (twnDone (twinEnter (s.onTwn (fun t => { t with joinAt := none, complete := 0, stagedMap := 0, staged := [], held := [], own := [] })) 2) 0 0)
    else s
  (List.range 16).foldl (fun t i =>
    let r := 84 + i
    if tget (fun _ => 0) t.twn.captureAt r = n ∧ n ≠ 0 then
      t.onTwn (fun x => { x with own := tset (fun _ => []) x.own r ((s.regs.filter (fun p => pmRegion p.1 == some r)).map (fun p => (p.1, p.2.toNat))) })
    else t) s

/-- A region's image is whole in staging. -/
def State.isStaged (s : State) (r : Nat) : Bool := s.twn.stagedMap / 2 ^ r % 2 == 1

/-- Apply one staged region at a boundary (R306); the last one takes the standby to CONVERGING. What was held for it is replayed by
the caller, who gets it with the flag that an image was applied. -/
def applyStaged (s : State) (r : Nat) : State :=
  let st := tget (fun _ => (0, [])) s.twn.staged r
  let s := applyImage s r st.2
  let s := s.onTwn (fun t => { t with
    gen := tset (fun _ => 0) t.gen r st.1,
    staged := tset (fun _ => (0, [])) t.staged r (0, []),
    stagedMap := t.stagedMap - (t.stagedMap &&& 2 ^ r),
    complete := t.complete ||| 2 ^ r })
  let s := cmplShow s
  if s.twn.complete = allRegions ∧ s.twinState = 2 then twinEnter s 3 else s

/-- A forwarded write or mirrored item that reaches a standby's region not yet applied waits for it (R306). -/
def State.mustHold (s : State) (r : Nat) : Bool := s.mode == 4 && 2 ≤ s.twinState && s.twinState ≤ 4 && !s.regionDone r

def holdMsg (s : State) (r : Nat) (m : Msg) : State := s.onTwn (fun t => { t with held := t.held ++ [(r, m)] })

/-- The region an action item belongs to (Tables 3-1 and 14-3). -/
def itemRegion (i : Item) : Option Nat :=
  match i.kind with
  | 1 => some 2
  | 2 => some 3
  | 3 => some (4 + i.target / 256)
  | 4 | 5 => (regionBits (i.target / 0x1000 * 0x1000 + i.target % 0x400)).map (fun p => p.1)
  | 8 | 0xA => some 1
  | 0xB => some (20 + i.target)
  | 0xC => some (4 + i.target / 12)
  | _ => none

/-! ### Digests -/

/-- DIV_M and DIV_N as they act (Table 14-7). -/
def divM (s : State) : Nat := max 1 (s.g TWN_DIV_CFG_DIV_M)
def divN (s : State) : Nat := min (divM s) (max 1 (s.g TWN_DIV_CFG_DIV_N))

/-- Flags EDGE, UNCOV and ABSENT of a digest (R286): a channel with one of them is not compared (R310). -/
def notCompared (f : Nat) : Bool := f % 2 == 1 || f / 4 % 4 != 0

/-- Divergence of a channel (R311). -/
def declareDiv (s : State) (c n : Nat) : State :=
  (s.occ 0xD0A0).u [(TWN_DIV_LAST_CH, c), (TWN_DIV_SFN_LO_SFN, n), (TWN_DIV_SFN_HI_SFN, n / 0x100000000)]

/-- Compare the peer's digests of frame `n` with one's own (R310, R311). -/
def digestCompare (s : State) (n : Nat) (own peer : Digests) : State :=
  let pairs := ((own.zip peer).zipIdx).filter (fun p => !notCompared p.1.1.2 && !notCompared p.1.2.2)
  let bad := pairs.filter (fun p => p.1.1.1 != p.1.2.1)
  let s := if bad.isEmpty then s else s.perfAdd 0xD080 bad.length
  let hist := pairs.foldl (fun h p =>
    tset (fun _ => []) h p.2 (((p.1.1.1 != p.1.2.1) :: tget (fun _ => []) h p.2).take 15)) s.twn.hist
  let s := s.onTwn (fun t => { t with hist := hist })
  let run := if pairs.isEmpty || !bad.isEmpty then 0 else min 65535 (s.g TWN_MATCH_RUN_RUN + 1)
  let s := s.u [(TWN_MATCH_RUN_RUN, run)]
  let step := (s.mode == 4 && s.twinState == 4) || (s.mode == 3 && s.g TWN_STAT_PEER_STATE == 4)
  let div := if step then (pairs.map (fun p => p.2)).filter (fun c =>
      decide (divN s ≤ (((tget (fun _ => []) s.twn.hist c).take (divM s)).filter (fun b => b)).length)) else []
  if !div.isEmpty then
    let s := (div.foldl (fun t c => declareDiv t c n) s).onTwn (fun t => { t with hist := [] })
    if s.mode = 4 then (twinEnter s 3).u [(TWN_STAT_DIVERGED, 1)] else s
  else if s.mode = 4 ∧ s.twinState = 3 ∧ 8000 ≤ run ∧ s.twn.complete = allRegions then
    (twinEnter s 4).u [(TWN_STAT_DIVERGED, 0)]
  else s

/-- A DIGEST message of frame `n` (R310): `good` and `first` tell a CRC-good first transmission. One that arrives otherwise, or more than four frames
after `n` has ended, counts once, with the first of its transmissions to arrive, and is not compared. -/
def digestRx (s : State) (good first : Bool) (n : Nat) (d : Digests) : State :=
  match s.twn.digests.find? (fun p => p.1 == n) with
  | none => if first && (!good || decide ((n + 5) * 125000 < s.nowNs)) then s.perfAdd 0xD088 1 else s
  | some p =>
    let s := s.onTwn (fun t => { t with digests := t.digests.filter (fun q => q.1 != n) })
    if !good || !first || decide ((n + 5) * 125000 < s.nowNs) then s.perfAdd 0xD088 1 else digestCompare s n p.2 d

/-- DIGEST (R310). -/
def execDigest (e : Env) (first : Bool) (n : Nat) (d : Digests) (s : State) : Host.Outcome State Fault Refusal :=
  let r := s.recvMsg e false true
  done (if s.twinOn && e.port.val == s.mirrorPort then digestRx r.1 r.2 first n d else r.1)

/-! ### Takeover -/

/-- The standby is ready (R313); an ISOLATED one by the state it left. -/
def twinReady (s : State) : Bool :=
  let st := if s.twinState = 5 then s.twn.prev else s.twinState
  (st == 3 || st == 4) && s.twn.complete == allRegions && !(s.on TWN_STAT_DIVERGED && s.on TWN_CFG_DIV_BLOCK)

/-- CLAIM_IN_CHANGE (R295, R296, R313, R317): an accepted change of the peer's claim. -/
def claimChange (s : State) (level : Bool) : State :=
  if !s.twinOn then s
  else
    let s := s.u [(TWN_STAT_CLAIM_IN, bit level)]
    let s := match s.twn.beat with
      | some b => if b.claim = level then s.u [(TWN_STAT_CLAIM_FAULT, 0)] else s
      | none => s
    let s := if level then s else s.u [(TWN_STAT_CLAIM_CONFLICT, 0)]
    if nearHandover s then s
    else if level then twinIsolate (s.onTwn (fun t => { t with lost := false }))
    else if s.mode = 4 then s.onTwn (fun t => { t with lost := true }) else s

def execClaimInChange (level : Bool) (s : State) : Host.Outcome State Fault Refusal := done (claimChange s level)

/-- TAKEOVER_DECISION (Table 14-5). -/
def twinDecide (s : State) : State :=
  if !s.twinOn ∨ s.mode ≠ 4 ∨ s.claimIn ∨ !s.twn.lost then s
  else
    let s := s.onTwn (fun t => { t with lost := false })
    let go := twinReady s && s.on TWN_CFG_AUTO_TAKE
    if s.mirrorUp then
      if go then s.onTwn (fun t => { t with takeover := some 0 })
      else if s.twn.complete ≠ allRegions then s.u [(TWN_STAT_COPY_INCOMPLETE, 1)]
      else s
    else if go && s.on TWN_STAT_PREFER && s.on TWN_STAT_ELIGIBLE then s.onTwn (fun t => { t with takeover := some 1 })
    else s

def execTakeoverDecision (s : State) : Host.Outcome State Fault Refusal := done (twinDecide s)

/-- FORCE_TAKEOVER (R316). -/
def twinForce (s : State) : State :=
  if s.mode ≠ 4 ∨ !s.twinOn then twnDone s 3 0x01
  else if s.claimIn then twnDone s 3 0x05
  else
    let s := if s.twinState = 5 ∧ !s.on TWN_STAT_ELIGIBLE then s.u [(TWN_STAT_MISSED, 1)] else s
    twnDone (s.onTwn (fun t => { t with takeover := some 2 })) 3 (if s.twn.complete = allRegions then 0 else 7)

def execForceTakeover (m : Fin 8) (s : State) : Host.Outcome State Fault Refusal :=
  done (s.command m.val TWN_CMD_FORCE_TAKEOVER twinForce)

/-- The verification window starts (R320). -/
def tvwStart (s : State) : State :=
  ({ s with tvwFail := 0 }.onTwn (fun t => { t with tvwAt := s.nowNs, tvwRdi := 2 ^ 192 - 1 })).u
    [(TWN_STAT_TVW_RUN, 1), (resBusy (TWN_TVW_CTRL_VALID).addr, 1)]

/-- A standby becomes the serving unit (R314, R321). -/
def twinServeNow (s : State) (st : Nat) : State :=
  tvwStart ((twinEnter (setMode (s.onTwn (fun t => { t with takeover := none, lost := false, flight := none, held := [], actSeq := t.actSeq })) 3) st).u
    [(TWN_STAT_ELIGIBLE, 0)])

/-- TAKEOVER (R314): at the first boundary at least 2 µs after the decision. -/
def execTakeover (s : State) : Host.Outcome State Fault Refusal :=
  done (if s.mode = 4 ∧ s.twn.takeover.isSome then (twinServeNow s 6).occ 0xD0A8 else s)

/-- ELIGIBLE clears at the ELIG_SFN boundary (R315), with a takeover it bounds. -/
def eligibleTick (s : State) (n : Nat) : State :=
  if s.on TWN_STAT_ELIGIBLE ∧ s.g TWN_ELIG_SFN_LO_SFN + 0x100000000 * s.g TWN_ELIG_SFN_HI_SFN ≤ n then
    (s.onTwn (fun t => { t with takeover := if t.takeover = some 1 then none else t.takeover })).u [(TWN_STAT_ELIGIBLE, 0)]
  else s

/-- A handover applies (R321): the active becomes the standby in IN_STEP, the standby the active, paired. -/
def twinHandover (s : State) : State :=
  if s.mode = 3 then
    (twinEnter (setMode s 4) 4).onTwn (fun t => { t with complete := allRegions, fwdDone := t.fwdSeq, flight := none, lost := false })
  else if s.mode = 4 then twinServeNow (s.onTwn (fun t => { t with fwdSeq := t.fwdDone })) 7
  else s

/-- The precondition of a handover on the active (R321). -/
def handoverOk (s : State) : Bool :=
  s.mode == 4 || (s.mode == 3 && s.mirrorUp && s.twn.beat.any (fun b => b.twin == 4 && b.complete == allRegions))

/-- CLAIM_CONFLICT (R317). -/
def claimConflict (s : State) : State :=
  if s.twinOn && s.on TWN_STAT_CLAIM_OUT && s.claimIn && !nearHandover s then
    let s := s.u [(TWN_STAT_CLAIM_CONFLICT, 1)]
    if s.on TWN_STAT_PREFER then s
    else
      let s := (setMode s 4).onTwn (fun t => { t with prev := 3, flight := none, lost := false })
      if s.mirrorUp then twinEnter s 3 else eligible (twinEnter s 5)
  else s

def execClaimConflict (s : State) : Host.Outcome State Fault Refusal := done (claimConflict s)

/-! ### Verification window -/

/-- TVW_MS in ns (Table 14-7). -/
def tvwNs (s : State) : Nat := max 1 (s.g TWN_DIV_CFG_TVW_MS) * 1000000

/-- A channel's ingress shows RDI-L, MS-RDI, SM BDI or remote fault. -/
def showsRdi (s : State) (c : Nat) : Bool := s.on (CH_DEF_STAT_RDI c) || s.on (CH_DEF_STAT_RF c)

/-- The last quarter of the window, frame by frame (R320). -/
def tvwFrame (s : State) : State :=
  if s.on TWN_STAT_TVW_RUN ∧ s.twn.tvwAt + tvwNs s * 3 / 4 ≤ s.nowNs then
    let now := (List.range 192).foldl (fun a c => if showsRdi s c then a + 2 ^ c else a) 0
    s.onTwn (fun t => { t with tvwRdi := t.tvwRdi &&& now })
  else s

/-- The channel that a lane belongs to: its own, or the lead lane of its bond. -/
def laneChannel (s : State) (l : Nat) : Nat := if s.bonded l then l / 4 * 4 else l

/-- TVW_END (R320): `swing` are the lanes whose driver monitor reported a swing outside limits. -/
def tvwEnd (s : State) (swing : Nat) : State :=
  if !s.on TWN_STAT_TVW_RUN then s
  else
    let s := tvwFrame s
    let lanes := (List.range 192).filter (fun l => s.f (CH_TX_CFG_TX_FMT (laneChannel s l)) != 0)
    let bad := lanes.filter (fun l => s.tvwFail / 2 ^ l % 2 == 1 || swing / 2 ^ l % 2 == 1 || s.twn.tvwRdi / 2 ^ laneChannel s l % 2 == 1)
    let map := (bad.map (fun l => 2 ^ l)).foldl (· + ·) 0
    (s.result (TWN_TVW_CTRL_VALID).addr false ([(TWN_TVW_RES_CHECKED, lanes.length), (TWN_TVW_RES_FAILED, bad.length)] ++
      (List.range 6).map (fun i => (TWN_TVW_MAP_MAP i, map / 2 ^ (32 * i))))).u [(TWN_STAT_TVW_RUN, 0)]

def execTvwEnd (swing : Nat) (s : State) : Host.Outcome State Fault Refusal := done (tvwEnd s swing)

/-- CONV_TIMEOUT (R309): CONV_LIM seconds in CONVERGING; 0 is no limit. -/
def execConvTimeout (s : State) : Host.Outcome State Fault Refusal :=
  done (if s.mode = 4 ∧ s.twinState = 3 ∧ s.g TWN_DIV_CFG_CONV_LIM ≠ 0 ∧
      s.twn.convAt + s.g TWN_DIV_CFG_CONV_LIM * 1000000000 ≤ s.nowNs then s.u [(TWN_STAT_CONV_TIMEOUT, 1)] else s)

end Sys2Proof.Machine
end

