-- ==== Sys2Proof/Machine/Group.lean ====
section
/-!
DEFINITION. Groups and the Gelvy link (15_group_gelvy.md R325 to R346): port states, HELLO, members, group outcomes, the proxy on the
manager, superframes. What a worker performs for its manager stands in Remote.lean.
-/

namespace Sys2Proof.Machine

open Sys2Proof

def gpPage (p : Nat) : Nat := 0x10000 + 0x1000 * p
def State.portState (s : State) (p : Nat) : Nat := s.g (GP_STAT_STATE p)

/-! ### Roles -/

/-- The manager port of a worker (R327): the lowest port on which a manager's HELLO came within 3 periods. -/
def grpShow (s : State) : State :=
  if !s.isWorker then s
  else
    match (List.range 8).find? (fun p => s.portUp p && (s.gpOf p).hello && s.g (GP_STAT_PEER_ROLE p) == 1
        && s.g (GP_PEER_TAG_GROUP_TAG p) == s.g GRP_CFG_GROUP_TAG) with
    | some p => s.u [(GRP_STAT_MGR_UP, 1), (GRP_STAT_MGR_PORT, p)]
    | none => s.u [(GRP_STAT_MGR_UP, 0)]

/-! ### Port states -/

/-- A port falls to a lower state (R343): below UP its control channel starts again from 0 (R342). -/
def portFall (s : State) (p to_ : Nat) : State :=
  let st := s.portState p
  if st ≤ to_ then s
  else
    let s := if 4 ≤ st then s.occ (gpPage p + 0x70) else s
    let g := s.gpOf p
    let s := s.setGp p { g with
      tx0 := if to_ < 4 then 0 else g.tx0, tx1 := if to_ < 4 then 0 else g.tx1,
      rx0 := if to_ < 4 then 0 else g.rx0, rx1 := if to_ < 4 then 0 else g.rx1,
      un0 := if to_ < 4 then [] else g.un0, un1 := if to_ < 4 then [] else g.un1,
      wait0 := if to_ < 4 then [] else g.wait0, wait1 := if to_ < 4 then [] else g.wait1,
      try0 := if to_ < 4 then 0 else g.try0, try1 := if to_ < 4 then 0 else g.try1,
      hello := g.hello && decide (4 ≤ to_), match_ := false, smGood := 0, smBad := 0, lmGood := 0,
      rxFill := [], rxBytes := [] }
    grpShow (s.u [(GP_STAT_STATE p, to_)])

/-- A port's configuration lands (Table 15-6): EN = 0 takes it DOWN, SLOT_EN = 0 out of SLOTS. -/
def gpLand (s : State) (p : Nat) : State :=
  if s.f (GP_CFG_EN p) = 0 then portFall s p 0
  else if s.f (GP_CFG_SLOT_EN p) = 0 ∧ s.portState p = 5 then portFall s p 4 else s

/-- GELVY_SIGNAL_DETECT (R343). -/
def execGelvySignalDetect (p : Fin 8) (s : State) : Host.Outcome State Fault Refusal :=
  done (if s.portState p = 0 ∧ s.f (GP_CFG_EN p) = 1 then s.u [(GP_STAT_STATE p, 1)] else s)

/-- GELVY_TRAINED (R343). -/
def execGelvyTrained (p : Fin 8) (s : State) : Host.Outcome State Fault Refusal :=
  done (if s.portState p = 1 then (s.setGp p { s.gpOf p with lmGood := 0, lmMiss := 0 }).u [(GP_STAT_STATE p, 2)] else s)

/-- GELVY_LANE_LOS (R343). -/
def execGelvyLaneLos (p : Fin 8) (s : State) : Host.Outcome State Fault Refusal := done (portFall s p 0)

/-! ### HELLO -/

/-- The HELLO this unit sends on a port (Table 15-5). -/
def ownHello (s : State) (p : Nat) : Hello :=
  { role := s.g GRP_STAT_ROLE, id := s.g GRP_STAT_ID, mode := s.mode, groupTag := s.g GRP_CFG_GROUP_TAG, pairId := s.g TWN_CFG_PAIR_ID,
    twinEn := s.twinOn, prefer := s.on TWN_STAT_PREFER, slotEn := s.f (GP_CFG_SLOT_EN p) == 1, mirror := s.twinOn && p == s.mirrorPort }

/-- HELLO_SEND (R327). -/
def execHelloSend (p : Fin 8) (s : State) : Host.Outcome State Fault Refusal := done (s.sendMsg p (.hello (ownHello s p)))

/-- The port that serves as PORT (`alt` false) or ALT_PORT of member `i`. -/
def State.portOfMember (s : State) (i : Nat) (alt : Bool) : Option Nat :=
  (List.range 8).find? (fun p => (s.gpOf p).member == (if alt then 8 + i else i))

/-- A member has a port in UP or SLOTS whose HELLO is at most 3 periods old (R327). -/
def State.memberLive (s : State) (i : Nat) : Bool :=
  (List.range 8).any (fun p => ((s.gpOf p).member == i || (s.gpOf p).member == 8 + i) && s.portUp p && (s.gpOf p).hello)

/-- A worker's HELLO on a manager's port (R327): the first port is PORT, a second of another pair ALT_PORT, any further one refused. -/
def memberHello (s : State) (p i : Nat) (h : Hello) : State :=
  let g := s.gpOf p
  let seen (t : State) : State :=
    t.u [(GRP_MEMBER_PRESENT (i - 1), 1), (bitOf GRP_STAT_MEMBERS (i - 1), 1)]
  if g.member = i ∨ g.member = 8 + i then seen s
  else
    match s.portOfMember i false with
    | none => seen ((s.setGp p { g with member := i }).u [(GRP_MEMBER_PORT (i - 1), p)])
    | some q =>
      if s.g (GP_PEER_TAG_PAIR_ID q) ≠ h.pairId ∧ (s.portOfMember i true).isNone then
        seen ((s.setGp p { g with member := 8 + i }).u [(GRP_MEMBER_ALT_VALID (i - 1), 1), (GRP_MEMBER_ALT_PORT (i - 1), p)])
      else s.occ 0xE0B8

/-- The USE_ALT a manager wants for a member (R337): the port whose peer reports ACTIVE. -/
def wantAlt (s : State) (i : Nat) : Nat :=
  let p := s.g (GRP_MEMBER_PORT (i - 1))
  let q := s.g (GRP_MEMBER_ALT_PORT (i - 1))
  if !s.on (GRP_MEMBER_ALT_VALID (i - 1)) then s.g (GRP_MEMBER_USE_ALT (i - 1))
  else if s.g (GP_STAT_PEER_MODE p) = 3 then 0
  else if s.g (GP_STAT_PEER_MODE q) = 3 then 1
  else s.g (GRP_MEMBER_USE_ALT (i - 1))

/-- The manager follows a member's ACTIVE twin (R337): in SOLO by a write for the next boundary, in ACTIVE by a mirrored CFG_WRITE. -/
def followAlt (s : State) (i : Nat) : State :=
  let k := (GRP_MEMBER_USE_ALT (i - 1)).addr
  let v := wantAlt s i
  if v = s.g (GRP_MEMBER_USE_ALT (i - 1)) then s
  else if s.mode = 2 then bufWrite s k 0x100 (BitVec.ofNat 32 (256 * v)) none false
  else if s.mode = 3 then
    let tag := 0xDF00 + i
    if (s.plk.queue ++ s.plk.sent).any (fun a => a.hdr.tag == tag) ∨ !s.usable 0x4000 ∨ 4096 < s.pendUsed + 1 then s
    else
      enqueue s {
        seq := s.plk.nextSeq, sfn := nextBoundary (s.nowNs + 256000) 125000 / 125000, tick := 0, us := false,
        items := [⟨4, k, 256 * v⟩], hdr := ⟨false, false, false, 0, tag⟩, master := 7, mirroredIn := false, mirrorOut := false,
        unmirrored := false, groupIn := false, late := false, peerSeq := 0, check := [] }
  else s

/-- A HELLO with this group's tag, or from this unit's twin on its mirror port (R326, R327, Table 15-6). -/
def helloRx (s : State) (p : Nat) (h : Hello) : State :=
  let twin := s.twinOn && h.twinEn && h.mirror && p == s.mirrorPort && h.pairId == s.g TWN_CFG_PAIR_ID
  let tag := h.groupTag == s.g GRP_CFG_GROUP_TAG
  if !s.portUp p then s
  else if !tag && !twin then s.occ (gpPage p + 0x74)
  else
    let s := s.u [(GP_STAT_PEER_ID p, h.id), (GP_STAT_PEER_ROLE p, h.role), (GP_STAT_PEER_MODE p, h.mode), (GP_STAT_PEER_SLOT_EN p, bit h.slotEn),
      (GP_STAT_PEER_TWIN p, bit h.mirror), (GP_PEER_TAG_GROUP_TAG p, h.groupTag), (GP_PEER_TAG_PAIR_ID p, h.pairId)]
    let s := s.setGp p { s.gpOf p with hello := true, match_ := h.slotEn && s.f (GP_CFG_SLOT_EN p) == 1 }
    let s := if s.portState p = 4 ∧ (s.gpOf p).match_ then s.u [(GP_STAT_STATE p, 5)]
      else if s.portState p = 5 ∧ !(s.gpOf p).match_ then portFall s p 4 else s
    if s.isManager && tag && h.role == 2 && h.id != 0 then followAlt (memberHello s p h.id h) h.id
    else grpShow s

/-- HELLO (R327, R342: unsequenced). -/
def execHello (e : Env) (h : Hello) (s : State) : Host.Outcome State Fault Refusal :=
  let r := s.recvMsg e false false
  done (if r.2 then helloRx r.1 e.port.val h else r.1)

/-- HELLO_TIMEOUT (R327, R343): no HELLO for 3 periods. -/
def execHelloTimeout (p : Fin 8) (s : State) : Host.Outcome State Fault Refusal :=
  let s := s.setGp p { s.gpOf p with hello := false }
  done (grpShow (if s.portState p = 5 then portFall s p 4 else s))

/-! ### The proxy on the manager (R332, R333) -/

/-- Proxy accesses to a member that are under way. -/
def State.proxOut (s : State) (id : Nat) : Nat := (s.prox.filter (fun x => x.id == id && x.sent)).length

/-- Send the proxy accesses that wait, in order, at most 16 outstanding per member. -/
def proxPump (s : State) : State :=
  s.prox.foldl (fun t x =>
    if !x.sent ∧ t.proxOut x.id < 16 then
      ({ t with prox := t.prox.map (fun (y : Prox) => if y.tag = x.tag then { y with sent := true } else y) }).sendMsg (t.memberPort x.id)
        (.rraReq x.tag x.off x.write x.be x.data)
    else t) s

/-- A proxied read completes for its master; a PCIe read that failed is a Completer Abort (R348); a master that has been reset takes
nothing (R360). -/
def proxReply (s : State) (x : Prox) (ok : Bool) (data : List Word) : State :=
  if 8 ≤ x.m then s
  else if x.m = 0 ∧ !ok then { s with hst := { s.hst with aer := true } }.reply 0 false []
  else s.reply x.m ok data

/-- A proxy access fails (R333): a read completes with a bus error, a write is counted. -/
def proxFail (s : State) (x : Prox) : State :=
  if x.write then (s.occ 0xE0B0).u [(GRP_PX_LAST_ADDR, x.off), (GRP_PX_LAST_ID, x.id)] else proxReply s x false [0xFFFFFFFF]

/-- A host access through BAR 2 (R332, R333); a write is posted. A read of several words goes on with `more`, after the words `got`. -/
def proxAccess (s : State) (m off : Nat) (write : Bool) (be : Nat) (data : Word) (more : List Nat) (got : List Word) : State :=
  let w := off / 0x800000 % 8
  let id := s.g (GRP_PX_SEL_ID w)
  let x : Prox := ⟨s.proxTag, id, m, s.g (GRP_PX_SEL_BASE w) * 0x800000 + off % 0x800000, write, be, data, false, more, got⟩
  if !s.usable 0xE000 ∨ !s.isManager ∨ id = 0 then (if write then s.reply m false [] else proxReply s x false [0xFFFFFFFF])
  else if !s.memberPresent id then (if write then (proxFail s x).reply m false [] else proxFail s x)
  else
    let s := proxPump { s with prox := s.prox ++ [x], proxTag := (s.proxTag + 1) % 0x100000000 }
    if write then s.reply m true [] else s

/-- PROXY_ACCESS (R333). -/
def execProxyAccess (m : Fin 8) (off : Fin 0x4000000) (write : Bool) (be : Fin 16) (data : Word) (s : State) :
    Host.Outcome State Fault Refusal := done (proxAccess s m.val (off.val / 4 * 4) write be.val data [] [])

/-- The access with a tag leaves the list. -/
def proxTake (s : State) (tag : Nat) : State := { s with prox := s.prox.filter (fun x => x.tag != tag) }

/-- RRA_RSP (R333). -/
def rraRsp (s : State) (tag status : Nat) (data : Word) : State :=
  match s.prox.find? (fun x => x.tag == tag && x.sent) with
  | none => s
  | some x =>
    let t := proxTake s tag
    proxPump (if status ≠ 0 then proxFail t x else if x.write then t
      else match x.more with
        | a :: rest => if 8 ≤ x.m then t else proxAccess t x.m a false 15 0 rest (x.got ++ [data])
        | [] => proxReply t x true (x.got ++ [data]))

def execRraRsp (e : Env) (tag status : Nat) (data : Word) (s : State) : Host.Outcome State Fault Refusal :=
  let r := s.recvMsg e false true
  done (if r.2 then rraRsp r.1 tag status data else r.1)

/-- PROXY_TIMEOUT (R333). -/
def execProxyTimeout (tag : Nat) (s : State) : Host.Outcome State Fault Refusal :=
  done (match s.prox.find? (fun x => x.tag == tag && x.sent) with
    | none => s
    | some x => proxPump (proxFail (proxTake s tag) x))

/-! ### Departure and outcomes -/

/-- A member is no longer PRESENT (R328). -/
def memberDepart (s : State) (i : Nat) : State :=
  if !s.isManager ∨ i = 0 ∨ !s.memberPresent i ∨ s.memberLive i then s
  else
    let s := (s.occ 0xE0B4).u [(GRP_MEMBER_PRESENT (i - 1), 0), (bitOf GRP_STAT_MEMBERS (i - 1), 0)]
    let s := s.each (s.plk.groups.map (fun j => j.act.seq)) (fun t q => groupReport t q i 5 0x06)
    s.each (s.prox.filter (fun x => x.id == i)) (fun t x => proxFail (proxTake t x.tag) x)

/-- MEMBER_DEPART (R328): it acts on a member whose ports have all gone quiet. -/
def execMemberDepart (i : Fin 8) (s : State) : Host.Outcome State Fault Refusal := done (memberDepart s i.val)

/-- RESULT (R330). -/
def execResult (e : Env) (origin status reason _applied _index : Nat) (s : State) : Host.Outcome State Fault Refusal :=
  let r := s.recvMsg e false true
  done (if r.2 && r.1.isManager then groupReport r.1 origin ((r.1.gpOf e.port.val).member % 8) status reason else r.1)

/-- GROUP_CANCEL_RX (R62, R330, R331): a unit that holds the action journals it CANCELLED, reports it, and passes the cancellation on to the
other units that hold it. A worker takes it from a manager in SOLO or ACTIVE only, and refuses it in STANDBY and QUARANTINE. -/
def cancelRx (s : State) (port origin : Nat) : State :=
  let mirror := s.twinOn && port == s.mirrorPort
  let worker := s.isWorker && port == s.g GRP_STAT_MGR_PORT
  let member := s.isManager && (List.range 7).any (fun i => s.memberPresent (i + 1) && s.memberPort (i + 1) == port)
  if !mirror && worker && !(s.g (GP_STAT_PEER_MODE port) == 2 || s.g (GP_STAT_PEER_MODE port) == 3) then s
  else if !mirror && worker && (s.mode == 4 || s.mode == 5) then s.sendMsg port (.result origin 5 0x02 0 0)
  else
    let mine (a : Action) : Bool :=
      if mirror then (a.mirroredIn && a.peerSeq == origin) || (a.mirrorOut && a.seq == origin)
      else if worker then a.groupIn && a.peerSeq == origin
      else member && a.hdr.group && !a.groupIn && !a.mirroredIn && a.seq == origin
    match s.plk.queue.find? mine with
    | none =>
      match s.plk.groups.find? (fun j => member && !mirror && j.act.seq == origin && j.act.hdr.gmask % 2 == 0 && j.own.all (fun r => r.status != 6)) with
      | none => s
      | some j =>
        (cancelTell s j.act (some port)).onPlk (fun p => { p with groups := p.groups.map (fun k =>
          if k.act.seq = origin then { k with own := some (recOf k.act 6 0 0 0x0B) } else k) })
    | some a => (cancelTell (s.setQueue (s.plk.queue.filter (fun x => x.seq != a.seq))) a (some port)).outcome a (recOf a 6 0 0 0x0B)

def execGroupCancelRx (e : Env) (origin : Nat) (s : State) : Host.Outcome State Fault Refusal :=
  let r := s.recvMsg e false true
  done (if r.2 then cancelRx r.1 e.port.val origin else r.1)

/-- The software reset of GRP (Table 17-3): the member table is cleared. -/
def grpReset (s : State) : State :=
  let s := { s with gp := s.gp.map (fun (p : Nat × GpSt) => (p.1, { p.2 with member := 0 })), prox := [] }
  let s := (List.range 7).foldl (fun t i => t.u [(GRP_MEMBER_PORT i, 0), (GRP_MEMBER_PRESENT i, 0), (GRP_MEMBER_ALT_VALID i, 0), (GRP_MEMBER_ALT_PORT i, 0)]) s
  s.u [(GRP_STAT_MEMBERS, 0), (GRP_STAT_MGR_UP, 0)]

/-! ### Superframes and retries -/

/-- The rest of a superframe's effect in state SLOTS (R334 to R336): the through-slots of frame `sfn`, or AIS fill. -/
def slotsRx (s : State) (p : Nat) (o : SuperObs) (good : Bool) : State :=
  if s.portState p ≠ 5 then s
  else
    let s := if o.late then s.occ (gpPage p + 0x6C) else s
    if !good ∨ o.late then s.setGp p { s.gpOf p with rxSfn := s.sfn + 1, rxFill := [], rxBytes := [] }
    else
      let ok := o.slots.filter (fun x => decide (x.1 < 3744) && !o.ucwSlots.contains x.1)
      s.setGp p { s.gpOf p with
        rxSfn := o.sfn,
        rxFill := (ok.filter (fun x => x.2.1 ≠ 1 ∧ x.2.1 ≠ 3)).foldl (fun t x => tset (fun _ => 1) t x.1 x.2.1) [],
        rxBytes := (ok.filter (fun x => x.2.1 = 0)).foldl (fun t x => tset (fun _ => []) t x.1 x.2.2) [] }

/-- SUPERFRAME_RX (R336, R340, R343). -/
def superRx (s : State) (p : Nat) (o : SuperObs) : State :=
  let st := s.portState p
  if st < 2 then s
  else
    let g := s.gpOf p
    let s := (s.perfAdd (gpPage p + 0x40) o.corr).perfAdd (gpPage p + 0x48) o.ucw
    if !o.lm then
      let s := s.setGp p { g with lmGood := 0, lmMiss := g.lmMiss + 1 }
      if 2 ≤ g.lmMiss then portFall (s.setGp p { s.gpOf p with lmMiss := 0 }) p 1 else slotsRx s p o false
    else
      let s := (s.setGp p { g with lmGood := g.lmGood + 1, lmMiss := 0 }).u [(GP_STAT_SKEW_NS p, min 255 o.skew)]
      if st = 2 then (if 1 ≤ g.lmGood ∧ o.skew ≤ 64 then s.u [(GP_STAT_STATE p, 3)] else s)
      else
        let good := o.smCrc && o.sfn == s.sfn + 1 && decide (o.skew ≤ 64)
        let s := if st = 5 ∧ o.smCrc then markerIn s p (o.sfn - 1) o.at_ else s
        let s := if good then s else s.occ (gpPage p + 0x68)
        let g := s.gpOf p
        let s := s.setGp p { g with smGood := if good then g.smGood + 1 else 0, smBad := if good then 0 else g.smBad + 1 }
        if 8 ≤ (s.gpOf p).smBad then portFall s p 2
        else if st = 3 ∧ 2 ≤ (s.gpOf p).smGood then s.u [(GP_STAT_STATE p, 4), (GP_STAT_CTRL_FAIL p, 0)]
        else slotsRx s p o good

def execSuperframeRx (p : Fin 8) (o : SuperObs) (s : State) : Host.Outcome State Fault Refusal := done (superRx s p.val o)

/-- RETRY_TIMEOUT (R342): retransmission from the oldest unacknowledged message, or CTRL_FAIL. -/
def retryTimeout (s : State) (p : Nat) (bulk : Bool) : State :=
  let g := s.gpOf p
  let l := if bulk then g.un1 else g.un0
  let n := if bulk then g.try1 else g.try0
  if !s.portUp p ∨ l.isEmpty then s
  else if max 1 (s.g GLV_CFG_RETRY_MAX) ≤ n then (portFall s p 3).u [(GP_STAT_CTRL_FAIL p, 1)]
  else
    let s := (s.setGp p (if bulk then { g with try1 := n + 1 } else { g with try0 := n + 1 })).occ (gpPage p + 0x60)
    s.each l (fun t x => t.sendCtl p x.2)

def execRetryTimeout (p : Fin 8) (bulk : Bool) (s : State) : Host.Outcome State Fault Refusal := done (retryTimeout s p.val bulk)

/-- PTP_MESSAGE_RX (R341): the message takes its place in the sequence; no rule gives the frame a receiver on this side. -/
def execPtpMessageRx (e : Env) (_ctrl : Nat) (_frame : List Byte) (s : State) : Host.Outcome State Fault Refusal :=
  done (s.recvMsg e false true).1

end Sys2Proof.Machine
end

