-- ==== Sys2Proof/Machine/Monitors.lean ====
section
/-!
DEFINITION. Gauges, performance counters, transaction trace and instruction tags as software drives them (19_monitors_counters.md R403 to R412).
-/

namespace Sys2Proof.Machine

open Sys2Proof

/-- The gauge that a master's G_SEL names (R407), the counter its P_SEL names (R412). -/
def State.gaugeOf (s : State) (m : Nat) : Nat := s.g (perMaster MON_G_SEL_GAUGE m)
def State.ctrOf (s : State) (m : Nat) : Nat := s.g (perMaster PRF_P_SEL_CTR m)

/-- GAUGE_CLEAR (R406). -/
def execGaugeClear (m : Fin 8) (s : State) : Host.Outcome State Fault Refusal :=
  done (s.command m.val (MON_G_CMD_CLEAR (s.gaugeOf m.val)) (fun t => gaugeClear t (t.gaugeOf m.val)))

/-- A write of G_WR is a sample for a gauge whose source is 2 (R404). -/
def gaugeWrite (s : State) (m : Nat) (v : Word) : State :=
  gaugeSample (s.u [(MON_G_WR_VAL (s.gaugeOf m), v.toNat)]) 2 (s.gaugeOf m) v.toInt

def execGWr (m : Fin 8) (v : Word) (s : State) : Host.Outcome State Fault Refusal :=
  done (if s.usable 0x1E000 then (gaugeWrite s m.val v).answer m.val true [] else s.answer m.val false [])

/-- G_CFG, G_EDGE0 or G_STEP of a gauge takes effect (R404, R406). -/
def gaugeLand (s : State) (g : Nat) : State := (gaugeClear s g).u [(MON_G_STAT_CFG_BAD g, bit (gaugeBad s g))]

/-! ### Transaction trace (R410) -/

def State.onPrf (s : State) (f : Prf → Prf) : State := { s with prf := f s.prf }

/-- T_CMD.START: the filter fields take effect; a full buffer that may not wrap records nothing more. -/
def traceStart (s : State) : State :=
  let s := s.onPrf (fun p => { p with cfg := s.rd PRF_T_CFG_MASTERS.addr, alo := s.rd PRF_T_ALO_ADDR.addr, ahi := s.rd PRF_T_AHI_ADDR.addr })
  let full := s.g PRF_T_STAT_LEVEL == 512 && !s.on PRF_T_CFG_WRAP
  s.u [(PRF_T_CMD_CODE_CODE, 0), (PRF_T_STAT_RUN, bit (!full)), (PRF_T_STAT_FULL, bit full)]

def traceStop (s : State) : State := s.u [(PRF_T_CMD_CODE_CODE, 0), (PRF_T_STAT_RUN, 0)]

/-- T_CMD.RESET is refused while recording runs. -/
def traceReset (s : State) : State :=
  if s.on PRF_T_STAT_RUN then s.u [(PRF_T_CMD_CODE_CODE, 1)]
  else (s.onPrf (fun p => { p with trace := [] })).u [(PRF_T_CMD_CODE_CODE, 0), (PRF_T_STAT_FULL, 0), (PRF_T_STAT_LEVEL, 0), (PRF_T_HEAD_HEAD, 0)]

def execTraceStart (m : Fin 8) (s : State) : Host.Outcome State Fault Refusal := done (s.command m.val PRF_T_CMD_START traceStart)
def execTraceStop (m : Fin 8) (s : State) : Host.Outcome State Fault Refusal := done (s.command m.val PRF_T_CMD_STOP traceStop)
def execTraceReset (m : Fin 8) (s : State) : Host.Outcome State Fault Refusal := done (s.command m.val PRF_T_CMD_RESET traceReset)

/-- Entry `n` is latched for a master (as R66). -/
def traceLatch (s : State) (m n : Nat) : State :=
  let h := s.g PRF_T_HEAD_HEAD
  let age := (h + 0x100000000 - n) % 0x100000000
  let held := decide (1 ≤ age) && decide (age ≤ 512) && tget (fun _ => []) s.prf.trace (n % 512) != []
  let ahead := !held && decide (h ≤ n)
  let gone := !held && decide (n < h)
  let l := if ahead || gone then [] else tget (fun _ => []) s.prf.trace (n % 512)
  s.u ([(PRF_T_RD_IDX_IDX m, n), (PRF_T_REC_CTRL_VALID m, bit (!ahead && !gone)), (PRF_T_REC_CTRL_GONE m, bit gone), (PRF_T_REC_CTRL_AHEAD m, bit ahead)] ++
    (List.range 4).map (fun i => (PRF_T_REC_DATA m i, (l.getD i 0).toNat)))

def execTRdIdxWrite (m : Fin 8) (idx : Word) (s : State) : Host.Outcome State Fault Refusal :=
  done (if s.usable 0x1F000 then (traceLatch s m.val idx.toNat).answer m.val true [] else s.answer m.val false [])

/-- A transaction completes (Table 19-4): `res` is its RESULT. Its waits, its latency and its ID are no part of any rule: free values. -/
def traceRecord (s : State) (m tgt addr : Nat) (write : Bool) (res len : Nat) : State :=
  let c := s.prf.cfg
  if !s.on PRF_T_STAT_RUN || !s.ready 0x1F000 || !c.getLsbD m || !c.getLsbD (8 + tgt) || (c.getLsbD 17 && res == 0)
      || decide (addr < s.prf.alo.toNat) || decide (s.prf.ahi.toNat < addr) || (tgt == 0 && decide (0x2001F000 ≤ addr) && decide (addr < 0x20020000)) then s
  else
    let id := if s.on (bitOf BMX_ORD_COMPAT m) then s.drawn.toNat % 16 else 0
    let s := s.draw
    let w1 := m + 8 * tgt + 64 * bit write + 128 * res + 512 * id + 0x10000 * len
    let w3 := s.nowNs % 1000000000 + 0x40000000 * (s.nowNs / 1000000000 % 4)
    let h := s.g PRF_T_HEAD_HEAD
    let n := s.g PRF_T_STAT_LEVEL
    let full := n + 1 == 512 && !c.getLsbD 16
    ((s.onPrf (fun p => { p with trace := tset (fun _ => []) p.trace (h % 512) [BitVec.ofNat 32 addr, BitVec.ofNat 32 w1, s.drawn, BitVec.ofNat 32 w3] })).draw).u
      [(PRF_T_HEAD_HEAD, h + 1), (PRF_T_STAT_LEVEL, min 512 (n + 1)), (PRF_T_STAT_RUN, bit (!full)), (PRF_T_STAT_FULL, bit full)]

/-! ### Instruction tags (R411) -/

/-- E_REC and E_STAT show the head of the tag buffer. -/
def tagShow (s : State) : State :=
  s.u ((PRF_E_STAT_LEVEL, s.prf.tags.length) :: (List.range 4).map (fun i => (PRF_E_REC_DATA i, ((s.prf.tags.headD []).getD i 0).toNat)))

/-- E_CFG has been written: the masks take effect when EN is set from 0. -/
def tagEnable (s : State) (was : Bool) : State :=
  if s.on PRF_E_CFG_EN ∧ !was then s.onPrf (fun p => { p with mask := s.g PRF_E_MASK0_MASK + 0x100000000 * s.g PRF_E_MASK1_MASK }) else s

/-- A tagged instruction completes or faults: pc, instruction word, CYCLE at issue, stall cycles and causes, cycles to completion. -/
def tagRecord (s : State) (e pc : Nat) (instr cycle : Word) (stall causes complete : Nat) (fault : Bool) : State :=
  if !s.ready 0x1F000 || !s.on PRF_E_CFG_EN || s.prf.mask / 2 ^ e % 2 == 0 then s
  else if 64 ≤ s.prf.tags.length then s.occ PRF_TAG_LOST_OCC_COUNT.addr
  else
    let w0 := pc % 0x8000 + 0x10000 * e + 0x400000 * s.g (FE_STAT_ACT_BANK e)
    let w3 := min 65535 stall + 0x10000 * (causes % 16) + 0x100000 * (if fault then 4095 else min 4095 complete)
    tagShow (s.onPrf (fun p => { p with tags := p.tags ++ [[BitVec.ofNat 32 w0, instr, cycle, BitVec.ofNat 32 w3]] }))

def execInstrTagRecord (e : Fin 64) (pc : Nat) (instr cycle : Word) (stall causes complete : Nat) (fault : Bool) (s : State) :
    Host.Outcome State Fault Refusal :=
  done (tagRecord s e.val pc instr cycle stall causes complete fault)

/-- E_CMD.POP. -/
def tagPop (s : State) : State := tagShow (s.onPrf (fun p => { p with tags := p.tags.drop 1 }))

def execPop (m : Fin 8) (s : State) : Host.Outcome State Fault Refusal := done (s.command m.val PRF_E_CMD_POP tagPop)

/-- The software resets of MON and PRF (Table 17-3): gauges and trace capture restart. -/
def monSrst (s : State) : State := (List.range 16).foldl gaugeClear s
def prfReset (s : State) : State :=
  (tagShow (s.onPrf (fun p => { p with trace := [], tags := [] }))).u [(PRF_T_STAT_RUN, 0), (PRF_T_STAT_FULL, 0), (PRF_T_STAT_LEVEL, 0), (PRF_T_HEAD_HEAD, 0)]

end Sys2Proof.Machine
end

