-- ==== Sys2Proof/Machine/Hatter.lean ====
section
/-!
DEFINITION. The Hatter core as its page and its mailbox show it (16_host_bus_interrupts.md R355, R362 to R365): boot, restart, watchdog, the
firmware images in flash, the mailbox requests. The core's firmware runs no instructions here; what a rule says it does is an event.
-/

namespace Sys2Proof.Machine

open Sys2Proof

def State.onHst (s : State) (f : Hst → Hst) : State := { s with hst := f s.hst }

/-- A flash word; the flash outside an image is erased (R362). -/
def State.flashWord (s : State) (w : Nat) : Word := tget (fun _ => 0xFFFFFFFF) s.hst.flash w
def State.setFlash (s : State) (w : Nat) (v : Word) : State := s.onHst (fun h => { h with flash := tset (fun _ => 0xFFFFFFFF) h.flash w v })

/-- First word of image 0 (A) or 1 (B). -/
def imgBase (i : Nat) : Nat := if i = 0 then 0 else 0x100000

/-- The image CRC of Table 16-7, with word 3 taken as `gen`. -/
def imgCrc (s : State) (i : Nat) (gen : Word) : Word :=
  let w (j : Nat) : Word := if j = 3 then gen else s.flashWord (imgBase i + j)
  let len := (w 1).toNat
  crc32 polyCrc32c (((List.range 7).flatMap (fun j => wordBytes (w j))) ++ ((List.range ((len + 3) / 4)).flatMap (fun j => wordBytes (w (8 + j)))).take len)

/-- The checks of Table 16-7, with word 3 taken as `gen`. -/
def imgOk (s : State) (i : Nat) (gen : Word) : Bool :=
  let w (j : Nat) : Word := s.flashWord (imgBase i + j)
  w 0 == 0x48545231 && decide (32 ≤ (w 1).toNat) && decide ((w 1).toNat ≤ 4194272) && gen != 0 && gen != 0xFFFFFFFF &&
    w 4 == 0 && w 5 == 0 && w 6 == 0 && w 7 == imgCrc s i gen

/-- GEN of a valid image; 0 = invalid. -/
def imgGen (s : State) (i : Nat) : Nat :=
  let g := s.flashWord (imgBase i + 3)
  if imgOk s i g then g.toNat else 0

/-- HTR.GEN as the flash stands. -/
def genShow (s : State) : State := s.u [(HTR_GEN_GEN_A, imgGen s 0), (HTR_GEN_GEN_B, imgGen s 1)]

/-- The valid image with the higher GEN (R362). -/
def bootPick (s : State) : Option Nat :=
  let a := imgGen s 0
  let b := imgGen s 1
  if a = 0 ∧ b = 0 then none else if b ≤ a then some 0 else some 1

/-- A RESTART command ends with its result (Table 16-9). -/
def restartDone (s : State) (code : Nat) : State :=
  if s.on HTR_CMD_RESTART then (s.result HTR_CMD_CTRL_VALID.addr (code != 0) [(HTR_CMD_CODE_CODE, code)]).u [(HTR_CMD_RESTART, 0)] else s

/-- The ROM starts image `i`. -/
def bootImage (s : State) (i : Nat) (fallback : Bool) : State :=
  (genShow (s.onHst (fun h => { h with booting := true, wdogRun := if fallback then 0 else h.wdogRun }))).u
    [(HTR_STAT_IMAGE, i), (HTR_STAT_FALLBACK, bit fallback), (HTR_VERSION_VERSION, (s.flashWord (imgBase i + 2)).toNat)]

/-- No valid image: the core stays in ROM (R362). -/
def bootNone (s : State) : State := restartDone ((genShow (s.onHst (fun h => { h with booting := false }))).u [(HTR_STAT_STATE, 0)]) 0x02

/-- The core is out of its reset (R378). -/
def State.hatterOut (s : State) : Bool := !s.pwr.inReset && s.mode != 0

/-- HATTER_BOOT (R362): after three watchdog expiries within one minute the ROM boots the other image, where it is valid. -/
def execHatterBoot (s : State) : Host.Outcome State Fault Refusal :=
  let other := 1 - s.g HTR_STAT_IMAGE
  done (if !s.hatterOut || s.hst.booting || s.g HTR_STAT_STATE == 1 then s
    else if 3 ≤ s.hst.wdogRun ∧ imgGen s other ≠ 0 then bootImage s other true
    else
      match bootPick s with
      | some i => bootImage s i false
      | none => bootNone s)

/-- HATTER_BOOT_TIMEOUT (R362): no report of RUN within 2 s. -/
def execHatterBootTimeout (s : State) : Host.Outcome State Fault Refusal :=
  let other := 1 - s.g HTR_STAT_IMAGE
  done (if !s.hst.booting then s else if imgGen s other ≠ 0 then bootImage s other true else bootNone s)

/-- HATTER_RUN (R362, R364). -/
def execHatterRun (s : State) : Host.Outcome State Fault Refusal :=
  done (if s.hst.booting then restartDone ((s.onHst (fun h => { h with booting := false })).u [(HTR_STAT_STATE, 1)]) 0 else s)

/-- The core restarts (R355, R364): the ROM runs again, REMAP returns to 0 and unlocks; the blocking runs it drives abort. -/
def hatterRestart (s : State) (st : Nat) : State :=
  (calRestart (s.onHst (fun h => { h with booting := false, remapLk := false }))).u
    [(HTR_STAT_STATE, st), (HTR_REMAP_SWAP, 0), (HTR_STAT_REMAP, 0)]

/-- HATTER_WATCHDOG (R362, R364): `older` tells that the expiries counted so far lie more than a minute back. -/
def execHatterWatchdog (older : Bool) (s : State) : Host.Outcome State Fault Refusal :=
  done (if s.hatterOut && (s.g HTR_STAT_STATE == 1 || s.hst.booting) then
      hatterRestart ((s.onHst (fun h => { h with wdogRun := if older then 1 else h.wdogRun + 1 })).occ HTR_WDOG_OCC_COUNT.addr) 3
    else s)

/-- RESTART (R364): refused while this unit or its peer is COPYING. -/
def cmdRestart (s : State) : State :=
  if s.twinOn && (s.twinState == 2 || s.twn.beat.any (fun b => b.twin == 2)) then
    s.result HTR_CMD_CTRL_VALID.addr true [(HTR_CMD_CODE_CODE, 0x01)]
  else (hatterRestart (s.begin HTR_CMD_CTRL_VALID.addr) 2).u [(HTR_CMD_RESTART, 1)]

def execRestart (m : Fin 8) (s : State) : Host.Outcome State Fault Refusal := done (s.command m HTR_CMD_RESTART cmdRestart)

/-! ### The mailbox (R363, R257) -/

def State.h2c (s : State) (i : Nat) : Word := s.rd (HTR_H2C_D_DATA i).addr

/-- A write of the inbound doorbell, and of the outbound acknowledgement. -/
def h2cDb (s : State) (v : Nat) : State := s.u [(HTR_H2C_DB_SEQ, v)]
def c2hAck (s : State) (v : Nat) : State := s.u [(HTR_C2H_ACK_ACK, v)]

/-- H2C_DB_WRITE. -/
def execH2cDbWrite (m : Fin 8) (v : Word) (s : State) : Host.Outcome State Fault Refusal :=
  done (if s.usable 0x8000 then (h2cDb s v.toNat).answer m true [] else s.answer m false [])

/-- C2H_ACK_WRITE. -/
def execC2hAckWrite (m : Fin 8) (v : Word) (s : State) : Host.Outcome State Fault Refusal :=
  done (if s.usable 0x8000 then (c2hAck s v.toNat).answer m true [] else s.answer m false [])

/-- A request with this code waits, and the core serves it: in RUN, or in ROM with no valid image the codes that the ROM serves (R362). -/
def hatterServes (s : State) (code : Nat) : Bool :=
  s.ready 0x8000 && wordGet (s.h2c 0) 0 8 == code && s.g HTR_H2C_DB_SEQ != s.g HTR_H2C_ACK_ACK && s.g HTR_C2H_DB_SEQ == s.g HTR_C2H_ACK_ACK &&
    (s.g HTR_STAT_STATE == 1 || (s.g HTR_STAT_STATE == 0 && !s.hst.booting && code != 0x20 && (bootPick s).isNone))

/-- The reply: CODE and CORR echoed, the status in word 1, then what the code adds; the request is acknowledged. -/
def hatterReply (s : State) (status : Nat) (more : List Word) : State :=
  let s := s.u [(⟨(HTR_C2H_D_DATA 0).addr, 0, 8⟩, wordGet (s.h2c 0) 0 8), (⟨(HTR_C2H_D_DATA 0).addr, 8, 8⟩, 1 + more.length),
    (⟨(HTR_C2H_D_DATA 0).addr, 16, 16⟩, wordGet (s.h2c 0) 16 16), (HTR_C2H_D_DATA 1, status)]
  (s.u (more.zipIdx.map (fun p => (HTR_C2H_D_DATA (2 + p.2), p.1.toNat)))).u
    [(HTR_H2C_ACK_ACK, s.g HTR_H2C_DB_SEQ), (HTR_C2H_DB_SEQ, s.g HTR_C2H_DB_SEQ + 1)]

/-- A status that reports a failure for which R363 names no value: one of its three failures, free. -/
def failStatus (s : State) (more : List Word) : State := hatterReply s.draw (1 + s.drawn.toNat % 3) more

/-- The running image (Table 16-9). -/
def runningImg (s : State) (i : Nat) : Bool := s.g HTR_STAT_STATE == 1 && s.g HTR_STAT_IMAGE == i

/-- GET_INFO. -/
def execGetInfo (s : State) : Host.Outcome State Fault Refusal :=
  done (if hatterServes s 0x01 then
      hatterReply s 0 [s.rd HTR_VERSION_VERSION.addr, BitVec.ofNat 32 (s.g HTR_STAT_IMAGE), BitVec.ofNat 32 (imgGen s 0), BitVec.ofNat 32 (imgGen s 1)]
    else s)

/-- IMG_WRITE: after a flash error the first `upto` words have been written. -/
def execImgWrite (ok : Bool) (upto : Nat) (s : State) : Host.Outcome State Fault Refusal :=
  let img := (s.h2c 1).toNat
  let off := (s.h2c 2).toNat
  let len := wordGet (s.h2c 0) 8 8
  let put (t : State) (n : Nat) : State :=
    (List.range n).foldl (fun u j => u.setFlash (imgBase img + off / 4 + j) (s.h2c (3 + j))) t
  done (if !hatterServes s 0x10 then s
    else if 1 < img ∨ len < 3 ∨ 15 < len ∨ off % 4 ≠ 0 ∨ 0x400000 < off + 4 * (len - 2) then hatterReply s 2 []
    else if runningImg s img then hatterReply s 1 []
    else if ok then hatterReply (genShow (put s (len - 2))) 0 []
    else hatterReply (genShow (put s (min upto (len - 2)))) 3 [])

/-- IMG_ERASE: after a flash error the words below `upto` are erased. -/
def execImgErase (ok : Bool) (upto : Nat) (s : State) : Host.Outcome State Fault Refusal :=
  let img := (s.h2c 1).toNat
  let n := if ok then 0x100000 else min upto 0x100000
  let wipe (t : State) : State :=
    t.onHst (fun h => { h with flash := h.flash.filter (fun p => !(decide (imgBase img ≤ p.1) && decide (p.1 < imgBase img + n))) })
  done (if !hatterServes s 0x11 then s
    else if 1 < img then hatterReply s 2 []
    else if runningImg s img then hatterReply s 1 []
    else hatterReply (genShow (wipe s)) (if ok then 0 else 3) [])

/-- IMG_COMMIT: the CRC covers the GEN that is written last. -/
def execImgCommit (ok : Bool) (s : State) : Host.Outcome State Fault Refusal :=
  let img := (s.h2c 1).toNat
  let gen : Word := BitVec.ofNat 32 (max (imgGen s 0) (imgGen s 1) + 1)
  done (if !hatterServes s 0x12 then s
    else if 1 < img then hatterReply s 2 []
    else if !imgOk s img gen then failStatus s []
    else if ok then hatterReply (genShow (s.setFlash (imgBase img + 3) gen)) 0 []
    else hatterReply s 3 [])

/-- FE_LOAD (R258, R363): a Kersil image goes from the flash to the engine's idle bank and is checked there. A standby refuses it as a
local write (R302); an active forwards the words, the bank and the check. -/
def execFeLoad (s : State) : Host.Outcome State Fault Refusal :=
  let e := (s.h2c 1).toNat
  let w := (s.h2c 2).toNat / 4
  let len := wordGet (s.flashWord (w + 1)) 0 14
  let b := 1 - s.feAct e
  done (if !hatterServes s 0x20 then s
    else if 63 < e ∨ (s.h2c 2).toNat % 4 ≠ 0 ∨ 0x1000000 < (s.h2c 2).toNat + 32 ∨ len < 8 ∨ 8192 < len then hatterReply s 2 []
    else if !s.usable (feBase e) ∨ s.mode = 4 ∨ s.on (FE_STAT_SWAP_PEND e) ∨ (s.engOf e).chk ≠ 0 then hatterReply s 1 []
    else
      let t := (List.range len).foldl (fun t j =>
        forwardWrite (t.setFeWord e (feInstr b j) (s.flashWord (w + j))) 1 (0x300000 + 0x10000 * e + 4 * j) (s.flashWord (w + j)) 0xFFFFFFFF) s
      let t := t.u [(feValid e b, 0)]
      let t := forwardWrite (forwardWrite t 1 (FE_BANK_SEL_BANK e).addr (BitVec.ofNat 32 b) 0xFFFFFFFF) 1 ((FE_CMD_CHECK e).addr + 0x400) 4 0xFFFFFFFF
      if feCheckCode t e b = 0 then hatterReply (feCrcShow (t.u [(feValid e b, 1)]) e) 0 []
      else failStatus (feCrcShow t e) [])

/-! ### REMAP, EOI, vectors -/

/-- REMAP.SWAP takes a value (R355): write-once per Hatter boot. -/
def remapTake (s : State) (v : Nat) : State :=
  (s.onHst (fun h => { h with remapLk := true })).u [(HTR_REMAP_SWAP, v), (HTR_STAT_REMAP, v)]

/-- A write of REMAP by this master is refused as a lock violation (R355). -/
def remapLocked (s : State) (m : Nat) : Bool := (m != 1 && m != 4) || s.hst.remapLk || s.on (PG_LOCK_LOCK 0x8000)

/-- REMAP_SWAP: a plain write of HTR.REMAP. -/
def execRemapSwap (m : Fin 8) (v : Word) (s : State) : Host.Outcome State Fault Refusal :=
  done (if !s.usable 0x8000 then s.answer m false []
    else if remapLocked s m then (s.lockViol m 0x8038).answer m false []
    else (remapTake s (wordGet v 0 1)).answer m true [])

/-- EOI: a plain write of IRQ.EOI. -/
def execEoi (m : Fin 8) (v : Word) (s : State) : Host.Outcome State Fault Refusal :=
  done (if s.usable 0x6000 then (eoiWrite s v.toNat).answer m true [] else s.answer m false [])

/-- MSIX_UNMASK: the vector's mask bit in its MSI-X table entry clears. -/
def unmaskVec (s : State) (v : Nat) : State :=
  vecUnmask (s.onHst (fun h => { h with vecMask := h.vecMask - (h.vecMask &&& 2 ^ v), msix := tset (fun _ => 0) h.msix (4 * v + 3) 0 }))

def execMsixUnmask (v : Fin 32) (s : State) : Host.Outcome State Fault Refusal := done (unmaskVec s v)

end Sys2Proof.Machine
end

