-- ==== Sys2Proof/Machine/Srst.lean ====
section
/-!
DEFINITION. PG_CMD.SRST by page (17_power_reset_modes.md R377, Table 17-3).
-/

namespace Sys2Proof.Machine

open Sys2Proof

/-- The channel of a channel page. -/
def chOfPage (a : Nat) : Nat := (a - 0x100000) / 0x10000 * 12 + (a / 0x1000 % 16 - 1)

/-- The DMA channels stop; frames that wait for a descriptor are lost (R349, R377). -/
def dmaReset (s : State) : State := { s with pin := { s.pin with tpRx := [] } }.u ((List.range 8).flatMap (fun c => [(BMX_DMA_CFG_EN c, 0), (BMX_DMA_PTR_HEAD c, 0)]))

/-- Units and digests of PNC start again: their results are as after reset. -/
def pncReset (s : State) : State :=
  s.u ((List.range 32).flatMap (fun u => [(⟨(PNC_U_CTRL_VALID u).addr, 0, 32⟩, 0), (PNC_U_VAL_VAL u, 0), (PNC_U_CARRIED_VAL u, 0), (PNC_U_INFO_LEN u, 0),
      (PNC_U_INFO_MATCH u, 0), (PNC_U_UNITS_COUNT u, 0)]) ++
    (List.range 192).flatMap (fun c => (List.range 5).map (fun i => (⟨(PNC_DIG_CTRL_VALID c).addr + 4 * i, 0, 32⟩, 0))))

/-- LGC: the window command that runs is aborted (its result is a failure; no code of Table 8-3 says which), GFP-F queues are flushed,
VCAT and LCAS start again. -/
def lgcReset (s : State) (lg : Nat) : State :=
  let s := if s.on (LGC_MW_CMD_CHECK lg) then
      ({ s.draw with chk := tset (fun _ => 0) s.chk lg 0 }.result (LGC_MW_CTRL_VALID lg).addr true
        [(LGC_MW_CODE_CODE lg, 1 + s.drawn.toNat % 10)]).u [(LGC_MW_CMD_CHECK lg, 0)]
    else s
  let s := (List.range 12).foldl (fun t i => t.setGfp (12 * lg + i) { t.gfpOf (12 * lg + i) with q := [], out := [] }) s
  (List.range 16).foldl (fun t g => vgRefresh (t.u [(vgFail (vgKey lg g), 0), (vgFailHi (vgKey lg g), 0), (vgDdMeas (vgKey lg g), 0),
    (vgLoa (vgKey lg g), 0), (vgSqm (vgKey lg g), 0), (vgFop (vgKey lg g), 0)]) lg g) s

/-- CHn: a fresh hunt where the carder runs; integration counts and BER windows restart, what is declared or accepted stays; the stores
recentre. -/
def chReset (s : State) (c : Nat) : State :=
  let s := if s.g (CH_ALN_STAT_CAR_STATE c) = 0 then s else carderHunt s c
  let again (x : Mon) : Mon := { x with runs := [], eqN := 0, eqA := 0, msgN := 0, errs := [], accs := x.accs.map (fun a => { a with n := 0 }) }
  let s := (([0, 1, 2, 3, 4, 5, 6, 7].map (fun i => lineMon c i)) ++
      (s.chPaths c).flatMap (fun ix => [0, 1, 2, 3, 4, 5, 6].map (fun l => 0x10000 + 8 * ix + l))).foldl (fun (t : State) k => t.setMn k (again (t.mn k))) s
  refreshCh (recentre s c) c

/-- LGS: the quad PLLs relock, the twelve receivers calibrate. -/
def lgsReset (s : State) (lg : Nat) : State :=
  (List.range 12).foldl (fun t i => calAsk t 0 (12 * lg + i) false)
    (s.u [(LGS_QCFG_TXPLL_LK lg 0, 0), (LGS_QCFG_TXPLL_LK lg 1, 0), (LGS_QCFG_TXPLL_LK lg 2, 0), (PG_CMD_SRST (lgBase lg + 0xD000), 1)])

/-- LGM: both halves of the overhead buffer are zeroed. -/
def lgmReset (s : State) (lg : Nat) : State :=
  { s with ohb := s.ohb.filter (fun p => !(decide (ohbKey lg 0 0 0 ≤ p.1) && decide (p.1 < ohbKey (lg + 1) 0 0 0))) }

/-- The software reset of a page. The resets that relock or retrain read 1 in SRST until the page's initialisation ends (R379). -/
def pageSrst (s : State) (pg : Nat) : State :=
  let s := loseItems s pg
  let lg := (pg - 0x100000) / 0x10000
  match pageKind pg with
  | some .tb => modesNow (tbReset s)
  | some .plk => plkReset s
  | some .bmx => dmaReset s
  | some .htr => cmdRestart s
  | some .ic => icSrst s (pg == loxPage)
  | some .bat => battEmpty s
  | some .mem => battEmpty (s.u [(MEM_STAT_TRAINED, 0), (MEM_STAT_FAIL, 0), (PG_READY_READY 0xB000, 0), (PG_CMD_SRST pg, 1)])
  | some .twn => if s.mode = 4 then leavePair s else s
  | some .grp => grpReset s
  | some .gp => portFall s ((pg - 0x10000) / 0x1000) 0
  | some .tpt =>
    let t := (pg - 0x18000) / 0x1000
    s.u [(TPT_STAT_PLL_LK t, 0), (TPT_STAT_LINK t, 0), (PG_CMD_SRST pg, 1)]
  | some .pnc => pncReset s
  | some .cal => calReset s
  | some .mon => monSrst s
  | some .prf => prfReset s
  | some .inj => injReset s
  | some .fe => feReset s ((pg - 0x200000) / 0x1000)
  | some .lgc => lgcReset s lg
  | some .ch => chReset s (chOfPage pg)
  | some .lgs => lgsReset s lg
  | some .lgm => lgmReset s lg
  | some .lgp => lgpReset s lg
  | _ => s

end Sys2Proof.Machine
end

