-- ==== Sys2Proof/Machine/Bus.lean ====
section
/-!
DEFINITION. Reading the register fabric (02_register_conventions.md R23 to R45; 16_host_bus_interrupts.md R354, R359): which register an
address names, what a read of it returns, the windows, the default target.
-/

namespace Sys2Proof.Machine

open Sys2Proof

/-- The bank of a banked register (R52, R66, R212, R225, R233, R282, R286, R289, R323, R401, R402, R407, R411, R412): a bus-matrix master's,
an engine's own (R246), or the unit that the master's selector names. -/
def bankOf (s : State) (m b a : Nat) : Option Nat :=
  let o := offOf a
  match pageKind a with
  | some .plk => if 0x28 ≤ o ∧ o < 0x68 then some b else none
  | some .jnl => if (0x24 ≤ o ∧ o < 0x48) ∨ (0x80 ≤ o ∧ o < 0x90) then some b else none
  | some .tb =>
    if 0x144 ≤ o ∧ o < 0x180 then some (s.g (TB_PT_SEL_PORT m))
    else if 0x184 ≤ o ∧ o < 0x19C then some (s.g (TB_TT_SEL_PORT m))
    else if o = 0x28 ∨ o = 0x2C ∨ o = 0x30 ∨ o = 0x140 ∨ o = 0x180 then some m
    else none
  | some .twn => if 0x50 ≤ o ∧ o < 0x60 then some m else none
  | some .lgs => if o = 0x80 then some m else none
  | some .pnc =>
    if o = 0x20 ∨ o = 0x60 then some m
    else if 0x24 ≤ o ∧ o < 0x48 then some (s.g (perMaster PNC_U_SEL_UNIT m))
    else if 0x64 ≤ o ∧ o < 0x78 then some (s.g (perMaster PNC_DIG_SEL_CH m))
    else none
  | some .cal => if o = 0x30 ∨ o = 0x40 ∨ o = 0xD0 then some m else none
  | some .mon =>
    if o = 0x20 then some m
    else if (0x24 ≤ o ∧ o < 0x38) ∨ o = 0x3C ∨ (0x80 ≤ o ∧ o < 0x118) then some (s.gaugeOf m)
    else none
  | some .prf =>
    if o = 0x20 ∨ o = 0x7C ∨ (0x80 ≤ o ∧ o < 0x94) then some m
    else if o = 0x24 ∨ o = 0x40 ∨ o = 0x44 then some (s.ctrOf m)
    else none
  | some .inj =>
    if o = 0x20 then some m else if 0x24 ≤ o ∧ o < 0x34 then some (s.g (perMaster INJ_IJ_SEL_SLOT m)) else none
  | _ => none

/-- The key of the register at a plain address. -/
def keyOf (s : State) (m b a : Nat) : Nat :=
  match bankOf s m b a with
  | some i => a + 0x100000000 * (i + 1)
  | none => a

/-- The register an address names: its key, its row, whether it is a holding copy (R23). -/
def regAt (s : State) (m b a : Nat) : Option (Nat × RegDesc × Bool) :=
  let p := plainAddr a
  match regDesc p with
  | some d => some (keyOf s m b p, d, false)
  | none =>
    if offOf a < 0x200 then none
    else
      match regDesc (p - 0x200) with
      | some d => if d.held then some (keyOf s m b (p - 0x200) + 0x200, d, true) else none
      | none => none

/-- Offsets of the common header and trailer (R26, R27). -/
def isHeader (a : Nat) : Bool := decide (offOf a < 0x20) || (decide (0x3E0 ≤ offOf a) && decide (offOf a < 0x3FC))

/-- The bits that software writes and reads back: all but status and counters (Table 2-5). -/
def rwBits (d : RegDesc) : Word := BitVec.ofNat 32 (d.rw ||| d.rwh ||| d.lck ||| d.cmd)

/-- A register whose status bits are read as SCLK copies (R34, R207, R401): of the channel pages with their header but PG_CMD and PG_VER,
whose status is the bus side's own, of the LGP pages, and LCAL_ST. -/
def isCopied (a : Nat) : Bool :=
  match pageKind a with
  | some .ch => decide (0x20 ≤ offOf a) || decide (8 ≤ offOf a ∧ offOf a < 0x1C)
  | some .lgp => decide (0x20 ≤ offOf a)
  | some .lgs => decide (0xA0 ≤ offOf a) && decide (offOf a < 0xD0)
  | _ => false

/-- A PM counter that the channel's family does not use (R119, Table 6-8): reads 0, ignores writes. -/
def pmUnused (s : State) (a : Nat) : Bool :=
  pageKind a == some .ch && decide (0x140 ≤ offOf a) && decide (offOf a < 0x180) &&
    (match s.chFam (chOfPage a) with
     | .sdh => decide (0x14C ≤ offOf a)
     | .eth => decide (0x144 ≤ offOf a)
     | _ => false)

/-- A command of the page runs (R26). -/
def pageBusy (s : State) (pg : Nat) : Bool :=
  s.regs.any (fun p => entrySp p.1 == 0 && pageOf p.1 == pg &&
    (match regDesc (p.1 % 0x100000000) with | some d => p.2 &&& BitVec.ofNat 32 d.cmd != 0 | none => false))

/-- The LG's posted-write buffer holds a write (R35). -/
def State.lgBusy (s : State) (lg : Nat) : Bool := !(tget (fun _ => []) s.lgBuf lg).isEmpty

/-- PG_CMD [31:30] (R26, R36). -/
def pendBusy (s : State) (pg : Nat) : Nat :=
  bit (s.pend.any (fun p => pendPage p.addr == pg)) +
    2 * bit (pageBusy s pg || (match lgOf pg with | some lg => s.lgBusy lg | none => false))

/-- One bit per global page (Table 17-5). -/
def pageBits (f : Nat → Bool) (i n : Nat) : Nat := bitsFrom ((List.range n).map (fun j => f (sumPage (i + j))))

/-- Bit rates of the RATE codes in kbit/s (Table 4-1). -/
def rateKbaud (code : Nat) : Nat :=
  ([155520, 622080, 1250000, 2488320, 2666057, 9953280, 10312500, 10709225, 11095728, 10754603, 25781250, 27952493] : List Nat).getD code 155520

/-- An output of RCLK is squelched (R237). -/
def rclkSquelched (s : State) (o : Nat) : Bool :=
  let src := s.g (TB_RCLK_SRC o)
  let div := s.g (TB_RCLK_DIV o)
  let fast (kbaud : Nat) : Bool := decide (312500 * div < kbaud)
  if src < 192 then
    let c := laneChannel s src
    (s.lane src).los || s.disc c != 6 || fast (rateKbaud (s.g (CH_DISC_STAT_RATE c))) ||
      (s.on (TB_RCLK_SQ_SF o) && s.on (CH_SFSD_SF c))
  else if 0x100 ≤ src ∧ src < 0x104 then
    !s.on (TPT_STAT_LINK (src - 0x100)) || fast ([1250000, 10312500, 25781250].getD (s.f (TPT_CFG_RATE (src - 0x100))) 1250000)
  else false

/-- A port FIFO's head entry, word `i` (R225). -/
def headWord (l : List (List Word)) (i : Nat) : Nat := ((l.headD []).getD i 0).toNat

/-- A latency in force in 1/64 ns (Table 10-6). -/
def lat64 (s : State) (port : Nat) (tx : Bool) : Nat := ((latInForce s port tx + 512) / 1024).toNat

/-- The port registers of the TB page (R225, R238). -/
def portWord (s : State) (port o : Nat) (w : Word) : Nat :=
  if !tbPort port then 0
  else if o = 0x14C then lat64 s port false % 0x10000 + 0x10000 * (lat64 s port true % 0x10000)
  else if o = 0x154 then (s.ptOf port).rx.length + 256 * (s.ptOf port).tx.length
  else if 0x160 ≤ o ∧ o < 0x170 then headWord (s.ptOf port).rx ((o - 0x160) / 4)
  else if 0x170 ≤ o ∧ o < 0x180 then headWord (s.ptOf port).tx ((o - 0x170) / 4)
  else w.toNat

/-- One bit per counter that stands at its maximum (R39). -/
def satBits (get : Nat → Word) (n : Nat) : Nat := bitsFrom ((List.range n).map (fun i => get i == 0xFFFFFFFF))

/-- What a read of the header's PG_SUM, PG_CMD and PG_VER returns (R26, R34). -/
def headerWord (s : State) (a : Nat) (w : Word) : Word :=
  let pg := pageOf a
  let o := offOf a
  if o = 0x10 then
    -- a channel page's status bits are the copies, and PG_SUM follows them
    let s := if pageKind pg = some .ch then { s with regs := s.copy } else s
    BitVec.ofNat 32 (sumOf s pg % 0x80000000 + 0x80000000 * bit (anyOf s pg))
  else if o = 0x1C then BitVec.ofNat 32 (w.toNat % 4 + 0x40000000 * pendBusy s pg)
  else if o = 4 ∧ pageKind pg = some .ch then BitVec.ofNat 32 (w.toNat % 0x10000 + 0x10000 * (s.sclk % 0x10000))
  else w

/-- What a read of a register returns: the stored word `w`, but for the registers whose value follows their cause (R43). -/
def shownWord (s : State) (m a : Nat) (w : Word) : Word :=
  let o := offOf a
  let nat (v : Nat) : Word := BitVec.ofNat 32 v
  if o < 0x20 then headerWord s a w
  else
    match pageKind a with
    | some .dev =>
      if o = 0x60 then nat (pageBits s.ready 0 32) else if o = 0x64 then nat (pageBits s.ready 32 1)
      else if o = 0x68 then nat (bitsFrom ((List.range 16).map (fun n => (List.range 16).all (fun p => s.ready (lgBase n + 0x1000 * p)))))
      else if o = 0x6C then nat (pageBits (fun pg => s.on (PG_READY_FAILED pg)) 0 32)
      else if o = 0x70 then nat (pageBits (fun pg => s.on (PG_READY_FAILED pg)) 32 1)
      else if o = 0x74 then nat (bitsFrom ((List.range 16).map (fun n => (List.range 16).any (fun p => s.on (PG_READY_FAILED (lgBase n + 0x1000 * p))))))
      else w
    | some .tb =>
      if o = 0x28 then nat (s.nowNs % 1000000000)
      else if 0x80 ≤ o ∧ o < 0x90 then nat (wordGet w 0 26 + 0x4000000 * bit (rclkSquelched s ((o - 0x80) / 4)))
      else if 0x144 ≤ o ∧ o < 0x180 then nat (portWord s (s.g (TB_PT_SEL_PORT m)) o w)
      else w
    | some .irq =>
      if s.mode = 0 then w
      else if 0x20 ≤ o ∧ o < 0x60 then nat (bitsFrom ((List.range 32).map (fun i => statOf s (32 * ((o - 0x20) / 4) + i))))
      else if o = 0xA0 then nat (irqLevels s)
      else if o = 0xA4 then nat (irqDrive s / 0x100000000)
      else w
    | some .ic => if o = 0x64 then icActEnt s (pageOf a == loxPage) else w
    | some .twn =>
      let r := s.g (TWN_RGN_SEL_REGION m)
      if 100 ≤ r then (if 0x54 ≤ o ∧ o < 0x60 then 0 else w)
      else if o = 0x54 then nat (s.genOf r % 0x10000 + 0x10000 * bit (s.regionDone r) + 0x20000 * bit (s.isStaged r))
      else if o = 0x58 then nat (tget (fun _ => 0) s.twn.captureAt r)
      else if o = 0x5C then nat (tget (fun _ => 0) s.twn.captureAt r / 0x100000000 % 0x20000000)
      else w
    | some .cal =>
      if o = 0x3C then
        let p := s.g (perMaster CAL_TCAL_SEL_PORT m)
        wordSet w 8 2 (calFlagOf s (if p < 0x200 then 2 else 3) p)
      else if o = 0x4C then wordSet w 8 2 (calFlagOf s 4 (s.g (perMaster CAL_MCAL_SEL_CH m)))
      else if 0x100 ≤ o ∧ o < 0x140 then tget (fun _ => 0) s.cal.fr (16 * s.g (perMaster CAL_FR_SEL_SLOT m) + (o - 0x100) / 4)
      else w
    | some .mon =>
      let g := s.gaugeOf m
      if o = 0x110 then nat (satBits (fun i => s.rd (MON_G_BIN_COUNT g i).addr) 32)
      else if o = 0x114 then nat (satBits (fun _ => s.rd (MON_G_N_N g).addr) 1)
      else w
    | some .prf =>
      if o = 0x50 ∨ o = 0x54 then nat (bitsFrom ((List.range 32).map (fun i => s.on (PRF_P_VAL_HI_OVF (8 * (o - 0x50) + i))))) else w
    | some .ch =>
      let c := chOfPage a
      if o = 0x188 then nat (satBits (fun i => if pmUnused s (CH_PMC_COUNT c i).addr then 0 else tget resetWordOf s.copy (CH_PMC_COUNT c i).addr) 16)
      else if o = 0x1A0 then nat (satBits (fun i => tget resetWordOf s.copy (CH_CL_CNT_COUNT c i).addr) 4)
      else w
    | _ => w

/-- The register word as read: status bits of the channel pages as last copied (R34); of a bonded member's page only the fields that
software writes and DISC_STAT are shown (R7, R86, R102, R124, R178). -/
def readValue (s : State) (m a k : Nat) (d : RegDesc) (hold : Bool) : Word :=
  if hold then (if pageKind a = some .ch ∧ s.bonded (chOfPage a) then 0 else s.rd k)
  else
    let w := if isCopied a then (s.rd k &&& rwBits d) ||| (tget resetWordOf s.copy k &&& ~~~rwBits d) else s.rd k
    let v := if pmUnused s a then 0 else shownWord s m a w
    if pageKind a = some .ch ∧ !isHeader a ∧ offOf a ≠ 0x2C ∧ s.bonded (chOfPage a) then v &&& rwBits d else v

/-- A read of a register: its word, or a bus error (R24, R32, R378, R379). A read of a 48-bit counter's low word latches the rest for the
master, NOW_NS the seconds (R41, R212); a parity fault is found (R38). -/
def regRead (s : State) (m b a : Nat) : Option Word × State :=
  if !s.served (pageOf a) || (!s.ready (pageOf a) && !isHeader a) then (none, s)
  else
    match regAt s m b a with
    | none => (none, s)
    | some (k, d, hold) =>
      let s := parFound s k
      let p := plainAddr a
      if p = 0x3028 then (some (readValue s m p k d hold), nowRead s m)
      else if !hold && isPerfLow p then
        (some (readValue s m p k d hold), { s with latch := tset (fun _ => 0) s.latch (8 * k + m) (s.g ⟨k + 4, 0, 17⟩) })
      else if !hold && decide (4 ≤ p) && isPerfLow (p - 4) then
        (some (BitVec.ofNat 32 (tget (fun _ => 0) s.latch (8 * (k - 4) + m))), s)
      else (some (readValue s m p k d hold), s)

/-- An access to the default target (R28, R359): a bus error, recorded in BMX, and no other effect. -/
def defaultTarget (s : State) (m addr : Nat) (write : Bool) : State :=
  let s := prfCount s 3 (fun _ => true)
  (((s.occ BMX_DEF_OCC_COUNT.addr).u [(BMX_DEF_LAST_ADDR, addr), (BMX_DEF_INFO_MASTER, m), (BMX_DEF_INFO_WRITE, bit write)]).reply m false []).park 7 m

/-- One aligned 32-bit read of BAR 0 by master `m`, bank `b` (R348): pages, engine memories, standby windows, batt-store window; `cls` is
how the memory decoder finds the batt store's codeword. -/
def busRead (s : State) (m b a cls : Nat) : State :=
  if !s.busRuns then s
  else if (pageKind a).isSome then
    if a % 4 ≠ 0 then s.answer m false []
    else
      match regRead s m b a with
      | (some v, t) => t.answer m true [v]
      | (none, t) => t.answer m false []
  else if 0x300000 ≤ a ∧ a < 0x700000 then feWindowRead s m ((a - 0x300000) / 0x10000) (a % 0x10000)
  else if 0x800000 ≤ a ∧ a < 0x880000 then icRead s false m (a - 0x800000)
  else if 0x880000 ≤ a ∧ a < 0x900000 then icRead s true m (a - 0x880000)
  else if 0x1000000 ≤ a ∧ a < 0x2000000 then battWindow s m (a - 0x1000000) none cls
  else defaultTarget s m (0x20000000 + a) false

end Sys2Proof.Machine
end

