-- ==== Sys2Proof/Machine/BusWrite.lean ====
section
/-!
DEFINITION. Writing the register fabric (02_register_conventions.md R24, R25, R29 to R44; 14_twin_operation.md R302): the judgement of a word, its
landing, the commands it starts, the posted-write buffer of an LG, windows, transactions of several words.
-/

namespace Sys2Proof.Machine

open Sys2Proof

def allBits : Word := 0xFFFFFFFF

/-! ### A word to be written -/

/-- The bits a word covers (R25): a plain write those of its enabled bytes, an alias write those that carry 1. -/
def PostW.cover (p : PostW) : Word := if aliasOf p.addr = 0 then p.mask else p.val &&& p.mask

/-- What the covered bits become (R25). -/
def PostW.new (p : PostW) (old : Word) : Word :=
  match aliasOf p.addr with
  | 0 => p.val
  | 1 => allBits
  | 2 => 0
  | _ => ~~~old

/-- The register's word with the covered bits written. -/
def PostW.merged (p : PostW) (old : Word) : Word := (old &&& ~~~p.cover) ||| (p.new old &&& p.cover)

/-- A plain write of the whole register (R24, R40). -/
def PostW.plain (p : PostW) : Bool := aliasOf p.addr == 0 && p.mask == allBits

/-- The CMD bits it starts (R25): none through CLR. -/
def PostW.starts (p : PostW) (d : RegDesc) : Nat := if aliasOf p.addr = 2 then 0 else (p.val &&& p.mask).toNat &&& d.cmd

/-- The bytes that byte enables select, as bits. -/
def beMask (be : Nat) : Word :=
  BitVec.ofNat 32 (0xFF * (be % 2) + 0xFF00 * (be / 2 % 2) + 0xFF0000 * (be / 4 % 2) + 0xFF000000 * (be / 8 % 2))

/-! ### What a pair shares (R302, Table 14-3) -/

/-- Region fields that no configuration bit is: commands that alter tables, ADMIT.FMT, the engine's inbound mailbox. -/
def regionExtra (a : Nat) : Nat :=
  let o := a % 0x1000
  match pageKind a with
  | some .ch => if o = 0x3C then 0x11F else 0
  | some .ic => if o = 0x40 then 7 else 0
  | some .bat => if o = 0x34 then 2 else 0
  | some .lgc => if o = 0xA4 then 6 else if o = 0xE4 then 2 else 0
  | some .lgm => if o = 0x28 ∨ o = 0x38 then 2 else 0
  | some .lgp => if o = 0x24 then 2 else 0
  | some .fe => if o = 0x2C then 7 else if 0x80 ≤ o ∧ o < 0xC0 then 0xFFFFFFFF else if o = 0xC0 then 0xFFFF else 0
  | _ => 0

/-- Selectors and window data that a forwarded command reads: taken on both units, and forwarded. -/
def selectorReg (k a : Nat) (d : RegDesc) : Bool :=
  let o := a % 0x1000
  match pageKind a with
  | some .lgc | some .lgm | some .lgp => d.rw &&& d.imm != 0 && (occDesc k).isNone && decide (0x20 ≤ o)
  | some .bat => decide (0x30 ≤ o) && decide (o < 0x50)
  | some .tb => o == 0x140
  | some .inj => o == 0x20
  | some .fe => o == 0x24 || o == 0x28
  | _ => false

/-- The word writes a region field. -/
def regionHit (p : PostW) (k a : Nat) (d : RegDesc) : Bool :=
  let c := p.cover.toNat
  let x := regionExtra a
  (regionBits k).any (fun r => c &&& r.2 &&& descWritable d != 0) || (p.plain && isPm k) ||
    p.starts d &&& x != 0 || c &&& x &&& d.rw != 0

/-! ### The judgement (R24, R32, R33, R35) -/

/-- The refusals that pages define: the state with what they count, the bits refused with a bus error, the bits ignored without one. -/
def pageRefusal (s : State) (p : PostW) (k a : Nat) (d : RegDesc) : State × Word × Word :=
  let o := a % 0x1000
  let c := p.cover
  let v := p.merged (s.rd k)
  let whole (b : Bool) : State × Word × Word := (s, if b then allBits else 0, 0)
  match pageKind a with
  | some .clk =>
    if o ≠ 0x20 then whole false
    else
      let sel : Word := c &&& 7
      let lkd : Word := c &&& 0x80000000
      let page := s.on (PG_LOCK_LOCK 0x2000)
      let own := s.on CLK_CORE_CFG_LOCKED
      let badSel := sel != 0 && (s.mode != 0 || own || page)
      let badLk := lkd != 0 && (own || page)
      (if badSel || badLk then s.lockViol p.m p.addr else s,
        (if badSel || (sel != 0 && decide (5 ≤ wordGet v 0 3)) then (7 : Word) else 0) ||| (if badLk then 0x80000000 else 0), 0)
  | some .htr => if o = 0x38 ∧ c &&& 1 ≠ 0 ∧ remapLocked s p.m then (s.lockViol p.m p.addr, allBits, 0) else whole false
  | some .tb =>
    if o = 0x3C then
      let inc := wordGet v 0 4 * 0x100000000 + s.g TB_TB_INC_FRAC_FRAC
      whole (c &&& 0xF != 0 && !(incMaster s p.m && decide (0x1FFE5C91D ≤ inc) && decide (inc ≤ 0x2001A36E3)))
    else if o = 0x50 then whole (p.starts d != 0 && (s.running || decide (1000000000 ≤ s.g TB_LOAD_NS_NS)))
    else whole ((o == 0x144 || o == 0x150) && !tbPort (s.g (TB_PT_SEL_PORT p.m)))
  | some .fe =>
    let e := (a - 0x200000) / 0x1000
    whole (decide (0x80 ≤ o) && decide (o < 0xC0) && s.g (FE_H_IN_DB_SEQ e) != s.g (FE_H_IN_ACK_ACK e))
  | some .ch =>
    let ch := chOfPage a
    if o = 0x100 then
      let bad (i now : Nat) : Bool := c.getLsbD i && wordGet v i 1 != now && !s.on (bankChecked ch (wordGet v i 1))
      (s, BitVec.ofNat 32 (bit (bad 0 (s.rxBank ch)) + 2 * bit (bad 1 (s.txBank ch))), 0)
    else if o = 0x20 ∧ ch % 4 ≠ 0 then (s, 0, 0xA00)
    else whole false
  | some .bmx =>
    let i := (o - 0x100) / 16
    if o < 0x100 ∨ 0x180 ≤ o ∨ !s.on (BMX_DMA_CFG_EN i) then whole false
    else if o % 16 < 8 then whole true
    else if o % 16 = 8 then (s, c &&& 0x1E, 0)
    else whole false
  | some .twn =>
    if o = 0x38 then whole true
    else if o = 0x20 then whole ((v ^^^ s.rd k) &&& 0xFFFF0703 != 0 && s.twinState != 0)
    else whole false
  | some .grp =>
    if o ≠ 0x20 ∨ c &&& 0x1F = 0 then whole false
    else if s.pwr.straps % 4 ≠ 3 then (s, 0, 0x1F)
    else if (s.isManager && s.g GRP_STAT_MEMBERS != 0) || (s.isWorker && s.on GRP_STAT_MGR_UP) then (s, 0x1F, 0)
    else whole false
  | some .inj =>
    if 0x24 ≤ o ∧ o < 0x30 ∧ s.on (INJ_IJ_STAT_ACTIVE (s.g (perMaster INJ_IJ_SEL_SLOT p.m))) then (s.occ INJ_VIOL_OCC_COUNT.addr, allBits, 0)
    else whole false
  | some .irq => if o = 0x9C then (s, 0, 0xFFF00000) else whole false
  | _ => whole false

/-- The judgement of a word (R35; DESIGN CHOICE, log 67: LOCK of PG_LOCK is itself a locked LCK field once it is set): the state with what a refusal counts, the bits that do not enter, and whether it ends without a bus
error. -/
def judgeWord (s : State) (p : PostW) : State × Word × Bool :=
  let a := plainAddr p.addr
  if p.addr % 4 ≠ 0 ∨ !s.usable (pageOf a) then (s, allBits, false)
  else
    match regAt s p.m p.bank p.addr with
    | none => (s, allBits, false)
    | some (k, d, hold) =>
      if hold then (s, if (lgOf p.addr).isSome then 0 else allBits, true)
      else if s.mode = 4 ∧ p.m ≠ 7 ∧ regionHit p k a d then
        if p.m = 5 then (s, allBits, true) else (s.occ 0xD0B4, allBits, false)
      else
        let own := a == 0x2020 || a == 0x8038
        let lk : Word := if !own && s.locked a d then BitVec.ofNat 32 d.lck &&& p.cover else 0
        let s := if lk = 0 then s else s.lockViol p.m p.addr
        let r := pageRefusal s p k a d
        (r.1, lk ||| r.2.1 ||| r.2.2, lk == 0 && r.2.1 == 0)

/-! ### Commands by register (Table 2-5 CMD) -/

/-- SNAP.TAKE (R45, R17). -/
def snapAsk (s : State) (late : Bool) : State := { s with snap := some (if late then 1 else 0) }.u [(DEV_SNAP_TAKE, 1)]

/-- The CMD bits of a register in the order in which one write starts them. -/
def cmdOrder (a : Nat) : List Nat :=
  let o := a % 0x1000
  match pageKind a with
  | some .ic => if o = 0x40 then [1, 2, 0] else [0, 1]
  | some .prf => if o = 0x6C then [1, 0, 2] else [0, 1]
  | some .inj => if o = 0x38 then [1, 0] else [0, 1]
  | some .fe => if o = 0x2C then [1, 0, 2] else [0, 1]
  | some .plk => [1, 0, 2]
  | some .dev => [2, 3, 1, 0]
  | _ => [0, 1, 2, 3, 8, 4]

/-- What CMD bit `i` of the register at `a` does for master `m` with bank `b`. -/
def runCmd (s : State) (m b : Nat) (late : Bool) (a i : Nat) : State :=
  let o := a % 0x1000
  let pg := pageOf a
  let lg := (a - 0x100000) / 0x10000
  if o = 0x1C then (if i = 0 then pageSrst s pg else cntClr s pg)
  else
    match pageKind a with
    | some .dev =>
      if o = 0x40 then snapAsk s late
      else if i = 0 then cmdBringup s else if i = 1 then cmdSolo s late else if i = 2 then cmdQuarantine s late else cmdRelease s late
    | some .tb =>
      if o = 0x50 then tbLoad s m
      else if o = 0x94 then
        { s with pin := { s.pin with todEdge := false, todSending := false } }.u [(TB_TOD_CMD_ARM, 1), (TB_TOD_STAT_TX_ABANDON, 0)]
      else ptPop s m (i == 1)
    | some .plk => if i = 0 then admitBank s b m else if i = 1 then cancelBank s b else clearBank s b
    | some .jnl => findStart s b
    | some .htr => cmdRestart s
    | some .ic => if i = 1 then icAbandon s.draw (pg == loxPage) s.drawn.toNat else icStart s (pg == loxPage) i
    | some .bat => if i = 0 then bpRead s else bpWrite s late
    | some .twn => if i = 0 then twinJoin s else if i = 1 then twinServe s else if i = 2 then twinLeave s else twinForce s
    | some .cal => if o = 0x34 then tcalRun s m else if o = 0x44 then mcalRun s m else progStart s false
    | some .mon => gaugeClear s (s.gaugeOf m)
    | some .prf => if o = 0xB4 then tagPop s else if i = 0 then traceStart s else if i = 1 then traceStop s else traceReset s
    | some .inj => injCommand s m i late
    | some .lgc =>
      if o = 0xA4 then (if i = 0 then mwReadCmd s lg else if i = 1 then mwWriteCmd s lg else checkStart s lg)
      else if i = 0 then vgReadCmd s lg else vgWriteCmd s lg late
    | some .ch =>
      let c := chOfPage a
      ((s.setLane c { s.lane c with adm := some (s.g (CH_ADMIT_FMT c), if late then 1 else 0) }).begin (CH_ADM_CTRL_VALID c).addr).u [(CH_ADMIT_GO c, 1)]
    | some .lgs =>
      if o = 0x60 then eyeStart s lg else lcalRun s m lg
    | some .lgm =>
      if o = 0x28 then (if i = 0 then pwReadCmd s lg else pwWriteCmd s lg late)
      else if i = 0 then tmReadCmd s lg else tmWriteCmd s lg late
    | some .lgp => if i = 0 then swReadCmd s lg else swWriteCmd s lg late
    | some .fe =>
      let e := (a - 0x200000) / 0x1000
      if i = 0 then feStart s e else if i = 1 then feStop s e else feCheck s e
    | _ => s

/-- A CMD bit reads 1, or another command of its window runs (R29, R179). -/
def cmdRuns (s : State) (k a i : Nat) : Bool :=
  s.on ⟨k, i, 1⟩ || (pageKind a == some .lgc && a % 0x1000 == 0xA4 && s.on (LGC_MW_CMD_CHECK ((a - 0x100000) / 0x10000)))

/-- The commands that a word starts; those that run are lost, one count for the register (R30). -/
def landCmds (late : Bool) (s : State) (p : PostW) (k a : Nat) (d : RegDesc) : State :=
  let st := p.starts d
  if st = 0 then s
  else if a = 0x60AC then eoiWrite s st
  else
    let bits := (cmdOrder a).filter (fun i => st / 2 ^ i % 2 == 1)
    let lost := bits.any (fun i => cmdRuns s k a i)
    let s := if lost then s.wlost p.m p.addr else s
    bits.foldl (fun t i => if cmdRuns t k a i then t else runCmd t p.m p.bank late a i) s

/-! ### Landing -/

/-- A preset of a PM counter (R39, R40): `n` is what hardware adds in the same cycle. -/
def pmPreset (s : State) (k : Nat) (v n : Nat) : State := s.setWord k (BitVec.ofNat 32 (min 0xFFFFFFFF (v + n)))

/-- A plain write of a 48-bit counter's low or high word (R39, R40): OVF clears; the words that software may write take the value. -/
def perfPreset (s : State) (k : Nat) (low : Bool) (soft : Bool) (v n : Nat) : State :=
  let kl := if low then k else k - 4
  let s := s.u [(⟨kl + 4, 16, 1⟩, 0)]
  let s := if !soft then s else if low then s.u [(⟨kl, 0, 32⟩, v)] else s.u [(⟨kl + 4, 0, 16⟩, v)]
  if n = 0 then s else s.perfAdd kl n

/-- The amount that hardware adds to a counter in the cycle of a preset. -/
def PostW.adds (p : PostW) : Nat := p.hw.elim 0 (fun h => h.value.toNat)

/-- The stored bits of a word that has no behaviour of its own (R29 to R31, R36, R37). Hardware writes RWH and RWS fields only, and a
conflict is resolved for the field as a whole (R30): no register holds two such fields. -/
def storeWord (late : Bool) (s : State) (p : PostW) (k a : Nat) (d : RegDesc) : State :=
  let old := s.rd k
  let c := p.cover
  let v := p.new old
  let w (n : Nat) : Word := BitVec.ofNat 32 n
  let wr := c &&& w (d.rw ||| d.rwh ||| d.rws)
  let hwm := (p.hw.elim 0 (fun h => h.mask)) &&& w (d.rwh ||| d.rws)
  let hwv := p.hw.elim 0 (fun h => h.value)
  let lost := if hwm &&& w d.rwh = 0 then 0 else wr &&& w d.rwh
  let won := if hwm &&& w d.rws = 0 then 0 else wr &&& w d.rws
  let s := if lost = 0 then s else s.wlost p.m p.addr
  let s := if won = 0 then s else s.occ (pageOf a + 0x3E4)
  let hwAp := if won = 0 then hwm else hwm &&& ~~~(w d.rws)
  let s := if hwAp = 0 then s else s.setWord k ((s.rd k &&& ~~~hwAp) ||| (hwv &&& hwAp))
  let sw := wr &&& ~~~lost
  let now := sw &&& w (d.imm ||| d.rws)
  let s := if now = 0 then s else s.setWord k ((s.rd k &&& ~~~now) ||| (v &&& now))
  let rest := sw &&& ~~~now
  let c := chOfPage a
  let line : Option Nat := if pageKind a = some .ch ∧ s.inFrame c ∧ s.chFam c ≠ .eth then some c else none
  let ing := if line.isSome then rest &&& w d.ing else 0
  bufWriteBy (bufWriteBy s p.m (p.addr % 0x1000) k ing v line late) p.m (p.addr % 0x1000) k (rest &&& ~~~ing) v none late

/-- A register with behaviour of its own, or a plain one. -/
def landReg (late : Bool) (s : State) (p : PostW) (k a : Nat) (d : RegDesc) : State :=
  let o := a % 0x1000
  let pg := pageOf a
  let v := p.merged (s.rd k)
  if isPerfLow a then (if p.plain then perfPreset s k true (d.rws != 0) v.toNat p.adds else s)
  else if 4 ≤ a ∧ isPerfLow (a - 4) then (if p.plain then perfPreset s k false (d.rws != 0) v.toNat p.adds else s)
  else if d.held && d.rws != 0 then (if p.plain && !pmUnused s a then pmPreset s k v.toNat p.adds else s)
  else if (occDesc k).isSome then (if p.cover &&& 0xFFFF0000 ≠ 0 then s.occAckWrite k (wordGet v 16 16) else s)
  else if o = 0x14 then (if v.getLsbD 0 then s.u [(PG_LOCK_LOCK pg, 1)] else s)
  else if o = 0x18 then (if p.cover &&& 4 ≠ 0 then parActWrite s pg (wordGet v 2 1) else s)
  else
    match pageKind a with
    | some .clk =>
      if o ≠ 0x20 then storeWord late s p k a d
      else
        let s := if v.getLsbD 31 then s.u [(CLK_CORE_CFG_LOCKED, 1)] else s
        if p.cover &&& 7 = 0 then s
        else s.u [(CLK_CORE_CFG_REF_SEL, wordGet v 0 3), (CLK_PLL_STAT_CCLK_LK, 0), (CLK_PLL_STAT_ECLK_LK, 0),
          (CLK_PLL_STAT_MCLK_LK, 0), (CLK_PLL_STAT_SCLK_LK, 0)]
    | some .htr =>
      if o = 0x38 then (if p.cover &&& 1 ≠ 0 then remapTake s (wordGet v 0 1) else s)
      else if o = 0xC0 then h2cDb s v.toNat
      else if o = 0x10C then c2hAck s v.toNat
      else storeWord late s p k a d
    | some .tb => if o = 0x3C then (if p.cover &&& 0xF ≠ 0 then incWrite s p.m v else s) else storeWord late s p k a d
    | some .plk => if o = 0x3C then stageItem s p.bank v else storeWord late s p k a d
    | some .jnl => if o = 0x24 then latchRecord s p.bank v.toNat else storeWord late s p k a d
    | some .mon => if o = 0x34 then gaugeWrite s p.m v else storeWord late s p k a d
    | some .prf =>
      if o = 0x7C then traceLatch s p.m v.toNat
      else if o = 0xA0 then tagEnable (storeWord late s p k a d) (s.on PRF_E_CFG_EN)
      else storeWord late s p k a d
    | some .bmx =>
      let i := (o - 0x100) / 16
      let t := storeWord late s p k a d
      if 0x100 ≤ o ∧ o < 0x180 ∧ o % 16 = 8 ∧ !s.on (BMX_DMA_CFG_EN i) ∧ t.on (BMX_DMA_CFG_EN i) then t.u [(BMX_DMA_PTR_HEAD i, 0)] else t
    | some .grp =>
      let t := storeWord late s p k a d
      if o = 0x20 ∧ p.cover &&& 0x1F ≠ 0 then roleInForce t else t
    | some .fe =>
      let e := (a - 0x200000) / 0x1000
      if o = 0xC0 then feInDb s e v.toNat false else if o = 0x10C then feOutAck s e v.toNat false else storeWord late s p k a d
    | _ => storeWord late s p k a d

/-- A word that has been judged is applied in its home domain: its stored bits, then the commands it starts. -/
def landCore (late : Bool) (s : State) (p : PostW) : State :=
  match regAt s p.m p.bank p.addr with
  | none => s
  | some (k, d, hold) =>
    let a := plainAddr p.addr
    if hold || p.cover = 0 then s
    else
      let s := if d.rw ||| d.rwh ||| d.rws ||| d.lck = 0 then s else parRepair s k
      landCmds late (landReg late s p k a d) p k a d

/-- A bus write lands; an active forwards what its peer must share (R302). -/
def landWord (late : Bool) (s : State) (p : PostW) : State :=
  let t := landCore late s p
  match regAt s p.m p.bank p.addr with
  | none => t
  | some (k, d, hold) =>
    if !hold && p.cover != 0 && (regionHit p k (plainAddr p.addr) d || selectorReg k (plainAddr p.addr) d) then
      forwardWrite t p.m p.addr p.val p.mask
    else t

/-- A judged word without the bits that were refused. -/
def PostW.less (p : PostW) (drop : Word) : PostW := { p with mask := p.mask &&& ~~~drop }

/-- Judge and land a word outside the LG pages. -/
def writeNow (late : Bool) (s : State) (p : PostW) : State × Bool :=
  let r := judgeWord s p
  (if r.2.1 = allBits then r.1 else landWord late r.1 (p.less r.2.1), r.2.2)

/-! ### The posted-write buffer (R35) -/

/-- The words in an LG's buffer reach it, in order; BUSY clears. -/
def lgLand (s : State) (lg : Nat) (late : Bool) : State :=
  (tget (fun _ => []) s.lgBuf lg).foldl (landWord late) { s with lgBuf := tset (fun _ => []) s.lgBuf lg [] }

/-- A word for an LG page is judged and enters the buffer. -/
def lgEnter (s : State) (lg : Nat) (p : PostW) : State × Bool :=
  let r := judgeWord s p
  (if r.2.1 = allBits then r.1 else { r.1 with lgBuf := tset (fun _ => []) r.1.lgBuf lg (tget (fun _ => []) r.1.lgBuf lg ++ [p.less r.2.1]) }, r.2.2)

/-! ### Windows -/

/-- The word a window shows at an address; none where it refuses the read. -/
def windowWord (s : State) (m a : Nat) : Option Word × State :=
  let t := if 0x300000 ≤ a ∧ a < 0x700000 then feWindowRead s m ((a - 0x300000) / 0x10000) (a % 0x10000)
    else if 0x800000 ≤ a ∧ a < 0x880000 then icRead s false m (a - 0x800000)
    else if 0x880000 ≤ a ∧ a < 0x900000 then icRead s true m (a - 0x880000)
    else battWindow s m (a - 0x1000000) none 0
  (if (t.respOf m).ok then (t.respOf m).data.head? else none, t)

def isWindow (a : Nat) : Bool := feWindowAddr a

/-- A whole word into a window, whatever the unit's role (R137, R259, R279). -/
def windowTake (s : State) (m a : Nat) (v : Word) : State :=
  if 0x300000 ≤ a ∧ a < 0x700000 then feWindowWrite s m ((a - 0x300000) / 0x10000) (a % 0x10000) v
  else if 0x800000 ≤ a ∧ a < 0x880000 then icWrite s false m (a - 0x800000) v
  else if 0x880000 ≤ a ∧ a < 0x900000 then icWrite s true m (a - 0x880000) v
  else battWindow s m (a - 0x1000000) (some v) 0

/-- The page whose usability and role rule a window follows. -/
def windowPage (a : Nat) : Nat :=
  if a < 0x700000 then feBase ((a - 0x300000) / 0x10000) else if a < 0x880000 then tsiPage else if a < 0x900000 then loxPage else 0xC000

/-- A write of a window by byte enables: the bytes that are not enabled keep what the window shows (R24). -/
def windowWrite (s : State) (m a : Nat) (v : Word) (be : Nat) : State × Bool :=
  let put (t : State) (w : Word) : State × Bool :=
    let r := if a < 0x900000 then regionWrite t m (windowPage a) a w allBits (fun u => windowTake u m a w) else windowTake t m a w
    (r, (r.respOf m).ok)
  if be % 16 = 15 then put s v
  else
    let r := windowWord s m (a / 4 * 4)
    match r.1 with
    | none => (r.2, false)
    | some w => put r.2 ((w &&& ~~~(beMask be)) ||| (v &&& beMask be))

/-! ### Transactions -/

/-- A grant at a target, and the transaction as it completes (R408, R410). -/
def granted (s : State) (m tgt addr : Nat) (write ok : Bool) (len : Nat) : State :=
  traceRecord (prfCount s 1 (fun i => i % 8 == tgt && (i / 64 % 2 == 1 || i / 8 % 8 == m))) m tgt addr write (bit (!ok)) len

/-- A word of a write: BAR 0 address, value, byte enables. -/
abbrev BusWord := Nat × Word × Nat

/-- One word of a transaction (R24, R28, R35): `busy` are the LGs that were busy when the transaction began; the first refused word of
each counts the violation. The result: the state, whether every word so far ended without a bus error, the LGs whose violation
has been counted. -/
def busWord (m b : Nat) (late : Bool) (hw : Option HwWrite) (busy : List Nat) (r : State × Bool × List Nat) (w : BusWord) :
    State × Bool × List Nat :=
  let s := r.1
  let a := w.1
  let p : PostW := ⟨m, b, a, w.2.1, beMask w.2.2, hw⟩
  if (pageKind a).isSome then
    match lgOf a with
    | some lg =>
      if busy.contains lg then
        if r.2.2.contains lg then (s, false, r.2.2) else (s.busyViol m a, false, lg :: r.2.2)
      else
        let x := lgEnter s lg p
        (x.1, r.2.1 && x.2, r.2.2)
    | none =>
      let x := writeNow late s p
      (x.1, r.2.1 && x.2, r.2.2)
  else if isWindow a then
    let x := windowWrite s m a w.2.1 w.2.2
    (x.1, r.2.1 && x.2, r.2.2)
  else (defaultTarget s m (0x20000000 + a) true, false, r.2.2)

/-- A write transaction of master `m`. An engine port's write waits for a busy LG (R245) and lands before its next access. -/
def busWrite (s : State) (m b : Nat) (late : Bool) (hw : Option HwWrite) (l : List BusWord) : State × Bool :=
  if !s.busRuns then (s, false)
  else
    let s := if m = 5 then (List.range 16).foldl (fun t lg => if t.lgBusy lg then lgLand t lg late else t) s else s
    let busy := (List.range 16).filter (fun lg => s.lgBusy lg)
    let r := l.foldl (busWord m b late hw busy) (s, true, [])
    let a := (l.headD (0, 0, 0)).1
    let to0 := l.any (fun w => (pageKind w.1).isSome || isWindow w.1)
    let t := if to0 then (granted r.1 m 0 (0x20000000 + a) true r.2.1 (4 * l.length)).park 0 m else r.1
    (t.reply m r.2.1 [], r.2.1)

/-! ### The rows -/

/-- REGISTER_WRITE (R25): one 32-bit write by a master, alias and byte enables included; `hw` is what hardware writes into the register
in the cycle in which it is applied. -/
def execRegisterWrite (m : Fin 8) (a : Nat) (v : Word) (be : Fin 16) (late : Bool) (hw : Option HwWrite) (s : State) :
    Host.Outcome State Fault Refusal :=
  done (busWrite s m m late hw [(a % 0x2000000, v, be)]).1

/-- LG_POSTED_WRITE (R35): one write transaction whose words lie in the pages of one LG. -/
def execLgPostedWrite (m : Fin 8) (lg : Fin 16) (l : List (Nat × Word × Nat)) (s : State) : Host.Outcome State Fault Refusal :=
  done (busWrite s m m false none (l.map (fun w => (0x100000 + 0x10000 * lg.val + w.1 % 0x10000, w.2)))).1

/-- POSTED_WRITE_LAND (R35). -/
def execPostedWriteLand (lg : Fin 16) (late : Bool) (s : State) : Host.Outcome State Fault Refusal :=
  done (if s.busRuns then lgLand s lg late else s)

/-- The copy of a register follows a posted write that has just landed in it, so that the read that waited returns the new value (R35). -/
def copyLanded (s : State) (p : PostW) : State :=
  match regAt s p.m p.bank p.addr with
  | some (k, _, false) => { s with copy := tset resetWordOf s.copy k (s.rd k) }
  | _ => s

/-- A read that finds its LG busy waits until the buffer has landed (R35). -/
def waitRead (s : State) (m b a : Nat) (late : Bool) (cls : Nat) : State :=
  let s := match lgOf a with
    | some lg => if s.busRuns && s.lgBusy lg then (tget (fun _ => []) s.lgBuf lg).foldl copyLanded (lgLand s lg late) else s
    | none => s
  let t := busRead s m b a cls
  if s.busRuns ∧ ((pageKind a).isSome ∨ isWindow a) then granted t m 0 (0x20000000 + a) false (t.respOf m).ok 4 else t

/-- LG_READ_COMPLETE (R35). -/
def execLgReadComplete (m : Fin 8) (lg : Fin 16) (off : Fin 0x10000) (late : Bool) (s : State) : Host.Outcome State Fault Refusal :=
  done (waitRead s m m (0x100000 + 0x10000 * lg.val + off.val) late 0)

/-- A write by master `m` of the bits of one word of a page in service, applied at once. -/
def pageWrite (s : State) (m : Nat) (late : Bool) (a : Nat) (v : Word) (hw : Option HwWrite) : State :=
  if !s.busRuns then s
  else
    let r := writeNow late s ⟨m, m, a, v, allBits, hw⟩
    r.1.answer m r.2 []

/-- PAGE_LOCK (R26). -/
def execPageLock (m : Fin 8) (page : Fin 576) (s : State) : Host.Outcome State Fault Refusal :=
  done (pageWrite s m false (0x1000 * page.val + 0x14) 1 none)

/-- PAGE_SRST (R377). -/
def execPageSrst (m : Fin 8) (page : Fin 576) (s : State) : Host.Outcome State Fault Refusal :=
  done (s.command m (PG_CMD_SRST (0x1000 * page.val)) (fun t => pageSrst t (0x1000 * page.val)))

/-- CNT_CLR (R40). -/
def execCntClr (m : Fin 8) (page : Fin 576) (s : State) : Host.Outcome State Fault Refusal :=
  done (s.command m (PG_CMD_CNT_CLR (0x1000 * page.val)) (fun t => cntClr t (0x1000 * page.val)))

/-- A counter's value word (R39): a PM counter, or a word of a 48-bit counter. -/
def isCounterWord (a : Nat) : Bool :=
  isPerfLow a || (decide (4 ≤ a) && isPerfLow (a - 4)) || (regDesc a).any (fun d => d.held && d.rws != 0)

/-- COUNTER_PRESET (R40): a plain write of a counter value; `n` is what hardware adds in the same cycle. -/
def execCounterPreset (m : Fin 8) (a : Nat) (v : Word) (n : Word) (s : State) : Host.Outcome State Fault Refusal :=
  done (if isCounterWord a ∧ aliasOf a = 0 then pageWrite s m false a v (some ⟨0, n⟩) else s)

/-- OCC_ACK_WRITE (R42). -/
def execOccAckWrite (m : Fin 8) (a : Nat) (ack : Fin 0x10000) (s : State) : Host.Outcome State Fault Refusal :=
  done (if (occDesc (plainAddr a)).isSome ∧ aliasOf a = 0 then pageWrite s m false a (BitVec.ofNat 32 (0x10000 * ack.val)) none else s)

/-- COUNTER_LOW_READ (R41). -/
def execCounterLowRead (m : Fin 8) (a : Nat) (s : State) : Host.Outcome State Fault Refusal :=
  done (if isPerfLow (plainAddr a) then waitRead s m m a false 0 else s)

/-- SNAP_TAKE (R45). -/
def execSnapTake (m : Fin 8) (late : Bool) (s : State) : Host.Outcome State Fault Refusal :=
  done (s.command m DEV_SNAP_TAKE (fun t => snapAsk t late))

/-- SCLK_REFRESH (R34): the copies take the registers' values, all at once. -/
def sclkRefresh (s : State) : State :=
  { s with copy := s.regs.filter (fun p => (entrySp p.1 == 0 && isCopied (p.1 % 0x100000000)) || entrySp p.1 == 5), sclk := (s.sclk + 1) % 0x10000 }

def execSclkRefresh (s : State) : Host.Outcome State Fault Refusal := done (if s.pwr.inReset then s else sclkRefresh s)

end Sys2Proof.Machine
end

