-- ==== Sys2Proof/Machine/Attach.lean ====
section
/-!
DEFINITION. The parties that reach the register fabric from outside (16_host_bus_interrupts.md R347 to R360; 11_fuller_engines.md R245, R246;
14_twin_operation.md R302; 15_group_gelvy.md R333): PCIe, its resets, the timing-port DMA, SMBus, JTAG, the engine port, the Gelvy
remote access, the active's forwarded writes.
-/

namespace Sys2Proof.Machine

open Sys2Proof

/-! ### Forwarded writes (R302, R306) -/

/-- The region of Table 14-3 that a forwarded write belongs to. -/
def fwdRegion (a : Nat) : Nat :=
  if 0x300000 ≤ a ∧ a < 0x700000 then 20 + (a - 0x300000) / 0x10000
  else if 0x800000 ≤ a ∧ a < 0x880000 then 2
  else if 0x880000 ≤ a ∧ a < 0x900000 then 3
  else
    match pageKind a with
    | some .ic => if pageOf a = loxPage then 3 else 2
    | some .fe => 20 + (a - 0x200000) / 0x1000
    | _ =>
      match lgOf a with
      | some lg => if isPm (plainAddr a) then 84 + lg else 4 + lg
      | none => 1

/-- The standby performs a forwarded write (R302): the active has judged it; no local master sees its completion. -/
def fwdApply (s : State) (a : Nat) (v mask : Word) (m : Nat) : State :=
  if isWindow a then
    let t := windowTake s m a v
    { t with resp := s.resp }.setWord BMX_PARK_T0.addr (s.rd BMX_PARK_T0.addr)
  else if s.usable (pageOf a) then landWord false s ⟨m, m, a, v, mask, none⟩
  else s

/-- FWD_WRITE (R302, R306): performed on arrival, or held for a region that is not yet applied. -/
def execFwdWrite (e : Env) (addr : Nat) (val mask : Word) (master sfn : Nat) (s : State) : Host.Outcome State Fault Refusal :=
  done (mirrorMsg e s (fun t =>
    if t.mode ≠ 4 then t
    else
      let t := t.onTwn (fun x => { x with fwdDone := x.fwdDone + 1 })
      let r := fwdRegion addr
      if t.mustHold r then holdMsg t r (.fwdWrite addr val mask master sfn) else fwdApply t addr val mask master))

/-! ### Gelvy remote access (R333) -/

/-- RRA_REQ: a worker performs the access as master 3 and answers; a bus error has status 1 (R359). -/
def rraReq (s : State) (p tag off : Nat) (write : Bool) (be : Nat) (data : Word) : State :=
  if !s.isWorker ∨ !s.busRuns then s
  else
    let a := off % 0x2000000
    let t := if write then (busWrite s 3 3 false none [(a, data, be)]).1 else waitRead s 3 3 a false 0
    let r := t.respOf 3
    t.sendMsg p (.rraRsp tag (bit (!r.ok)) (if write then 0 else r.data.headD 0xFFFFFFFF))

def execRraReq (e : Env) (tag off : Nat) (write : Bool) (be : Fin 16) (data : Word) (s : State) : Host.Outcome State Fault Refusal :=
  let r := s.recvMsg e false true
  done (if r.2 then rraReq r.1 e.port.val tag off write be.val data else r.1)

/-! ### The engine port (R245, R246) -/

/-- An engine's access at an address of the bus space: pages only; anything else is a bus error. The word read; none where it ends so. -/
def enginePort (s : State) (e : Nat) (op : BusOp) : State × Option Word :=
  if !s.busRuns then (s, none)
  else if (pageKind op.addr).isNone then
    (if isWindow op.addr then s.reply 5 false [] else defaultTarget s 5 (0x20000000 + op.addr) op.write, none)
  else if op.write then
    let r := busWrite s 5 (8 + e) false none [(op.addr, op.data, 15)]
    (r.1, if r.2 then some 0 else none)
  else
    let t := waitRead s 5 (8 + e) op.addr false 0
    (t, if (t.respOf 5).ok then (t.respOf 5).data.head? else none)

/-- The oldest outstanding operation completes (R245): a BLD writes its register, an error counts; an engine that drains stops (R259). -/
def busOpDone (s : State) (e : Nat) : State :=
  match (s.engOf e).ops with
  | [] => s
  | op :: rest =>
    let r := enginePort s e op
    let t := r.1.onEng e (fun x => { x with ops := rest })
    let t := if r.2.isSome then t else (t.occ (FE_BERR_OCC_COUNT e).addr).u [(FE_BERR_ADDR_ADDR e, op.addr)]
    let t := if op.write || op.drop then t else t.setGr e op.dest (r.2.getD 0xFFFFFFFF)
    feHalted (feOutst t e) e

/-- BUS_OP_COMPLETE (R245). -/
def execBusOpComplete (e : Fin 64) (s : State) : Host.Outcome State Fault Refusal :=
  done (if s.busRuns then busOpDone s e.val else s)

/-! ### Master resets (R360) -/

/-- A write unit that its master's reset finds incomplete is discarded whole and logged. -/
def discardUnit (s : State) (m : Nat) (p : Option Partial) : State :=
  match p with
  | none => s
  | some x => (s.occ BMX_ABORT_OCC_COUNT.addr).u [(BMX_ABORT_LAST_ADDR, x.addr), (BMX_ABORT_INFO_MASTER, m), (BMX_ABORT_INFO_BYTES, x.bytes % 256)]

/-- Masters that no reset reaches (Table 16-4): the engine port drains first, the internal one never. -/
def resettable (m : Nat) : Bool := m != 5 && m != 7

/-- MASTER_RESET (R360): complete units and reads go ahead at their targets. -/
def execMasterReset (m : Fin 8) (p : Option Partial) (s : State) : Host.Outcome State Fault Refusal :=
  done (if s.busRuns && resettable m.val then discardUnit s m.val p else s)

/-! ### PCIe (R347 to R349) -/

/-- MSI-X table words (BAR 4): the mask bit of vector `v` is bit 0 of word 4v + 3. -/
def msixWord (s : State) (w : Nat) : Word :=
  if w % 4 = 3 then BitVec.ofNat 32 (s.hst.vecMask / 2 ^ (w / 4) % 2) else tget (fun _ => 0) s.hst.msix w

/-- A word of BAR 4: the table at 0, the pending bits at 0x2000. -/
def bar4Word (s : State) (a : Nat) : Word :=
  if a < 0x200 then msixWord s (a / 4) else if a = 0x2000 then BitVec.ofNat 32 s.hst.vecPend else 0

def bar4Write (s : State) (a : Nat) (v mask : Word) : State :=
  if 0x200 ≤ a then s
  else
    let w := a / 4
    let x := (msixWord s w &&& ~~~mask) ||| (v &&& mask)
    if w % 4 ≠ 3 then s.onHst (fun h => { h with msix := tset (fun _ => 0) h.msix w x })
    else if x.getLsbD 0 then s.onHst (fun h => { h with vecMask := h.vecMask ||| 2 ^ (w / 4) })
    else unmaskVec s (w / 4)

/-- The MSI-X message control word of the configuration space: [15] MSI-X Enable, [14] function mask. -/
def msixControl (s : State) (v mask : Word) : State :=
  let get (i : Nat) (old : Bool) : Bool := if mask.getLsbD i then v.getLsbD i else old
  vecUnmask (s.onHst (fun h => { h with msixEn := get 15 h.msixEn, fnMask := get 14 h.fnMask }))

/-- The bits of a base address that are not its BAR's offset bits: BAR 0 of 32 MiB, BAR 2 of 64 MiB, BAR 4 of 16 KiB (Table 16-1). -/
def barMask (w : Nat) : Word := if w = 4 then 0xFE000000 else if w = 6 then 0xFC000000 else if w = 8 then 0xFFFFC000 else 0xFFFFFFFF

/-- Word `w` of the configuration space (Table 16-1): the identity, three 64-bit non-prefetchable BARs, Interrupt Pin 0. Of the rest the spec says
that PCIe 4.0 prescribes it (log 91): a free value. -/
def configWord (s : State) (w : Nat) : Word :=
  let bar := tget (fun _ => 0) s.hst.bars w
  if w = 0 then 0xD1920000 ||| Config.vendorId.setWidth 32
  else if w = 2 then 0x118000B0
  else if 4 ≤ w ∧ w ≤ 9 then (bar &&& barMask w) ||| (if w % 2 = 0 then 4 else 0)
  else if w = 15 then s.drawn &&& 0xFFFF00FF
  else s.drawn

/-- A write of the configuration space: the base addresses stay as written; MSI-X control is a place of its own. -/
def configWrite (s : State) (w : Nat) (v mask : Word) : State :=
  if 4 ≤ w ∧ w ≤ 9 then
    s.onHst (fun h => { h with bars := tset (fun _ => 0) h.bars w ((tget (fun _ => 0) h.bars w &&& ~~~mask) ||| (v &&& mask)) })
  else s

/-- Addresses of the words of a request, ascending. -/
def tlpWords {α : Type} (addr : Nat) (l : List α) : List (Nat × α) := l.zipIdx.map (fun p => (addr / 4 * 4 + 4 * p.2, p.1))

/-- A write TLP ends with a word in error: one WERR occurrence (R348). -/
def werr (s : State) (ok : Bool) : State := if ok then s else s.occ BMX_WERR_OCC_COUNT.addr

/-- A write TLP of at most 256 bytes (Table 16-1), word by word. -/
def pcieWrite (s : State) (sp : PcieSpace) (addr : Nat) (l : List (Word × Nat)) (late : Bool) : State :=
  let l := tlpWords addr (l.take 64)
  let s := prfCount s 4 (fun i => i == 1)
  match sp with
  | .bar0 =>
    let r := busWrite s 0 0 late none (l.map (fun p => (p.1 % 0x2000000, p.2)))
    werr r.1 r.2
  | .bar2 =>
    let r := l.foldl (fun (t : State × Bool) p =>
      let u := proxAccess t.1 0 (p.1 % 0x4000000) true (p.2.2 % 16) p.2.1 [] []
      (u, t.2 && (u.respOf 0).ok)) (s, true)
    werr (r.1.reply 0 r.2 []) r.2
  | .bar4 => l.foldl (fun t p => bar4Write t (p.1 % 0x4000) p.2.1 (beMask p.2.2)) s
  | .msixControl => match l with
    | [] => s
    | p :: _ => msixControl s p.2.1 (beMask p.2.2)
  | .config => l.foldl (fun t p => configWrite t (p.1 / 4) p.2.1 (beMask p.2.2)) s

/-- PCIE_WRITE_TLP (R348). -/
def execPcieWriteTlp (sp : PcieSpace) (addr : Nat) (l : List (Word × Nat)) (late : Bool) (s : State) : Host.Outcome State Fault Refusal :=
  done (if s.busRuns then pcieWrite s sp addr l late else s)

/-- The words of a BAR 0 read, in order; the flag that none ended in a bus error. -/
def pcieRead0 (s : State) (l : List Nat) (late : Bool) (cls : Nat) : State × Bool × List Word :=
  l.foldl (fun (t : State × Bool × List Word) a =>
    let u := waitRead t.1 0 0 a late cls
    let r := u.respOf 0
    (u, t.2.1 && r.ok, t.2.2 ++ r.data)) (s, true, [])

/-- A read request completes: with its data, or with Completer Abort and no data, logged in AER (R348). -/
def pcieComplete (s : State) (ok : Bool) (data : List Word) : State :=
  if ok then s.reply 0 true data else (s.onHst (fun h => { h with aer := true })).reply 0 false []

/-- A read TLP. A read through BAR 2 completes when its response arrives. -/
def pcieRead (s : State) (sp : PcieSpace) (addr n : Nat) (late : Bool) (cls : Nat) : State :=
  let l := (tlpWords addr (List.replicate (min n 1024) ())).map (fun p => p.1)
  let s := prfCount s 4 (fun i => i == 0)
  match sp with
  | .bar0 =>
    let r := pcieRead0 s (l.map (fun a => a % 0x2000000)) late cls
    pcieComplete r.1 r.2.1 r.2.2
  | .bar2 =>
    match l.map (fun a => a % 0x4000000) with
    | a :: rest => proxAccess s 0 a false 15 0 rest []
    | [] => s
  | .bar4 => s.reply 0 true (l.map (fun a => bar4Word s (a % 0x4000)))
  | .msixControl => s.reply 0 true [BitVec.ofNat 32 (31 + 0x8000 * bit s.hst.msixEn + 0x4000 * bit s.hst.fnMask)]
  | .config =>
    let t := l.foldl (fun (t : State × List Word) a => (t.1.draw, t.2 ++ [configWord t.1 (a / 4)])) (s, [])
    t.1.reply 0 true t.2

/-- PCIE_READ_TLP (R348). -/
def execPcieReadTlp (sp : PcieSpace) (addr n : Nat) (late : Bool) (cls : Fin 4) (s : State) : Host.Outcome State Fault Refusal :=
  done (if s.busRuns then pcieRead s sp addr n late cls.val else s)

/-- PCIE_RESET (R349, R360): the core with its MSI-X state, the DMA channels and with them their master, the PCIe master, whose reads in
flight find nobody waiting. IRQ page registers stay. -/
def execPcieReset (_kind : PcieResetKind) (p d : Option Partial) (s : State) : Host.Outcome State Fault Refusal :=
  let s := s.onHst (fun h => { h with msixEn := false, fnMask := false, vecMask := 0xFFFFFFFF, vecPend := 0, msix := [], aer := false, bars := [] })
  let s := { s with prox := s.prox.map (fun (x : Prox) => if x.m = 0 then { x with m := 8 } else x) }
  done (discardUnit (discardUnit (dmaReset s) 0 p) 2 d)

/-! ### Timing-port queues (R350, R351) -/

/-- Entries of a ring: SIZE_LOG2 below 3 acts as 3, above 12 as 12. -/
def dmaSize (s : State) (c : Nat) : Nat := 2 ^ (max 3 (min 12 (s.g (BMX_DMA_CFG_SIZE_LOG2 c))))
def dmaHead (s : State) (c : Nat) : Nat := s.g (BMX_DMA_PTR_HEAD c) % dmaSize s c
def dmaTail (s : State) (c : Nat) : Nat := s.g (BMX_DMA_PTR_TAIL c) % dmaSize s c

/-- Host address of the descriptor at HEAD. -/
def descAddr (s : State) (c : Nat) : Nat :=
  0x100000000 * s.g (BMX_DMA_RHI_RING_HI c) + 16 * s.g (BMX_DMA_RLO_RING_LO c) + 16 * dmaHead s c

/-- A descriptor has been served: its status word is written back, HEAD advances, DONE_OCC rises. -/
def descDone (s : State) (c len : Nat) (err : Bool) : State :=
  ((s.send (.dma (descAddr s c + 12) [BitVec.ofNat 32 (len % 0x10000 + 0x10000 * bit err + 0x80000000)])).u
    [(BMX_DMA_PTR_HEAD c, (dmaHead s c + 1) % dmaSize s c)]).occ (BMX_DONE_OCC_COUNT c).addr

/-- A host-memory access ends in a PCIe error: the channel stops. -/
def dmaStop (s : State) (c : Nat) : State := (s.u [(BMX_DMA_CFG_EN c, 0)]).occ (BMX_DROP_OCC_COUNT c).addr

/-- Bytes as host-memory words, least significant byte first. -/
def bytesToWords (l : List Byte) : List Word :=
  (List.range ((l.length + 3) / 4)).map (fun i =>
    BitVec.ofNat 32 ((l.getD (4 * i) 0).toNat + 0x100 * (l.getD (4 * i + 1) 0).toNat + 0x10000 * (l.getD (4 * i + 2) 0).toNat +
      0x1000000 * (l.getD (4 * i + 3) 0).toNat))

/-- A word's bytes in host memory, least significant first. -/
def wordLe (w : Word) : List Byte := [w.setWidth 8, (w >>> 8).setWidth 8, (w >>> 16).setWidth 8, (w >>> 24).setWidth 8]

/-- A transmit descriptor: a buffer out of bounds is skipped with ERR; else the control word and the frame go to the port. -/
def dmaTx (s : State) (p len : Nat) (ctrl : Word) (frame : List Byte) (raw : Nat) : State :=
  if len < 68 ∨ 2052 < len then (descDone s p 0 true).occ (BMX_DROP_OCC_COUNT p).addr
  else descDone (tportSend s p ctrl (frame.take (len - 4)) raw) p len false

/-- A receive descriptor: the oldest frame that waits goes to the buffer at `addr`, cut to its size. -/
def dmaRx (s : State) (p addr len : Nat) : State :=
  match tget (fun _ => []) s.pin.tpRx p with
  | [] => s
  | x :: rest =>
    let all := (x.1.flatMap wordLe) ++ x.2
    let s := { s with pin := { s.pin with tpRx := tset (fun _ => []) s.pin.tpRx p rest } }
    descDone (s.send (.dma addr (bytesToWords (all.take len)))) (4 + p) (min len all.length) (decide (len < all.length))

/-- DMA_DESCRIPTOR_DONE (R350, R351): the operands are what the descriptor and its buffer hold, the raw departure time, and whether a
host-memory access ended in a PCIe error. -/
def execDmaDescriptorDone (c : Fin 8) (addr : Nat) (len : Fin 0x10000) (ctrl : Word) (frame : List Byte) (raw : Nat) (err : Bool)
    (s : State) : Host.Outcome State Fault Refusal :=
  done (if !s.busRuns || !s.on (BMX_DMA_CFG_EN c) || dmaHead s c == dmaTail s c then s
    else if err then dmaStop s c
    else if c.val < 4 then dmaTx s c len ctrl frame raw
    else dmaRx s (c.val - 4) addr len)

/-- DMA_TAIL_WRITE (R350): a plain write of the channel's pointer register, of which only TAIL is writable. -/
def execDmaTailWrite (m : Fin 8) (c : Fin 8) (tail : Fin 4096) (s : State) : Host.Outcome State Fault Refusal :=
  done (pageWrite s m false (BMX_DMA_PTR_TAIL c).addr (BitVec.ofNat 32 tail.val) none)

/-! ### SMBus (R352, R353) -/

/-- The target answers: the device is out of reset and no stretched access holds the bus. -/
def smbReady (s : State) : Bool := s.busRuns && !s.hst.smbBusy

/-- A command's framing (R353): a wrong PEC byte, then a wrong count, discards it; else `k` runs. -/
def smbCommand (s : State) (pecOk : Bool) (count want : Nat) (k : State → State) : State :=
  if !smbReady s then s
  else if !pecOk then s.onHst (fun h => { h with smbStat := 0x03 })
  else if count ≠ want then s.onHst (fun h => { h with smbStat := 0x04 })
  else k s

/-- The command's status, and what a read returns. -/
def smbDone (s : State) (st : Nat) (data : List Word) : State :=
  (s.onHst (fun h => { h with smbStat := st })).reply 6 (st == 0) data

/-- The page of a direct command's page code. -/
def smbPage (code : Nat) : Option Nat := ([0, 0x1000, 0x6000] : List Nat)[code]?

/-- The BAR 0 address of a direct command, where its page code and offset are valid. -/
def smbAddrOf (s : State) (code off : Nat) : Option Nat :=
  match smbPage code with
  | none => none
  | some pg => if off < 0x1000 ∧ off % 4 = 0 ∧ (regAt s 6 6 (pg + off)).isSome then some (pg + off) else none

/-- A direct read (R352, R378): the IRQ page in BOOT reads its reset values. -/
def smbRead (s : State) (a : Nat) : Option Word × State :=
  if pageOf a = 0x6000 ∧ s.mode = 0 then ((regAt s 6 6 a).map (fun r => resetWordOf r.1), s) else regRead s 6 6 a

/-- A read that failed still sends four data bytes, which no rule states. -/
def smbFail (s : State) (st : Nat) : State := smbDone s.draw st [BitVec.ofNat 32 st, s.drawn]

/-- WR_DIRECT. -/
def execWrDirect (code : Fin 256) (off : Fin 0x10000) (v : Word) (pecOk : Bool) (count : Fin 256) (late : Bool) (s : State) :
    Host.Outcome State Fault Refusal :=
  done (smbCommand s pecOk count 7 (fun t =>
    match smbAddrOf t code off with
    | none => smbDone t 0x02 []
    | some a =>
      let r := writeNow late t ⟨6, 6, a, v, allBits, none⟩
      smbDone r.1 (bit (!r.2)) []))

/-- RD_DIRECT: status and data. -/
def execRdDirect (code : Fin 256) (off : Fin 0x10000) (count : Fin 256) (s : State) : Host.Outcome State Fault Refusal :=
  done (smbCommand s true count 3 (fun t =>
    match smbAddrOf t code off with
    | none => smbFail t 0x02
    | some a =>
      match smbRead t a with
      | (some v, u) => smbDone u 0 [0, v]
      | (none, u) => smbFail u 0x01))

/-- SET_ADDR. -/
def execSetAddr (a : Word) (pecOk : Bool) (count : Fin 256) (s : State) : Host.Outcome State Fault Refusal :=
  done (smbCommand s pecOk count 4 (fun t => smbDone (t.onHst (fun h => { h with smbAddr := a.toNat })) 0 []))

/-- The address advances by 4. -/
def smbNext (s : State) : State := s.onHst (fun h => { h with smbAddr := (h.smbAddr + 4) % 0x100000000 })

/-- An indirect access completes, or its clock stretching goes on (`slow`) until SMBUS_STRETCH_LIMIT. -/
def smbEnd (s : State) (slow : Bool) (k : State → State) : State :=
  if slow then smbNext (s.onHst (fun h => { h with smbBusy := true })) else smbNext (k s)

/-- WR_IND: a write as master 6. An address beyond BAR 0 meets the default target. -/
def execWrInd (v : Word) (pecOk : Bool) (count : Fin 256) (late slow : Bool) (s : State) : Host.Outcome State Fault Refusal :=
  done (smbCommand s pecOk count 4 (fun t =>
    let a := t.hst.smbAddr
    let r := if a < 0x2000000 then busWrite t 6 6 late none [(a, v, 15)] else (defaultTarget t 6 (0x20000000 + a) true, false)
    smbEnd r.1 slow (fun u => smbDone u (bit (!r.2)) [])))

/-- RD_IND: status and data. -/
def execRdInd (late slow : Bool) (cls : Fin 4) (s : State) : Host.Outcome State Fault Refusal :=
  done (smbCommand s true 5 5 (fun t =>
    let a := t.hst.smbAddr
    let u := if a < 0x2000000 then waitRead t 6 6 a late cls else defaultTarget t 6 (0x20000000 + a) false
    let r := u.respOf 6
    smbEnd u slow (fun x => if r.ok then smbDone x 0 (0 :: r.data) else smbFail x 0x01)))

/-- STATUS: the status of the latest command. -/
def execStatus (s : State) : Host.Outcome State Fault Refusal :=
  done (if smbReady s then s.reply 6 true [BitVec.ofNat 32 s.hst.smbStat] else s)

/-- SMBUS_STRETCH_LIMIT (R353): status 0x01 and data 0xFFFF_FFFF; a write has completed at its target. -/
def execSmbusStretchLimit (s : State) : Host.Outcome State Fault Refusal :=
  done (if s.hst.smbBusy then smbDone (s.onHst (fun h => { h with smbBusy := false })) 0x01 [1, 0xFFFFFFFF] else s)

/-- SMBUS_TIMEOUT (R353, R360). -/
def execSmbusTimeout (p : Option Partial) (s : State) : Host.Outcome State Fault Refusal :=
  done (if s.busRuns then discardUnit (s.onHst (fun h => { h with smbAddr := 0, smbStat := 0, smbBusy := false })) 6 p else s)

/-! ### Arbitration and order (R356 to R358)

The commands come one after another (log 16): these say in which order requests that meet become commands, and complete. -/

/-- PRIO of master `m` at target `t`. -/
def busPrio (s : State) (t m : Nat) : Nat := s.g ⟨0x7020 + 4 * m, 3 * t, 3⟩

/-- The master that target `t` grants among those that request it, each with the arbitrations it has lost in a row: the aged first, then the highest
priority, then the first after the last master granted, which is the one parked (R356). -/
def arbitrate (s : State) (t : Nat) (reqs : List (Nat × Nat)) : Option Nat :=
  let aged := reqs.filter (fun r => decide (max 1 (s.g BMX_AGE_AGE_LIM) ≤ r.2))
  let l := if aged.isEmpty then reqs else aged
  let top := (l.map (fun r => busPrio s t r.1)).foldl max 0
  let last := s.g ⟨0x7048, 3 * t, 3⟩
  ((List.range 8).map (fun i => (last + 1 + i) % 8)).find? (fun m => l.any (fun r => r.1 == m && busPrio s t r.1 == top))

/-- The cycles from a request at an idle target to its grant: none for the parked master (R356). -/
def grantCycles (s : State) (t m : Nat) : Nat := if s.g ⟨0x7048, 3 * t, 3⟩ = m then 0 else 1

/-- A request of master `m` may complete before an earlier one of its own (R357, R358): ID, target and whether it writes, of each. In native order
never; in compatibility order with another ID at another target, but no read before an earlier write. -/
def mayPass (s : State) (m : Nat) (earlier later : Nat × Nat × Bool) : Bool :=
  s.on (bitOf BMX_ORD_COMPAT m) && later.1 != earlier.1 && later.2.1 != earlier.2.1 && !(earlier.2.2 && !later.2.2)

/-- Requests that a master may have outstanding in compatibility order. -/
def compatOutstanding : Nat := 16

/-! ### JTAG (R354, R359) -/

/-- The target of a matrix address and the offset in it (Table 16-5). -/
def targetOf (s : State) (a : Nat) : Nat × Nat :=
  if 0x20000000 ≤ a ∧ a < 0x22000000 then (0, a - 0x20000000)
  else if 0x10100000 ≤ a ∧ a < 0x10110000 then (1, a - 0x10100000)
  else if 0x10000000 ≤ a ∧ a < 0x10080000 then (2, a - 0x10000000)
  else if 0x30000000 ≤ a ∧ a < 0x30001000 then (3, a - 0x30000000)
  else if s.on HTR_REMAP_SWAP then (if a < 0x80000 then (2, a) else (7, a))
  else if a < 0x10000 then (1, a) else (7, a)

/-- A completion at a target other than the fabric. -/
def plainTarget (s : State) (m tgt a : Nat) (write : Bool) (data : List Word) : State :=
  ((granted s m tgt a write true 4).park tgt m).reply m true data

/-- One aligned 32-bit access of the JTAG-to-bus master. The spec gives no contents of the boot ROM and no registers of the SPI
controller: their words are free values, and a write of them changes nothing here. -/
def jtagAccess (s : State) (a : Nat) (write : Bool) (be : Nat) (v : Word) (late : Bool) (cls : Nat) : State :=
  let t := targetOf s a
  match t.1 with
  | 0 => if write then (busWrite s 4 4 late none [(t.2, v, be)]).1 else waitRead s 4 4 t.2 late cls
  | 2 =>
    let w := tget (fun _ => 0) s.hst.sram (t.2 / 4)
    if write then
      plainTarget (s.onHst (fun h => { h with sram := tset (fun _ => 0) h.sram (t.2 / 4) ((w &&& ~~~(beMask be)) ||| (v &&& beMask be)) }))
        4 2 a true []
    else plainTarget s 4 2 a false [w]
  | 7 => defaultTarget s 4 a write
  | n => if write then plainTarget s 4 n a true [] else plainTarget s.draw 4 n a false [s.drawn]

/-- A JTAG access whose address is not a multiple of 4 (R24): a bus error, and nothing else changes at its target. -/
def jtagUnaligned (s : State) (a : Nat) (write : Bool) : State :=
  let t := (targetOf s a).1
  if t = 7 then defaultTarget s 4 a write else ((granted s 4 t a write false 4).park t 4).reply 4 false []

/-- JTAG_BUS_ACCESS: a bus error shows as a status bit of the data register (R359). -/
def execJtagBusAccess (a : Word) (write : Bool) (be : Fin 16) (v : Word) (late : Bool) (cls : Fin 4) (s : State) :
    Host.Outcome State Fault Refusal :=
  done (if !s.busRuns then s
    else
      let t := if a.toNat % 4 ≠ 0 then jtagUnaligned s a.toNat write else jtagAccess s a.toNat write be.val v late cls.val
      t.onHst (fun h => { h with jtagErr := !(t.respOf 4).ok }))

end Sys2Proof.Machine
end

