-- ==== Sys2Proof/Machine/Landing.lean ====
section
/-!
DEFINITION. Boundaries of buffered writes (01_architecture.md R17; 02_register_conventions.md R36) and the items of scheduled actions as
their units check and apply them (03_plank_and_determinism.md R48, R59 to R61).
-/

namespace Sys2Proof.Machine

open Sys2Proof

/-! ### Buffered writes -/

/-- The bits of a register that some waiting writes cover. -/
def pendCover (l : List PendW) (k : Nat) : Word := l.foldl (fun a p => if p.addr = k then a ||| p.mask else a) 0

/-- What still waits after a boundary (R17): the writes due leave; the bits of an earlier write that a later one now due covers never
take effect. -/
def landPend (due : PendW → Bool) : List PendW → List PendW
  | [] => []
  | p :: r =>
    let rest := landPend due r
    let m := p.mask &&& ~~~pendCover (r.filter due) p.addr
    if due p ∨ m = 0 then rest else { p with mask := m } :: rest

/-- A register whose bits come into force acts on its unit; `before` is the block as it was before the boundary. -/
def landHook (before : State) (s : State) (k : Nat) : State :=
  let s := berRestart s k
  match entrySp k with
  | 4 => vgRefresh s (entryIx k / 16) (entryIx k % 16)
  | 5 => selLand s (entryIx k)
  | 6 => bpLand s (entryIx k) (bpWord before (entryIx k) 0)
  | 0 =>
    let a := k % 0x100000000
    let o := a % 0x1000
    match pageKind a with
    | some .ch =>
      let c := chOfPage a
      if o = 0x20 then (if s.disc c = 1 then huntStart s c else s)
      else if o = 0x24 then (if s.disc c = 7 ∧ s.f (CH_DISC_TIME_HOLD_MS c) = 0 then goSilent s c else s)
      else if o = 0x50 then mapRefresh s c
      else if o = 0x100 then mapLand s c
      else if o = 0x110 then clLand s c
      else s
    | some .pnc => if o = 0x24 ∨ o = 0x28 then pounceLand s (k / 0x100000000 - 1) else s
    | some .mon => if o = 0x24 ∨ o = 0x28 ∨ o = 0x2C then gaugeLand s (k / 0x100000000 - 1) else s
    | some .gp => if o = 0x20 then gpLand s ((a - 0x10000) / 0x1000) else s
    | some .lgs =>
      let n := (a - 0x100000) / 0x10000
      let q := (o - 0x20) / 4
      if 0x20 ≤ o ∧ o < 0x2C ∧ s.f (LGS_QCFG_LREF_SEL n q) ≠ before.f (LGS_QCFG_LREF_SEL n q) then relockQuad s (3 * n + q) else s
    | _ => s
  | _ => s

/-- The channel whose status a register's bits bear on. -/
def keyCh (k : Nat) : Option Nat :=
  match entrySp k with
  | 0 => if pageKind (k % 0x100000000) = some .ch then some (chOfPage (k % 0x100000000)) else none
  | 1 => some (entryIx k / 65536)
  | 2 => some (12 * (entryIx k / 512))
  | _ => none

/-- The effect of registers whose bits have come into force. -/
def landKeys (before s : State) (l : List Nat) : State :=
  ((l.filterMap keyCh).eraseDups).foldl refreshCh (l.foldl (landHook before) s)

/-- The writes due at a boundary come into force (R36). -/
def landSet (due : PendW → Bool) (s : State) : State :=
  landKeys s { s with pend := landPend due s.pend } (((s.pend.filter due).map (fun p => p.addr)).eraseDups)

/-- The boundary of an entry is the system frame: of egress, LG and global fields, and of ingress fields while the channel is out of
frame or carries an Ethernet client (R36). -/
def atFrame (s : State) (p : PendW) : Bool :=
  match p.line with
  | none => true
  | some c => !s.inFrame c || s.chFam c == .eth

/-- A boundary passes those that must wait for a later one. -/
def passPend (at_ : PendW → Bool) (s : State) : State :=
  { s with pend := s.pend.map (fun p => if at_ p then { p with wait := p.wait - 1 } else p) }

/-! ### Scheduled configuration writes (R48, R61) -/

/-- The earliest write that still waits for a bit takes the bit's value in force. -/
def setOldest (k : Nat) (v : Word) : Word → List PendW → List PendW
  | _, [] => []
  | m, p :: r =>
    if p.addr = k then
      let x := p.mask &&& m
      { p with old := (p.old &&& ~~~x) ||| (v &&& x) } :: setOldest k v (m &&& ~~~x) r
    else p :: setOldest k v m r

/-- Bits `mask` of a register take a scheduled value: in force at once, or, with `line`, at the channel's next line frame. A direct write
due at the same boundary loses them and is counted; one for a later boundary still waits. -/
def schedBits (s : State) (k off : Nat) (mask v : Word) (line : Option Nat) : State :=
  if mask = 0 then s
  else
    let hit (p : PendW) : Bool := p.addr == k && p.wait == 0 && p.line == line && p.mask &&& mask != 0
    let cur := forceWord s.pend k (s.rd k)
    let s := (s.pend.filter hit).foldl (fun t p => t.wlost p.m (pageOf k + p.off)) s
    let pend := (s.pend.map (fun p => if hit p then { p with mask := p.mask &&& ~~~mask } else p)).filter (fun p => p.mask != 0)
    let now := mask &&& ~~~pendCover pend k
    let pend := setOldest k v mask pend
    { s with pend := if line.isSome then ⟨k, mask, cur, line, 0, off, 7⟩ :: pend else pend }.setWord k ((s.rd k &&& ~~~now) ||| (v &&& now))

/-- A CFG_WRITE at its boundary, without the bits that the device ignores there; `due` are the direct writes that this boundary has brought into force. Answers those whose bits it has not
overwritten, and whether the item was applied. -/
def cfgStore (s : State) (due : List PendW) (a : Nat) (v : Word) : State × List PendW × Bool :=
  let p : PostW := ⟨7, 7, a, v, allBits, none⟩
  match regAt s 7 7 a with
  | none => (s, due, false)
  | some (k, d, _) =>
    if plainAddr a = 0xD038 then (if p.cover.getLsbD 0 && v.getLsbD 0 then twinHandover s else s, due, true)
    else if s.locked (plainAddr a) d || (pageRefusal s p k (plainAddr a) d).2.1 != 0 then (s, due, false)
    else
      let s0 := parRepair s k
      let bits := p.cover &&& BitVec.ofNat 32 (d.rw ||| d.rwh) &&& ~~~(pageRefusal s p k (plainAddr a) d).2.2
      let x := p.new (forceWord s.pend k (s.rd k))
      let c := chOfPage (plainAddr a)
      let line : Option Nat := if pageKind a = some .ch ∧ s.inFrame c ∧ s.chFam c ≠ .eth then some c else none
      let ing := if line.isSome then bits &&& BitVec.ofNat 32 d.ing else 0
      let covered (e : PendW) : Bool := e.addr == k && e.mask &&& (bits &&& ~~~ing) != 0
      let s1 := (due.filter covered).foldl (fun t e => t.wlost e.m (pageOf k + e.off)) s0
      let s2 := schedBits (schedBits s1 k (a % 0x1000) (bits &&& ~~~ing) x none) k (a % 0x1000) ing x line
      (if bits &&& ~~~ing = 0 then s2 else landKeys s s2 [k], due.filter (fun e => !covered e), true)

/-- A REG_WRITE at its tick: the access of master 7, which no bus carries; an error is an item not applied. -/
def regStore (s : State) (a : Nat) (v : Word) : State × Bool :=
  let p : PostW := ⟨7, 7, a, v, allBits, none⟩
  let r := judgeWord { s with resp := tset (fun _ => ⟨true, []⟩) s.resp 7 ⟨true, []⟩ } p
  if !r.2.2 then (s, false)
  else
    let t := if r.2.1 = allBits then r.1 else landCore false r.1 (p.less r.2.1)
    let ok := (t.respOf 7).ok
    ({ t with resp := s.resp }.setWord BMX_PARK_T0.addr (s.rd BMX_PARK_T0.addr), ok)

/-! ### Precondition checks and dispatch (R59, R60) -/

/-- READY, HOLD and software reset of a page, as reasons of Table 3-6. -/
def pageCode (s : State) (pg : Nat) : Nat :=
  if !s.ready pg then 0x02 else if s.on (PG_PAR_HOLD pg) then 0x03 else if s.inSrst pg then 0x04 else 0

/-- The signed step of a TB_STEP (R214). -/
def stepArg (i : Item) : Int := (BitVec.ofNat 32 i.arg).toInt

/-- The rate in kbit/s that RCLK_SEL's source runs at now (R237): none for a lane before FRAME_HUNT and for the code that is off. -/
def rclkRate (s : State) (src : Nat) : Option Nat :=
  if src < 192 then
    let c := laneChannel s src
    if 3 ≤ s.disc c then some (rateKbaud (s.g (CH_DISC_STAT_RATE c))) else none
  else if 0x100 ≤ src ∧ src < 0x104 then some (([1250000, 10312500, 25781250] : List Nat).getD (s.f (TPT_CFG_RATE (src - 0x100))) 1250000)
  else none

/-- The arguments of INJECT that stop need no target (R289). -/
def injReady (s : State) (i : Item) : Bool := i.arg % 4 == 0 || injCheck s i.target == 0

/-- A MAP_CFG or HANDOVER write's own precondition (R155, R321). -/
def cfgReady (s : State) (a : Action) (i : Item) : Bool :=
  let p := i.target / 0x1000 * 0x1000 + i.target % 0x400
  if p = 0xD038 then s.mode != 3 || a.mirroredIn || handoverOk s
  else
    match regAt s 7 7 i.target with
    | none => false
    | some (k, d, _) => (pageRefusal s ⟨7, 7, i.target, BitVec.ofNat 32 i.arg, allBits, none⟩ k p d).2.1 == 0

/-- Why a unit is not ready for an item (Table 3-6); 0 where it is. `check` is the word that came with the item. -/
def itemCheck (s : State) (a : Action) (check : Nat) (i : Item) : Nat :=
  let pg := match itemPage i with | some p => pageCode s p | none => 0
  if i.kind = 1 then icSwapReady s false a.mirroredIn check
  else if i.kind = 2 then icSwapReady s true a.mirroredIn check
  else if pg ≠ 0 then pg
  else
    match i.kind with
    | 3 => if selReady s i.target i.arg then 0 else 0x02
    | 4 => if cfgReady s a i then 0 else 0x02
    | 6 => if (stepArg i).natAbs ≤ 1000000000 ∧ (s.stepRem + stepArg i).natAbs ≤ 1000000000 then 0 else 0x02
    | 0xA => if injReady s i then 0 else 0x02
    | 0xB =>
      if s.on (feValid i.target (1 - s.feAct i.target)) && (!a.mirroredIn || s.g (FE_IDLE_CRC_CRC i.target) == check) then 0 else 0x09
    | 0xC => if admitReady s i.target (i.arg % 32) then 0 else 0x02
    | 0xD =>
      let div := bitsOf i.arg 9 16
      if div < 2 then 0x02
      else match rclkRate s (bitsOf i.arg 0 9) with
        | some k => if 312500 * div < k then 0x02 else 0
        | none => 0
    | _ => 0

/-- The first item for which its unit is not ready, with the reason. -/
def firstBlocked (s : State) (a : Action) : List Item → Nat → Option (Nat × Nat)
  | [], _ => none
  | i :: r, n => if itemCheck s a (a.check.getD n 0) i = 0 then firstBlocked s a r (n + 1) else some (n, itemCheck s a (a.check.getD n 0) i)

/-- A PPS_EDGE in its unit (R235): the start is its tick less OUT_ADV as it stands at dispatch. -/
def ppsQueue (s : State) (a : Action) (i : Item) : State :=
  let e : PpsEdge := ⟨a.ns - s.f TB_PPS_CFG_OUT_ADV, max 1 (i.arg % 0x80000), bitsOf i.arg 31 1 == 1, a.seq⟩
  let l := s.pin.pps
  { s with pin := { s.pin with pps := l.filter (fun x => decide (x.start ≤ e.start)) ++ [e] ++ l.filter (fun x => decide (e.start < x.start)) } }

/-- An item is dispatched to its unit. -/
def itemSend (a : Action) (s : State) (i : Item) : State :=
  let s := prfCount s 6 (fun _ => true)
  match i.kind with
  | 1 => icCommit s false
  | 2 => icCommit s true
  | 4 => if i.target / 0x1000 * 0x1000 + i.target % 0x400 = 0xD038 then s.onTwn (fun t => { t with handAt := some a.sfn }) else s
  | 7 => ppsQueue s a i
  | 0xB => s.u [(FE_STAT_SWAP_PEND i.target, 1)]
  | _ => s

/-- What the failure of a LANE_ADMIT item records (R81): 0x07 for an argument that is no code; 0x06 where the lane has left IDENTIFIED after
the check. -/
def admitFailed (s : State) (a : Action) (i : Item) (left : Bool) : State :=
  if i.kind ≠ 0xC then s
  else if i.arg % 32 ≠ 0 ∧ !fmtListed (i.arg % 32) then admOutcome s i.target 0x07 1 a.sfn
  else if left then admOutcome s i.target 0x06 1 a.sfn
  else s

/-- The items of an action that reach their units only after the boundary (R16) keep their kind plus 0x200: reason 0x05 in `refused`. -/
def lateItems (refused : List (Nat × Nat × Nat)) (a : Action) : List Item :=
  a.items.zipIdx.map (fun p => if refused.any (fun x => x.1 == a.seq && x.2.1 == p.2 && x.2.2 == 5) then { p.1 with kind := p.1.kind + 0x200 } else p.1)

/-- Dispatch of one action (R59, R60); `refused` are refusals of items by their units while dispatch runs, or items that arrive late (reason
0x05): sequence number, index, reason. -/
def dispatchOne (refused : List (Nat × Nat × Nat)) (s : State) (a : Action) : State :=
  let s := s.setQueue (s.plk.queue.filter (fun x => x.seq != a.seq))
  match firstBlocked s a a.items 0 with
  | some (n, r) =>
    let i := a.items.getD n blankItem
    let s := admitFailed s a i false
    s.outcome a (recOf a (if isSwap i && r == 1 then 3 else 5) n 0 r)
  | none =>
    match refused.find? (fun x => x.1 == a.seq && decide (x.2.1 < a.items.length) && [1, 2, 3, 4, 9].contains x.2.2) with
    | some (_, n, r) =>
      let s := admitFailed s a (a.items.getD n blankItem) true
      s.outcome a (recOf a 5 n 0 r)
    | none =>
      let a := { a with items := lateItems refused a }
      let s := a.items.foldl (itemSend a) s
      s.setSent (s.plk.sent ++ [a])

/-- Dispatch of all actions of a boundary, in order of their sequence numbers. -/
def dispatchAt (s : State) (bns : Nat) (refused : List (Nat × Nat × Nat)) : State :=
  (s.plk.queue.filter (fun a => a.ns == bns)).foldl (dispatchOne refused) s

/-! ### Applying items (R60, R61) -/

/-- A unit applies an item at its boundary; `due` as for `cfgStore`. A standby holds an item of a region that it has not applied (R306). -/
def applyItem (s : State) (due : List PendW) (a : Action) (i : Item) : State × List PendW × Bool :=
  let up (pg : Nat) : Bool := s.busRuns && s.ready pg
  let plain (t : State) : State × List PendW × Bool := (t, due, true)
  let none_ : State × List PendW × Bool := (s, due, false)
  let hold := match itemRegion i with
    | some r => if a.mirroredIn && s.mustHold r then some r else none
    | none => none
  match hold with
  | some r => plain (holdMsg s r (.action ⟨a.sfn, a.tick, a.us, [i], a.hdr, a.peerSeq⟩ []))
  | none =>
    match i.kind with
    | 1 => if up tsiPage && s.icState false == 4 then plain (icSwap s false a.sfn) else none_
    | 2 => if up loxPage && s.icState true == 4 then plain (icSwap s true a.sfn) else none_
    | 3 => if up (lgBase (i.target / 256) + 0xF000) && selReady s i.target i.arg then plain (selApply s i.target i.arg) else none_
    | 4 => if up (pageOf i.target) then cfgStore s due i.target (BitVec.ofNat 32 i.arg) else none_
    | 5 => if up (pageOf i.target) then (let r := regStore s i.target (BitVec.ofNat 32 i.arg); (r.1, due, r.2)) else none_
    | 6 =>
      if up 0x3000 then
        let r := s.stepRem + stepArg i
        let t := disciplined (if s.stepRem = 0 then { s with tb := { s.tb with slewCnt := 0 } } else s)
        plain (t.u [(TB_STEP_REM_REM, intBits r), (TB_STAT_STEP_ACT, bit (r != 0))])
      else none_
    | 7 => (s, due, up 0x3000)
    | 8 => if up 0x3000 then plain (s.u [(TB_PT_ASYM_A i.target, i.arg)]) else none_
    | 9 => plain (snapTake s a.sfn)
    | 0xA => if up 0x20000 && injReady s i then plain (injApply s i.target i.arg) else none_
    | 0xB => if up (feBase i.target) then (let r := feSwap s i.target; (r.1, due, r.2)) else none_
    | 0xC =>
      if up (chBase i.target) then (let r := admitLane s i.target (i.arg % 32) 1 a.sfn; (refreshCh r.1 i.target, due, r.2)) else none_
    | 0xD =>
      if up 0x3000 then
        plain (s.u [(TB_RCLK_SRC i.target, bitsOf i.arg 0 9), (TB_RCLK_DIV i.target, bitsOf i.arg 9 16), (TB_RCLK_SQ_SF i.target, bitsOf i.arg 25 1)])
      else none_
    | 0xE => plain s
    | _ => none_

/-- What an item leaves behind that its unit has lost or failed to apply. -/
def itemFailed (s : State) (i : Item) : State :=
  match (if 0x200 ≤ i.kind then 0 else i.kind % 0x100) with
  | 1 => icUncommit s false
  | 2 => icUncommit s true
  | 0xB => s.u [(FE_STAT_SWAP_PEND i.target, 0)]
  | _ => s

/-- Apply the items in order; answers which were applied. -/
def applyItems (a : Action) : List Item → State × List PendW → List Bool → (State × List PendW) × List Bool
  | [], x, l => (x, l)
  | i :: r, x, l =>
    let y := applyItem x.1 x.2 a i
    applyItems a r (if y.2.2 then y.1 else itemFailed y.1 i, y.2.1) (l ++ [y.2.2])

/-- The highest index at which a flag is set. -/
def lastTrue (l : List Bool) : Nat := ((l.zipIdx.filter (fun p => p.1)).map (fun p => p.2)).foldl max 0

/-- The REASON of an action of which items were not applied (R60, Table 3-6): 0x05 where the first of them arrived after the boundary, else
0x0D. -/
def failReason (l : List Item) (ok : List Bool) : Nat :=
  match (l.zip ok).find? (fun p => !p.2) with
  | some p => if 0x200 ≤ p.1.kind then 0x05 else 0x0D
  | none => 0x0D

/-- An action at its boundary, and its record (R60, R64, R65). A LATE_RUN or PARTIAL action takes the frame out of the guarantee on every
channel (R286). -/
def applyAction (x : State × List PendW) (a : Action) : State × List PendW :=
  let y := applyItems a a.items x []
  let s := y.1.1
  let n := (y.2.filter (fun b => b)).length
  let all (t : State) : State := (List.range 192).foldl (fun u c => markUncov u c a.sfn) t
  let s :=
    if n = a.items.length then
      (if a.late then all (s.outcome a (recOf a 2 0 n 0x0A)) else s.outcome a (recOf a 0 0 n 0))
    else if n = 0 then s.outcome a (recOf a 5 0 0 (failReason a.items y.2))
    else all (s.outcome a { recOf a 4 (lastTrue y.2) n (failReason a.items y.2) with map := bitsFrom y.2 })
  (s, y.1.2)

/-- An action whose boundary has gone by without it is not applied (R16): FAULT, and what it holds is released. -/
def missAction (s : State) (a : Action) : State := (a.items.foldl itemFailed s).outcome a (recOf a 5 0 0 0x05)

/-- A sequence number comes before another one, modulo 2^32. -/
def seqBefore (a b : Nat) : Bool := decide ((b + 0x100000000 - a) % 0x100000000 < 0x80000000)

/-- Actions in order of their sequence numbers (R61, R66). -/
def insertSeq (a : Action) : List Action → List Action
  | [] => [a]
  | b :: r => if seqBefore a.seq b.seq then a :: b :: r else b :: insertSeq a r

def sortSeq (l : List Action) : List Action := l.foldr insertSeq []

/-- A boundary (R61, R66): the actions dispatched for it apply, and those whose boundary has gone by fail, in order of their sequence
numbers. -/
def applyAt (s : State) (bns : Nat) (due : List PendW) : State :=
  let gone := (s.plk.queue ++ s.plk.sent).filter (fun a => decide (a.ns < bns))
  let l := sortSeq (gone ++ s.plk.sent.filter (fun a => a.ns == bns))
  let s := (s.setQueue (s.plk.queue.filter (fun a => decide (bns ≤ a.ns)))).setSent (s.plk.sent.filter (fun a => decide (bns < a.ns)))
  (l.foldl (fun x a => if a.ns < bns then (missAction x.1 a, x.2) else applyAction x a) (s, due)).1

end Sys2Proof.Machine
end

