-- ==== Sys2Proof/Machine/Datapath.lean ====
section
/-!
DEFINITION. The ingress datapath (01_architecture.md R8, stages 5 and 6): what the slots of every channel and port carry in the frame
that begins (07_slot_interchange.md R129, 08_mapping.md R155 to R167, R170 to R174).
-/

namespace Sys2Proof.Machine

open Sys2Proof

/-- What a run of ingress slots carries in the present frame. -/
def State.putSlots (s : State) (g : Nat) (l : List SlotData) : State :=
  { s with slotIn := l.zipIdx.foldl (fun t p => tset slotDflt t (g + p.2) p.1) s.slotIn }

/-- A status field as it stood at the 2 µs mark. -/
def seenFld (s : State) (f : Fld) : Nat := wordGet (tget resetWordOf s.seen f.addr) f.lo f.w

/-- Downstream replacement stands in all the slots of a channel (Table 6-7). -/
def chStopped (s : State) (c : Nat) : Bool := s.disc c != 6 || tget (fun _ => 0) s.ca c &&& 0x103 != 0

/-- A server or pointer defect of a path in LOP-P or AIS-P (R159). -/
def pathLost (s : State) (c idx : Nat) : Bool := seenFld s (paStat (pathKey c idx 0)) &&& 0x3 != 0

/-- A path-level action replaces a path (Table 6-7). -/
def pathStopped (s : State) (c idx : Nat) : Bool := tget (fun _ => 0) s.ca (pathKey c idx 0) &&& 0x1C0 != 0

/-- The tag bytes of an ingress container (R166); point 0x12 spoils its CRC. -/
def tagOf (s : State) (c e : Nat) : List Byte × State :=
  let t := s.pathTag c e
  let a := injUnit s 0x12 0 (fun i => bitsOf i 0 8 == c && bitsOf i 8 11 == s.g (contStart (contKey c (s.rxBank c) e))) 1
  let l := tagBytes t.1 t.2
  (if a.1.1 = 0 then l else l.set 3 (l.getD 3 0 ^^^ 1), a.2)

/-! ### What arrives -/

/-- The bytes of a system frame enter a path's elastic store (R159); a channel out of service stores nothing. -/
def speIn (s : State) (o : SpeObs) : State :=
  match s.pathOver o.c o.idx with
  | none => s
  | some p =>
    if p.kind ≠ 1 ∨ p.first ≠ o.idx ∨ s.disc o.c ≠ 6 ∨ 192 ≤ o.c then s
    else
      let z := 783 * p.slots
      let x := s.speOf (512 * o.c + o.idx)
      let ph := match o.j1 with
        | some i => (z - (x.buf.length + i) % z) % z
        | none => x.phase
      s.setSpe (512 * o.c + o.idx) { x with live := true, buf := x.buf ++ o.bytes, phase := ph }

/-- The octets of a system frame enter the ODU store of a container (R164, R171); a channel out of service stores nothing. -/
def oduIn (s : State) (o : OduArr) : State :=
  let k := contKey o.c (s.rxBank o.c) o.e
  let t := s.g (contType k)
  if 192 ≤ o.c ∨ 255 ≤ o.e ∨ s.disc o.c ≠ 6 ∨ !s.rxFits o.c ∨ !isOdu t then s
  else
    let g := 512 * o.c + s.g (contStart k)
    let x := s.oduOf g
    let l := if s.chFam o.c = .eth then Config.clientMap t s.sfn o.bytes else o.bytes
    s.setOdu g { x with live := true, buf := x.buf ++ l, got := x.got + l.length }

/-! ### Native paths -/

/-- The slots of an ingress path in the frame that begins (R159), and whether its store has overflowed or run dry. -/
def pathSlots (r : Bool × State) (c e : Nat) : Bool × State :=
  let s := r.2
  let k := contKey c (s.rxBank c) e
  let n := s.contSlots c (s.rxBank c) e false
  let st := s.g (contStart k)
  let g := 512 * c + st
  let tag := tagOf s c e
  let s := tag.2
  if pathLost s c st then (r.1, s.setSpe g speReset)
  else
    let o := speRead n (s.speOf g) (s.drawn.setWidth 8) tag.1
    let s := if (s.speOf g).fresh then s.draw else s
    let s := s.setSpe g o.next
    let s := if 0 < o.just then s.pmAdd (contCnt k 2) 1 else if o.just < 0 then s.pmAdd (contCnt k 3) 1 else s
    (r.1 || o.bad, if s.on (contRxAcq k) || pathStopped s c st || chStopped s c then s else s.putSlots g (o.slots.map .data))

/-! ### ODUs -/

/-- The ODU containers that a channel's line slots carry: entry (255 none), first offset, slots, type, NSL. Those of a bank that names the
channel's format; else, of an OTN format, the ODU of its THROUGH container (Table 4-4). -/
def oduConts (s : State) (c : Nat) : List (Nat × Nat × Nat × Nat × Nat) :=
  if s.inFits c then
    ((s.used c (s.rxBank c)).filter (fun e => isOdu (s.g (contType (contKey c (s.rxBank c) e))))).map (fun e =>
      let k := contKey c (s.rxBank c) e
      (e, s.g (contStart k), s.contSlots c (s.rxBank c) e false, s.g (contType k), s.g (contNsl k)))
  else
    let t := throughType (s.inFmt c)
    if t = 0 then [] else [(255, 0, typeSlots t 0 0, t, 0)]

/-- An ingress ODU carries its replacement (R155, R167, Table 6-7): out of service, by a consequent action, while it is acquired, for a
fault of its structure, and as an LO ODU behind a defect that inhibits its HO ODU. -/
def oduReplaced (s : State) (c e : Nat) : Bool :=
  let k := contKey c (s.rxBank c) e
  chStopped s c || e == 255 || s.on (contRxAcq k) ||
    (if fmtFam (s.inFmt c) = .eth then csfApplies s c || !s.hasMapper c
     else s.tsMask k != 0 && (s.on (contMsim k) || seenFld s ⟨(CH_DEF_STAT_LOS c).addr, 0, 18⟩ &&& 0x103D != 0 || pathStopped s c (s.g (contStart k))))

/-- The replacement stream of a channel's ODUs: ODU-AIS, or what G.709 specifies for the client mapping (R173). -/
def oduFiller (s : State) (c t : Nat) : Nat → Byte := if fmtFam (s.inFmt c) = .eth then Config.clientFail t else oduFill false

/-- The slots of an ingress ODU in the frame that begins (R162 to R164, R167), and whether its store has overflowed. -/
def oduSlots (n : Nat) (r : Bool × State) (x : Nat × Nat × Nat × Nat × Nat) (c : Nat) : Bool × State :=
  let s := r.2
  let e := x.1
  let g := 512 * c + x.2.1
  let tag := if e = 255 then (tagBytes 0 false, s) else tagOf s c e
  let s := tag.2
  let o := carrierSend x.2.2.1 (nominalCount x.2.2.2.1 x.2.2.2.2 (n + 1)) (oduFiller s c x.2.2.2.1) (oduReplaced s c e) tag.1 (s.oduOf g)
  let s := (s.setOdu g o.next).putSlots g (o.slots.map .data)
  (r.1 || o.bad, if o.sat then s.pmAdd (contCnt (contKey c (s.rxBank c) e) 3) 1 else s)

/-- The replacement signal of a channel in its slots, for a frame that a crossing spoils (R18): AIS-P, or each ODU's replacement at the
count of this frame. -/
def chReplace (s : State) (c : Nat) : State :=
  let s := { s with slotIn := s.slotIn.filter (fun p => !(decide (512 * c ≤ p.1) && decide (p.1 < 512 * c + s.chSlots c))) }
  (oduConts s c).foldl (fun t x =>
    let o := t.oduOf (512 * c + x.2.1)
    let tag := if x.1 = 255 then (0, false) else t.pathTag c x.1
    t.putSlots (512 * c + x.2.1) ((carrierImage x.2.2.1 o.was o.cnt (tagBytes tag.1 tag.2)
      (fillOctets (oduFiller t c x.2.2.2.1) o.pos o.was)).map .data)) s

/-! ### Ethernet clients in VCAT groups (R172 to R174) -/

/-- The bytes of a path's SPE as the latest frame carried them in the slots from `g` on. -/
def sentSpe (t : Tab SlotData) (g n : Nat) : List Byte :=
  speOf ((List.range n).map (fun i => match tget slotDflt t (g + i) with | .data b => b | _ => []))

/-- H4 of a member (G.707): the multiframe count, MFI2 and the sequence number in its nibbles; LCAS adds its own. -/
def h4Byte (n sq lcas : Nat) : Byte :=
  let m := n % 16
  byte8 (m + 16 * (if m = 0 then n / 256 % 16 else if m = 1 then n / 16 % 16 else if m = 14 then sq / 16 % 16 else if m = 15 then sq % 16 else lcas % 16))

/-- The payload of a member in its frame: the octets of a VC-3 leave two columns of fixed stuff (G.707). -/
def memberRows (w : Nat) (l : List Byte) : List Byte :=
  if w = 3 then l else (List.range 9).flatMap (fun r =>
    let x := (l.drop (84 * r)).take 84
    x.take 28 ++ [0] ++ (x.drop 28).take 28 ++ [0] ++ x.drop 56)

/-- The members of a client's source group in the frame that begins (R161, R174): the GFP octets go over the active members in turn; B3
covers the frame before, whose slots are `was`; G1 tells what the sink member of the same index has met. -/
def groupSlots (n : Nat) (was : Tab SlotData) (vs : List VcatObs) (s : State) (c : Nat) : State :=
  let lg := c / 12
  let k := vgKey lg (boundGrp s c false)
  let w := s.vgW k
  let m := s.f (vgNmem k)
  if s.f (vgEn k) = 0 ∨ s.f (vgDir k) = 1 ∨ 512 < m * w then s
  else
    let r := gfpTake s c
    let s := r.2
    let act := s.g (vgAct k) + 0x100000000 * s.g (vgActHi k)
    let lcas := s.f (vgLcas k) == 1
    let on := (List.range m).filter (fun i => !lcas || act.testBit i)
    let mem := match vs.find? (fun v => v.lg == lg && v.g == boundGrp s c true) with | some v => v.mem | none => []
    (List.range m).foldl (fun t i =>
      let pay := if on.contains i then everyNth on.length (on.idxOf i) r.1 else []
      let nib := Config.lcasNibble lg (boundGrp t c false) i (n % 4096)
      let g1 := match mem[i]? with | some x => byte8 (16 * min 8 x.b3 + 8 * bit x.sf) | none => 0
      t.putSlots (512 * c + w * i) ((madeImage w [0, bip8 (sentSpe was (512 * c + w * i) w), 0x1B, g1, 0, h4Byte n (if lcas then nib / 16 else i)
        (if lcas then nib else 0), 0, 0, 0] (memberRows w pay)).map .data)) s

/-! ### The frame that begins -/

/-- The line slots of one channel. What no container covers keeps its AIS-P. -/
def channelSlots (n : Nat) (was : Tab SlotData) (vs : List VcatObs) (r : List Nat × State) (c : Nat) : List Nat × State :=
  let s := r.2
  if s.bonded c then r
  else
    let fam := fmtFam (s.inFmt c)
    if fam = .sdh then
      if s.disc c ≠ 6 ∨ !s.rxFits c then r
      else
        let x := (s.used c (s.rxBank c)).foldl (fun t e => pathSlots t c e) (false, s)
        (if x.1 then c :: r.1 else r.1, x.2)
    else if fam = .otn ∨ fam = .eth then
      let x := (oduConts s c).foldl (fun t x => oduSlots n t x c) (false, s)
      (if x.1 then c :: r.1 else r.1, if isBound x.2 c false then groupSlots n was vs x.2 c else x.2)
    else r

/-- The through-slots of a port in state SLOTS, as its latest superframe brought them for frame `n` (R334 to R336). -/
def portSlotData (s : State) (p n : Nat) : List (Nat × SlotData) :=
  let g := s.gpOf p
  if !s.portSlots p || g.rxSfn != n then []
  else
    (g.rxFill.filter (fun x => x.2 == 2)).map (fun x => (x.1, SlotData.unequipped)) ++
      (g.rxFill.filter (fun x => x.2 == 0)).map (fun x => (x.1, SlotData.data ((tget (fun _ => []) g.rxBytes x.1).take 810)))

/-- The port whose superframes fill the slots of port `p`: a member's ALT_PORT while USE_ALT is in force (R337). -/
def slotSource (s : State) (p : Nat) : Nat :=
  if !s.isManager then p
  else
    match (List.range 7).find? (fun i => s.memberPresent (i + 1) && s.g (GRP_MEMBER_PORT i) == p && s.f (GRP_MEMBER_USE_ALT i) == 1 &&
        s.on (GRP_MEMBER_ALT_VALID i)) with
    | some i => s.g (GRP_MEMBER_ALT_PORT i)
    | none => p

/-- The elastic stores of channels out of service are dropped, and the ODU stores of those whose line slots carry no ODU. -/
def storesKeep (s : State) : State :=
  let fam (g : Nat) : Fam := fmtFam (s.inFmt (s.slotCh g))
  { s with
    spe := s.spe.filter (fun p => s.disc (s.slotCh p.1) == 6)
    odu := s.odu.filter (fun p => fam p.1 == .otn || fam p.1 == .eth) }

/-- What every ingress slot carries in the frame that begins (R129), and the channels whose store has overflowed or run dry. -/
def slotFrame (s : State) (n : Nat) (ups : List Nat) (vs : List VcatObs) : List Nat × State :=
  let was := s.slotIn
  let r := ups.foldl (channelSlots n was vs) ([], storesKeep { s with slotIn := [] })
  (r.1, (List.range 8).foldl (fun t p =>
    (portSlotData t (slotSource t p) n).foldl (fun t x => t.putSlots (98304 + 3744 * p + x.1) [x.2]) t) r.2)

/-! ### Hitless outputs in ODU mode (R195) -/

/-- The new slot carrier of a selector in the frame that begins: what its output frames have queued, with counts of its own and TSEQ = EXT of the
latest frame begun. -/
def hitlessFrame (s : State) (n : Nat) : State :=
  let x := s.selOf n
  if s.f (seScheme (selKey n)) ≠ 2 ∨ s.f (seTmode (selKey n)) ≠ 1 then s
  else
    let m := s.f (seNslot (selKey n))
    let left := x.out.drop x.cnt
    let cnt := min (800 * m) left.length
    s.setSel n { x with out := left, cnt := cnt, img := carrierImage m x.cnt cnt (tagBytes x.ext true) (x.out.take x.cnt) }

/-! ### The lower-order stage (R148) -/

/-- The bytes of an ingress slot, empty under a fill mark. -/
def slotOctets : SlotData → List Byte
  | .data b => b
  | _ => []

/-- A tributary of an input of the lower-order stage cannot be taken (R148): its slots do not carry the structure, its HO path is in SF, or
it is in LOP-V or AIS-V; a through-slot under a fill mark. -/
def tribFaulty (s : State) (e : Word) (t : Nat) : Bool :=
  let g := wordGet e 0 17
  let three := wordGet e 17 2 == 2
  if 98304 ≤ g then slotOctets (s.slotRead g) == []
  else
    let c := s.slotCh g
    match s.pathOver c (s.slotOff g) with
    | none => true
    | some p =>
      p.kind != 1 || p.slots != (if three then 3 else 1) || p.first != s.slotOff g || s.on (paSf (pathKey c p.first 0)) ||
        seenFld s (paStat (pathKey c (p.first + (if three then wordGet e 19 2 else 0)) (t + 1))) &&& 0x3 != 0

/-- The octets of a tributary in its columns of the frame of SFN `n` (R148, R161): AIS-V all ones; unequipped a valid pointer over zeros; else
retimed from the input's slots. `len` octets, 27 of a VT1.5 or 36 of a VT2. -/
def tribOctets (s : State) (n j t len : Nat) : List Byte :=
  let ones := List.replicate len 0xFF
  match s.lowerFrom j t with
  | .ais => ones
  | .unequipped => (if n % 4 = 0 then (if len = 27 then 0x6C else 0x68) else 0) :: List.replicate (len - 1) 0
  | .trib i u =>
    let e := s.icEntry true i
    if tribFaulty s e u then ones
    else
      let slots := (List.range (if wordGet e 17 2 = 2 then 3 else 1)).map (fun q => slotOctets (s.slotRead (wordGet e 0 17 + q)))
      ((Config.vtOctets slots (u + 28 * (if wordGet e 17 2 = 2 then wordGet e 19 2 else 0)) n) ++ List.replicate len 0).take len

/-- The 84 columns of tributaries of an output, row by row: tributary t in columns t, t + 28, ... or t, t + 21, ... -/
def tribRows (s : State) (n j : Nat) : List (List Byte) :=
  let k := tribCount (wordGet (s.icEntry true (0x800 + j)) 2 1)
  let l := (List.range k).map (fun t => tribOctets s n j t (9 * (84 / k)))
  (List.range 9).map (fun r => (List.range 84).map (fun q => (l.getD (q % k) []).getD (r * (84 / k) + q / k) 0))

/-- The path overhead that the stage originates (Table 8-4), B3 over the frame before. -/
def loPoh (n : Nat) (was : List Byte) : List Byte := [0, bip8 was, 2, 0, 0, byte8 (n % 4), 0, 0, 0]

/-- The outputs of the lower-order stage in the frame of SFN `n`: an STS-1/VC-3, or three TUG-3s that make up a VC-4. -/
def lowerFrame (s : State) (n : Nat) : State :=
  let st (j : Nat) : Nat := wordGet (s.icEntry true (0x800 + j)) 0 2
  let js := ((s.lox.ent.filter (fun p => p.1 / 0x100000 == s.icActive true && decide (0x800 ≤ p.1 % 0x100000) &&
    decide (p.1 % 0x100000 < 0x800 + 1344))).map (fun p => p.1 % 0x100000 - 0x800)).filter (fun j => st j == 1 || (st j == 2 && j % 3 == 0))
  let was (j k : Nat) : List Byte := speOf ((List.range k).map (fun i => tget (fun _ => []) s.loOut (j + i)))
  let out (j : Nat) : List (Nat × List Byte) :=
    if st j = 1 then
      ((madeImage 1 (loPoh n (was j 1)) ((tribRows s n j).flatMap (fun r => r.take 28 ++ [0] ++ (r.drop 28).take 28 ++ [0] ++ r.drop 56))).zipIdx.map
        (fun p => (j + p.2, p.1)))
    else
      let rows := [0, 1, 2].map (fun i => tribRows s n (j + i))
      ((madeImage 3 (loPoh n (was j 3)) ((List.range 9).flatMap (fun r =>
        [0, 0] ++ interleave 86 (rows.map (fun x => [0, 0] ++ x.getD r []))))).zipIdx.map (fun p => (j + p.2, p.1)))
  { s with loOut := (js.flatMap out).foldl (fun t p => tset (fun _ => []) t p.1 p.2) [] }

end Sys2Proof.Machine
end

