-- ==== Sys2Proof/Machine/Crossing.lean ====
section
/-!
DEFINITION. Overflows and underflows of the crossings that carry traffic (01_architecture.md R15, R18).
-/

namespace Sys2Proof.Machine

open Sys2Proof

/-- The ingress slots whose frame an overflow of a crossing spoils (R18, Table 7-1): of a channel, of the bond that a member lane
belongs to, of a Gelvy port. -/
def xingSlot (s : State) (xid index g : Nat) : Bool :=
  if xid = 1 then decide (512 * index ≤ g) && decide (g < 512 * index + (if (s.lane index).bond then 2048 else 512)) && decide (g < 98304)
  else if xid = 2 then decide (2048 * (index / 4) ≤ g) && decide (g < 2048 * (index / 4 + 1)) && decide (g < 98304)
  else if xid = 0xD then decide (98304 + 3744 * index ≤ g) && decide (g < 98304 + 3744 * (index + 1))
  else false

/-- An active egress entry carries what the event spoils in this frame: a slot it names, or a cell that comes through the GDDR6 channel. -/
def xingReads (s : State) (xid index e : Nat) : Bool :=
  match s.egressFrom e with
  | .slot g => xingSlot s xid index g
  | .batt p g => xingSlot s xid index g || (xid == 0xC && ((s.ringsOf p)[g - s.f (bpFirst (bpKey p))]?).any (fun r => r % 16 == index))
  | _ => false

/-- The channels whose egress the event takes out of the Same-Output Guarantee for this frame: its own, or every one that reads from it. -/
def xingChannels (s : State) (xid index : Nat) : List Nat :=
  if xid = 3 then [laneChannel s index]
  else (((s.tsi.ent.map (fun p => p.1 % 0x100000)).filter (fun e => decide (e < 98304) && xingReads s xid index e)).map (fun e => s.slotCh e)).eraseDups

/-- An overflow or underflow (R18): only crossings 0x01, 0x02, 0x03, 0x0C and 0x0D have one; XING_OCC counts it, XING_LAST names it, the
current system frame of that channel or port is AIS, and the stores recentre. What crosses into the transmit clock (0x03) and to
the batt store (0x0C) turns into AIS as the frame ends. -/
def xingEvent (s : State) (xid index : Nat) : State :=
  if xid = 1 ∨ xid = 2 ∨ xid = 3 ∨ xid = 0xC ∨ xid = 0xD then
    let s := (xingChannels s xid index).foldl (fun t c => markUncov t c s.sfn) s
    let s := { s.occ 0x2030 with xingAis := (xid, index) :: s.xingAis }.u [(CLK_XING_LAST_XID, xid), (CLK_XING_LAST_INDEX, index)]
    if xid = 1 ∨ xid = 2 then chReplace (recentre s (laneChannel s index)) (laneChannel s index)
    else if xid = 0xD then { s with slotIn := s.slotIn.filter (fun p => !xingSlot s xid index p.1) }
    else s
  else s

/-- CROSSING_OVERFLOW (R18). -/
def execCrossingOverflow (xid : Fin 32) (index : Fin 256) (s : State) : Host.Outcome State Fault Refusal :=
  done (xingEvent s xid.val index.val)

/-- The instances of a point that active slots name. -/
def injTargets (s : State) (p : Nat) : List Nat :=
  (((List.range 64).filter (fun i => s.on (INJ_IJ_STAT_ACTIVE i) && s.g (INJ_IJ_D0_POINT i) == p)).map (fun i => s.g (INJ_IJ_D1_INSTANCE i))).eraseDups

/-- Point 0x1A: a crossing event. -/
def xingInject (s : State) : State :=
  (injTargets s 0x1A).foldl (fun t i =>
    let a := injAny t 0x1A (· == i) 1
    if a.1.1 = 0 then a.2 else xingEvent a.2 (bitsOf i 0 8) (bitsOf i 8 8)) s

end Sys2Proof.Machine
end

