-- ==== Sys2Proof/Machine/Egress.lean ====
section
/-!
DEFINITION. The egress datapath (01_architecture.md R8, stages 10 and 11): what every lane sends in a system frame (04_lanes_and_discovery.md
R85, 06_overhead_defects_pm.md R103 to R107, R117, 07_slot_interchange.md R133, 08_mapping.md R160, R161, R165, R168).
-/

namespace Sys2Proof.Machine

open Sys2Proof

def egReset : EgLine := ⟨[], [], [], 0, 0, 0⟩
def State.egOf (s : State) (c : Nat) : EgLine := tget (fun _ => egReset) s.eg c
def State.setEg (s : State) (c : Nat) (x : EgLine) : State := { s with eg := tset (fun _ => egReset) s.eg c x }

/-- Everything that a channel sends is AIS: QUARANTINE with Q_OUT = 1 (R382), or crossing 0x03 has spoilt the frame (R18). -/
def egAis (s : State) (c : Nat) : Bool := s.outMode == 1 || s.xingAis.any (fun p => p.1 == 3 && laneChannel s p.2 == c)

/-- What an egress container takes from the interchange. -/
def outSlots (s : State) (c st n : Nat) : List SlotData := (List.range n).map (fun i => s.egressSlot (512 * c + st + i))

/-- The fill of a container (R133): AIS where any of its slots carries AIS fill, else unequipped where any does. -/
def fillOf (l : List SlotData) : Nat := if l.any (· == .ais) then 1 else if l.any (· == .unequipped) then 2 else 0

/-- Exclusive or of single bits, by place and bit. -/
def flipBits (l : List Byte) (at_ : List (Nat × Nat)) : List Byte :=
  at_.foldl (fun t p => t.set p.1 (t.getD p.1 0 ^^^ BitVec.ofNat 8 (2 ^ p.2))) l

/-- The lowest `n` bits of a field of `w` bytes that ends at place `last` (R291). -/
def lowBits (last w n : Nat) : List (Nat × Nat) := (List.range (min n (8 * w))).map (fun i => (last - i / 8, i % 8))

/-- A byte of the transmit area that the line side drains (R105). -/
def txByte (s : State) (c off : Nat) : Byte := BitVec.ofNat 8 (ohbGet s (ohbKey (c / 12) (s.lineHalf (c / 12)) (c % 12) (0x400 + off)))

/-- The stream bytes of the frames of a channel from place `i` on (R107): the first STREAM_LEN of the engine's, then 0x7E. -/
def txStream (s : State) (c i len : Nat) : List Byte :=
  let have_ := if s.f (CH_TX_OH_STREAM c) = 2 then ohbWord0 s (ohbKey (c / 12) (s.lineHalf (c / 12)) (c % 12) 0x400) / 256 % 1024 else 0
  (List.range len).map (fun j => if i + j < have_ then txByte s c (0x100 + i + j) else 0x7E)

/-- Frames of a channel under an egress injection point (DIR 1): the first ones, as many as the slots inject. -/
def injFrames (s : State) (c p : Nat) (f : Nat → List Byte → List Byte) (l : List (List Byte)) : List (List Byte) × State :=
  let a := injUnit s p 1 (fun i => bitsOf i 0 8 == c) l.length
  ((l.take a.1.1).map (f a.1.2) ++ l.drop a.1.1, a.2)

/-! ### SONET/SDH (R157, R160, R161) -/

/-- The order in which the STS-1s of a line frame follow one another. -/
def sdhOrder (n : Nat) : List Nat := [0, 1, 2].flatMap (fun b => (List.range (n / 3)).map (fun a => 3 * a + b))

/-- The images of the STS-1s of a line frame, in slot order. -/
def sdhImages (n : Nat) (frame : List Byte) : List (List Byte) := (List.range n).map (fun k => everyNth n ((sdhOrder n).idxOf k) frame)

/-- The slots of an egress path (R133, R161): from the interchange with its fills, or originated; `was` are its slots in the frame before. -/
def sdhPath (s : State) (c n : Nat) (was : List (List Byte)) (e : Nat) : List (List Byte) :=
  let k := contKey c (s.txBank c) e
  let m := s.contSlots c (s.txBank c) e true
  let st := s.g (contStart k)
  let src := s.g (contEgsrc k)
  let b3 := bip8 (speOf ((was.drop st).take m))
  let l := outSlots s c st m
  let fill := if egAis s c then 1 else if src = 1 then 2 else if src = 0 then fillOf l else 0
  if fill = 1 then List.replicate m aisSlot
  else if fill = 2 then unequippedImage m b3
  else if src = 0 then l.map slotOctets
  else madeImage m [0, b3, 4] (Config.pdhAis (src == 3) n)

/-- The slots of all paths in offset order; AIS-P where the bank carries no container. -/
def sdhPayload (s : State) (c n sts : Nat) (was : List (List Byte)) : List (List Byte) :=
  let l := if s.txFits c then (s.used c (s.txBank c)).flatMap (fun e =>
      (sdhPath s c n was e).zipIdx.map (fun p => (s.g (contStart (contKey c (s.txBank c) e)) + p.2, p.1))) else []
  (List.range sts).map (fun k => ((l.find? (fun p => p.1 == k)).map (fun p => p.2)).getD aisSlot)

/-- Section and line overhead of the STS-1 at place `i` of the order (R103, R107, R117), but H1 to H3: 27 bytes, row by row. -/
def sdhOverhead (s : State) (c n sts : Nat) (b1 b2 : Byte) (i : Nat) : List Byte :=
  let ca := tget (fun _ => 0) s.ca c
  let one (b : Byte) : Byte := if i = 0 then b else 0
  let pick (f : Fld) (off : Nat) (zero : Byte) (one' : Byte) : Byte := if s.f f = 2 then txByte s c off else if s.f f = 1 then one' else zero
  let reg (f : Fld) : Byte := BitVec.ofNat 8 (s.f f)
  let j0 := pick (CH_TX_OH_TRACE c) 4 1 (s.byteAt (CH_TX_TR_BYTES c 0).addr (n % 64))
  let ow (off : Nat) : Byte := if s.f (CH_TX_OH_ORDERWIRE c) = 2 then txByte s c off else 0
  let k2 := pick (CH_TX_OH_APS c) 8 0 (reg (CH_TX_K1K2_K2 c))
  let k2 := if ca / 4 % 2 = 1 then (k2 &&& 0xF8) ||| 6 else k2
  let sel := s.f (CH_TX_OH_STREAM_SEL c)
  let st := txStream s c 0 (streamBytes .sdh sel)
  let d := if sel = 2 then [0, 0, 0] ++ st else st
  let dcc (k : Nat) : Byte := one (d.getD k 0)
  let back := if ca / 8 % 2 = 1 then (s.lane c).back else 0
  let m := if i = 2 then byte8 (if sts = 192 then back else min 255 back) else if i = 1 ∧ sts = 192 then byte8 (back / 256) else 0
  [0xF6, 0x28, one j0, one b1, one (ow 5), one (ow 6), dcc 0, dcc 1, dcc 2, 0, 0, 0,
    b2, one (pick (CH_TX_OH_APS c) 7 0 (reg (CH_TX_K1K2_K1 c))), one k2, dcc 3, dcc 4, dcc 5, dcc 6, dcc 7, dcc 8, dcc 9, dcc 10, dcc 11,
    one (pick (CH_TX_OH_SYNC c) 9 0xF (reg (CH_TX_K1K2_S1 c))), m, one (ow 10)]

/-- The SS bits of an SDH pointer word: 10 in the pointer and in the concatenation indication; AIS stays all ones. -/
def sdhSs (sdh : Bool) (h : List Byte) : List Byte := if sdh ∧ h.take 2 ≠ [0xFF, 0xFF] then (h.getD 0 0 &&& 0xF3 ||| 8) :: h.drop 1 else h

/-- An STS-1 image with the overhead of the line. -/
def sdhImage (sdh : Bool) (oh img : List Byte) : List Byte :=
  (List.range 9).flatMap (fun r =>
    (if r = 3 then sdhSs sdh ((img.drop 270).take 3) else (oh.drop (3 * r)).take 3) ++ (img.drop (90 * r + 3)).take 87)

/-- The bytes of an STS-1 that B2 covers: all but the section overhead. -/
def b2Bytes (img : List Byte) : List Byte :=
  ((img.zipIdx.filter (fun p => !(decide (p.2 % 90 < 3) && decide (p.2 / 90 < 3)))).map (fun p => p.1))

/-- The egress line frame of a SONET/SDH channel in system frame `n` (R160), after the frame before. -/
def sdhFrame (s : State) (c n : Nat) : List Byte :=
  let fmt := s.f (CH_TX_CFG_TX_FMT c)
  let sts := stsOf (fmtRate fmt)
  let prev := (s.egOf c).frames.headD []
  let was := sdhImages sts prev
  let pay := sdhPayload s c n sts was
  let b1 := bip8 (sdhScramble sts prev)
  interleave 810 ((sdhOrder sts).zipIdx.map (fun p =>
    sdhImage (fmt % 2 == 0) (sdhOverhead s c n sts b1 (bip8 (b2Bytes (was.getD p.1 []))) p.2) (pay.getD p.1 [])))

/-- Where B3 of the path at offset `st` of `m` slots stands in its images, by its pointer: slot and byte. -/
def b3Place (img : List Byte) (m : Nat) : Nat × Nat :=
  let ptr := (img.getD 270 0).toNat % 4 * 256 + (img.getD 271 0).toNat
  let p := (87 * m + 261 * m + ptr * m) % (783 * m)
  (p % m, 90 * (p / m / 87) + 3 + p / m % 87)

/-- The DIR 1 points of a SONET/SDH frame (Table 13-5). -/
def sdhInject (s : State) (c sts : Nat) (l : List (List Byte)) : List (List Byte) × State :=
  if !s.injecting then (l, s)
  else
    let pt (r : List (List Byte) × State) (p : Nat) (f : Nat → List Byte → List Byte) : List (List Byte) × State := injFrames r.2 c p f r.1
    let low (t : List Byte) (k : Nat) : List Byte := t.set (362 * sts) (t.getD (362 * sts) 0 &&& 0xF8 ||| BitVec.ofNat 8 k)
    let r := pt (l, s) 2 (fun q t => flipBits t (lowBits (sts + 2) 6 q))
    let r := pt r 4 (fun _ t => low t 7)
    let r := pt r 5 (fun _ t => low t 6)
    let r := pt r 6 (fun q t => flipBits t (lowBits (90 * sts) 1 q))
    let r := pt r 7 (fun q t => flipBits t (lowBits (360 * sts + sts - 1) sts q))
    let r := pt r 0xA (fun q t => t.set (721 * sts + 2) (BitVec.ofNat 8 q))
    let ids := (injTargets r.2 8).filter (fun i => bitsOf i 0 8 == c && bitsOf i 19 5 == 0)
    ids.foldl (fun r i =>
      let a := injUnit r.2 8 1 (· == i) r.1.length
      let idx := bitsOf i 8 11
      match r.2.contAt c idx true with
      | some e =>
        let m := r.2.contSlots c (r.2.txBank c) e true
        ((r.1.take a.1.1).map (fun t =>
          let w := b3Place (everyNth sts ((sdhOrder sts).idxOf idx) t) m
          flipBits t (lowBits (sts * w.2 + (sdhOrder sts).idxOf (idx + w.1)) 1 a.1.2)) ++ r.1.drop a.1.1, a.2)
      | none => (r.1, a.2)) r

/-! ### The remapper (R165) -/

/-- What the slots of an egress ODU container show (R165): among the members that carry no fill mark some CHK correct, a CSQ or LAST wrong,
one that is no carrier; any fill mark. -/
def carSeen (c e : Nat) (l : List SlotData) : CarObs :=
  let m := l.zipIdx.filterMap (fun p => match p.1 with | .data b => some (b, p.2) | _ => none)
  { c := c, e := e, chk := m.any (fun p => carrierChk p.1),
    csq := m.any (fun p => carrierCsq p.1 != p.2 || carrierLast p.1 != (p.2 + 1 == l.length)),
    kind := m.any (fun p => carrierKind p.1 != 1), fill := fillOf l != 0 }

/-- The octets that a container's carrier brings, and the remapper with the count of the next frame: CNT of member 0 if its CHK is correct,
else of the lowest member whose CHK is, else the previous count. -/
def carTake (x : Car) (l : List (List Byte)) : List Byte × Car :=
  let cnt := match l.find? carrierChk with | some b => min (800 * l.length) (carrierCnt b) | none => x.cnt
  (carrierBytes x.cnt l, { x with cnt := cnt })

/-- Whole ODU frames of an aligned remapper, after it has taken more octets. -/
def carFrames (x : Car) (l : List Byte) : List (List Byte) × Car :=
  let b := x.buf ++ l
  let a := if x.sync then (b, true) else oduSeek b
  if !a.2 then ([], { x with buf := a.1 })
  else
    let t := oduTake (a.1.length / oduLen) x.errs a.1
    (t.1, { x with buf := t.2.1, errs := t.2.2.1, sync := t.2.2.2 })

/-- A selector has moved conventionally under a slot of a container (R185): its alignment is lost. -/
def carMoved (s : State) (c st : Nat) : Bool :=
  match s.egressMap (512 * c + st) with
  | .slot g => match s.selOver g with | some (n, _) => (s.selOf n).moved | none => false
  | _ => false

/-- One system frame of an egress ODU container: the whole ODU frames it brings, and its fill (R133), 1 also where a check of R165 or
AIS of the whole channel replaces it. -/
def carRun (s : State) (c e : Nat) : (List (List Byte) × Nat) × State :=
  let k := contKey c (s.txBank c) e
  let l := outSlots s c (s.g (contStart k)) (s.contSlots c (s.txBank c) e true)
  let s := carFrame s (carSeen c e l)
  let fill := if egAis s c || s.on (contTxFault k) then 1 else fillOf l
  let x := if carMoved s c (s.g (contStart k)) then { s.carOf k with sync := false, buf := [] } else s.carOf k
  let t := carTake x (l.map slotOctets)
  if fill ≠ 0 then (([], fill), (s.setCar k { t.2 with sync := false, buf := [], errs := 0 }).u [(contTxAcq k, 1)])
  else
    let r := carFrames t.2 t.1
    ((r.1, 0), (s.setCar k r.2).u [(contTxAcq k, if r.2.sync then 0 else if x.sync || (s.carOf k).sync then 1 else s.g (contTxAcq k))])

/-! ### OTN (R103, R104, R168) -/

/-- The unit of EgLine.div per octet in a system frame, and the octets of an ODU frame in it. -/
def divUnit : Nat := 64 * 2 ^ 40
def divNominal (type nsl : Nat) : Nat := (oduRate type nsl).1 * divUnit / (oduRate type nsl).2

/-- The divider after a frame (R168): toward the mean of the counts of the last 64 frames, by at most 2 ppm/s; at its first counts it takes
their mean. -/
def divStep (div : Nat) (cnts : List Nat) : Nat :=
  let mean := if cnts.isEmpty then div else cnts.sum * 2 ^ 40 * 64 / cnts.length
  if div = 0 then mean else max (div - div / 4000000000) (min (div + div / 4000000000) mean)

/-- Place of row `r`, column `c` (from 0) in an ODU frame. -/
def oduAt (r c : Nat) : Nat := 3824 * r + c

/-- A run of bytes in place of those at a place. -/
def putRun (l : List Byte) (p : Nat) (b : List Byte) : List Byte := l.take p ++ b ++ l.drop (p + b.length)

/-- BIP-8 over the OPU: columns 15 to 3,824. -/
def opuBip (l : List Byte) : Byte := bip8 ((List.range 4).flatMap (fun r => (l.drop (oduAt r 14)).take 3810))

/-- Where TCM level `i` (1 to 6) stands. -/
def tcmAt (i : Nat) : Nat := if i ≤ 3 then oduAt 2 (9 - 3 * i) else oduAt 1 (22 - 3 * i)

/-- The third byte of PM or TCM: BEI, BDI, STAT 0b001; BDI and BEI of level `i` (0 PM) from the same channel's ingress monitor. -/
def pmByte (s : State) (c i : Nat) : Byte :=
  let sf := if i = 0 then s.on (CH_SFSD_ODU_SF c) else s.on (bitOf (CH_SFSD_TCM_SF c) (i - 1))
  byte8 (16 * min 8 ((s.lane c).backs.getD i 0) + 8 * bit sf + 1)

/-- The TCM levels in SOURCE mode write their bytes (R104). -/
def tcmSource (s : State) (c : Nat) (bip : Byte) (l : List Byte) : List Byte :=
  [1, 2, 3, 4, 5, 6].foldl (fun t i =>
    if s.f ⟨(CH_TCM_CFG_MODE1 c).addr, 2 * (i - 1) + 1, 1⟩ = 1 then putRun t (tcmAt i) [0, bip, pmByte s c i] else t) l

/-- The HO ODU frame that the device originates in MUX mode (R168), of MFAS `mf`: PM, PSI with PT 0x21 and the MSI, APS/PCC and GCC as TX_OH
selects, and the OPU. -/
def muxFrame (s : State) (c fmt mf : Nat) (bip : Byte) (gcc opu : List Byte) : List Byte :=
  let b := s.txBank c
  let slot (t : Nat) : Byte :=
    match (s.used c b).find? (fun e => (s.tsMask (contKey c b e)).testBit t) with
    | some e => byte8 (0x80 + (s.g (contTpn (contKey c b e)) - 1))
    | none => 0
  let psi := if mf = 0 then 0x21 else if 2 ≤ mf ∧ mf < 2 + hoSlots fmt then slot (mf - 2) else 0
  let aps := if s.f (CH_TX_OH_APS c) = 2 then (List.range 4).map (fun i => txByte s c (0x80 + 4 * (mf % 8) + i)) else [0, 0, 0, 0]
  let l := (List.range 4).flatMap (fun r => List.replicate 14 0 ++ ((opu.drop (3810 * r)).take 3810))
  let l := putRun (putRun l (oduAt 2 9) [0, bip, pmByte s c 0]) (oduAt 3 14) [psi]
  putRun (putRun l (oduAt 3 0) gcc) (oduAt 3 4) aps

/-- An OTU frame before its FEC (R103): FAS, MFAS, SM, GCC0 and RES over an ODU frame. `i` is its number among the frames that begin in the
system frame, `per` the stream bytes of a frame, `res` the sequence extension (R193). -/
def otuRows (s : State) (c mf i per : Nat) (bip : Byte) (res : Nat) (l : List Byte) : List Byte :=
  let ca := tget (fun _ => 0) s.ca c
  let tti := if s.f (CH_TX_OH_TRACE c) = 0 then 0 else s.byteAt (CH_TX_TR_BYTES c 0).addr (mf % 64)
  let sm := byte8 ((if ca / 32 % 2 = 1 then 16 * min 8 (s.lane c).back else 0) + 8 * (ca / 16 % 2))
  let sel := s.f (CH_TX_OH_STREAM_SEL c)
  let gcc := if sel = 4 ∨ sel = 6 then txStream s c (per * i) 2 else [0, 0]
  putRun l 0 ([0xF6, 0xF6, 0xF6, 0x28, 0x28, 0x28, byte8 mf, tti, bip, sm] ++ gcc ++ [byte8 (res / 256), byte8 res])

/-- With its FEC: four rows of 4,080. -/
def otuFrame (l : List Byte) : List Byte :=
  (List.range 4).flatMap (fun r =>
    let row := (l.drop (3824 * r)).take 3824
    row ++ otuFecRow row)

/-- The DIR 1 points of OTU frames (Table 13-5): each before the FEC. -/
def otuInject (s : State) (c : Nat) (l : List (List Byte)) : List (List Byte) × State :=
  if !s.injecting then (l, s)
  else
    let pt (r : List (List Byte) × State) (p : Nat) (f : Nat → List Byte → List Byte) : List (List Byte) × State := injFrames r.2 c p f r.1
    let r := pt (l, s) 2 (fun q t => flipBits t (lowBits 5 6 q))
    let r := pt r 3 (fun _ t => t.set 6 (t.getD 6 0 + 1))
    let r := pt r 4 (fun _ t => keyStream 11 [8] 0x7FF t.length)
    let r := pt r 5 (fun _ t => t.set 9 (t.getD 9 0 ||| 8))
    let r := pt r 6 (fun q t => flipBits t (lowBits 8 1 q))
    let level (i : Nat) : Nat := if i = 0 then oduAt 2 9 else tcmAt i
    let lv (r : List (List Byte) × State) (p : Nat) (f : Nat → Nat → List Byte → List Byte) : List (List Byte) × State :=
      ((injTargets r.2 p).filter (fun i => bitsOf i 0 8 == c && bitsOf i 19 1 == 0)).foldl (fun r i =>
        let a := injUnit r.2 p 1 (· == i) r.1.length
        ((r.1.take a.1.1).map (f (level (bitsOf i 20 3 % 7)) a.1.2) ++ r.1.drop a.1.1, a.2)) r
    let r := lv r 9 (fun at_ q t => flipBits t (lowBits (at_ + 1) 1 q))
    lv r 0xA (fun at_ q t => t.set (at_ + 2) (t.getD (at_ + 2) 0 &&& 0xF ||| BitVec.ofNat 8 (16 * q)))

/-- Frames of ODU-AIS or ODU-OCI from MFAS `mf` on. -/
def oduIdle (oci : Bool) (mf k : Nat) : List (List Byte) := (List.range k).map (fun i => fillOctets (oduFill oci) (oduLen * (mf + i)) oduLen)

/-- What the ODU frames of a system frame become as OTU frames, in order, with the parities that follow (R103). `ext` are their extensions. -/
def otuBuild (s : State) (c per : Nat) : Nat → List Byte → List (List Byte × Nat) → List (List Byte) × List Byte
  | _, bips, [] => ([], bips)
  | i, bips, (l, ext) :: r =>
    let bip := bips.getD 1 0
    let l := tcmSource s c bip l
    let t := otuBuild s c per (i + 1) [opuBip l, bips.getD 0 0] r
    (otuRows s c (l.getD 6 0).toNat i per bip ext l :: t.1, t.2)

/-- The sequence extension of an egress container's carrier in this frame: TV and EXT of its tag (R193). -/
def extOf (s : State) (c st : Nat) : Nat :=
  match s.egressSlot (512 * c + st) with
  | .data b => let t := tagRead ((b.drop 6).take 4); (if t.2 then 0x8000 else 0) + t.1 % 0x8000
  | _ => 0

/-- Frames that begin in system frame `n` at a rate of `num` / `den` octets per system frame. -/
def framesDue (num den n : Nat) : Nat := (n + 1) * num / (den * oduLen) - n * num / (den * oduLen)

/-- The OTU frames of a channel that begin in system frame `n`, before FEC (R168). -/
def otnFrames (s : State) (c n : Nat) : List (List Byte) × State :=
  let fmt := s.f (CH_TX_CFG_TX_FMT c)
  let b := s.txBank c
  let es := if s.txFits c then s.used c b else []
  let x := s.egOf c
  let through := match es with | [e] => s.tsMask (contKey c b e) == 0 | _ => false
  let sel := s.f (CH_TX_OH_STREAM_SEL c)
  if through then
    let e := es.headD 0
    let k := contKey c b e
    let st := s.g (contStart k)
    let had := s.carOf k
    let r := carRun s c e
    let s := r.2
    let now := s.carOf k
    let ok := r.1.2 == 0 && now.sync
    let cnts := if ok then (now.cnt :: x.cnts).take 64 else x.cnts
    let div := if ok then divStep x.div cnts else if x.div = 0 then divNominal (s.g (contType k)) (s.g (contNsl k)) else x.div
    -- while no ODU frame comes, the frames of the replacement follow the divider
    let due := if r.1.1.isEmpty ∧ !ok then x.due + div else 0
    let made := oduIdle (r.1.2 == 2) x.mfas (due / (oduLen * divUnit))
    let ext := if s.exports c then extOf s c st else 0
    let l := if ok ∨ !r.1.1.isEmpty then r.1.1.zipIdx.map (fun p => (p.1, if p.2 = 0 ∧ !had.buf.isEmpty then had.ext else ext)) else made.map (fun f => (f, 0))
    let t := otuBuild s c (if sel = 4 ∨ sel = 6 then 2 else 0) 0 x.bips l
    let s := s.setCar k { now with ext := if r.1.1.isEmpty ∧ !had.buf.isEmpty then had.ext else ext }
    (t.1, s.setEg c { x with bips := t.2, cnts := cnts, div := div, due := due % (oduLen * divUnit), mfas := (x.mfas + made.length) % 256 })
  else
    let t := throughType fmt
    let num := oduRate t 0
    let k := framesDue num.1 num.2 n
    let mux := !es.isEmpty && !egAis s c
    let los := es.foldl (fun (r : List (Nat × List Byte) × State) e =>
      let a := carRun r.2 c e
      (r.1 ++ [(s.g (contTpn (contKey c b e)), a.1.1.flatten)], a.2)) ([], s)
    let s := los.2
    let per := if sel = 4 then 2 else if sel = 5 then 4 else if sel = 6 then 6 else 0
    let frame (bip : Byte) (i : Nat) : List Byte :=
      let mf := (x.mfas + i) % 256
      let gcc := if sel = 5 then txStream s c (per * i) 4 else if sel = 6 then txStream s c (per * i + 2) 4 else [0, 0, 0, 0]
      let l := muxFrame s c fmt mf bip gcc (Config.muxPayload fmt (n * 256 + i) los.1)
      l.set 6 (byte8 mf)
    let go := (List.range k).foldl (fun (r : List (List Byte × Nat) × List Byte) i =>
      let l := if mux then frame (r.2.getD 1 0) i else (oduIdle false ((x.mfas + i) % 256) 1).headD []
      (r.1 ++ [(l, 0)], [opuBip l, r.2.getD 0 0])) ([], x.bips)
    let t := otuBuild s c per 0 x.bips go.1
    (t.1, s.setEg c { x with bips := t.2, mfas := (x.mfas + k) % 256, cnts := [], div := 0, due := 0 })

/-! ### A channel's egress -/

/-- An Ethernet client out of its ODU (R168, R171): the client's octets; the lane's divider follows the counts. -/
def ethFrames (s : State) (c : Nat) : List (List Byte) × State :=
  let x := s.egOf c
  match (if s.txFits c then s.used c (s.txBank c) else []) with
  | [e] =>
    let k := contKey c (s.txBank c) e
    if !isOdu (s.g (contType k)) then ([], s)
    else
      let r := carRun s c e
      let s := r.2
      let ok := r.1.2 == 0 && (s.carOf k).sync
      let cnts := if ok then ((s.carOf k).cnt :: x.cnts).take 64 else x.cnts
      let l := if ethSends s c = 0 ∧ !r.1.1.isEmpty then [Config.clientDemap (s.g (contType k)) r.1.1.flatten] else []
      (l, s.setEg c { x with cnts := cnts, div := if ok then divStep x.div cnts else x.div })
  | _ => ([], s)

/-- What a channel sends in system frame `n` (R85): its format's framing over what the egress mapper delivers. Idle outputs, TX_FMT = 0x00 and
a bonded member send nothing. -/
def egressChannel (n : Nat) (s : State) (c : Nat) : State :=
  let fmt := s.f (CH_TX_CFG_TX_FMT c)
  let fam := fmtFam fmt
  if s.bonded c || s.outMode == 0 || fam == .none then s.setEg c egReset
  else
    let r := if fam = .sdh then sdhInject s c (stsOf (fmtRate fmt)) [sdhFrame s c n]
      else if fam = .otn then
        let t := otnFrames s c n
        let u := otuInject t.2 c t.1
        (u.1.map otuFrame, u.2)
      else ethFrames s c
    let s := r.2.setEg c { r.2.egOf c with frames := r.1 }
    if r.1.isEmpty then s else s.sendLine (.line c n r.1)

/-- Stream capacity of what a channel has sent in the ended frame (R107): the D bytes of its frames; of an OTN channel GCC0, and GCC1 and GCC2
where it originates the HO ODU. -/
def streamRoom (s : State) (c : Nat) : Nat :=
  let fam := fmtFam (s.f (CH_TX_CFG_TX_FMT c))
  let sel := s.f (CH_TX_OH_STREAM_SEL c)
  let own := !(match (if s.txFits c then s.used c (s.txBank c) else []) with | [e] => s.tsMask (contKey c (s.txBank c) e) == 0 | _ => false)
  (s.egOf c).frames.length * (if fam = .otn ∧ !own then (if sel = 4 ∨ sel = 6 then 2 else 0) else streamBytes fam sel)

/-- The stamps of the egress frames with MFAS = 0 of channels with export on (R204): EXT, and the egress timestamp point's time. -/
def depStamp (s : State) (p : Nat × Nat) : State :=
  let c := p.1
  match (s.egOf c).frames.reverse.find? (fun l => l.getD 6 0 == 0) with
  | some l =>
    if c < 192 ∧ s.exports c then
      let ns := corrected s c true (s.instant p.2) 0 / 0x10000
      s.u [(LGP_DEP_KEY_KEY (c / 12) (c % 12), ((l.getD 12 0).toNat * 256 + (l.getD 13 0).toNat) % 0x8000),
        (LGP_DEP_KEY_VALID (c / 12) (c % 12), 1), (LGP_DEP_TS_TS (c / 12) (c % 12), ns / 1000000000 % 4 * 0x40000000 + ns % 1000000000)]
    else s
  | none => s

end Sys2Proof.Machine
end

