-- ==== Sys2Proof/Machine/Ingress.lean ====
section
/-!
DEFINITION. LINE_FRAME (05_frame_alignment.md R88 to R100, 06_overhead_defects_pm.md R103 to R119): one line frame period at a lane, or
at the four lanes of a bond.
-/

namespace Sys2Proof.Machine

open Sys2Proof

/-- A line-frame boundary (R36): ingress fields of a channel in frame take effect. -/
def lineLand (s : State) (c : Nat) : State :=
  let at_ (p : PendW) : Bool := p.line == some c
  if s.inFrame c ∧ (s.chFam c = .sdh ∨ s.chFam c = .otn) then passPend at_ (landSet (fun p => at_ p && p.wait == 0) s) else s

/-- The arrival stamp of a frame with MFAS = 0 (R204): every hitless selector in ODU mode one of whose copies is a container of the channel
records its EXT and the time at the channel's ingress timestamp point. -/
def arrStamp (s : State) (c : Nat) (at_ : Nat) : State :=
  let ns := corrected s c false (s.instant at_) 0 / 0x10000
  let stamp (t : State) (k w : Nat) : State :=
    t.u [(⟨k + 4 * w, 0, 15⟩, (t.lane c).ext), (⟨k + 4 * w, 15, 1⟩, 1), (⟨k + 4 * w + 4, 0, 32⟩, ns / 1000000000 % 4 * 0x40000000 + ns % 1000000000)]
  (s.sels.filter (fun n => s.f (seScheme (selKey n)) == 2 && s.f (seTmode (selKey n)) == 1)).foldl (fun t n =>
    let t := if t.selWch n = c then stamp t (selKey n) 14 else t
    let p := t.f (sePslot (selKey n))
    if p < 98304 ∧ t.slotCh p = c then stamp t (selKey n) 23 else t) s

/-- What a frame of a channel in frame carries reaches the extension derivation, the monitors and the counters (R103 to R119, R126, R159,
R167, R194). -/
def frameIn (s : State) (c : Nat) (o : LineObs) : State :=
  let v := s.chView c
  let s := if s.chFam c = .otn then extStep s c o.ext else s
  let s := if s.chFam c = .otn ∧ o.mfas = 0 then arrStamp s c o.at_ else s
  let s := linePm (lineMonitors s c o v) c o v
  let s := match o.msi with
    | some l => msiFrame s c l
    | none => s
  let s := o.paths.foldl (fun t p => contFrame c (pathFrame v c t p) p) s
  o.tribs.foldl (tribFrame c) s

/-- SONET/SDH and OTN: the hunt, the tie or the frame at the locked position (R89 to R95). The section trace and the SS bits of a frame
that stays in frame are captured in FRAME_HUNT (R78). -/
def framePeriod (s : State) (c : Nat) (o : LineObs) : State :=
  match s.g (CH_ALN_STAT_CAR_STATE c) with
  | 1 => huntStretch s c o
  | 2 => tieStretch s c o
  | 3 =>
    let s := patternStep (frameIn s c o) c o
    if s.disc c = 3 ∧ s.inFrame c then
      tryIdentify (captureFrame s c (if rateFam (s.g (CH_DISC_STAT_RATE c)) = .otn then o.sm.tti else o.trace) o.ss) c false
    else if s.disc c = 7 ∧ s.inFrame c then s.setLane c (ssStep (s.lane c) o.ss)
    else s
  | _ => s

/-- Ethernet: the errored blocks of the system frame, and whether LOS or a loss of synchronisation has inhibited it (R112, R119). -/
def ethPeriod (s : State) (c : Nat) (o : LineObs) : State :=
  let l := s.lane c
  s.setLane c { l with ethErr := l.ethErr + o.blocks, ethDown := l.ethDown || s.chLos c || s.g (CH_ALN_STAT_BLOCK_LOCK c) == 0 }

/-- A line frame period. A bonded member has none of its own (R75), nor has a lane before FRAME_HUNT (R89). -/
def lineFrame (s : State) (c : Nat) (o : LineObs) : State :=
  if !s.laneOn c || s.bonded c || decide (s.disc c < 3) then s
  else
    let r := injLine s c o
    let o := r.1
    let s := lineLand r.2 c
    let s := if (s.lane c).bond then alignStep s c o else s
    -- the reassembled stream stops where the lanes are not deskewed (R99)
    let o := if (s.lane c).bond ∧ (s.lane c).aligned = false then { o with fas := 0, ms := [] } else o
    let s :=
      if rateFam (s.g (CH_DISC_STAT_RATE c)) = .eth then ethPeriod s c o
      else
        let was := s.inFrame c
        let s := framePeriod s c o
        ohbFrame s c o (was && s.inFrame c)
    refreshCh s c

/-- LINE_FRAME. -/
def execLineFrame (c : Fin 192) (o : LineObs) (s : State) : Host.Outcome State Fault Refusal := done (lineFrame s c o)

end Sys2Proof.Machine
end

