-- ==== Sys2Proof/Machine/Tick.lean ====
section
/-!
DEFINITION. The time base between two system-frame boundaries: the 1 µs tick (10_time_base_timestamping.md R210), the Plank's dispatch
32 µs before a boundary (03_plank_and_determinism.md R59) and the 2 µs mark of the selectors (06_overhead_defects_pm.md R116).
-/

namespace Sys2Proof.Machine

open Sys2Proof

/-- What may happen on the way to a later instant: the 2 µs mark, a boundary of dispatched actions, a dispatch of waiting ones. -/
inductive Due where
  | mark
  | tick (bns : Nat)
  | dispatch (bns : Nat)
  deriving DecidableEq, Repr

/-- The instants ahead, with what happens there; where several fall together, the mark comes first and dispatch last. A dispatch whose
time has passed is due at once (R16). -/
def dueList (s : State) : List (Nat × Due) :=
  let now := s.nowNs
  let mark := now / 125000 * 125000 + 123000
  (if now < mark then [(mark, .mark)] else []) ++
    ((s.plk.sent.filter (fun a => decide (now < a.ns))).map (fun a => (a.ns, .tick a.ns))) ++
    ((s.plk.queue.filter (fun a => decide (now < a.ns))).map (fun a => (max now (a.ns - 32000), .dispatch a.ns)))

/-- The earliest of them. -/
def firstDue : List (Nat × Due) → Option (Nat × Due)
  | [] => none
  | p :: r =>
    match firstDue r with
    | none => some p
    | some q => if p.1 ≤ q.1 then some p else some q

/-- Run time up to an instant of `dueList`. -/
def reach (s : State) (t : Nat) : State := if s.nowNs < t then tbReach s t else s

/-- One of them happens. -/
def passDue (s : State) (p : Nat × Due) : State :=
  let s := reach s p.1
  match p.2 with
  | .mark => sampleSeen s
  | .tick b => applyAt s b []
  | .dispatch b => dispatchAt s b []

/-- Everything that falls before `limit` happens. -/
def catchUp (s : State) (limit : Nat) : Nat → State
  | 0 => s
  | fuel + 1 =>
    match firstDue (dueList s) with
    | none => s
    | some p => if p.1 < limit then catchUp (passDue s p) limit fuel else s

/-- Enough for every instant ahead: an action is dispatched once and applies once. -/
def dueFuel (s : State) : Nat := 2 * (s.plk.queue.length + s.plk.sent.length) + 2

/-- PLANK_DISPATCH (R59): the actions of boundary (`sfn`, `tick`) are checked and dispatched 32 µs before it, or at once where that time
has passed. Without an action for the boundary, or where a frame tick comes first, nothing happens. -/
def plankDispatch (s : State) (sfn tick : Nat) (refused : List (Nat × Nat × Nat)) : State :=
  let b := sfn * 125000 + tick * 1000
  let t := b - 32000
  if !s.running || decide (b ≤ s.nowNs) || !s.ready 0x4000 || !s.plk.queue.any (fun a => a.ns == b) then s
  else if t ≤ s.nowNs then dispatchAt s b refused
  else if t / 125000 ≠ s.nowNs / 125000 then s
  else
    -- the other actions due before this instant come first
    let mine := s.plk.queue.filter (fun a => a.ns == b)
    let rest := s.onPlk (fun p => { p with queue := p.queue.filter (fun a => a.ns != b) })
    let s := reach (catchUp rest (t + 1) (dueFuel s)) t
    dispatchAt (s.onPlk (fun p => { p with queue := mine ++ p.queue })) b refused

/-- PLANK_DISPATCH. -/
def execPlankDispatch (sfn tick : Nat) (refused : List (Nat × Nat × Nat)) (s : State) : Host.Outcome State Fault Refusal :=
  done (plankDispatch s sfn tick refused)

/-- US_TICK (R210): the time base reaches the next multiple of 1,000 ns that is no system-frame boundary; the actions of that tick apply
(R60). -/
def usTick (s : State) : State :=
  let u := (s.nowNs / 1000 + 1) * 1000
  if !s.running || u % 125000 == 0 then s
  else
    let s := reach (catchUp s u (dueFuel s)) u
    let s := if u % 125000 = 123000 then sampleSeen s else s
    applyAt s u []

/-- US_TICK. -/
def execUsTick (s : State) : Host.Outcome State Fault Refusal := done (usTick s)

end Sys2Proof.Machine
end

