-- ==== Sys2Proof/Machine/Frame.lean ====
section
/-!
DEFINITION. FRAME_TICK (01_architecture.md R11, R12): the time base reaches the next 125 µs boundary. What the ended frame leaves, what comes
into force at the boundary, and what the frame that begins carries.
-/

namespace Sys2Proof.Machine

open Sys2Proof

/-- The lanes whose page is ready. -/
def lanesUp (s : State) : List Nat := (List.range 192).filter (fun c => s.laneOn c)

/-! ### The frame that has ended -/

/-- Egress injection (DIR 1 of Table 13-5) into what an Ethernet channel has sent: the slots count its blocks and ordered sets. -/
def egressUnits (s : State) (o : EgObs) : State :=
  if !s.injecting then s
  else
    let here (i : Nat) : Bool := bitsOf i 0 8 == o.c
    (injUnit (injUnit s 0x0D 1 here o.blocks).2 0x0E 1 here 1).2

/-- Stream bytes that the egress line frames of the ended frame could not take are discarded (R107). -/
def streamOver (s : State) (c : Nat) : State :=
  let len := ohbWord0 s (ohbKey (c / 12) (s.lineHalf (c / 12)) (c % 12) 0x400) / 256 % 1024
  if s.f (CH_TX_OH_STREAM c) = 2 ∧ streamRoom s c < len then s.occ (LGM_OHB_OVR_OCC_COUNT (c / 12)).addr else s

/-- PMC0 of an Ethernet channel: the errored blocks of the frame, unless LOS or a loss of synchronisation inhibits them (R119). -/
def ethCount (s : State) (c : Nat) : State :=
  if s.chFam c = .eth then
    let l := s.lane c
    let s := if l.ethDown then s else bipCount s c (CH_PMC_COUNT c 0) l.ethErr
    s.setLane c { s.lane c with ethErr := 0, ethDown := s.chLos c || s.g (CH_ALN_STAT_BLOCK_LOCK c) == 0 }
  else s

/-- Point 0x19: the channels whose digest leaves with its lowest bit flipped, and whether the message is corrupted after its CRC. -/
def digestInject (s : State) : (List Nat × Bool) × State :=
  if !s.injecting then (([], false), s)
  else
    (List.range 192).foldl (fun (r : (List Nat × Bool) × State) c =>
      let a := injAny r.2 0x19 (fun i => bitsOf i 0 8 == c) 1
      ((if a.1.1 ≠ 0 ∧ a.1.2 = 0 then c :: r.1.1 else r.1.1, r.1.2 || (a.1.1 != 0 && a.1.2 != 0)), a.2)) (([], false), s)

/-- The message just sent is corrupted after its CRC. -/
def spoilSent (s : State) : State :=
  match s.wire with
  | .msg p m :: w => { s with wire := .badMsg p m :: w }
  | _ => s

/-- What the digest units cover in the ended frame (R285): the line frames of each channel; of an Ethernet channel the bytes its PCS has
encoded, less those that R232 marks (R71), nothing where it sends electrical idle. -/
def digestBytes (s : State) (l : List EgObs) : List (Nat × List Byte) :=
  let eth (c : Nat) : Bool := fmtFam (s.f (CH_TX_CFG_TX_FMT c)) == .eth
  (s.eg.filter (fun p => s.laneOn p.1 && !p.2.frames.isEmpty && !eth p.1)).map (fun p => (p.1, p.2.frames.flatten)) ++
    (l.filter (fun o => s.laneOn o.c && eth o.c && ethSends s o.c != 2)).map (fun o =>
      (o.c, (o.bytes.zipIdx.filter (fun p => !o.skip.contains p.2)).map (fun p => p.1)))

/-- The digests of the ended frame `n`: shown, kept for comparison, sent to the peer of a pair (R285, R286, R310). -/
def digestFrame (s : State) (eg : List EgObs) (n : Nat) : State :=
  let d := digestAll s (digestBytes s eg) n
  let s := (digestShow s d n).onTwn (fun t => { t with digests := ((n, d) :: t.digests).take 8 })
  if !s.twinOn || !(s.mode == 3 || s.mode == 4) || !s.mirrorUp then s
  else
    let i := digestInject s
    let out := d.zipIdx.map (fun p => if i.1.1.contains p.2 then (p.1.1 ^^^ 1, p.1.2) else p.1)
    let t := i.2.sendMsg i.2.mirrorPort (.digest n out)
    if i.1.2 && t.wire != i.2.wire then spoilSent t else t

/-- What the ended frame `n` leaves behind: cells, what the lanes have sent and its digests, stamps and counters, what has entered the
stores, the VCAT sinks. -/
def frameEnd (s : State) (n : Nat) (o : FrameObs) : State :=
  let s := battFrame s n
  let ups := lanesUp s
  let s := ups.foldl (egressChannel n) s
  let s := digestFrame s o.eg n
  let s := o.dep.foldl depStamp (o.eg.foldl egressUnits (ups.foldl streamOver s))
  let s := ups.foldl ethCount s
  let s := o.odus.foldl oduIn (o.stores.foldl speIn s)
  o.vcats.foldl (fun t v => vcatFrame t n v) s

/-! ### The boundary -/

/-- The length of the datapath frame (R11). -/
def frameCyc (s : State) (cyc : Nat) : State :=
  s.u [(CLK_FRAME_CYC_CYC, cyc), (CLK_FRAME_CYC_CCLK_RANGE, bit (decide (cyc < 156094) || decide (156406 < cyc)))]

/-- Force bit `i` of the status word with key `k` in this frame. -/
def force (s : State) (k i : Nat) : State :=
  let w := tget (fun _ => (0 : Nat)) s.forced k
  { s with forced := tset (fun _ => 0) s.forced k (w ||| 2 ^ i) }

/-- The status word that FORCE_DEF names. -/
def forceKey (inst reg : Nat) : Option Nat :=
  let c := bitsOf inst 0 8
  match reg with
  | 0 => some (CH_DEF_STAT_LOS c).addr
  | 1 => some (CH_TCM_STAT_LTC1 c).addr
  | 2 => some (paStat (pathKey c (bitsOf inst 8 11) (bitsOf inst 19 5))).addr
  | _ => none

/-- One system frame of the points that force a defect (0x01, 0x0B and, at ingress, 0x0E; R291): a forced LOS acts on discovery as a real
one (R84). -/
def forceFrame (s : State) : State :=
  if !s.injecting && s.forced.isEmpty then s
  else
    let was := s.forced
    let s := { s with forced := [] }
    let s := (injTargets s 0x01).foldl (fun t i =>
      let a := injAny t 0x01 (· == i) 1
      if a.1.1 = 0 then a.2 else force a.2 (CH_DEF_STAT_LOS (bitsOf i 0 8)).addr 0) s
    let s := (injTargets s 0x0B).foldl (fun t i =>
      let a := injAny t 0x0B (· == i) 1
      if a.1.1 = 0 then a.2
      else match forceKey i (a.1.2 % 4) with
        | some k => force a.2 k (bitsOf a.1.2 4 5)
        | none => a.2) s
    let s := (injTargets s 0x0E).foldl (fun t i =>
      let a := injUnit t 0x0E 0 (· == i) 1
      if a.1.1 = 0 then a.2 else force a.2 (CH_DEF_STAT_LOS (bitsOf i 0 8)).addr (10 + min 1 a.1.2)) s
    let los (t : Tab Nat) (c : Nat) : Bool := tget (fun _ => (0 : Nat)) t (CH_DEF_STAT_LOS c).addr % 2 == 1
    let cs := (((was ++ s.forced).map (fun p => p.1)).filterMap keyCh).eraseDups
    cs.foldl (fun t c =>
      let t := refreshCh t c
      if los t.forced c && !los was c then refreshCh (afterLos t c) c else t) s

/-- The action that a held item came with. -/
def heldAction (a : ActMsg) (check : List Nat) : Action :=
  { seq := 0, sfn := a.sfn, tick := a.tick, us := a.us, items := a.items, hdr := a.hdr, master := 3, mirroredIn := true, mirrorOut := false,
    unmirrored := false, groupIn := false, late := false, peerSeq := a.peerSeq, check := check }

/-- A held write or item is replayed once its region has been applied (R306): writes taken in after the capture, items of later frames. -/
def replay (from_ : Nat) (s : State) (m : Msg) : State :=
  match m with
  | .fwdWrite a v mask master sfn => if from_ ≤ sfn then fwdApply s a v mask master else s
  | .action a check =>
    if from_ < a.sfn then a.items.foldl (fun t i => (applyItem t [] (heldAction a check) i).1) s else s
  | _ => s

/-- A standby applies a region that is whole in staging (R306): its registers act on their units, then what was held is replayed. -/
def applyRegion (s : State) (r : Nat) : State :=
  if !s.isStaged r then s
  else
    let t := applyStaged s r
    let here (p : Nat × Word) : Bool := (regionBits p.1).any (fun q => q.1 == r) && s.rd p.1 != t.rd p.1
    let t := landKeys s t ((((s.regs ++ t.regs).filter here).map (fun p => p.1)).eraseDups)
    let mine := (t.twn.held.filter (fun p => p.1 == r)).map (fun p => p.2)
    let t := t.onTwn (fun x => { x with held := x.held.filter (fun p => p.1 != r) })
    mine.foldl (replay (tget (fun _ => 0) t.twn.captureAt r)) t

/-- A standby's staged regions apply at the first boundary after they are whole. -/
def applyRegions (s : State) : State :=
  if s.mode = 4 ∧ s.twn.stagedMap ≠ 0 then (List.range 100).foldl applyRegion s else s

/-- The key of a channel's TX_CFG. -/
def isTxCfg (k : Nat) : Bool := entrySp k == 0 && pageKind (k % 0x100000000) == some .ch && k % 0x1000 == 0x50

/-- Direct writes, admissions and actions at boundary `n` (R36, R48, R60, R61, R80, R86): writes due, but TX_FMT, come into force; the host's
admissions, the actions in order and AUTO_ADMIT follow; then the writes of TX_FMT that no admission has overwritten. -/
def boundaryWrites (s : State) (n b : Nat) : State :=
  let due (p : PendW) : Bool := atFrame s p && p.wait == 0
  let first := s.pend.filter (fun p => due p && !isTxCfg p.addr)
  let s := landSet (fun p => due p && !isTxCfg p.addr) s
  let waits (t : State) (c : Nat) : Bool := (t.lane c).adm.isSome || (t.lane c).auto
  let admitLane (t : State) (c : Nat) : State := if (t.lane c).adm.isSome then refreshCh (hostAdmit t n c) c else t
  let s := (lanesUp s).foldl admitLane s
  let s := applyAt s b first
  let s := (lanesUp s).foldl (fun t c => if waits t c then refreshCh (autoAdmit t n c) c else t) s
  let s := landSet (fun p => atFrame s p && p.wait == 0) s
  passPend (atFrame s) s

/-- A channel in HOLD_OFF returns (R84). -/
def holdReturns (s : State) : State :=
  (lanesUp s).foldl (fun t c => if t.disc c = 7 then refreshCh (holdReturn t c) c else t) s

/-! ### Consequent actions (R117, R118) -/

/-- The actions of a channel (Table 6-7) as bits. -/
def caChannel (s : State) (c : Nat) : Nat :=
  if s.disc c ≠ 6 then 0
  else
    let st := seenFld s ⟨(CH_DEF_STAT_LOS c).addr, 0, 18⟩
    let fam := fmtFam (s.g (CH_DISC_STAT_ADM_FMT c))
    let back := fmtFam (s.f (CH_TX_CFG_TX_FMT c)) == fam
    let sdh := fam == .sdh
    let otn := fam == .otn
    flags [st &&& 0x13D != 0, st &&& 0x80 != 0, sdh && back && st &&& 0xA5 != 0, sdh && back && (s.lane c).back != 0,
      otn && back && st &&& 0xBD != 0, otn && back && (s.lane c).back != 0, false, false, otn && st &&& 0x30000 != 0,
      fam == .eth && seenFld s (CH_SFSD_SF c) == 1] &&& (s.f (CH_CA_MASK_MASK c) ^^^ 0x3FF)

/-- The actions of one of its paths. -/
def caPath (s : State) (c ix : Nat) : Nat :=
  if s.disc c ≠ 6 then 0
  else
    let w := seenFld s (paStat (pathKey c (ix / 32 % 2048) 0))
    let otn := fmtFam (s.g (CH_DISC_STAT_ADM_FMT c)) == .otn
    flags [false, false, false, false, false, false, !otn && w &&& 0x2 != 0, !otn && w &&& 0x64 != 0, otn && w &&& 0x60 != 0] &&&
      (s.f (CH_CA_MASK_MASK c) ^^^ 0x3FF)

/-- The paths of a channel that are no tributaries. -/
def mainPaths (s : State) (c : Nat) : List Nat := (s.chPaths c).filter (fun ix => ix % 32 == 0)

/-- The downstream actions, which start and end at system-frame boundaries. -/
def caDown : Nat := 0x3C3

/-- The actions in force from this boundary; a downstream one that starts or ends makes an edge frame (R118). -/
def caFrame (s : State) : State :=
  (lanesUp s).foldl (fun t c =>
    let live := (c, caChannel t c) :: (mainPaths t c).map (fun ix => (pathKey c (ix / 32 % 2048) 0, caPath t c ix))
    let gone := t.ca.filter (fun p => entrySp p.1 == 1 && entryIx p.1 / 65536 == c && !live.any (fun q => q.1 == p.1))
    let l := live ++ gone.map (fun p => (p.1, 0))
    let moved := l.any (fun p => (p.2 ^^^ tget (fun _ => 0) t.ca p.1) &&& caDown != 0)
    let t := { t with ca := l.foldl (fun (a : Tab Nat) p => tset (fun _ => 0) a p.1 p.2) t.ca }
    if moved then markEdge t c else t) s

/-! ### The frame that begins -/

/-- An active entry cannot read its slot through its batt path in this frame (R134). -/
def battMiss (s : State) (p g : Nat) : Bool :=
  let k := bpKey p
  let first := s.f (bpFirst k)
  let lost : Bool := match (s.ringsOf p)[g - first]? with
    | none => true
    | some r => !s.ready 0xB000 || !cellValid (s.cellOf r (s.sfn - bpDelayFr s p)) (s.sfn - bpDelayFr s p)
  s.f (bpEn k) == 0 || decide (g < first) || decide (first + s.f (bpNslot k) ≤ g) ||
    (if s.f (bpMode k) = 1 then battVia s p g == .ais else s.f (bpDelay k) != 0 && lost)

/-- STAT.BPATH_MISS and BPATH_SLOT (R134, R146). -/
def bpathShow (s : State) : State :=
  let miss := (((s.tsi.ent.filter (fun p => p.1 / 0x100000 == s.icActive false)).map (fun p => p.1 % 0x100000))).filter (fun e =>
    match s.egressFrom e with
    | .batt p g => battMiss s p g
    | _ => false)
  s.u [(IC_STAT_BPATH_MISS tsiPage, bit (!miss.isEmpty)), (IC_BPATH_SLOT_SLOT tsiPage, miss.foldl min (miss.headD 0))]

/-- Lower-order outputs that an uncorrectable entry of the lower-order stage touches (R151). -/
def loxOutputs (s : State) (w : Nat) : List Nat :=
  if 0x4000 ≤ w then [(w - 0x4000) / 28]
  else if 0x800 ≤ w then [w - 0x800]
  else
    ((s.lox.ent.filter (fun p => p.1 / 0x100000 == s.icActive true && decide (0x4000 ≤ p.1 % 0x100000) && wordGet p.2 16 2 == 0 &&
      wordGet p.2 0 11 == w)).map (fun p => (p.1 % 0x100000 - 0x4000) / 28)).eraseDups

/-- Channels whose egress an uncorrectable active entry turns into AIS fill: outside the Same-Output Guarantee (R144, R286). -/
def entryUncov (s : State) (n : Nat) : State :=
  let bad (x : Ic) (lox : Bool) : List Nat :=
    (x.bad.filter (fun p => p.2 == 2 && p.1 / 0x100000 == s.icActive lox)).map (fun p => p.1 % 0x100000)
  let outs := (bad s.lox true).flatMap (loxOutputs s)
  let through := (s.tsi.ent.map (fun p => p.1 % 0x100000)).filter (fun e =>
    match s.egressFrom e with
    | .lower j => outs.contains j
    | _ => false)
  (((bad s.tsi false ++ through).filter (fun e => decide (e < 98304))).map (fun e => s.slotCh e)).eraseDups.foldl (fun t c => markUncov t c n) s

/-- A port in state SLOTS sends its superframe of frame `n` (R334, R335): the through-slots that carry no AIS fill, which in QUARANTINE with
Q_OUT = 1 are none (R382); idle outputs send nothing (R20). Point 0x18 spoils codewords. Its start marker leaves `lm` says how long after
the boundary and is stamped; the stamps of the superframe before it go to the peer (R233; when is a DESIGN CHOICE, log 78). -/
def superSend (n : Nat) (lm : List (Nat × Nat)) (s : State) (p : Nat) : State :=
  if !s.portSlots p || s.outMode == 0 then s
  else
    let a := injAny s 0x18 (· == p) 4882
    let s := a.2
    let slots := if s.outMode = 1 then [] else (List.range 3744).filterMap (fun k =>
      match s.egressSlot (98304 + 3744 * p + k) with
      | .unequipped => some (k, 2, [])
      | .data b => some (k, 0, b)
      | .ais => none)
    let s := markerOut (s.send (.superframe p n a.1.1 (if a.1.1 = 0 then 0 else a.1.2) slots)) p n ((lm.lookup p).getD 0)
    match ttMessage s p (n - 1) with
    | some m => s.sendMsg p m
    | none => s

/-- Latency samples of the egress slots that gauges watch (R404, Table 19-1): of a line slot fed by a line slot through the interchange,
both channels in service. -/
def latencies (s : State) (l : List (Nat × Nat)) : State :=
  let ok (t : State) (e g : Nat) : Bool := decide (e < 98304) && decide (g < 98304) && t.disc (t.slotCh g) == 6 && t.disc (t.slotCh e) == 6
  l.foldl (fun t p =>
    match t.egressFrom p.1 with
    | .slot g => if ok t p.1 g then gaugeSample t 1 p.1 (Int.ofNat p.2) else t
    | .batt _ g => if ok t p.1 g then gaugeSample t 1 p.1 (Int.ofNat p.2) else t
    | _ => t) s

/-- The requested snapshot (R45): one of its own beside that of an item for the same boundary (DESIGN CHOICE, log 68). -/
def snapFrame (s : State) (n : Nat) : State :=
  match s.snap with
  | none => s
  | some 0 => ({ snapTake s n with snap := none }).u [(DEV_SNAP_TAKE, 0)]
  | some (k + 1) => { s with snap := some k }

/-- What the ingress slots and the lower-order outputs carry in frame `n` (R129, R148); a store that has overflowed or run dry is an event of
crossing 0x01 (R164, R18). -/
def slotsBegin (s : State) (n : Nat) (o : FrameObs) : State :=
  let r := slotFrame s n (lanesUp s) o.vcats
  s.sels.foldl hitlessFrame <| lowerFrame (xingInject (r.1.foldl (fun t c => xingEvent t 1 c) r.2)) n

/-- No selector has moved yet at this boundary. -/
def selsRest (s : State) : State :=
  (s.sel.filter (fun p => p.2.moved)).foldl (fun t p => t.setSel p.1 { t.selOf p.1 with moved := false }) s

/-- The boundary of frame `n`, at `b` ns. -/
def frameBegin (s : State) (n b : Nat) (o : FrameObs) : State :=
  let s := forceFrame (frameCyc (selsRest { s with edge := [], xingAis := [], battLate := [] }) o.cyc)
  let s := tvwFrame (eligibleTick (applyRegions (twinStandbyTick s n)) n)
  let s := holdReturns (boundaryWrites s n b)
  let s := parBoundary (modeBoundary (injBoundary s))
  let s := caFrame (twinActiveTick s n)
  let s := snapFrame s n
  let s := (List.range 16).foldl ohbSwap s
  let s := staleUncov (entryUncov (icFrame (icFrame s false) true) n) n
  let s := s.sels.foldl selBoundary s
  let s := (List.range 64).foldl feTick s
  let s := slotsBegin (o.det.foldl signalAppears s) n o
  let s := (List.range 8).foldl (superSend n o.lm) (bpathShow s)
  prfCount (latencies (calTick s) o.lat) 15 (fun _ => true)

/-- FRAME_TICK: only while the time base runs. -/
def frameTick (s : State) (o : FrameObs) : State :=
  if !s.running then s
  else
    let n := s.sfn + 1
    let b := n * 125000
    let s := catchUp s b (dueFuel s)
    frameBegin (reach (frameEnd s (n - 1) o) b) n b o

/-- FRAME_TICK. -/
def execFrameTick (o : FrameObs) (s : State) : Host.Outcome State Fault Refusal := done (frameTick s o)

end Sys2Proof.Machine
end

