-- ==== Sys2Proof/Machine/Dispatch.lean ====
section
/-!
DEFINITION. One arm per command: a direct call of its meaning, or the rejection by name of a command that has none yet.
-/

namespace Sys2Proof.Machine

open Sys2Proof

def exec (i : Instr) (s : State) : Host.Outcome State Fault Refusal :=
  match i with
  | .powerOn bothDown => Sys2Proof.Machine.execPowerOn bothDown s
  | .resetNAssert ns => Sys2Proof.Machine.execResetNAssert ns s
  | .brownOut => Sys2Proof.Machine.execBrownOut s
  | .seqViolation kind inService => Sys2Proof.Machine.execSeqViolation kind inService s
  | .internalResetEnd s1 s2 s3 refs => Sys2Proof.Machine.execInternalResetEnd s1 s2 s3 refs s
  | .fuseReadComplete crcOk fact => Sys2Proof.Machine.execFuseReadComplete crcOk fact s
  | .coreCfgWrite m v => Sys2Proof.Machine.execCoreCfgWrite m v s
  | .corePllRelock => Sys2Proof.Machine.execCorePllRelock s
  | .coreClockLockLoss cclk eclk sclk => Sys2Proof.Machine.execCoreClockLockLoss cclk eclk sclk s
  | .mclkLockLoss => Sys2Proof.Machine.execMclkLockLoss s
  | .refLoss input => Sys2Proof.Machine.execRefLoss input s
  | .memPllLockLoss => Sys2Proof.Machine.execMemPllLockLoss s
  | .crossingOverflow xid index => Sys2Proof.Machine.execCrossingOverflow xid index s
  | .frameTick o => Sys2Proof.Machine.execFrameTick o s
  | .usTick => Sys2Proof.Machine.execUsTick s
  | .registerWrite m a v be late hw => Sys2Proof.Machine.execRegisterWrite m a v be late hw s
  | .lgPostedWrite m lg l => Sys2Proof.Machine.execLgPostedWrite m lg l s
  | .postedWriteLand lg late => Sys2Proof.Machine.execPostedWriteLand lg late s
  | .lgReadComplete m lg off late => Sys2Proof.Machine.execLgReadComplete m lg off late s
  | .pageLock m page => Sys2Proof.Machine.execPageLock m page s
  | .parActWrite m page v => Sys2Proof.Machine.execParActWrite m page v s
  | .parityScanPass us bad => Sys2Proof.Machine.execParityScanPass us bad s
  | .pageSrst m page => Sys2Proof.Machine.execPageSrst m page s
  | .cntClr m page => Sys2Proof.Machine.execCntClr m page s
  | .counterPreset m a v n => Sys2Proof.Machine.execCounterPreset m a v n s
  | .occAckWrite m a ack => Sys2Proof.Machine.execOccAckWrite m a ack s
  | .counterLowRead m a => Sys2Proof.Machine.execCounterLowRead m a s
  | .snapTake m late => Sys2Proof.Machine.execSnapTake m late s
  | .stItemBWrite m arg => Sys2Proof.Machine.execStItemBWrite m arg s
  | .admitCmd m => Sys2Proof.Machine.execAdmitCmd m s
  | .cancel m => Sys2Proof.Machine.execCancel m s
  | .clear m => Sys2Proof.Machine.execClear m s
  | .plankDispatch sfn tick refused => Sys2Proof.Machine.execPlankDispatch sfn tick refused s
  | .rdIdxWrite m idx => Sys2Proof.Machine.execRdIdxWrite m idx s
  | .find m => Sys2Proof.Machine.execFind m s
  | .findComplete m => Sys2Proof.Machine.execFindComplete m s
  | .actionMessageRx e a check => Sys2Proof.Machine.execActionMessageRx e a check s
  | .signalDetect c => Sys2Proof.Machine.execSignalDetect c s
  | .signalDetectLoss c held => Sys2Proof.Machine.execSignalDetectLoss c held s
  | .rateDwellExpiry c => Sys2Proof.Machine.execRateDwellExpiry c s
  | .cdrLock c => Sys2Proof.Machine.execCdrLock c s
  | .frameHuntTimeout c => Sys2Proof.Machine.execFrameHuntTimeout c s
  | .traceWaitExpiry c => Sys2Proof.Machine.execTraceWaitExpiry c s
  | .admitGo m c late => Sys2Proof.Machine.execAdmitGo m c late s
  | .admittedExpiry c => Sys2Proof.Machine.execAdmittedExpiry c s
  | .rehuntExpiry c => Sys2Proof.Machine.execRehuntExpiry c s
  | .holdOffExpiry c => Sys2Proof.Machine.execHoldOffExpiry c s
  | .start m lg => Sys2Proof.Machine.execStart m lg s
  | .eyeMeasureDone lg free width height => Sys2Proof.Machine.execEyeMeasureDone lg free width height s
  | .lineFrame c o => Sys2Proof.Machine.execLineFrame c o s
  | .tieWindowClose c => Sys2Proof.Machine.execTieWindowClose c s
  | .lofDeclare c => Sys2Proof.Machine.execLofDeclare c s
  | .lofClear c => Sys2Proof.Machine.execLofClear c s
  | .lomDeclare c => Sys2Proof.Machine.execLomDeclare c s
  | .lomClear c => Sys2Proof.Machine.execLomClear c s
  | .lolDeclare c => Sys2Proof.Machine.execLolDeclare c s
  | .lolClear c => Sys2Proof.Machine.execLolClear c s
  | .blockLockChange c lock => Sys2Proof.Machine.execBlockLockChange c lock s
  | .losDeclare lane energyOnly => Sys2Proof.Machine.execLosDeclare lane energyOnly s
  | .losClear lane => Sys2Proof.Machine.execLosClear lane s
  | .defectDeclare e d => Sys2Proof.Machine.execDefectDeclare e d s
  | .defectClear e d => Sys2Proof.Machine.execDefectClear e d s
  | .otnDefectDeclare e d => Sys2Proof.Machine.execOtnDefectDeclare e d s
  | .otnDefectClear e d => Sys2Proof.Machine.execOtnDefectClear e d s
  | .ethDefectChange c d on => Sys2Proof.Machine.execEthDefectChange c d on s
  | .tribDefectDeclare lg kind num d on => Sys2Proof.Machine.execTribDefectDeclare lg kind num d on s
  | .pwRead m lg => Sys2Proof.Machine.execPwRead m lg s
  | .pwWrite m lg late => Sys2Proof.Machine.execPwWrite m lg late s
  | .tmRead m lg => Sys2Proof.Machine.execTmRead m lg s
  | .tmWrite m lg late => Sys2Proof.Machine.execTmWrite m lg late s
  | .tsiWindowWrite m off v => Sys2Proof.Machine.execTsiWindowWrite m off v s
  | .seal m => Sys2Proof.Machine.execSeal m s
  | .sealDone => Sys2Proof.Machine.execSealDone s
  | .abandon m copied => Sys2Proof.Machine.execAbandon m copied s
  | .copyActive m => Sys2Proof.Machine.execCopyActive m s
  | .copyActiveDone => Sys2Proof.Machine.execCopyActiveDone s
  | .loxWindowWrite m off v => Sys2Proof.Machine.execLoxWindowWrite m off v s
  | .loxSeal m => Sys2Proof.Machine.execLoxSeal m s
  | .loxSealDone => Sys2Proof.Machine.execLoxSealDone s
  | .loxAbandon m copied => Sys2Proof.Machine.execLoxAbandon m copied s
  | .loxCopyActive m => Sys2Proof.Machine.execLoxCopyActive m s
  | .loxCopyActiveDone => Sys2Proof.Machine.execLoxCopyActiveDone s
  | .mwRead m lg => Sys2Proof.Machine.execMwRead m lg s
  | .mwWrite m lg => Sys2Proof.Machine.execMwWrite m lg s
  | .check m lg => Sys2Proof.Machine.execCheck m lg s
  | .checkDone lg => Sys2Proof.Machine.execCheckDone lg s
  | .vgRead m lg => Sys2Proof.Machine.execVgRead m lg s
  | .vgWrite m lg late => Sys2Proof.Machine.execVgWrite m lg late s
  | .containerAcquired c e tx => Sys2Proof.Machine.execContainerAcquired c e tx s
  | .clientFrameMap c frame raw => Sys2Proof.Machine.execClientFrameMap c frame raw s
  | .gfpFrameRx c o raw => Sys2Proof.Machine.execGfpFrameRx c o raw s
  | .csfSend c => Sys2Proof.Machine.execCsfSend c s
  | .lcasMemberFail lg g mem => Sys2Proof.Machine.execLcasMemberFail lg g mem s
  | .lcasMemberRestore lg g mem => Sys2Proof.Machine.execLcasMemberRestore lg g mem s
  | .selectorAdmit n => Sys2Proof.Machine.execSelectorAdmit n s
  | .selectorAdmitRetry n => Sys2Proof.Machine.execSelectorAdmitRetry n s
  | .wtrExpiry n => Sys2Proof.Machine.execWtrExpiry n s
  | .swRead m lg => Sys2Proof.Machine.execSwRead m lg s
  | .swWrite m lg late => Sys2Proof.Machine.execSwWrite m lg late s
  | .hitlessAcquired n diffs period => Sys2Proof.Machine.execHitlessAcquired n diffs period s
  | .hitlessFrameDue n o => Sys2Proof.Machine.execHitlessFrameDue n o s
  | .delayStep n copyP slacks => Sys2Proof.Machine.execDelayStep n copyP slacks s
  | .realignAuto n => Sys2Proof.Machine.execRealignAuto n s
  | .load m => Sys2Proof.Machine.execLoad m s
  | .nowNsRead m => Sys2Proof.Machine.execNowNsRead m s
  | .tbIncWrite m v => Sys2Proof.Machine.execTbIncWrite m v s
  | .slewStep => Sys2Proof.Machine.execSlewStep s
  | .holdover => Sys2Proof.Machine.execHoldover s
  | .portTimestamp port tx id kind raw deskew => Sys2Proof.Machine.execPortTimestamp port tx id kind raw deskew s
  | .rxPop m => Sys2Proof.Machine.execRxPop m s
  | .txPop m => Sys2Proof.Machine.execTxPop m s
  | .timingPortFrameTx p ctrl frame raw => Sys2Proof.Machine.execTimingPortFrameTx p ctrl frame raw s
  | .timingPortFrameRx p frame raw => Sys2Proof.Machine.execTimingPortFrameRx p frame raw s
  | .ttStampRx e k departure arrival valid ownDeparture ownArrival => Sys2Proof.Machine.execTtStampRx e k departure arrival valid ownDeparture ownArrival s
  | .ttResult p => Sys2Proof.Machine.execTtResult p s
  | .ppsInEdge falling raw => Sys2Proof.Machine.execPpsInEdge falling raw s
  | .ppsPulseStart => Sys2Proof.Machine.execPpsPulseStart s
  | .ppsPulseEnd => Sys2Proof.Machine.execPpsPulseEnd s
  | .arm m => Sys2Proof.Machine.execArm m s
  | .todSendStart => Sys2Proof.Machine.execTodSendStart s
  | .todSendDone => Sys2Proof.Machine.execTodSendDone s
  | .txAbandon => Sys2Proof.Machine.execTxAbandon s
  | .todRxMessage bytes raw => Sys2Proof.Machine.execTodRxMessage bytes raw s
  | .feAdd e => Sys2Proof.Machine.execFeAdd e s
  | .feSub e => Sys2Proof.Machine.execFeSub e s
  | .feAnd e => Sys2Proof.Machine.execFeAnd e s
  | .feOr e => Sys2Proof.Machine.execFeOr e s
  | .feXor e => Sys2Proof.Machine.execFeXor e s
  | .feShl e => Sys2Proof.Machine.execFeShl e s
  | .feShr e => Sys2Proof.Machine.execFeShr e s
  | .feSha e => Sys2Proof.Machine.execFeSha e s
  | .feClt e => Sys2Proof.Machine.execFeClt e s
  | .feCltu e => Sys2Proof.Machine.execFeCltu e s
  | .feMul e => Sys2Proof.Machine.execFeMul e s
  | .feMulhi e => Sys2Proof.Machine.execFeMulhi e s
  | .feAddk e => Sys2Proof.Machine.execFeAddk e s
  | .feAndk e => Sys2Proof.Machine.execFeAndk e s
  | .feOrk e => Sys2Proof.Machine.execFeOrk e s
  | .feXork e => Sys2Proof.Machine.execFeXork e s
  | .feCltk e => Sys2Proof.Machine.execFeCltk e s
  | .feKhi e => Sys2Proof.Machine.execFeKhi e s
  | .feShlk e => Sys2Proof.Machine.execFeShlk e s
  | .feShrk e => Sys2Proof.Machine.execFeShrk e s
  | .feShak e => Sys2Proof.Machine.execFeShak e s
  | .feLdw e => Sys2Proof.Machine.execFeLdw e s
  | .feLdh e => Sys2Proof.Machine.execFeLdh e s
  | .feLdhu e => Sys2Proof.Machine.execFeLdhu e s
  | .feLdb e => Sys2Proof.Machine.execFeLdb e s
  | .feLdbu e => Sys2Proof.Machine.execFeLdbu e s
  | .feStw e => Sys2Proof.Machine.execFeStw e s
  | .feSth e => Sys2Proof.Machine.execFeSth e s
  | .feStb e => Sys2Proof.Machine.execFeStb e s
  | .feOldw e => Sys2Proof.Machine.execFeOldw e s
  | .feOldbu e => Sys2Proof.Machine.execFeOldbu e s
  | .feOstw e => Sys2Proof.Machine.execFeOstw e s
  | .feOstb e => Sys2Proof.Machine.execFeOstb e s
  | .feBld e => Sys2Proof.Machine.execFeBld e s
  | .feBst e => Sys2Proof.Machine.execFeBst e s
  | .busOpComplete e => Sys2Proof.Machine.execBusOpComplete e s
  | .feBsync e => Sys2Proof.Machine.execFeBsync e s
  | .feBreq e => Sys2Proof.Machine.execFeBreq e s
  | .feBrne e => Sys2Proof.Machine.execFeBrne e s
  | .feBrlt e => Sys2Proof.Machine.execFeBrlt e s
  | .feBrge e => Sys2Proof.Machine.execFeBrge e s
  | .feBrlo e => Sys2Proof.Machine.execFeBrlo e s
  | .feBrhs e => Sys2Proof.Machine.execFeBrhs e s
  | .feCall e => Sys2Proof.Machine.execFeCall e s
  | .feJmp e => Sys2Proof.Machine.execFeJmp e s
  | .feWait e => Sys2Proof.Machine.execFeWait e s
  | .feRdc e => Sys2Proof.Machine.execFeRdc e s
  | .feWrc e => Sys2Proof.Machine.execFeWrc e s
  | .feCrcb e => Sys2Proof.Machine.execFeCrcb e s
  | .feCrcw e => Sys2Proof.Machine.execFeCrcw e s
  | .feHalt e => Sys2Proof.Machine.execFeHalt e s
  | .feWatchdog e => Sys2Proof.Machine.execFeWatchdog e s
  | .feTimerExpiry e => Sys2Proof.Machine.execFeTimerExpiry e s
  | .hdlcRxPass e => Sys2Proof.Machine.execHdlcRxPass e s
  | .hdlcTxPass e caps stamps => Sys2Proof.Machine.execHdlcTxPass e caps stamps s
  | .hInDbWrite m e v core => Sys2Proof.Machine.execHInDbWrite m e v core s
  | .hOutAckWrite m e v core => Sys2Proof.Machine.execHOutAckWrite m e v core s
  | .hInDWrite m e d v core => Sys2Proof.Machine.execHInDWrite m e d v core s
  | .feStart m e => Sys2Proof.Machine.execFeStart m e s
  | .feStop m e => Sys2Proof.Machine.execFeStop m e s
  | .feStopDone e => Sys2Proof.Machine.execFeStopDone e s
  | .feCheck m e => Sys2Proof.Machine.execFeCheck m e s
  | .feCheckDone e => Sys2Proof.Machine.execFeCheckDone e s
  | .feWindowWrite m e off v => Sys2Proof.Machine.execFeWindowWrite m e off v s
  | .feScrub e w => Sys2Proof.Machine.execFeScrub e w s
  | .battReadReturn p n o => Sys2Proof.Machine.execBattReadReturn p n o s
  | .battScrubRead ch cw cls passMs => Sys2Proof.Machine.execBattScrubRead ch cw cls passMs s
  | .pathRead m => Sys2Proof.Machine.execPathRead m s
  | .pathWrite m late => Sys2Proof.Machine.execPathWrite m late s
  | .battWindowAccess m off w cls => Sys2Proof.Machine.execBattWindowAccess m off w cls s
  | .memChannelTrained ch ok => Sys2Proof.Machine.execMemChannelTrained ch ok s
  | .pounceUnitComplete u bytes carried fcs32 => Sys2Proof.Machine.execPounceUnitComplete u bytes carried fcs32 s
  | .go m late => Sys2Proof.Machine.execGo m late s
  | .stop m late => Sys2Proof.Machine.execStop m late s
  | .heartbeatSend => Sys2Proof.Machine.execHeartbeatSend s
  | .heartbeat e b => Sys2Proof.Machine.execHeartbeat e b s
  | .mirrorLinkLoss => Sys2Proof.Machine.execMirrorLinkLoss s
  | .fwdWrite e addr val mask master sfn => Sys2Proof.Machine.execFwdWrite e addr val mask master sfn s
  | .digest e first n d => Sys2Proof.Machine.execDigest e first n d s
  | .copy e region gen sfn offset data last => Sys2Proof.Machine.execCopy e region gen sfn offset data last s
  | .copyAck e region gen => Sys2Proof.Machine.execCopyAck e region gen s
  | .join m => Sys2Proof.Machine.execJoin m s
  | .joinRx e pairId version => Sys2Proof.Machine.execJoinRx e pairId version s
  | .accept e c => Sys2Proof.Machine.execAccept e c s
  | .refuse e code => Sys2Proof.Machine.execRefuse e code s
  | .joinTimeout => Sys2Proof.Machine.execJoinTimeout s
  | .serve m => Sys2Proof.Machine.execServe m s
  | .leave m => Sys2Proof.Machine.execLeave m s
  | .forceTakeover m => Sys2Proof.Machine.execForceTakeover m s
  | .claimInChange level => Sys2Proof.Machine.execClaimInChange level s
  | .takeoverDecision => Sys2Proof.Machine.execTakeoverDecision s
  | .takeover => Sys2Proof.Machine.execTakeover s
  | .claimConflict => Sys2Proof.Machine.execClaimConflict s
  | .tvwEnd swing => Sys2Proof.Machine.execTvwEnd swing s
  | .convTimeout => Sys2Proof.Machine.execConvTimeout s
  | .helloSend p => Sys2Proof.Machine.execHelloSend p s
  | .hello e h => Sys2Proof.Machine.execHello e h s
  | .memberDepart n => Sys2Proof.Machine.execMemberDepart n s
  | .result e origin status reason applied index => Sys2Proof.Machine.execResult e origin status reason applied index s
  | .groupCancelRx e origin => Sys2Proof.Machine.execGroupCancelRx e origin s
  | .proxyAccess m off write be data => Sys2Proof.Machine.execProxyAccess m off write be data s
  | .rraReq e tag off write be data => Sys2Proof.Machine.execRraReq e tag off write be data s
  | .rraRsp e tag status data => Sys2Proof.Machine.execRraRsp e tag status data s
  | .proxyTimeout tag => Sys2Proof.Machine.execProxyTimeout tag s
  | .superframeRx p o => Sys2Proof.Machine.execSuperframeRx p o s
  | .retryTimeout p bulk => Sys2Proof.Machine.execRetryTimeout p bulk s
  | .ptpMessageRx e ctrl frame => Sys2Proof.Machine.execPtpMessageRx e ctrl frame s
  | .gelvyLaneLos p => Sys2Proof.Machine.execGelvyLaneLos p s
  | .gelvyTrained p => Sys2Proof.Machine.execGelvyTrained p s
  | .pcieWriteTlp sp addr l late => Sys2Proof.Machine.execPcieWriteTlp sp addr l late s
  | .pcieReadTlp sp addr n late cls => Sys2Proof.Machine.execPcieReadTlp sp addr n late cls s
  | .pcieReset kind p d => Sys2Proof.Machine.execPcieReset kind p d s
  | .dmaTailWrite m c tail => Sys2Proof.Machine.execDmaTailWrite m c tail s
  | .dmaDescriptorDone c addr len ctrl frame raw err => Sys2Proof.Machine.execDmaDescriptorDone c addr len ctrl frame raw err s
  | .wrDirect code off v pecOk count late => Sys2Proof.Machine.execWrDirect code off v pecOk count late s
  | .rdDirect code off count => Sys2Proof.Machine.execRdDirect code off count s
  | .setAddr a pecOk count => Sys2Proof.Machine.execSetAddr a pecOk count s
  | .wrInd v pecOk count late slow => Sys2Proof.Machine.execWrInd v pecOk count late slow s
  | .rdInd late slow cls => Sys2Proof.Machine.execRdInd late slow cls s
  | .status => Sys2Proof.Machine.execStatus s
  | .smbusStretchLimit => Sys2Proof.Machine.execSmbusStretchLimit s
  | .smbusTimeout p => Sys2Proof.Machine.execSmbusTimeout p s
  | .masterReset m p => Sys2Proof.Machine.execMasterReset m p s
  | .jtagBusAccess a write be v late cls => Sys2Proof.Machine.execJtagBusAccess a write be v late cls s
  | .extest on => Sys2Proof.Machine.execExtest on s
  | .hatterBoot => Sys2Proof.Machine.execHatterBoot s
  | .hatterBootTimeout => Sys2Proof.Machine.execHatterBootTimeout s
  | .hatterWatchdog older => Sys2Proof.Machine.execHatterWatchdog older s
  | .restart m => Sys2Proof.Machine.execRestart m s
  | .h2cDbWrite m v => Sys2Proof.Machine.execH2cDbWrite m v s
  | .getInfo => Sys2Proof.Machine.execGetInfo s
  | .imgWrite ok upto => Sys2Proof.Machine.execImgWrite ok upto s
  | .imgErase ok upto => Sys2Proof.Machine.execImgErase ok upto s
  | .imgCommit ok => Sys2Proof.Machine.execImgCommit ok s
  | .feLoad => Sys2Proof.Machine.execFeLoad s
  | .c2hAckWrite m v => Sys2Proof.Machine.execC2hAckWrite m v s
  | .remapSwap m v => Sys2Proof.Machine.execRemapSwap m v s
  | .eoi m v => Sys2Proof.Machine.execEoi m v s
  | .msixUnmask v => Sys2Proof.Machine.execMsixUnmask v s
  | .bringup m => Sys2Proof.Machine.execBringup m s
  | .solo m late => Sys2Proof.Machine.execSolo m late s
  | .quarantine m late => Sys2Proof.Machine.execQuarantine m late s
  | .release m late => Sys2Proof.Machine.execRelease m late s
  | .pageReady page ok => Sys2Proof.Machine.execPageReady page ok s
  | .fatalCause bit => Sys2Proof.Machine.execFatalCause bit s
  | .regionMeasure temps volts => Sys2Proof.Machine.execRegionMeasure temps volts s
  | .lcalRun m lg => Sys2Proof.Machine.execLcalRun m lg s
  | .tcalRun m => Sys2Proof.Machine.execTcalRun m s
  | .mcalRun m => Sys2Proof.Machine.execMcalRun m s
  | .calPeriodExpiry kind target => Sys2Proof.Machine.execCalPeriodExpiry kind target s
  | .blockingRunStart kind target => Sys2Proof.Machine.execBlockingRunStart kind target s
  | .blockingRunComplete kind target rx tx dq fig0 fig1 => Sys2Proof.Machine.execBlockingRunComplete kind target rx tx dq fig0 fig1 s
  | .blockingRunAbort kind target code => Sys2Proof.Machine.execBlockingRunAbort kind target code s
  | .mismatch lane => Sys2Proof.Machine.execMismatch lane s
  | .prog m low => Sys2Proof.Machine.execProg m low s
  | .fuseProgDone ok => Sys2Proof.Machine.execFuseProgDone ok s
  | .fuseProgAbort n part => Sys2Proof.Machine.execFuseProgAbort n part s
  | .gaugeClear m => Sys2Proof.Machine.execGaugeClear m s
  | .gWr m v => Sys2Proof.Machine.execGWr m v s
  | .traceStart m => Sys2Proof.Machine.execTraceStart m s
  | .traceStop m => Sys2Proof.Machine.execTraceStop m s
  | .traceReset m => Sys2Proof.Machine.execTraceReset m s
  | .tRdIdxWrite m idx => Sys2Proof.Machine.execTRdIdxWrite m idx s
  | .instrTagRecord e pc instr cycle stall causes complete fault => Sys2Proof.Machine.execInstrTagRecord e pc instr cycle stall causes complete fault s
  | .pop m => Sys2Proof.Machine.execPop m s
  | .sclkRefresh => Sys2Proof.Machine.execSclkRefresh s
  | .railToleranceChange w l => Sys2Proof.Machine.execRailToleranceChange w l s
  | .pllRelock p => Sys2Proof.Machine.execPllRelock p s
  | .txPllLockLoss p => Sys2Proof.Machine.execTxPllLockLoss p s
  | .refReturn input => Sys2Proof.Machine.execRefReturn input s
  | .refOorChange input oor => Sys2Proof.Machine.execRefOorChange input oor s
  | .gelvySignalDetect p => Sys2Proof.Machine.execGelvySignalDetect p s
  | .helloTimeout p => Sys2Proof.Machine.execHelloTimeout p s
  | .timingPortLinkChange p link lf rf => Sys2Proof.Machine.execTimingPortLinkChange p link lf rf s
  | .hatterRun => Sys2Proof.Machine.execHatterRun s
  | .memChannelFail ch => Sys2Proof.Machine.execMemChannelFail ch s

end Sys2Proof.Machine
end

