-- ==== Sys2Proof/Machine/Step.lean ====
section
/-!
DEFINITION. One step of the block: the command that has waited longest takes effect; with none waiting the block idles (log entry 1).
-/

namespace Sys2Proof.Machine

open Sys2Proof

/-- One step. The time-driven events of the block (frame tick, 1 µs tick, timers) are rows of the table, so that an empty queue leaves the
state as it is. -/
def step (s : State) : Host.Outcome State Fault Refusal :=
  match s.pending with
  | [] => .next s
  | c :: rest => exec c { s with pending := rest }

/-- `s` with the command that a word spells put at the front of its queue; `s` where it spells none. -/
def State.withFetchWord (s : State) (nbits w : Nat) : State :=
  match decodeTableWord nbits w with
  | some c => { s with pending := c :: s.pending }
  | none => s

end Sys2Proof.Machine
end

