-- ==== Sys2Proof/Safety.lean ====
section
/-!
DEFINITION. The vocabulary of the statements: how a command completes, what it leaves unchanged, and which states are well kept.
-/

namespace Sys2Proof

open Sys2Proof.Machine

/-- In `s` command `c` completes: it answers a next state, which is `t` once the interrupt levels have been evaluated, and `t` is as `P`
says. What that evaluation may change is stated once (Obligations.SettleTouchesInterruptsOnly). -/
def Completes (c : Instr) (s : State) (P : State → Prop) : Prop := ∃ t : State, exec c s = .next t.settle ∧ P t

/-- In `s` command `c` changes nothing: only the interrupt levels are evaluated. -/
def Ignored (c : Instr) (s : State) : Prop := exec c s = .next s.settle

/-- Bit `i` of the register with key `k` lies in one of the fields. -/
def covers (l : List Fld) (k i : Nat) : Bool := l.any (fun f => f.addr == k && decide (f.lo ≤ i) && decide (i < f.lo + f.w))

/-- Every bit of every register outside the fields `l` is in `t` as in `s`. -/
def RegsKeep (l : List Fld) (s t : State) : Prop :=
  ∀ k i, i < 32 → covers l k i = false → (t.rd k).getLsbD i = (s.rd k).getLsbD i

/-- In `t` the listed fields hold the listed values, and every other register bit is as in `s`. -/
def Regs (l : List (Fld × Nat)) (s t : State) : Prop := (∀ p ∈ l, t.g p.1 = p.2) ∧ RegsKeep (l.map Prod.fst) s t

/-- `t` is `s` but for the listed fields, which hold the listed values. -/
def Sets (l : List (Fld × Nat)) (s t : State) : Prop := t = { s with regs := t.regs } ∧ Regs l s t

/-- `t` is `s` but for the listed fields; of those that the list names no value for, nothing is said. -/
def SetsIn (free : List Fld) (l : List (Fld × Nat)) (s t : State) : Prop :=
  t = { s with regs := t.regs } ∧ (∀ p ∈ l, t.g p.1 = p.2) ∧ RegsKeep (free ++ l.map Prod.fst) s t

/-- Master `m`'s access has completed with `data` (R24, R359): its latest completion is a success or a bus error, no other master's changes,
and target 0 parks on it (R356). -/
def AnsweredBy (m : Nat) (ok : Bool) (data : List Word) (s t : State) : Prop :=
  t.respOf m = ⟨ok, data⟩ ∧ (∀ q, q ≠ m → t.respOf q = s.respOf q) ∧ t.g BMX_PARK_T0 = m

/-- `t` is `s` but for the listed fields, which hold the listed values, and for master `m`'s completion without a bus error. -/
def SetsBy (m : Nat) (l : List (Fld × Nat)) (s t : State) : Prop :=
  t = { s with regs := t.regs, resp := t.resp } ∧ AnsweredBy m true [] s t ∧ Regs ((BMX_PARK_T0, m) :: l) s t

/-- What one occurrence does to an occurrence counter (R42). -/
def occFlds (s : State) (k : Nat) : List (Fld × Nat) :=
  [(occCount k, (s.g (occCount k) + 1) % 65536), (lostFld k, bit (s.on (lostFld k) || s.occTally k == 65535))]

/-- What the completion of a result set does to its control word (R44). -/
def resFlds (s : State) (k : Nat) (failed : Bool) : List (Fld × Nat) :=
  [(resValid k, 1), (resBusy k, 0), (resFailed k, bit failed), (resSeq k, (s.g (resSeq k) + 1) % 65536)]

/-- A register field lies inside its word. -/
def Fld.ok (f : Fld) : Bool := decide (f.lo + f.w ≤ 32)

/-- The canonical form of the register file and of the block's memories: keys rise, and no listed value is what an unlisted key reads
as. -/
def Machine.State.tablesWf (s : State) : Bool :=
  twf resetWordOf s.regs && twf (fun _ => 0) s.fuses && twf (fun _ => 0xFFFFFFFF) s.hst.flash && twf (fun _ => 0) s.hst.sram &&
    twf (fun _ => 0) s.ohb && twf (fun _ => 0) s.scopy

end Sys2Proof
end

