-- ==== Sys2Proof/Certificates/Slice0/Obligations.lean ====
section
/-!
DEFINITION. The statements for the provers. Each docstring names the rules it speaks of; what a command leaves unchanged is part of its
statement (Sets, SetsBy, or an equation for the whole state beside Regs).
-/

open Sys2Proof Sys2Proof.Machine

/-- R375, R376, R374: what a cold reset leaves: every register at its reset value but SEQ_LOG, which keeps `count` and `kind`, and
RST_CAUSE, which holds `cause` and `n`; every other part of the block as State.reset has it, except the flash and the fuse array,
which keep their contents (the array only gains bits, where a fuse record was being programmed; R400). What the block has sent,
the commands that wait and the model's count of drawn values are no part of what is reset. -/
def Sys2Proof.ColdReset (cause count kind n : Nat) (s t : State) : Prop :=
  (∀ k, k ≠ 0x1080 → k ≠ 0x30 → t.rd k = resetWordOf k) ∧
  t.g PWR_SEQ_LOG_COUNT = count ∧ t.g PWR_SEQ_LOG_KIND = kind ∧ t.g DEV_RST_CAUSE_CAUSE = cause ∧ t.g DEV_RST_CAUSE_COUNT = n ∧
  (s.cal.prog = none → t.fuses = s.fuses) ∧
  t = { State.reset with
    regs := t.regs, hst := { State.reset.hst with flash := s.hst.flash }, fuses := t.fuses, wire := s.wire, free := t.free, pending := s.pending }

/-- Cold resets (R374 to R376, R387): power-on (cause 0), RESET_N low for 1 µs or more (1), brown-out (2), a kind 1 violation of the
supply sequence in service (3). A shorter pulse on RESET_N changes nothing; another violation is only logged. -/
def Obligations.ColdResetsLeaveTheResetState : Prop :=
  ∀ s : State,
    Completes (.powerOn false) s (ColdReset 0 (s.g PWR_SEQ_LOG_COUNT) (s.g PWR_SEQ_LOG_KIND) ((s.g DEV_RST_CAUSE_COUNT + 1) % 65536) s) ∧
    Completes (.powerOn true) s (ColdReset 0 0 0 1 s) ∧
    (∀ ns, 1000 ≤ ns → Completes (.resetNAssert ns) s
      (ColdReset 1 (s.g PWR_SEQ_LOG_COUNT) (s.g PWR_SEQ_LOG_KIND) ((s.g DEV_RST_CAUSE_COUNT + 1) % 65536) s)) ∧
    (∀ ns, ns < 1000 → Ignored (.resetNAssert ns) s) ∧
    Completes .brownOut s (ColdReset 2 (s.g PWR_SEQ_LOG_COUNT) (s.g PWR_SEQ_LOG_KIND) ((s.g DEV_RST_CAUSE_COUNT + 1) % 65536) s) ∧
    Completes (.seqViolation 1 true) s
      (ColdReset 3 (min 255 (s.g PWR_SEQ_LOG_COUNT + 1)) 1 ((s.g DEV_RST_CAUSE_COUNT + 1) % 65536) s) ∧
    (∀ (kind : Fin 5) (b : Bool), kind.val ≠ 0 → ¬ (kind.val = 1 ∧ b = true) → Completes (.seqViolation kind b) s
      (Sets [(PWR_SEQ_LOG_COUNT, min 255 (s.g PWR_SEQ_LOG_COUNT + 1)), (PWR_SEQ_LOG_KIND, kind.val)] s))

/-- The role, id and ID_BAD that straps give (R325, Table 15-1): bits [1:0] the role, bits [4:2] the id; a strap of 0b11 leaves them to
GRP.CFG, whose reset value is the strap. -/
def Sys2Proof.strapRole (v : Nat) : Nat × Nat × Nat :=
  if v % 4 = 1 then (1, 0, 0) else if v % 4 = 2 ∧ v / 4 % 8 ≠ 0 then (2, v / 4 % 8, 0) else (0, 0, bit (v % 4 == 2))

/-- INTERNAL_RESET_END (R375, R421, R325): the straps take the majority of three samples and set the fields they stand for; DEV, PWR
and BMX are ready; the rails are in tolerance; the inputs that toggle are present. Without a reset in progress nothing happens. -/
def Obligations.InternalResetEndTakesTheStraps : Prop :=
  ∀ (s : State) (a b c : BitVec 9) (refs : BitVec 5),
    (s.pwr.inReset = false → Ignored (.internalResetEnd a b c refs) s) ∧
    (s.pwr.inReset = true → Completes (.internalResetEnd a b c refs) s (fun t =>
      (∀ i, i < 9 → t.pwr.straps.testBit i =
        (a.getLsbD i && b.getLsbD i || a.getLsbD i && c.getLsbD i || b.getLsbD i && c.getLsbD i)) ∧ t.pwr.straps < 512 ∧
      t = { s with regs := t.regs, pwr := { s.pwr with inReset := false, straps := t.pwr.straps, refSeen := refs.toNat } } ∧
      Regs [(PG_READY_READY 0, 1), (PG_READY_READY 0x1000, 1), (PG_READY_READY 0x7000, 1), (PWR_RAIL_OK, 0xFF),
        (CLK_REF_STAT_PRESENT, refs.toNat), (GRP_CFG_ROLE, t.pwr.straps % 4), (GRP_CFG_ID, t.pwr.straps / 4 % 8),
        (TWN_STAT_PREFER, t.pwr.straps / 32 % 2), (GRP_STAT_ROLE, (strapRole t.pwr.straps).1),
        (GRP_STAT_ID, (strapRole t.pwr.straps).2.1), (GRP_STAT_ID_BAD, (strapRole t.pwr.straps).2.2)] s t))

/-- The registers of a core relock (R19, Table 17-9). -/
def Sys2Proof.coreLockFlds (s : State) : List (Fld × Nat) :=
  [(CLK_PLL_STAT_CCLK_LK, 1), (CLK_PLL_STAT_ECLK_LK, 1), (CLK_PLL_STAT_MCLK_LK, 1), (CLK_PLL_STAT_SCLK_LK, 1),
    (CLK_PLL_STAT_TCLK_LK, bit (s.on CLK_PLL_STAT_TCLK_LK || s.on (bitOf CLK_REF_STAT_PRESENT 4))),
    (PG_READY_READY 0x2000, 1), (DEV_Q_CAUSE_CLK_LOSS, 0)]

/-- The page that PAGE_LOCK's rule locks is unlocked (R33). -/
abbrev Sys2Proof.unlocked (s : State) (pg : Nat) : Prop := s.on (PG_LOCK_LOCK pg) = false

/-- Clocks: CORE_CFG in BOOT; a core relock; the loss of a core lock, which in service leads to QUARANTINE with the lowest fatal cause present;
the loss of MCLK, which stops the bus and drops the claim (R19, R20, R383). Reference inputs and PLLs outside the core (R18 to R20, R239, R275,
R320, R383). -/
def Obligations.ClockCommandsComplete : Prop :=
  (∀ s : State,
    (∀ (m : Fin 8) (v : Word), s.usable 0x2000 = true → s.mode = 0 → s.on CLK_CORE_CFG_LOCKED = false → unlocked s 0x2000 →
      v.toNat % 8 < 5 → Completes (.coreCfgWrite m v) s
        (SetsBy m [(CLK_CORE_CFG_LOCKED, v.toNat / 2 ^ 31), (CLK_CORE_CFG_REF_SEL, v.toNat % 8), (CLK_PLL_STAT_CCLK_LK, 0), (CLK_PLL_STAT_ECLK_LK, 0),
          (CLK_PLL_STAT_MCLK_LK, 0), (CLK_PLL_STAT_SCLK_LK, 0), (DEV_Q_CAUSE_CLK_LOSS, 1)] s)) ∧
    (s.pwr.inReset = false → s.pwr.mclkLost = false → Completes .corePllRelock s (Sets (coreLockFlds s) s)) ∧
    (∀ c e k : Bool, (c || e || k) = true → (s.mode = 0 ∨ s.mode = 5) → s.pwr.modeReqs = [] → Completes (.coreClockLockLoss c e k) s
      (Sets [(CLK_PLL_STAT_CCLK_LK, bit (s.on CLK_PLL_STAT_CCLK_LK && !c)), (CLK_PLL_STAT_ECLK_LK, bit (s.on CLK_PLL_STAT_ECLK_LK && !e)),
        (CLK_PLL_STAT_SCLK_LK, bit (s.on CLK_PLL_STAT_SCLK_LK && !k)), (DEV_Q_CAUSE_CLK_LOSS, 1)] s)) ∧
    (∀ c e k : Bool, (c || e || k) = true → 1 ≤ s.mode → s.mode ≤ 4 → s.pwr.modeReqs = [] → Completes (.coreClockLockLoss c e k) s
      (Sets [(CLK_PLL_STAT_CCLK_LK, bit (s.on CLK_PLL_STAT_CCLK_LK && !c)), (CLK_PLL_STAT_ECLK_LK, bit (s.on CLK_PLL_STAT_ECLK_LK && !e)),
        (CLK_PLL_STAT_SCLK_LK, bit (s.on CLK_PLL_STAT_SCLK_LK && !k)), (DEV_Q_CAUSE_CLK_LOSS, 1), (DEV_Q_CAUSE_FIRST, 0),
        (DEV_MODE_MODE, 5), (DEV_MODE_PREV, s.mode), (TWN_STAT_CLAIM_OUT, 0), (TWN_STAT_STATE, 0)] s)) ∧
    Completes .mclkLockLoss s (fun t => t = { s with regs := t.regs, pwr := { s.pwr with mclkLost := true } } ∧
      Regs [(CLK_PLL_STAT_MCLK_LK, 0), (TWN_STAT_CLAIM_OUT, 0)] s t)) ∧
  (∀ s : State,
    (∀ i : Fin 5, s.on (bitOf CLK_REF_STAT_PRESENT i) = true → Completes (.refLoss i) s
      (Sets ([(bitOf CLK_REF_STAT_PRESENT i, 0), (CLK_REF_LAST_INPUT, 2 ^ i.val)] ++ occFlds s 0x2040) s)) ∧
    (∀ i : Fin 5, s.on (bitOf CLK_REF_STAT_PRESENT i) = false → Ignored (.refLoss i) s) ∧
    (∀ i : Fin 5, s.pwr.inReset = false → Completes (.refReturn i) s (fun t =>
      t = { s with regs := t.regs, pwr := { s.pwr with refSeen := s.pwr.refSeen ||| 2 ^ i.val } } ∧
      Regs [(bitOf CLK_REF_STAT_PRESENT i, 1),
        (CLK_PLL_STAT_TCLK_LK, bit (s.on CLK_PLL_STAT_TCLK_LK || i.val == 4 && s.on CLK_PLL_STAT_CCLK_LK))] s t)) ∧
    (∀ (i : Fin 5) (b : Bool), Completes (.refOorChange i b) s (Sets [(bitOf CLK_REF_STAT_OOR i, bit b)] s)) ∧
    (∀ (x : Fin 32) (i : Fin 256), x.val ∈ [1, 2, 3, 0xC, 0xD] → Completes (.crossingOverflow x i) s (fun t =>
      let ch := laneChannel s i
      let own (g : Nat) : Bool := decide (512 * ch ≤ g) && decide (g < 512 * ch + s.chSlots ch)
      t = { s with regs := t.regs, spe := t.spe, odu := t.odu, uncov := t.uncov, xingAis := (x.val, i.val) :: s.xingAis, slotIn := t.slotIn } ∧
      ((x.val = 1 ∨ x.val = 2) → (oduConts s ch = [] → t.slotIn = s.slotIn.filter (fun p => !own p.1)) ∧
        t.spe = s.spe.map (fun p => if own p.1 then (p.1, { p.2 with fresh := true }) else p) ∧
        t.odu = s.odu.map (fun p => if own p.1 then (p.1, { p.2 with buf := [], run := false }) else p)) ∧
      (x.val ≠ 1 → x.val ≠ 2 → t.spe = s.spe ∧ t.odu = s.odu ∧
        t.slotIn = if x.val = 0xD then s.slotIn.filter (fun p => !xingSlot s x i p.1) else s.slotIn) ∧
      (∀ c, tget (fun _ => 0) t.uncov c = if c ∈ xingChannels s x i then s.sfn + 1 else tget (fun _ => 0) s.uncov c) ∧
      Regs ([(CLK_XING_LAST_XID, x.val), (CLK_XING_LAST_INDEX, i.val)] ++ occFlds s 0x2030) s t)) ∧
    (∀ (x : Fin 32) (i : Fin 256), x.val ∉ [1, 2, 3, 0xC, 0xD] → Ignored (.crossingOverflow x i) s) ∧
    (s.pwr.inReset = false → Completes (.pllRelock .mem) s (Sets [(CLK_PLL_STAT_G6_LK, 1), (MEM_STAT_TRAINED, 0), (MEM_STAT_FAIL, 0)] s) ∧
      Completes (.pllRelock .pcie) s (Sets [(CLK_PLL_STAT_PCIE_LK, 1)] s) ∧
      (s.pwr.mclkLost = false → Completes (.pllRelock .core) s (Sets (coreLockFlds s) s)) ∧
      (∀ q : Fin 48, Completes (.pllRelock (.quad q)) s (Sets [(LGS_QCFG_TXPLL_LK (q.val / 3) (q.val % 3), 1)] s)) ∧
      (∀ p : Fin 4, Completes (.pllRelock (.tport p)) s (Sets [(TPT_STAT_PLL_LK p, 1)] s)) ∧
      (∀ p : Fin 8, Completes (.pllRelock (.gelvy p)) s (Sets [(bitOf CLK_PLL_STAT_GP_LK p, 1)] s))) ∧
    (s.pwr.inReset = false → Completes .memPllLockLoss s (fun t => t.on CLK_PLL_STAT_G6_LK = false ∧ t.g MEM_STAT_FAIL = 0xFFFF ∧ t.cells = [] ∧
      t.ready 0xB000 = false)) ∧
    (∀ q : Fin 48, Completes (.txPllLockLoss (.quad q)) s (fun t =>
      t = { s with regs := t.regs, tvwFail := if s.on TWN_STAT_TVW_RUN then s.tvwFail ||| (0xF * 2 ^ (4 * q.val)) else s.tvwFail } ∧
      Regs [(LGS_QCFG_TXPLL_LK (q.val / 3) (q.val % 3), 0)] s t)) ∧
    (∀ p : Fin 4, Completes (.txPllLockLoss (.tport p)) s (Sets [(TPT_STAT_PLL_LK p, 0), (TPT_STAT_LINK p, 0)] s)) ∧
    Completes (.txPllLockLoss .pcie) s (Sets [(CLK_PLL_STAT_PCIE_LK, 0)] s) ∧
    (∀ p : Fin 8, Completes (.txPllLockLoss (.gelvy p)) s (Sets [(bitOf CLK_PLL_STAT_GP_LK p, 0)] s)))

/-- The result of a DEV command (R387). -/
def Sys2Proof.devRes (s : State) (cmd code : Nat) : List (Fld × Nat) :=
  resFlds s 0x28 (code != 0) ++ [(DEV_CMD_CODE_CODE, code), (DEV_CMD_CODE_CMD, cmd), (bitOf DEV_CMD_BRINGUP cmd, 0)]

/-- The BUSY bits of the result sets of the calibration commands (R44, R390). -/
def Sys2Proof.calBusyFlds : List Fld :=
  resBusy CAL_TCAL_CTRL_VALID.addr :: resBusy CAL_MCAL_CTRL_VALID.addr :: (List.range 16).map (fun n => resBusy (LGS_LCAL_CTRL_VALID n).addr)

/-- Operating modes (R378, R381, R383): BRINGUP out of BOOT with the five core clocks locked; SOLO, which is made at the next boundary;
QUARANTINE and RELEASE, at once while the time base does not run, else at the next boundary. A command in the wrong mode ends
with code 0x01. -/
def Obligations.ModeCommandsComplete : Prop :=
  ∀ (s : State) (m : Fin 8) (late : Bool), s.usable 0 = true → s.pwr.modeReqs = [] →
    (s.on DEV_CMD_BRINGUP = false → s.mode = 0 → s.g ⟨0x2024, 0, 5⟩ = 0x1F → Completes (.bringup m) s (fun t =>
      AnsweredBy m true [] s t ∧ t.mode = 1 ∧ t.g DEV_MODE_PREV = 0 ∧ t.g HTR_STAT_STATE = 0 ∧ (∀ p ∈ devRes s 0 0, t.g p.1 = p.2) ∧
      RegsKeep ([BMX_PARK_T0, DEV_MODE_MODE, DEV_MODE_PREV, HTR_STAT_STATE, TWN_STAT_CLAIM_OUT, TWN_STAT_STATE] ++ (devRes s 0 0).map Prod.fst ++ calBusyFlds) s t ∧
      t = { s with regs := t.regs, resp := t.resp, cal := { s.cal with queue := t.cal.queue, running := t.cal.running } })) ∧
    (s.on DEV_CMD_BRINGUP = false → s.mode ≠ 0 → Completes (.bringup m) s (SetsBy m (devRes s 0 1) s)) ∧
    (s.on DEV_CMD_SOLO = false → s.mode = 1 → s.running = true → s.ready 0x4000 = true → Completes (.solo m late) s (fun t =>
      AnsweredBy m true [] s t ∧ t.pwr.modeReqs = [⟨1, if late then 1 else 0⟩] ∧
      t = { s with regs := t.regs, resp := t.resp, pwr := { s.pwr with modeReqs := t.pwr.modeReqs } } ∧
      Regs [(BMX_PARK_T0, m), (DEV_CMD_CTRL_BUSY, 1), (DEV_CMD_SOLO, 1)] s t)) ∧
    (s.on DEV_CMD_SOLO = false → s.mode ≠ 1 → Completes (.solo m late) s (SetsBy m (devRes s 1 1) s)) ∧
    (s.on DEV_CMD_QUARANTINE = false → 1 ≤ s.mode → s.mode ≤ 4 → s.running = false → Completes (.quarantine m late) s
      (SetsBy m ([(DEV_MODE_MODE, 5), (DEV_MODE_PREV, s.mode), (TWN_STAT_CLAIM_OUT, 0), (TWN_STAT_STATE, 0), (DEV_Q_CAUSE_HOST, 1),
        (DEV_Q_CAUSE_FIRST, 3)] ++ devRes s 2 0) s)) ∧
    (s.on DEV_CMD_QUARANTINE = false → 1 ≤ s.mode → s.mode ≤ 4 → s.running = true → Completes (.quarantine m late) s (fun t =>
      AnsweredBy m true [] s t ∧ t.pwr.modeReqs = [⟨2, if late then 1 else 0⟩] ∧
      t = { s with regs := t.regs, resp := t.resp, pwr := { s.pwr with modeReqs := t.pwr.modeReqs } } ∧
      Regs [(BMX_PARK_T0, m), (DEV_CMD_CTRL_BUSY, 1), (DEV_CMD_QUARANTINE, 1), (DEV_Q_CAUSE_HOST, 1)] s t)) ∧
    (s.on DEV_CMD_RELEASE = false → s.mode = 5 → s.g ⟨0x34, 0, 3⟩ = 0 → s.running = false → Completes (.release m late) s
      (SetsBy m ([(DEV_MODE_MODE, 1), (DEV_MODE_PREV, 5), (TWN_STAT_CLAIM_OUT, 0), (TWN_STAT_STATE, 0), (DEV_Q_CAUSE_HOST, 0)] ++ devRes s 3 0) s)) ∧
    (s.on DEV_CMD_RELEASE = false → s.mode = 5 → s.g ⟨0x34, 0, 3⟩ ≠ 0 → Completes (.release m late) s (SetsBy m (devRes s 3 3) s))

/-- What a rail's tolerance change sets (R383, R388): the rail's bits; Q_CAUSE.RAIL clears once none of VDD_CORE, VDD_SRAM and VDDA_PLL
(bits 0, 1 and 4) is outside tolerance in `t`. -/
def Sys2Proof.railFlds (s t : State) (r : Fin 8) (l : Level) : List (Fld × Nat) :=
  [(bitOf PWR_RAIL_OK r, bit (l == .ok)), (bitOf PWR_RAIL_UV r, bit (l == .under)), (bitOf PWR_RAIL_OV r, bit (l == .over)),
    (DEV_Q_CAUSE_RAIL, if (t.g PWR_RAIL_UV ||| t.g PWR_RAIL_OV) &&& 0x13 = 0 then 0 else s.g DEV_Q_CAUSE_RAIL)]

/-- Fatal causes, rails and islands, readiness, regions, boundary scan, the channels of the batt store, the changes of the operating mode
(R268, R275, R379, R381, R383, R385, R388, R425). -/
def Obligations.SupplyAndReadinessEventsComplete : Prop :=
  ∀ s : State,
    (∀ b : Fin 3, s.pwr.inReset = false → (s.mode = 0 ∨ s.mode = 5) → s.pwr.modeReqs = [] →
      Completes (.fatalCause b) s (Sets [(bitOf DEV_Q_CAUSE_CLK_LOSS b, 1)] s)) ∧
    (∀ b : Fin 3, s.pwr.inReset = false → 1 ≤ s.mode → s.mode ≤ 4 → s.g ⟨0x34, 0, 3⟩ = 0 → s.pwr.modeReqs = [] →
      Completes (.fatalCause b) s (Sets [(bitOf DEV_Q_CAUSE_CLK_LOSS b, 1), (DEV_Q_CAUSE_FIRST, b), (DEV_MODE_MODE, 5),
        (DEV_MODE_PREV, s.mode), (TWN_STAT_CLAIM_OUT, 0), (TWN_STAT_STATE, 0)] s)) ∧
    (∀ (r : Fin 8) (l : Level), (l = .ok ∨ l = .under ∧ s.on (bitOf PWR_RAIL_UV r) = true ∨ l = .over ∧ s.on (bitOf PWR_RAIL_OV r) = true) →
      Completes (.railToleranceChange (.rail r) l) s (fun t => Sets (railFlds s t r l) s t)) ∧
    (∀ (r : Fin 8) (l : Level), (l = .under ∧ s.on (bitOf PWR_RAIL_UV r) = false ∨ l = .over ∧ s.on (bitOf PWR_RAIL_OV r) = false) →
      Completes (.railToleranceChange (.rail r) l) s (fun t => Sets (occFlds s 0x1084 ++ railFlds s t r l) s t)) ∧
    (∀ (n : Fin 16) (l : Level), s.on (bitOf PWR_ISL_UV_UV n) = false → l ≠ .ok → Completes (.railToleranceChange (.island n) l) s
      (Sets ((bitOf PWR_ISL_UV_UV n, 1) :: occFlds s 0x1084) s)) ∧
    (∀ n : Fin 16, Completes (.railToleranceChange (.island n) .ok) s (Sets [(bitOf PWR_ISL_UV_UV n, 0)] s)) ∧
    (∀ page : Fin 576, s.pwr.inReset = false → (pageKind (page.val * 0x1000)).isSome = true → prereqMet s (page.val * 0x1000) = true →
      (prereqPages (page.val * 0x1000)).all (fun q => s.ready q && !s.on (PG_READY_FAILED q)) = true →
      Completes (.pageReady page true) s (Sets [(PG_READY_READY (page.val * 0x1000), 1), (PG_CMD_SRST (page.val * 0x1000), 0)] s) ∧
      Completes (.pageReady page false) s (Sets ([(PG_READY_FAILED (page.val * 0x1000), 1), (PG_READY_READY (page.val * 0x1000), 0),
        (PG_CMD_SRST (page.val * 0x1000), 0)] ++ ((waitingPages (page.val * 0x1000)).filter (fun q => !s.ready q)).map (fun q => (PG_READY_FAILED q, 1))) s)) ∧
    (∀ (temps : List Int) (volts : List Nat), temps.length = 16 → volts.length = 16 → s.ready 0x1000 = true →
      (∀ x ∈ temps, -160 ≤ x ∧ x < 400) → (∀ v ∈ volts, v < 1024) → Completes (.regionMeasure temps volts) s (fun t =>
      (∀ n, n < 16 → t.g (PWR_LG_MEAS_TEMP n) = (temps.getD n 0 % 1024).toNat ∧ t.g (PWR_LG_MEAS_VISL n) = volts.getD n 0) ∧
      t.g PWR_TJ_MAX = (temps.foldl max (temps.getD 0 0) % 1024).toNat ∧ t.g PWR_TJ_OVER = 0 ∧ t.g DEV_Q_CAUSE_THERM = 0 ∧ t.mode = s.mode ∧
      RegsKeep ((List.range 16).flatMap (fun n => [PWR_LG_MEAS_TEMP n, PWR_LG_MEAS_VISL n]) ++ calBusyFlds ++ (occFlds s 0x1088).map Prod.fst ++
        [PWR_GRAD_THERM_GRAD, PWR_GRAD_VGRAD, PWR_TJ_MAX, PWR_TJ_WARN, PWR_TJ_OVER, DEV_Q_CAUSE_THERM]) s t ∧
      t = { s with regs := t.regs, pwr := { s.pwr with rgn := t.pwr.rgn }, cal := { s.cal with queue := t.cal.queue, running := t.cal.running } })) ∧
    (∀ b : Bool, Completes (.extest b) s (fun t => t = { s with pwr := { s.pwr with bscan := b || s.pwr.bscan } })) ∧
    (∀ (ch : Fin 16) (ok : Bool), s.mode ≠ 0 → s.on CLK_PLL_STAT_G6_LK = true → Completes (.memChannelTrained ch ok) s (fun t =>
      t.on (bitOf MEM_STAT_TRAINED ch) = ok ∧ t.on (bitOf MEM_STAT_FAIL ch) = !ok)) ∧
    (∀ ch : Fin 16, s.on (bitOf MEM_STAT_TRAINED ch) = true → Completes (.memChannelFail ch) s (fun t =>
      t.on (bitOf MEM_STAT_FAIL ch) = true ∧ t.memUp ch = false)) ∧
    (∀ (m : Fin 8) (late : Bool), s.usable 0 = true → s.pwr.modeReqs = [] →
      (s.on DEV_CMD_BRINGUP = false → s.mode = 0 → s.g ⟨0x2024, 0, 5⟩ = 0x1F → Completes (.bringup m) s (fun t => t.mode = 1 ∧ t.g DEV_MODE_PREV = 0)) ∧
      (s.on DEV_CMD_SOLO = false → s.mode = 1 → s.running = true → s.ready 0x4000 = true → Completes (.solo m late) s (fun t =>
        t.mode = 1 ∧ t.pwr.modeReqs = [⟨1, if late then 1 else 0⟩])) ∧
      (s.on DEV_CMD_QUARANTINE = false → 1 ≤ s.mode → s.mode ≤ 4 → s.running = false → Completes (.quarantine m late) s (fun t =>
        t.mode = 5 ∧ t.g DEV_MODE_PREV = s.mode ∧ t.on DEV_Q_CAUSE_HOST = true)) ∧
      (s.on DEV_CMD_RELEASE = false → s.mode = 5 → s.g ⟨0x34, 0, 3⟩ = 0 → s.running = false → Completes (.release m late) s (fun t =>
        t.mode = 1 ∧ t.g DEV_MODE_PREV = 5)))

/-- A unit that takes writes as one of its own: it is no standby, and forwards nothing to a peer (R302). -/
abbrev Sys2Proof.alone (s : State) : Prop := s.mode ≠ 4 ∧ s.forwards = false

/-- No trace and no performance counter runs (R408, R410), and no register holds a parity fault (R38). -/
abbrev Sys2Proof.unwatched (s : State) : Prop := s.on PRF_P_CTL_RUN = false ∧ s.on PRF_T_STAT_RUN = false ∧ s.parBad = []

/-- No gauge selects a source (R404). -/
abbrev Sys2Proof.ungauged (s : State) : Prop := ∀ g : Fin 16, s.f (MON_G_CFG_SRC g) = 0

/-- A fixed path `p` reads, for its slot `i`, the cell of ring `r` that frame `n` wrote, in a channel that works (R273 to R275). -/
abbrev Sys2Proof.battReads (s : State) (p i r n : Nat) : Prop :=
  (s.ringsOf p)[i]? = some r ∧ s.f (bpMode (bpKey p)) = 0 ∧ s.ready 0xB000 = true ∧ s.memUp (r % 16) = true ∧
    n = s.sfn - (if s.f (bpDelay (bpKey p)) = 1 then 2 else s.f (bpDelay (bpKey p))) ∧ (s.cellOf r n).sfn = n

/-- A register of configuration fields only, on a page that gives none of its writes a rule of its own: PWR, the Gelvy and timing
ports; of an LG, LGS. -/
abbrev Sys2Proof.plainConfig (a : Nat) (d : RegDesc) : Prop :=
  regDesc a = some d ∧ a % 4 = 0 ∧ 0x20 ≤ a % 0x1000 ∧ a % 0x1000 < 0x3E0 ∧ d.rwh = 0 ∧ d.rws = 0 ∧ d.lck = 0 ∧ d.cmd = 0 ∧ d.held = false ∧
    d.banked = false ∧ occDesc a = none ∧ isPerfLow a = false ∧ (4 ≤ a → isPerfLow (a - 4) = false)

/-- The bits of such a register that a write covers (R25): of alias 0 those of the enabled bytes, of SET, CLR and TGL (1, 2, 3) those
that carry 1; only writable bits take part. -/
def Sys2Proof.writeBits (d : RegDesc) (al be : Nat) (v : Word) : Word := (if al = 0 then beMask be else v &&& beMask be) &&& BitVec.ofNat 32 d.rw

/-- What they become. -/
def Sys2Proof.writeNew (al : Nat) (v old : Word) : Word := if al = 0 then v else if al = 1 then 0xFFFFFFFF else if al = 2 then 0 else ~~~old

/-- A write of a configuration register in `t` (R25, R29, R36, R37): the bits covered take their new values, which a read returns at once;
those that do not take effect immediately wait for the boundary, with what was in force before. -/
def Sys2Proof.Stored (a off : Nat) (d : RegDesc) (al be m : Nat) (v : Word) (late : Bool) (s t : State) : Prop :=
  let c := writeBits d al be v
  let n := writeNew al v (s.rd a)
  let now := c &&& BitVec.ofNat 32 d.imm
  t.rd a = (s.rd a &&& ~~~c) ||| (n &&& c) ∧
  t.pend = s.pend ++ (if c &&& ~~~now = 0 then []
    else [⟨a, c &&& ~~~now, (s.rd a &&& ~~~now) ||| (n &&& now), none, if late then 1 else 0, off, m⟩])

/-- REGISTER_WRITE (R24, R25, R28, R36, R37, R378): in every alias and with every byte enable; a page out of service and an address that
no target has end with a bus error, which BMX records for the latter. -/
def Obligations.RegisterWriteStoresOrRefuses : Prop :=
  ∀ (s : State) (m : Fin 8) (v : Word) (be : Fin 16) (late : Bool), unwatched s → (∀ lg, s.lgBusy lg = false) →
    (∀ (a al : Nat) (d : RegDesc), plainConfig a d → pageKind a ∈ [some .pwr, some .gp, some .tpt] → al < 4 → s.usable (pageOf a) = true →
      Completes (.registerWrite m (a + 0x400 * al) v be late none) s (fun t =>
        AnsweredBy m true [] s t ∧ Stored a ((a + 0x400 * al) % 0x1000) d al be m v late s t ∧
        (∀ k, k ≠ a → k ≠ 0x7048 → t.rd k = s.rd k) ∧ RegsKeep [BMX_PARK_T0, ⟨a, 0, 32⟩] s t ∧
        t = { s with regs := t.regs, resp := t.resp, pend := t.pend })) ∧
    (∀ a : Nat, a < 0x240000 → (pageKind a).isSome = true → lgOf a = none → s.busRuns = true → s.usable (pageOf a) = false →
      Completes (.registerWrite m a v be late none) s (fun t =>
        AnsweredBy m false [] s t ∧ RegsKeep [BMX_PARK_T0] s t ∧ t = { s with regs := t.regs, resp := t.resp })) ∧
    (∀ a : Nat, a < 0x2000000 → pageKind a = none → isWindow a = false → s.busRuns = true →
      Completes (.registerWrite m a v be late none) s (fun t =>
        t.respOf m = ⟨false, []⟩ ∧
        Regs (occFlds s BMX_DEF_OCC_COUNT.addr ++ [(BMX_DEF_LAST_ADDR, 0x20000000 + a), (BMX_DEF_INFO_MASTER, m), (BMX_DEF_INFO_WRITE, 1),
          (BMX_PARK_T7, m)]) s t ∧ t = { s with regs := t.regs, resp := t.resp }))

/-- Writes into an LG (R35): the words of a transaction enter the buffer, where they wait; while it is not empty another transaction is
refused whole, and counted once; a word lands when it reaches the LG; a read returns the register's word. -/
def Obligations.LgAccessesGoThroughTheBuffer : Prop :=
  ∀ (s : State) (m : Fin 8) (lg : Fin 16), unwatched s → s.busRuns = true → m.val ≠ 5 →
    (∀ (a : Nat) (d : RegDesc) (v : Word) (be : Fin 16), plainConfig a d → pageKind a = some .lgs → lgOf a = some lg.val → alone s →
      s.usable (pageOf a) = true → s.lgBusy lg = false → Completes (.lgPostedWrite m lg [(a % 0x10000, v, be.val)]) s (fun t =>
        AnsweredBy m true [] s t ∧ tget (fun _ => []) t.lgBuf lg = [⟨m, m, a, v, beMask be, none⟩] ∧
        (∀ n, n ≠ lg.val → tget (fun _ => []) t.lgBuf n = tget (fun _ => []) s.lgBuf n) ∧ RegsKeep [BMX_PARK_T0] s t ∧
        t = { s with regs := t.regs, resp := t.resp, lgBuf := t.lgBuf })) ∧
    (∀ (a : Nat) (v : Word) (be : Fin 16), pageKind a ≠ none → lgOf a = some lg.val → s.lgBusy lg = true →
      Completes (.lgPostedWrite m lg [(a % 0x10000, v, be.val)]) s (fun t =>
        AnsweredBy m false [] s t ∧ Regs ((BMX_PARK_T0, m.val) :: occFlds s (pageOf a + 0x3EC) ++
          [(PG_VADDR_OFFSET (pageOf a), a % 0x1000), (PG_VADDR_MASTER (pageOf a), m.val), (PG_VADDR_KIND (pageOf a), 1)]) s t ∧
        t = { s with regs := t.regs, resp := t.resp })) ∧
    (∀ (a : Nat) (d : RegDesc) (v : Word) (be : Fin 16) (late : Bool), plainConfig a d → pageKind a = some .lgs → lgOf a = some lg.val → alone s →
      tget (fun _ => []) s.lgBuf lg = [⟨m, m, a, v, beMask be, none⟩] → Completes (.postedWriteLand lg late) s (fun t =>
        Stored a (a % 0x1000) d 0 be m v late s t ∧ tget (fun _ => []) t.lgBuf lg = [] ∧
        (∀ n, n ≠ lg.val → tget (fun _ => []) t.lgBuf n = tget (fun _ => []) s.lgBuf n) ∧ (∀ k, k ≠ a → t.rd k = s.rd k) ∧
        t = { s with regs := t.regs, pend := t.pend, lgBuf := t.lgBuf })) ∧
    (∀ (a : Nat) (d : RegDesc) (late : Bool), plainConfig a d → pageKind a = some .lgs → lgOf a = some lg.val → isCopied a = false →
      s.usable (pageOf a) = true → s.lgBusy lg = false → Completes (.lgReadComplete m lg ⟨a % 0x10000, Nat.mod_lt _ (by decide)⟩ late) s (fun t =>
        AnsweredBy m true [s.rd a] s t ∧ RegsKeep [BMX_PARK_T0] s t ∧ t = { s with regs := t.regs, resp := t.resp }))

/-- Pages (R26, R34, R38, R40, R45, R288, R377): LOCK, a timing port's software reset, CNT_CLR, PAR_ACT, a scanner pass, SNAP.TAKE, the
refresh of the channel pages' copies. -/
def Obligations.PageCommandsComplete : Prop :=
  ∀ (s : State) (m : Fin 8), s.parBad = [] → alone s →
    (∀ page : Fin 576, (pageKind (0x1000 * page.val)).isSome = true → s.usable (0x1000 * page.val) = true →
      Completes (.pageLock m page) s (SetsBy m [(PG_LOCK_LOCK (0x1000 * page.val), 1)] s)) ∧
    (∀ (p : Fin 4) (page : Fin 576), page.val = 0x18 + p.val → s.usable (0x1000 * page.val) = true →
      s.on (PG_CMD_SRST (0x1000 * page.val)) = false → s.plk.sent = [] →
      Completes (.pageSrst m page) s (SetsBy m [(TPT_STAT_PLL_LK p, 0), (TPT_STAT_LINK p, 0), (PG_CMD_SRST (0x1000 * page.val), 1)] s)) ∧
    (∀ page : Fin 576, page.val ∉ [0x1E] → pageKind (0x1000 * page.val) ≠ some .lgm → s.usable (0x1000 * page.val) = true →
      s.on (PG_CMD_CNT_CLR (0x1000 * page.val)) = false → Completes (.cntClr m page) s (fun t =>
        AnsweredBy m true [] s t ∧
        (∀ k, k < 0x100000000000000 → k ≠ 0x7048 → t.rd k =
          if pageOf k = 0x1000 * page.val ∧ heldLive k = true ∧ isHistory k = false then resetWordOf k else s.rd k) ∧
        (∀ k, 0x100000000000000 ≤ k → t.rd k = s.rd k) ∧ t = { s with regs := t.regs, resp := t.resp })) ∧
    (∀ (page : Fin 576) (v : Word), s.usable (0x1000 * page.val) = true → s.on (PG_PAR_ERR (0x1000 * page.val)) = false →
      Completes (.parActWrite m page v) s (SetsBy m [(PG_PAR_PAR_ACT (0x1000 * page.val), v.toNat / 4 % 2)] s)) ∧
    (∀ us : Nat, s.ready 0x1C000 = true → Completes (.parityScanPass us []) s
      (Sets [(PNC_PAR_SCAN_LAST_US, min 65535 us), (PNC_PAR_SCAN_PASSES, (s.g PNC_PAR_SCAN_PASSES + 1) % 65536)] s)) ∧
    (∀ us prm : Nat, s.ready 0x1C000 = true → parProtected prm = true → parKey prm % 0x1000 < 0x400 → s.parSeen = [] →
      s.on (PG_PAR_PAR_ACT (pageOf (parKey prm))) = true → Completes (.parityScanPass us [prm]) s (fun t =>
        t.parBad = [parKey prm] ∧ t.parSeen = [parKey prm] ∧ t = { s with regs := t.regs, parBad := t.parBad, parSeen := t.parSeen } ∧
        Regs (occFlds s PNC_PAR_OCC_COUNT.addr ++ [(PNC_PAR_LAST_ADDR, parKey prm % 0x100000000), (PG_PAR_ERR (pageOf (parKey prm)), 1),
          (PG_PAR_WORD (pageOf (parKey prm)), parKey prm % 0x1000 / 4), (PG_PAR_COUNT (pageOf (parKey prm)), 1),
          (PNC_PAR_SCAN_LAST_US, min 65535 us), (PNC_PAR_SCAN_PASSES, (s.g PNC_PAR_SCAN_PASSES + 1) % 65536)]) s t)) ∧
    (∀ late : Bool, s.usable 0 = true → s.on DEV_SNAP_TAKE = false → Completes (.snapTake m late) s (fun t =>
      AnsweredBy m true [] s t ∧ Regs [(BMX_PARK_T0, m), (DEV_SNAP_TAKE, 1)] s t ∧ t.snap = some (if late then 1 else 0) ∧
      t = { s with regs := t.regs, resp := t.resp, snap := t.snap })) ∧
    (s.pwr.inReset = false → Completes .sclkRefresh s (fun t =>
      t = { s with copy := t.copy, sclk := (s.sclk + 1) % 0x10000 } ∧
      (∀ k, k < 0x100000000 → isCopied k = true → tget resetWordOf t.copy k = s.rd k)))

/-- Counters and check values (R39 to R42, R282, R284): a preset adds what hardware adds in the same cycle; the write of an ACK; the
latch of a 48-bit counter; a computation unit of a Pounce unit; reads and scrubs of the batt store add what they correct (R276, R278). -/
def Obligations.CounterCommandsComplete : Prop :=
  ∀ (s : State) (m : Fin 8), s.parBad = [] → alone s →
    (∀ (a : Nat) (d : RegDesc) (v n : Word), regDesc a = some d → d.held = true → d.rws ≠ 0 → d.banked = false → isPerfLow a = false →
      (4 ≤ a → isPerfLow (a - 4) = false) → a % 0x1000 < 0x400 → a % 4 = 0 → pageKind a = some .ch → pmUnused s a = false → s.usable (pageOf a) = true →
      Completes (.counterPreset m a v n) s (fun t => AnsweredBy m true [] s t ∧
        t.rd a = BitVec.ofNat 32 (min 0xFFFFFFFF (v.toNat + n.toNat)) ∧ RegsKeep [BMX_PARK_T0, ⟨a, 0, 32⟩] s t ∧
        t = { s with regs := t.regs, resp := t.resp })) ∧
    (∀ (a : Nat) (ack : Fin 0x10000), (occDesc a).isSome = true → (regDesc a).isSome = true → a % 0x1000 < 0x400 → a % 4 = 0 → pageKind a = some .ch →
      s.usable (pageOf a) = true → Completes (.occAckWrite m a ack) s
        (SetsBy m [(lostFld a, bit (s.on (lostFld a) && (ack.val != s.g (occCount a)))), (occAck a, ack)] s)) ∧
    (∀ a : Nat, a % 0x1000 < 0x400 → isPerfLow a = true → pageKind a ≠ some .prf → unwatched s → s.usable (pageOf a) = true →
      Completes (.counterLowRead m a) s (fun t => AnsweredBy m true [s.rd a] s t ∧
        tget (fun _ => 0) t.latch (8 * a + m.val) = s.g ⟨a + 4, 0, 17⟩ ∧
        (∀ k, k ≠ 8 * a + m.val → tget (fun _ => 0) t.latch k = tget (fun _ => 0) s.latch k) ∧ RegsKeep [BMX_PARK_T0] s t ∧
        t = { s with regs := t.regs, resp := t.resp, latch := t.latch })) ∧
    (∀ (u : Fin 32) (b : List Byte) (carried : Word) (fcs : Bool), s.f (PNC_U_CFG_EN u) ≠ 0 → s.ready 0x1C000 = true → pounceIdle s u = false →
      let l := if s.f (PNC_U_CFG_FRAMING u) = 3 then b.take (max 4 (s.f (PNC_U_BLOCK_BLOCK u))) else b
      let v := pounceCrc (s.f (PNC_U_CFG_POLY u)) (s.f (PNC_U_CFG_RAW u) == 1) l
      let check := s.f (PNC_U_CFG_CHECK u) == 1 && (s.f (PNC_U_CFG_FRAMING u) == 1 || s.f (PNC_U_CFG_FRAMING u) == 2)
      let fits := s.f (PNC_U_CFG_POLY u) == (if s.f (PNC_U_CFG_FRAMING u) = 2 ∨ fcs = true then 0 else 2)
      let compared := check && fits
      Completes (.pounceUnitComplete u b carried fcs) s (Sets (resFlds s (PNC_U_CTRL_VALID u).addr false ++
        [(PNC_U_VAL_VAL u, v.toNat), (PNC_U_CARRIED_VAL u, if check then carried.toNat else 0), (PNC_U_INFO_LEN u, min 65535 l.length),
          (PNC_U_INFO_MATCH u, bit (compared && v == carried)),
          (PNC_U_INFO_CFG_BAD u, bit (check && !fits)),
          (PNC_U_UNITS_COUNT u, (s.g (PNC_U_UNITS_COUNT u) + 1) % 2 ^ 32)] ++
        (if compared && v != carried then occFlds s (PNC_U_MIS_OCC_COUNT u).addr else [])) s)) ∧
    (∀ (ch : Fin 16) (cw : Fin 14913080), s.ready 0xC000 = true → s.memUp ch = true →
      (tget (fun _ => noCell) s.cells (1024 * (16 * (cw.val / 16 / 516) + ch.val) + cw.val / 16 % 516)).good / 16 ≤ cw.val % 16 →
      Completes (.battScrubRead ch cw 1 none) s (fun t => t.g ⟨BAT_CHK_ONLY_COUNT.addr, 0, 32⟩ = (s.g ⟨BAT_CHK_ONLY_COUNT.addr, 0, 32⟩ + 1) % 2 ^ 32) ∧
      Completes (.battScrubRead ch cw 2 none) s (fun t => t.g ⟨BAT_CORR_COUNT.addr, 0, 32⟩ = (s.g ⟨BAT_CORR_COUNT.addr, 0, 32⟩ + 1) % 2 ^ 32) ∧
      ∀ ms : Nat, Completes (.battScrubRead ch cw 0 (some ms)) s (fun t => t.g MEM_SCRUB_LAST_MS = ms % 2 ^ 16)) ∧
    (∀ (p : Fin 4096) (i : Fin 2048) (o : BattObs) (r n : Nat), unwatched s → ungauged s → battReads s p i r n →
      (s.cellOf r n).good = 1 → o.ue = none → o.crcBad = false → o.late = false → Completes (.battReadReturn p i o) s (fun t => t.g MEM_INFL_NOW = min 3072 o.infl))

/-- The words of an admission's or a cancellation's result (R53, R62). -/
def Sys2Proof.plkRes (s : State) (b : Nat) (failed : Bool) (code item seq sfn tick : Nat) : List (Fld × Nat) :=
  resFlds s (PLK_RES_CTRL_VALID b).addr failed ++
    [(PLK_RES_CODE_CODE b, code), (PLK_RES_CODE_ITEM b, item), (PLK_RES_SEQ_SEQ b, seq % 2 ^ 32), (PLK_RES_SFN_LO_SFN_LO b, sfn % 2 ^ 32),
      (PLK_RES_SFN_HI_SFN_HI b, sfn / 2 ^ 32 % 2 ^ 29), (PLK_RES_TICK_TICK b, tick)]

/-- Staging and the journal's read side (R58, R66, R67): ST_ITEM_B, CLEAR, RD_IDX, FIND and the end of its search. -/
def Obligations.StagingAndJournalCommandsComplete : Prop :=
  ∀ (s : State) (m : Fin 8),
    (∀ arg : Word, s.usable 0x4000 = true → Completes (.stItemBWrite m arg) s (fun t =>
      AnsweredBy m true [] s t ∧
      t.stagedItem m (s.g (PLK_ST_IDX_IDX m)) = ⟨s.g (PLK_ST_ITEM_A_KIND m), s.g (PLK_ST_ITEM_A_TARGET m), arg.toNat⟩ ∧
      (∀ b i, i < 256 → (b ≠ m.val ∨ i ≠ s.g (PLK_ST_IDX_IDX m)) → t.stagedItem b i = s.stagedItem b i) ∧
      t = { s with regs := t.regs, resp := t.resp, plk := { s.plk with staged := t.plk.staged } } ∧
      Regs [(BMX_PARK_T0, m), (PLK_ST_ITEM_B_ARG m, arg.toNat),
        (PLK_ST_IDX_COUNT m, max (s.g (PLK_ST_IDX_COUNT m)) (s.g (PLK_ST_IDX_IDX m) + 1)),
        (PLK_ST_IDX_IDX m, (s.g (PLK_ST_IDX_IDX m) + 1) % 256)] s t)) ∧
    (s.usable 0x4000 = true → s.on ⟨0x4040, 2, 1⟩ = false → Completes (.clear m) s
      (SetsBy m [(PLK_ST_IDX_COUNT m, 0), (PLK_ST_IDX_IDX m, 0)] s)) ∧
    (∀ idx : Word, s.usable 0x5000 = true → idx.toNat < s.g JNL_HEAD_HEAD → s.g JNL_HEAD_HEAD ≤ idx.toNat + 1024 →
      (tget (fun _ => blankRec) s.plk.ring (idx.toNat % 1024)).seq ≠ 0 →
      let r := tget (fun _ => blankRec) s.plk.ring (idx.toNat % 1024)
      Completes (.rdIdxWrite m idx) s (SetsBy m
        [(JNL_RD_IDX_IDX m, idx.toNat), (JNL_REC_CTRL_VALID m, 1), (JNL_REC_CTRL_GONE m, 0), (JNL_REC_CTRL_AHEAD m, 0),
          (JNL_REC_SEQ_SEQ m, r.seq % 2 ^ 32), (JNL_REC_SFN_LO_SFN_LO m, r.sfn % 2 ^ 32), (JNL_REC_SFN_HI_SFN_HI m, r.sfn / 2 ^ 32 % 2 ^ 29),
          (JNL_REC_INFO_STATUS m, r.status % 16), (JNL_REC_INFO_TICK m, r.tick % 128), (JNL_REC_INFO_ITEMS m, r.items % 512),
          (JNL_REC_INFO_INDEX m, r.index % 256), (JNL_REC_INFO_MASTER m, r.master % 8), (JNL_REC_INFO_LATE_POL m, bit r.latePol),
          (JNL_REC_AUX_APPLIED m, r.applied % 512), (JNL_REC_AUX_FAILED_MEMBERS m, r.failed % 256), (JNL_REC_AUX_REASON m, r.reason % 256),
          (JNL_REC_TAG_TAG m, r.tag % 2 ^ 16), (JNL_REC_TAG_MIRRORED_IN m, bit r.mirroredIn), (JNL_REC_TAG_MIRROR_OUT m, bit r.mirrorOut),
          (JNL_REC_TAG_UNMIRRORED m, bit r.unmirrored), (JNL_REC_TAG_GROUP m, bit r.group), (JNL_REC_PEER_PEER_SEQ m, r.peerSeq % 2 ^ 32)] s)) ∧
    (s.usable 0x5000 = true → s.on (JNL_JCMD_FIND m) = false → Completes (.find m) s (fun t =>
      AnsweredBy m true [] s t ∧ t = { s with regs := t.regs, resp := t.resp, plk := { s.plk with find := t.plk.find } } ∧
      tget (fun _ => (0, 0)) t.plk.find m = searchRing s.plk.ring (s.g (JNL_FIND_SEQ_SEQ m)) 1024 (s.g JNL_HEAD_HEAD) ∧
      Regs [(BMX_PARK_T0, m), (JNL_JCMD_FIND m, 1), (JNL_FIND_CTRL_BUSY m, 1)] s t)) ∧
    (s.on (JNL_JCMD_FIND m) = true →
      let r := tget (fun _ => (0, 0)) s.plk.find m
      Completes (.findComplete m) s (fun t => t = { s with regs := t.regs, plk := { s.plk with find := t.plk.find } } ∧
        Regs ((JNL_JCMD_FIND m, 0) :: resFlds s (JNL_FIND_CTRL_VALID m).addr (r.1 == 0) ++
          (if r.1 = 0 then [] else [(JNL_FIND_IDX_IDX m, r.2 % 2 ^ 32)])) s t)) ∧
    (s.on (JNL_JCMD_FIND m) = false → Ignored (.findComplete m) s)

/-- What ADMIT may be judged by before its checks (R53): the page is in service and no admission runs; in no pair, so that nothing is
mirrored; no register fault, no injection and no performance counter takes part. -/
abbrev Sys2Proof.admitCalm (s : State) : Prop :=
  s.usable 0x4000 = true ∧ s.on ⟨0x4040, 0, 1⟩ = false ∧ s.mode ≠ 3 ∧ s.injecting = false ∧ unwatched s

/-- ADMIT (R53 to R58, Table 3-3): an action that passes every check joins the pending queue at its resolved boundary, with the next
sequence number; one that does not is refused with the code of the first check that it fails. -/
def Obligations.AdmissionQueuesOrRefuses : Prop :=
  ∀ (s : State) (m : Fin 8), admitCalm s →
    let l := s.stagedItems m
    let h := s.stagedHdr m
    let us := itemsUs l
    let refused (code item sfn tick : Nat) : Prop := Completes (.admitCmd m) s
      (SetsBy m (plkRes s m true code item 0 sfn tick ++ occFlds s 0x4078) s)
    (l = [] → refused 0x07 0 0 0) ∧
    (l ≠ [] → epochNs s m = none → refused 0x03 0 0 0) ∧
    (∀ t, l ≠ [] → epochNs s m = some t →
      let b := resolveNs t (classPeriod us)
      (∀ i, firstBad (fun x => kindListed x.kind) l 0 = some i → refused 0x05 i (sfnOfNs b) (tickOfNs us b)) ∧
      (firstBad (fun x => kindListed x.kind) l 0 = none →
        (∀ i, firstBad (targetOk s h.nomirror) l 0 = some i → refused 0x06 i (sfnOfNs b) (tickOfNs us b)) ∧
        (firstBad (targetOk s h.nomirror) l 0 = none →
          (roleOk s h l = false → refused 0x09 0 (sfnOfNs b) (tickOfNs us b)) ∧
          (roleOk s h l = true → h.group = false →
            (∀ i, swapConflict s (sfnOfNs b) l = some i → refused 0x08 i (sfnOfNs b) (tickOfNs us b)) ∧
            (swapConflict s (sfnOfNs b) l = none → s.nowNs + 1000 * s.g PLK_LEAD_LOCAL_US ≤ b →
              (4096 < s.pendUsed + l.length → refused 0x04 (4096 - s.pendUsed) (sfnOfNs b) (tickOfNs us b)) ∧
              (s.pendUsed + l.length ≤ 4096 → Completes (.admitCmd m) s (fun t =>
                AnsweredBy m true [] s t ∧
                t.plk = { s.plk with queue := s.plk.queue ++ [stagedAction s m m b false],
                                     nextSeq := if s.plk.nextSeq = 0xFFFFFFFF then 1 else s.plk.nextSeq + 1 } ∧
                t = { s with regs := t.regs, resp := t.resp, plk := t.plk } ∧
                Regs ((BMX_PARK_T0, m.val) :: (PLK_STAT_PEND_USED, s.pendUsed + l.length) ::
                  plkRes s m false 0 0 s.plk.nextSeq (sfnOfNs b) (tickOfNs us b)) s t)))))))

/-- A message accepted at the end of its class (R342): its port carries messages, its CRC is good, its number is the one expected, and
nothing of the port's own waits for the acknowledgement. -/
abbrev Sys2Proof.accepts (s : State) (e : Env) : Prop :=
  3 ≤ s.g (GP_STAT_STATE e.port) ∧ e.crcOk = true ∧ (s.gpOf e.port).un0 = [] ∧ (s.gpOf e.port).wait0 = [] ∧ e.seq = (s.gpOf e.port).rx0

/-- The ports of `t` are those of `s`, but that the message of `e` has been counted at its port. -/
def Sys2Proof.portsAfter (e : Env) (s t : State) : Prop :=
  t.gpOf e.port = { s.gpOf e.port with rx0 := ((s.gpOf e.port).rx0 + 1) % 2 ^ 32 } ∧ ∀ p, p ≠ e.port.val → t.gpOf p = s.gpOf p

/-- CANCEL, a mirrored action's arrival and dispatch (R56, R59, R62, R64, R66). -/
def Obligations.CancelDispatchAndMirroredActionsComplete : Prop :=
  ∀ s : State, unwatched s →
    (∀ (m : Fin 8) (a : Action), s.usable 0x4000 = true → s.on ⟨0x4040, 1, 1⟩ = false → s.plk.groups = [] →
      s.plk.queue.find? (fun x => x.seq == s.g (PLK_CANCEL_SEQ_SEQ m)) = some a →
      a.mirrorOut = false → a.mirroredIn = false → a.hdr.group = false → a.groupIn = false → a.tick < 125 → s.nowNs + 32000 < a.ns →
      Completes (.cancel m) s (fun t => AnsweredBy m true [] s t ∧
        t.plk = { s.plk with queue := s.plk.queue.filter (fun x => x.seq != a.seq), ring := t.plk.ring } ∧
        tget (fun _ => blankRec) t.plk.ring (s.g JNL_HEAD_HEAD % 1024) = recOf a 6 0 0 0x0B ∧
        (∀ i, i ≠ s.g JNL_HEAD_HEAD % 1024 → tget (fun _ => blankRec) t.plk.ring i = tget (fun _ => blankRec) s.plk.ring i) ∧
        t = { s with regs := t.regs, resp := t.resp, plk := t.plk } ∧
        Regs ((BMX_PARK_T0, m.val) :: (PLK_STAT_PEND_USED, t.pendUsed % 2 ^ 13) :: (JNL_HEAD_HEAD, (s.g JNL_HEAD_HEAD + 1) % 2 ^ 32) ::
          plkRes s m false 0x10 0 a.seq a.sfn a.tick) s t)) ∧
    (∀ (m : Fin 8), s.usable 0x4000 = true → s.on ⟨0x4040, 1, 1⟩ = false → s.plk.queue = [] → s.plk.sent = [] → s.plk.groups = [] →
      Completes (.cancel m) s (SetsBy m (plkRes s m true 0x12 0 (s.g (PLK_CANCEL_SEQ_SEQ m)) 0 0) s)) ∧
    (∀ (e : Env) (a : ActMsg) (check : List Nat), accepts s e → s.on TWN_CFG_TWIN_EN = true → e.port.val = s.mirrorPort → s.mode = 4 →
      a.hdr.group = false → s.nowNs + 32000 ≤ a.sfn * 125000 + a.tick * 1000 → Completes (.actionMessageRx e a check) s (fun t =>
        portsAfter e s t ∧
        t.plk = { s.plk with nextSeq := if s.plk.nextSeq = 0xFFFFFFFF then 1 else s.plk.nextSeq + 1, queue := s.plk.queue ++ [
          { seq := s.plk.nextSeq, sfn := a.sfn, tick := a.tick, us := a.us, items := a.items, hdr := a.hdr, master := 3, mirroredIn := true,
            mirrorOut := false, unmirrored := false, groupIn := false, late := false, peerSeq := a.peerSeq, check := check }] } ∧
        t = { s with regs := t.regs, plk := t.plk, gp := t.gp, twn := { s.twn with actSeq := a.peerSeq } } ∧
        Regs [(PLK_STAT_PEND_USED, t.pendUsed % 2 ^ 13)] s t)) ∧
    (∀ (a : Action) (sfn tick : Nat), s.running = true → s.ready 0x4000 = true → s.plk.queue = [a] → a.ns = sfn * 125000 + tick * 1000 →
      a.ns ≤ s.nowNs + 32000 → s.nowNs < a.ns → firstBlocked s a a.items 0 = none → (∀ i ∈ a.items, i.kind ∉ [1, 2, 4, 7, 0xB]) →
      Completes (.plankDispatch sfn tick []) s (fun t =>
        t.plk = { s.plk with queue := [], sent := s.plk.sent ++ [a] } ∧ t = { s with regs := t.regs, plk := t.plk } ∧
        Regs [(PLK_STAT_PEND_USED, t.pendUsed % 2 ^ 13)] s t)) ∧
    (∀ (a : Action) (sfn tick n r : Nat), s.running = true → s.ready 0x4000 = true → s.plk.queue = [a] → a.ns = sfn * 125000 + tick * 1000 →
      a.ns ≤ s.nowNs + 32000 → s.nowNs < a.ns → firstBlocked s a a.items 0 = some (n, r) → (a.items.getD n blankItem).kind ≠ 0xC →
      s.plk.groups = [] → a.groupIn = false → Completes (.plankDispatch sfn tick []) s (fun t =>
        t.plk = { s.plk with queue := [], ring := t.plk.ring } ∧ t = { s with regs := t.regs, plk := t.plk } ∧
        tget (fun _ => blankRec) t.plk.ring (s.g JNL_HEAD_HEAD % 1024) =
          recOf a (if isSwap (a.items.getD n blankItem) && r == 1 then 3 else 5) n 0 r ∧
        Regs ((PLK_STAT_PEND_USED, t.pendUsed % 2 ^ 13) :: (JNL_HEAD_HEAD, (s.g JNL_HEAD_HEAD + 1) % 2 ^ 32) ::
          occFlds s 0x5090 ++ occFlds s 0x4074) s t))

/-- Table `b` is table `a` with `v` at key `k`. -/
def Sys2Proof.OneAt {α : Type} (d : Nat → α) (a b : Tab α) (k : Nat) (v : α) : Prop := tget d b k = v ∧ ∀ n, n ≠ k → tget d b n = tget d a n

/-- `t` is `s` but for a bus error answered to master `m`. -/
def Sys2Proof.Denied (m : Nat) (s t : State) : Prop :=
  t = { s with regs := t.regs, resp := t.resp } ∧ AnsweredBy m false [] s t ∧ RegsKeep [BMX_PARK_T0] s t

/-- The time base, while no slew runs, in the first cycle whose time reaches `u` ns (R210): SEC keeps 48 bits. -/
def Sys2Proof.evenTb (s : State) (u : Nat) : Tb :=
  let n := (u * 2 ^ 32 - s.tb.t + s.tb.inc - 1) / s.tb.inc
  { s.tb with t := (s.tb.t + n * s.tb.inc) % (2 ^ 48 * 1000000000 * 2 ^ 32), slewCnt := (s.tb.slewCnt + n) % 1000 }

/-- The time base (R210 to R216): LOAD; NOW_NS; TB_INC; the 1 µs tick, which ends in the first cycle whose time reaches it; a slewed
nanosecond; HOLDOVER. -/
def Obligations.TimeBaseCommandsComplete : Prop :=
  ∀ (s : State) (m : Fin 8),
    (s.usable 0x3000 = true → s.running = false → s.g TB_LOAD_NS_NS < 1000000000 → Completes (.load m) s (fun t =>
      let v := ((s.g TB_LOAD_SEC_LO_SEC_LO + 2 ^ 32 * s.g TB_LOAD_SEC_HI_SEC_HI) * 1000000000 + s.g TB_LOAD_NS_NS) * 2 ^ 32
      AnsweredBy m true [] s t ∧ t = { s with regs := t.regs, resp := t.resp, tb := { s.tb with t := v, slewCnt := 0, disc := v } } ∧
      Regs [(BMX_PARK_T0, m), (TB_STAT_RUN, 1), (TB_STAT_HOLDOVER, 0)] s t)) ∧
    (s.busRuns = true → (s.usable 0x3000 = false ∨ s.running = true ∨ 1000000000 ≤ s.g TB_LOAD_NS_NS) → Completes (.load m) s (Denied m s)) ∧
    (s.usable 0x3000 = true → Completes (.nowNsRead m) s (fun t =>
      AnsweredBy m true [BitVec.ofNat 32 (s.nowNs % 1000000000)] s t ∧ t = { s with regs := t.regs, resp := t.resp } ∧
      Regs [(BMX_PARK_T0, m), (TB_NOW_SEC_LO_SEC_LO m, s.nowNs / 1000000000 % 2 ^ 32),
        (TB_NOW_SEC_HI_SEC_HI m, s.nowNs / 1000000000 / 2 ^ 32 % 2 ^ 16), (TB_NOW_SEC_HI_FRAC m, s.tb.t / 2 ^ 16 % 2 ^ 16)] s t)) ∧
    (∀ v : Word, s.usable 0x3000 = true → s.incOwned = false →
      let c := v.toNat % 16 * 2 ^ 32 + s.g TB_TB_INC_FRAC_FRAC
      (0x1FFE5C91D ≤ c → c ≤ 0x2001A36E3 → Completes (.tbIncWrite m v) s (fun t =>
        AnsweredBy m true [] s t ∧ t = { s with regs := t.regs, resp := t.resp, tb := { s.tb with inc := c, disc := s.tb.t } } ∧
        Regs [(BMX_PARK_T0, m), (TB_TB_INC_NS, v.toNat % 16), (TB_STAT_HOLDOVER, 0)] s t)) ∧
      ((c < 0x1FFE5C91D ∨ 0x2001A36E3 < c) → Completes (.tbIncWrite m v) s (Denied m s))) ∧
    (s.running = true → s.stepRem = 0 → 0 < s.tb.inc → s.plk.queue = [] → s.plk.sent = [] →
      let u := (s.nowNs / 1000 + 1) * 1000
      u % 125000 ≠ 0 → Completes .usTick s (fun t => t.tb = evenTb s u ∧
        t = { s with regs := t.regs, tb := t.tb, seen := t.seen } ∧ (u % 125000 ≠ 123000 → t.seen = s.seen) ∧
        (u % 125000 = 123000 → ∀ k, statusKey k = true → tget (fun _ => 0) t.seen k = tget (fun _ => 0) s.regs k) ∧
        Regs [(TB_STEP_REM_REM, 0), (TB_STAT_STEP_ACT, 0)] s t)) ∧
    (s.running = false → Ignored .usTick s) ∧
    (s.running = true → s.tb.slewCnt < 1000 →
      let n := 1000 - s.tb.slewCnt
      let tick := (s.nowNs / 1000 + 1) * 1000 * 2 ^ 32
      (0 < s.stepRem → s.tb.t + n * s.tb.inc + 2 ^ 32 < tick → Completes .slewStep s (fun t =>
        t = { s with regs := t.regs, tb := { s.tb with t := timeWrap (s.tb.t + n * s.tb.inc + 2 ^ 32), slewCnt := 0 } } ∧
        Regs [(TB_STEP_REM_REM, intBits (s.stepRem - 1)), (TB_STAT_STEP_ACT, bit (s.stepRem != 1))] s t)) ∧
      (s.stepRem < 0 → s.tb.t + n * s.tb.inc - 2 ^ 32 < tick → Completes .slewStep s (fun t =>
        t = { s with regs := t.regs, tb := { s.tb with t := timeWrap (s.tb.t + n * s.tb.inc - 2 ^ 32), slewCnt := 0 } } ∧
        Regs [(TB_STEP_REM_REM, intBits (s.stepRem + 1)), (TB_STAT_STEP_ACT, bit (s.stepRem != -1))] s t))) ∧
    (s.running = true → s.g TB_CFG_HO_WIN ≠ 0 → s.tb.disc + s.g TB_CFG_HO_WIN * 1000000000 * 2 ^ 32 ≤ s.tb.t →
      Completes .holdover s (Sets [(TB_STAT_HOLDOVER, 1)] s)) ∧
    ((s.running = false ∨ s.g TB_CFG_HO_WIN = 0 ∨ s.tb.t < s.tb.disc + s.g TB_CFG_HO_WIN * 1000000000 * 2 ^ 32) → Ignored .holdover s)

/-- The words of a FIFO entry (R218, R224, Table 10-5): NS, SEC [31:0], SEC [47:32] with FRAC, and E3. -/
def Sys2Proof.entryWords (stamp id kind num : Nat) (tx one : Bool) : List Word :=
  [BitVec.ofNat 32 (stamp / 2 ^ 16 % 1000000000), BitVec.ofNat 32 (stamp / 2 ^ 16 / 1000000000),
    BitVec.ofNat 32 (stamp / 2 ^ 16 / 1000000000 / 2 ^ 32 % 2 ^ 16 + 2 ^ 16 * (stamp % 2 ^ 16 / 1024 * 1024)),
    BitVec.ofNat 32 (id % 2 ^ 16 + 2 ^ 16 * (kind % 16) + 2 ^ 20 * bit tx + 2 ^ 21 * bit one + 2 ^ 22 + 2 ^ 23 * (num % 512))]

/-- A stamp is kept in a port's FIFO (R224): with the next number of that direction, or lost and counted where the FIFO is full. -/
def Sys2Proof.Kept (port : Nat) (tx : Bool) (id kind stamp : Nat) (one : Bool) (s t : State) : Prop :=
  let p := s.ptOf port
  let l := if tx then p.tx else p.rx
  let e := entryWords stamp id kind (if tx then p.txNum else p.rxNum) tx one
  if ptDepth port ≤ l.length then Sets (occFlds s (TB_PT_LOST_OCC_COUNT port).addr) s t
  else t = { s with pt := t.pt } ∧ OneAt (fun _ => ptReset) s.pt t.pt port
    (if tx then { p with tx := p.tx ++ [e], txNum := (p.txNum + 1) % 512 } else { p with rx := p.rx ++ [e], rxNum := (p.rxNum + 1) % 512 })

/-- A timing port that carries frames (R239). -/
abbrev Sys2Proof.tportUp (s : State) (p : Nat) : Prop := s.f (TPT_CFG_EN p) ≠ 0 ∧ s.usable (0x18000 + 0x1000 * p) = true

/-- What the ring of a DMA receive channel does with a frame of timing port `p` in `t`, seen from `s` (R350, R351). -/
def Sys2Proof.Received (p : Nat) (e : List Word) (frame : List Byte) (s t : State) : Prop :=
  let c := 4 + p
  if s.g (BMX_DMA_CFG_EN c) = 0 then t = s
  else if s.g (BMX_DMA_PTR_HEAD c) = s.g (BMX_DMA_PTR_TAIL c) then Sets (occFlds s (BMX_DROP_OCC_COUNT c).addr) s t
  else t = { s with pin := { s.pin with tpRx := t.pin.tpRx } } ∧
    OneAt (fun _ => []) s.pin.tpRx t.pin.tpRx p (tget (fun _ => []) s.pin.tpRx p ++ [(e, frame)])

/-- Timestamps, their FIFOs and the timing ports (R218, R220 to R228, R233, R238, R239). -/
def Obligations.TimestampsAndTimingPortsComplete : Prop :=
  ∀ s : State,
    (∀ (port : Fin 1024) (tx : Bool) (id kind raw deskew : Nat), (if tx then capTx s port else capRx s port) = true →
      Completes (.portTimestamp port tx id kind raw deskew) s (Kept port tx id kind (corrected s port tx (s.instant raw) deskew) false s)) ∧
    (∀ (port : Fin 1024) (tx : Bool) (id kind raw deskew : Nat), (if tx then capTx s port else capRx s port) = false →
      Ignored (.portTimestamp port tx id kind raw deskew) s) ∧
    (∀ m : Fin 8, s.usable 0x3000 = true →
      let port := s.g (TB_PT_SEL_PORT m)
      let p := s.ptOf port
      (tbPort port = true → Completes (.rxPop m) s (fun t => AnsweredBy m true [] s t ∧ RegsKeep [BMX_PARK_T0] s t ∧
        t = { s with regs := t.regs, resp := t.resp, pt := t.pt } ∧ OneAt (fun _ => ptReset) s.pt t.pt port { p with rx := p.rx.tail })) ∧
      (tbPort port = true → Completes (.txPop m) s (fun t => AnsweredBy m true [] s t ∧ RegsKeep [BMX_PARK_T0] s t ∧
        t = { s with regs := t.regs, resp := t.resp, pt := t.pt } ∧ OneAt (fun _ => ptReset) s.pt t.pt port { p with tx := p.tx.tail })) ∧
      (tbPort port = false → Completes (.rxPop m) s (Denied m s) ∧ Completes (.txPop m) s (Denied m s))) ∧
    (∀ (p : Fin 4) (ctrl : Word) (frame : List Byte) (raw : Nat), tportUp s p → s.outMode ≠ 0 →
      let port := 0x100 + p.val
      let stamp := corrected s port true (s.instant raw) 0
      (ptpHeader frame = none → ctrl.getLsbD 0 = false → Completes (.timingPortFrameTx p ctrl frame raw) s (fun t =>
        t = { s with wire := .tport p frame :: s.wire })) ∧
      (ptpHeader frame = none → ctrl.getLsbD 0 = true → Completes (.timingPortFrameTx p ctrl frame raw) s (fun t =>
        t = { s with regs := t.regs, wire := .tport p frame :: s.wire } ∧ Regs (occFlds s (TPT_ONESTEP_SKIP_OCC_COUNT p).addr) s t)) ∧
      (∀ h, ptpHeader frame = some h → fb frame h.1 % 16 ≤ 2 → ctrl.getLsbD 0 = true → s.f (TB_PT_CFG_ONE_STEP port) = 1 →
        (ctrl.getLsbD 1 && capTx s port) = false → Completes (.timingPortFrameTx p ctrl frame raw) s (fun t =>
          t = { s with wire := .tport p (oneStep frame h stamp) :: s.wire })) ∧
      (∀ h, ptpHeader frame = some h → ctrl.getLsbD 0 = false → (ctrl.getLsbD 1 && capTx s port) = true →
        Completes (.timingPortFrameTx p ctrl frame raw) s (fun t => t.wire = .tport p frame :: s.wire ∧
          Kept port true (ctrl.toNat / 2 ^ 16) (fb frame h.1 % 16) stamp false s { t with wire := s.wire }))) ∧
    (∀ (p : Fin 4) (frame : List Byte) (raw : Nat), tportUp s p → fcsOf frame = fcsCalc frame →
      let port := 0x100 + p.val
      let stamp := corrected s port false (s.instant raw) 0
      (ptpHeader frame = none → Completes (.timingPortFrameRx p frame raw) s
        (Received p ((entryWords stamp 0 0 0 false false).take 3 ++ [0x400000]) frame s)) ∧
      (∀ h, ptpHeader frame = some h → capRx s port = true → s.g (BMX_DMA_CFG_EN (4 + p)) ≠ 0 →
        s.g (BMX_DMA_PTR_HEAD (4 + p)) ≠ s.g (BMX_DMA_PTR_TAIL (4 + p)) → Completes (.timingPortFrameRx p frame raw) s (fun t =>
          Kept port false (fb16 frame (h.1 + 30)) (fb frame h.1 % 16) stamp false s { t with pin := s.pin } ∧
          Received p ((entryWords stamp 0 0 0 false false).take 3 ++
            [BitVec.ofNat 32 (fb16 frame (h.1 + 30) + 2 ^ 16 * (fb frame h.1 % 16) + 2 ^ 22)]) frame s
            { s with pin := t.pin }))) ∧
    (∀ (p : Fin 4) (frame : List Byte) (raw : Nat), tportUp s p → fcsOf frame ≠ fcsCalc frame → ptpHeader frame = none →
      s.g (BMX_DMA_CFG_EN (4 + p)) = 0 → Completes (.timingPortFrameRx p frame raw) s
        (Sets (occFlds s (TPT_FCS_ERR_OCC_COUNT p).addr) s)) ∧
    (∀ (p : Fin 4) (ctrl : Word) (frame : List Byte) (raw : Nat), s.f (TPT_CFG_EN p) = 0 →
      Ignored (.timingPortFrameTx p ctrl frame raw) s ∧ Ignored (.timingPortFrameRx p frame raw) s) ∧
    (∀ (e : Env) (k dep arr own ownArr : Nat), 3 ≤ s.g (GP_STAT_STATE e.port) → e.crcOk = true → (s.gpOf e.port).un0 = [] →
      (s.gpOf e.port).wait0 = [] →
      let g := s.gpOf e.port
      (∀ t1 t4 : Nat, g.deps.lookup k = some t1 → g.arrs.lookup k = some t4 →
        let a : Int := t4 - dep
        let b : Int := arr - t1
        Completes (.ttStampRx e k dep arr true own ownArr) s (fun t => t = { s with regs := t.regs, gp := t.gp } ∧
          OneAt (fun _ => gpReset) s.gp t.gp e.port { g with ttN := g.ttN + 1, ttOff := g.ttOff + (a - b), ttDly := g.ttDly + (a + b) } ∧
          Regs [(TB_TT_INFO_PEER_OK e.port, 1)] s t)) ∧
      (∀ v : Bool, v = false ∨ g.deps.lookup k = none ∨ g.arrs.lookup k = none →
        Completes (.ttStampRx e k dep arr v own ownArr) s (fun t => t = { s with regs := t.regs, gp := t.gp } ∧
          OneAt (fun _ => gpReset) s.gp t.gp e.port g ∧ Regs [(TB_TT_INFO_PEER_OK e.port, 0)] s t))) ∧
    (∀ p : Fin 8,
      let g := s.gpOf p
      let off := g.ttOff / (2 * (g.ttN : Int))
      let dly := g.ttDly / (2 * (g.ttN : Int))
      (g.ttN < 2 ^ min 10 (s.g (TB_TT_CFG_AVG_LOG2 p)) → Ignored (.ttResult p) s) ∧
      (2 ^ min 10 (s.g (TB_TT_CFG_AVG_LOG2 p)) ≤ g.ttN → g.ttN ≤ 1024 → Completes (.ttResult p) s (fun t =>
        t = { s with regs := t.regs, gp := t.gp } ∧ OneAt (fun _ => gpReset) s.gp t.gp p { g with ttN := 0, ttOff := 0, ttDly := 0 } ∧
        Regs (resFlds s (TB_TT_CTRL_VALID p).addr false ++ [(TB_TT_OFF_NS_OFF p, intBits (off / 2 ^ 16)),
          (TB_TT_FRAC_OFF_FRAC p, (off % 2 ^ 16).toNat), (TB_TT_FRAC_DLY_FRAC p, (dly % 2 ^ 16).toNat),
          (TB_TT_DLY_NS_DLY p, intBits (dly / 2 ^ 16)), (TB_TT_INFO_SAMPLES p, g.ttN)] ++
          (if p.val = s.mirrorPort then [(TWN_STAT_TB_SKEW, bit (decide (4 * 2 ^ 16 < off.natAbs)))] else []) ++
          (if p.val = s.g GRP_STAT_MGR_PORT ∧ s.on GRP_STAT_MGR_UP = true then
            [(GRP_STAT_TB_SKEW, bit (decide (4 * 2 ^ 16 < off.natAbs)))] else [])) s t)))

/-- PPS, ToD and a timing port's link (R234 to R236, R239). -/
def Obligations.PpsTodAndLinkCommandsComplete : Prop :=
  ∀ s : State,
    (∀ (falling : Bool) (raw : Nat), s.on TB_PPS_CFG_IN_EN = true → s.on TB_PPS_CFG_IN_POL = falling →
      let far := s.pin.ppsIn.all (fun y => decide (65536000 ≤ (Int.ofNat (s.instant raw) - Int.ofNat y).natAbs)) = true
      (far → Completes (.ppsInEdge falling raw) s (fun t => t = { s with regs := t.regs, pin := { s.pin with ppsIn := some (s.instant raw) } } ∧
        Regs (resFlds s TB_PPS_IN_CTRL_VALID.addr false ++ occFlds s TB_PPS_IN_OCC_COUNT.addr ++
        [(⟨0x3068, 0, 32⟩, s.instant raw / 2 ^ 16 % 1000000000), (⟨0x306C, 0, 32⟩, s.instant raw / 2 ^ 16 / 1000000000 % 2 ^ 32),
          (TB_PPS_IN_E2_SEC_HI, s.instant raw / 2 ^ 16 / 1000000000 / 2 ^ 32 % 2 ^ 16), (TB_PPS_IN_E2_FRAC, s.instant raw % 2 ^ 16 / 1024 * 1024)]) s t)) ∧ (¬far → Ignored (.ppsInEdge falling raw) s)) ∧
    (∀ (falling : Bool) (raw : Nat), (s.on TB_PPS_CFG_IN_EN = false ∨ s.on TB_PPS_CFG_IN_POL ≠ falling) → Ignored (.ppsInEdge falling raw) s) ∧
    (∀ (e : PpsEdge) (r : List PpsEdge), s.pin.pps = e :: r → s.running = true → s.stepRem = 0 → 0 < s.tb.inc →
      e.start < (s.nowNs / 1000 + 1) * 1000 → Completes .ppsPulseStart s (fun t =>
        t.tb = evenTb s e.start ∧
        t.pin = { s.pin with pps := r, pulse := some e.low, todEdge := s.on TB_TOD_CMD_ARM || s.pin.todEdge } ∧
        t = { s with regs := t.regs, tb := t.tb, pin := t.pin } ∧
        Regs [(TB_PPS_OUT_STAT_LEVEL, bit (!e.low)), (TB_STEP_REM_REM, 0), (TB_STAT_STEP_ACT, 0)] s t)) ∧
    ((s.pin.pps = [] ∨ s.running = false) → Ignored .ppsPulseStart s) ∧
    (∀ back, s.pin.pulse = some back → Completes .ppsPulseEnd s (fun t =>
      t = { s with regs := t.regs, pin := { s.pin with pulse := none } } ∧ Regs [(TB_PPS_OUT_STAT_LEVEL, bit back)] s t)) ∧
    (s.pin.pulse = none → Ignored .ppsPulseEnd s) ∧
    (∀ m : Fin 8, s.usable 0x3000 = true → s.on TB_TOD_CMD_ARM = false → Completes (.arm m) s (fun t =>
      AnsweredBy m true [] s t ∧ t = { s with regs := t.regs, resp := t.resp, pin := { s.pin with todEdge := false, todSending := false } } ∧
      Regs [(BMX_PARK_T0, m), (TB_TOD_CMD_ARM, 1), (TB_TOD_STAT_TX_ABANDON, 0)] s t)) ∧
    (s.on TB_TOD_CMD_ARM = true → s.pin.todEdge = true → s.pin.todSending = false → Completes .todSendStart s (fun t =>
      t = { s with
        pin := { s.pin with todSending := true }
        wire := .tod ((List.range (min 64 (s.g TB_TOD_CFG_TX_LEN))).map (fun i =>
          BitVec.ofNat 8 (s.g (TB_TOD_TXBUF_BYTES (i / 4)) / 256 ^ (i % 4)))) :: s.wire })) ∧
    (s.pin.todEdge = false → Ignored .todSendStart s) ∧
    (s.pin.todSending = true → Completes .todSendDone s (fun t =>
      t = { s with regs := t.regs, pin := { s.pin with todSending := false, todEdge := false } } ∧ Regs [(TB_TOD_CMD_ARM, 0)] s t)) ∧
    (s.pin.todSending = false → Ignored .todSendDone s) ∧
    (s.on TB_TOD_CMD_ARM = true → s.pin.todEdge = false → Completes .txAbandon s
      (Sets [(TB_TOD_CMD_ARM, 0), (TB_TOD_STAT_TX_ABANDON, 1)] s)) ∧
    ((s.on TB_TOD_CMD_ARM = false ∨ s.pin.todEdge = true) → Ignored .txAbandon s) ∧
    (∀ (bytes : List Byte) (raw : Nat), s.usable 0x3000 = true → bytes ≠ [] → Completes (.todRxMessage bytes raw) s
      (Sets (resFlds s TB_TOD_RX_CTRL_VALID.addr false ++
        [(⟨0x30A0, 0, 32⟩, s.instant raw / 2 ^ 16 % 1000000000), (⟨0x30A4, 0, 32⟩, s.instant raw / 2 ^ 16 / 1000000000 % 2 ^ 32),
          (TB_TOD_RX_E2_SEC_HI, s.instant raw / 2 ^ 16 / 1000000000 / 2 ^ 32 % 2 ^ 16), (TB_TOD_RX_E2_FRAC, s.instant raw % 2 ^ 16 / 1024 * 1024),
          (TB_TOD_RX_INFO_LEN, min 64 bytes.length), (TB_TOD_RX_INFO_OVERRUN, bit (decide (64 < bytes.length)))] ++
        (List.range 16).map (fun k => (TB_TOD_RXBUF_BYTES k,
          fb (bytes.take 64) (4 * k) + 2 ^ 8 * fb (bytes.take 64) (4 * k + 1) + 2 ^ 16 * fb (bytes.take 64) (4 * k + 2) +
            2 ^ 24 * fb (bytes.take 64) (4 * k + 3)))) s)) ∧
    (∀ (p : Fin 4) (link lf rf : Bool), Completes (.timingPortLinkChange p link lf rf) s
      (Sets [(TPT_STAT_LINK p, bit link), (TPT_STAT_LF p, bit lf), (TPT_STAT_RF p, bit rf)] s))

/-- A configuration register of PWR, a Gelvy port or a timing port, with the page in service (R378, R379). -/
abbrev Sys2Proof.fabric (s : State) (a : Nat) (d : RegDesc) : Prop :=
  unwatched s ∧ plainConfig a d ∧ pageKind a ∈ [some .pwr, some .gp, some .tpt] ∧ s.usable (pageOf a) = true

/-- Master `m` has written such a register: between `s` and `t` lie the write's own effect and the fields `extra`. -/
def Sys2Proof.FabricWrite (extra : List (Fld × Nat)) (m a : Nat) (d : RegDesc) (be : Nat) (v : Word) (late : Bool) (s t : State) : Prop :=
  AnsweredBy m true [] s t ∧ Stored a (a % 0x1000) d 0 be m v late s t ∧ (∀ p ∈ extra, t.g p.1 = p.2) ∧
    RegsKeep (BMX_PARK_T0 :: ⟨a, 0, 32⟩ :: extra.map Prod.fst) s t ∧ t = { s with regs := t.regs, resp := t.resp, pend := t.pend }

/-- Master `m` has read such a register. -/
def Sys2Proof.FabricRead (extra : List (Fld × Nat)) (m a : Nat) (s t : State) : Prop :=
  AnsweredBy m true [s.rd a] s t ∧ (∀ p ∈ extra, t.g p.1 = p.2) ∧ RegsKeep (BMX_PARK_T0 :: extra.map Prod.fst) s t ∧
    t = { s with regs := t.regs, resp := t.resp }

/-- A page outside the LGs that is out of service: its accesses end with a bus error (R378, R379). -/
abbrev Sys2Proof.outOfService (s : State) (a : Nat) : Prop :=
  unwatched s ∧ a < 0x240000 ∧ a % 4 = 0 ∧ (pageKind a).isSome = true ∧ lgOf a = none ∧ s.busRuns = true ∧ s.served (pageOf a) = false

/-- Port `p` can send another urgent message at once (R341, R342). -/
abbrev Sys2Proof.canSend (s : State) (p : Nat) : Prop :=
  4 ≤ s.g (GP_STAT_STATE p) ∧ s.outMode ≠ 0 ∧ s.injecting = false ∧ s.on PRF_P_CTL_RUN = false ∧ (s.gpOf p).wait0 = [] ∧ (s.gpOf p).un0.length < 256

/-- The port's part of the state once it has sent urgent message `x` (R342). -/
def Sys2Proof.portSent (g : GpSt) (x : Msg) : GpSt := { g with tx0 := (g.tx0 + 1) % 2 ^ 32, un0 := g.un0 ++ [(g.tx0, x)] }

/-- Registers that a discarded write unit leaves behind (R360, Table 16-14). -/
def Sys2Proof.abortFlds (s : State) (m : Nat) (p : Partial) : List (Fld × Nat) :=
  occFlds s BMX_ABORT_OCC_COUNT.addr ++ [(BMX_ABORT_LAST_ADDR, p.addr % 2 ^ 32), (BMX_ABORT_INFO_MASTER, m), (BMX_ABORT_INFO_BYTES, p.bytes % 256)]

/-- PCIe and the resets of masters (R347 to R349, R359, R360). -/
def Obligations.PcieAndMasterResetsComplete : Prop :=
  ∀ s : State,
    (∀ (a : Nat) (d : RegDesc) (v : Word) (be : Fin 16) (late : Bool), fabric s a d →
      Completes (.pcieWriteTlp .bar0 a [(v, be.val)] late) s (FabricWrite [] 0 a d be v late s)) ∧
    (∀ (a : Nat) (v : Word) (be : Fin 16) (late : Bool), outOfService s a → Completes (.pcieWriteTlp .bar0 a [(v, be.val)] late) s (fun t =>
      AnsweredBy 0 false [] s t ∧ Regs ((BMX_PARK_T0, 0) :: occFlds s BMX_WERR_OCC_COUNT.addr) s t ∧ t = { s with regs := t.regs, resp := t.resp })) ∧
    (∀ (v : Fin 32) (x : Word), unwatched s → s.busRuns = true → x.getLsbD 0 = true →
      Completes (.pcieWriteTlp .bar4 (16 * v + 12) [(x, 15)] false) s (fun t =>
        t = { s with hst := { s.hst with vecMask := s.hst.vecMask ||| 2 ^ v.val } })) ∧
    (∀ (v : Fin 32) (i : Fin 3) (x : Word), unwatched s → s.busRuns = true →
      Completes (.pcieWriteTlp .bar4 (16 * v + 4 * i) [(x, 15)] false) s (fun t =>
        t = { s with hst := { s.hst with msix := t.hst.msix } } ∧ OneAt (fun _ => 0) s.hst.msix t.hst.msix (4 * v + i) x)) ∧
    (∀ x : Word, unwatched s → s.busRuns = true → s.hst.vecPend = 0 → Completes (.pcieWriteTlp .msixControl 0 [(x, 15)] false) s (fun t =>
      t = { s with hst := { s.hst with msixEn := x.getLsbD 15, fnMask := x.getLsbD 14 } })) ∧
    (∀ (a : Nat) (d : RegDesc) (late : Bool) (cls : Fin 4), fabric s a d →
      Completes (.pcieReadTlp .bar0 a 1 late cls) s (FabricRead [] 0 a s)) ∧
    (∀ (a : Nat) (late : Bool) (cls : Fin 4), outOfService s a → Completes (.pcieReadTlp .bar0 a 1 late cls) s (fun t =>
      AnsweredBy 0 false [] s t ∧ RegsKeep [BMX_PARK_T0] s t ∧ t = { s with regs := t.regs, resp := t.resp, hst := { s.hst with aer := true } })) ∧
    (∀ (late : Bool) (cls : Fin 4), unwatched s → s.busRuns = true → Completes (.pcieReadTlp .bar4 0x2000 1 late cls) s (fun t =>
      t = { s with resp := t.resp } ∧ OneAt (fun _ => ⟨true, []⟩) s.resp t.resp 0 ⟨true, [BitVec.ofNat 32 s.hst.vecPend]⟩)) ∧
    (∀ kind : PcieResetKind, Completes (.pcieReset kind none none) s (fun t =>
      t = { s with
        regs := t.regs
        hst := { s.hst with msixEn := false, fnMask := false, vecMask := 0xFFFFFFFF, vecPend := 0, msix := [], aer := false }
        prox := s.prox.map (fun x => if x.m = 0 then { x with m := 8 } else x)
        pin := { s.pin with tpRx := [] } } ∧
      Regs ((List.range 8).flatMap (fun c => [(BMX_DMA_CFG_EN c, 0), (BMX_DMA_PTR_HEAD c, 0)])) s t)) ∧
    (∀ (m : Fin 8) (p : Partial), s.busRuns = true → m.val ≠ 5 → m.val ≠ 7 →
      Completes (.masterReset m (some p)) s (Sets (abortFlds s m p) s) ∧ Ignored (.masterReset m none) s) ∧
    (∀ (m : Fin 8) (p : Option Partial), (m.val = 5 ∨ m.val = 7 ∨ s.busRuns = false) → Ignored (.masterReset m p) s)

/-- The address of the descriptor at HEAD of DMA channel `c` in host memory (R350), for a ring of `n` entries. -/
def Sys2Proof.ringAddr (s : State) (c n : Nat) : Nat :=
  2 ^ 32 * s.g (BMX_DMA_RHI_RING_HI c) + 16 * s.g (BMX_DMA_RLO_RING_LO c) + 16 * (s.g (BMX_DMA_PTR_HEAD c) % n)

/-- DMA channel `c` has a descriptor to serve: enabled, `n` entries, HEAD not at TAIL (R350). -/
abbrev Sys2Proof.dmaRuns (s : State) (c n : Nat) : Prop :=
  s.busRuns = true ∧ s.on (BMX_DMA_CFG_EN c) = true ∧ 3 ≤ s.g (BMX_DMA_CFG_SIZE_LOG2 c) ∧ s.g (BMX_DMA_CFG_SIZE_LOG2 c) ≤ 12 ∧
    n = 2 ^ s.g (BMX_DMA_CFG_SIZE_LOG2 c) ∧ s.g (BMX_DMA_PTR_HEAD c) % n ≠ s.g (BMX_DMA_PTR_TAIL c) % n

/-- The status word that the channel writes back, and its registers (R350). -/
def Sys2Proof.dmaServed (s : State) (c n len : Nat) (err : Bool) : Wire × List (Fld × Nat) :=
  (.dma (ringAddr s c n + 12) [BitVec.ofNat 32 (len % 2 ^ 16 + 2 ^ 16 * bit err + 2 ^ 31)],
    (BMX_DMA_PTR_HEAD c, (s.g (BMX_DMA_PTR_HEAD c) % n + 1) % n) :: occFlds s (BMX_DONE_OCC_COUNT c).addr)

/-- The timing-port queues and the other ports of the register fabric (R245, R302, R306, R333, R350, R351). -/
def Obligations.DmaEngineAndRemoteAccessesComplete : Prop :=
  ∀ s : State,
    (∀ (m c : Fin 8) (tail : Fin 4096), s.parBad = [] → s.usable 0x7000 = true → Completes (.dmaTailWrite m c tail) s
      (SetsBy m [(BMX_DMA_PTR_TAIL c, tail)] s)) ∧
    (∀ (c : Fin 8) (n addr : Nat) (len : Fin 0x10000) (ctrl : Word) (frame : List Byte) (raw : Nat), dmaRuns s c n →
      Completes (.dmaDescriptorDone c addr len ctrl frame raw true) s (Sets ((BMX_DMA_CFG_EN c, 0) :: occFlds s (BMX_DROP_OCC_COUNT c).addr) s)) ∧
    (∀ (c : Fin 4) (n addr : Nat) (len : Fin 0x10000) (ctrl : Word) (frame : List Byte) (raw : Nat), dmaRuns s c n →
      (68 ≤ len.val → len.val ≤ 2052 → tportUp s c → s.outMode ≠ 0 → ctrl.getLsbD 0 = false → ptpHeader (frame.take (len.val - 4)) = none →
        Completes (.dmaDescriptorDone (c.castLE (by decide)) addr len ctrl frame raw false) s (fun t =>
          t = { s with regs := t.regs, wire := (dmaServed s c n len false).1 :: .tport c (frame.take (len.val - 4)) :: s.wire } ∧
          Regs (dmaServed s c n len false).2 s t)) ∧
      ((len.val < 68 ∨ 2052 < len.val) → Completes (.dmaDescriptorDone (c.castLE (by decide)) addr len ctrl frame raw false) s (fun t =>
        t = { s with regs := t.regs, wire := (dmaServed s c n 0 true).1 :: s.wire } ∧
        Regs ((dmaServed s c n 0 true).2 ++ occFlds s (BMX_DROP_OCC_COUNT c).addr) s t))) ∧
    (∀ (c : Fin 4) (n addr : Nat) (len : Fin 0x10000) (ctrl : Word) (frame : List Byte) (raw : Nat) (x : List Word × List Byte)
        (rest : List (List Word × List Byte)),
      dmaRuns s (4 + c) n → tget (fun _ => []) s.pin.tpRx c = x :: rest →
      let all := x.1.flatMap wordLe ++ x.2
      let w := dmaServed s (4 + c) n (min len all.length) (decide (len < all.length))
      Completes (.dmaDescriptorDone ⟨4 + c, by omega⟩ addr len ctrl frame raw false) s (fun t =>
        t = { s with
          regs := t.regs
          wire := w.1 :: .dma addr (bytesToWords (all.take len)) :: s.wire
          pin := { s.pin with tpRx := t.pin.tpRx } } ∧
        OneAt (fun _ => []) s.pin.tpRx t.pin.tpRx c rest ∧ Regs w.2 s t)) ∧
    (∀ (e : Fin 64) (a : Nat) (d : RegDesc) (data : Word) (dest : Fin 32) (drop : Bool) (rest : List BusOp), fabric s a d → rest.length < 8 →
      (s.engOf e).halting = false →
      ((s.engOf e).ops = ⟨true, a, data, dest, drop⟩ :: rest → (∀ lg, s.lgBusy lg = false) → Completes (.busOpComplete e) s (fun t =>
        FabricWrite [(FE_STAT_OUTST e, rest.length)] 5 a d 15 data false s { t with eng := s.eng } ∧
        OneAt (fun _ => engReset) s.eng t.eng e { s.engOf e with ops := rest })) ∧
      ((s.engOf e).ops = ⟨false, a, data, dest, drop⟩ :: rest → Completes (.busOpComplete e) s (fun t =>
        FabricRead [(FE_STAT_OUTST e, rest.length)] 5 a s { t with eng := s.eng } ∧
        OneAt (fun _ => engReset) s.eng t.eng e { s.engOf e with ops := rest, gr := (t.engOf e).gr } ∧
        OneAt (fun _ => 0) (s.engOf e).gr (t.engOf e).gr dest (if drop then tget (fun _ => 0) (s.engOf e).gr dest else s.rd a)))) ∧
    (∀ (e : Fin 64) (a : Nat) (data : Word) (dest : Fin 32) (rest : List BusOp), outOfService s a → rest.length < 8 →
      (s.engOf e).halting = false → (s.engOf e).ops = ⟨false, a, data, dest, false⟩ :: rest → Completes (.busOpComplete e) s (fun t =>
        AnsweredBy 5 false [] s t ∧ t = { s with regs := t.regs, resp := t.resp, eng := t.eng } ∧
        Regs ((BMX_PARK_T0, 5) :: (FE_STAT_OUTST e, rest.length) :: (FE_BERR_ADDR_ADDR e, a) :: occFlds s (FE_BERR_OCC_COUNT e).addr) s t ∧
        OneAt (fun _ => engReset) s.eng t.eng e { s.engOf e with ops := rest, gr := (t.engOf e).gr } ∧
        OneAt (fun _ => 0) (s.engOf e).gr (t.engOf e).gr dest 0xFFFFFFFF)) ∧
    (∀ (e : Env) (tag a : Nat) (d : RegDesc) (be : Fin 16) (data : Word), accepts s e → canSend s e.port → s.isWorker = true → fabric s a d →
      let g := { s.gpOf e.port with rx0 := ((s.gpOf e.port).rx0 + 1) % 2 ^ 32 }
      Completes (.rraReq e tag a true be data) s (fun t =>
        FabricWrite [] 3 a d be data false s { t with gp := s.gp, wire := s.wire } ∧ t.wire = .msg e.port (.rraRsp tag 0 0) :: s.wire ∧
        OneAt (fun _ => gpReset) s.gp t.gp e.port (portSent g (.rraRsp tag 0 0))) ∧
      Completes (.rraReq e tag a false be data) s (fun t =>
        FabricRead [] 3 a s { t with gp := s.gp, wire := s.wire } ∧ t.wire = .msg e.port (.rraRsp tag 0 (s.rd a)) :: s.wire ∧
        OneAt (fun _ => gpReset) s.gp t.gp e.port (portSent g (.rraRsp tag 0 (s.rd a))))) ∧
    (∀ (e : Env) (a : Nat) (d : RegDesc) (be : Fin 16) (val : Word) (master : Fin 8) (sfn : Nat), accepts s e → s.on TWN_CFG_TWIN_EN = true →
      e.port.val = s.mirrorPort → s.mode = 4 → fabric s a d →
      (s.mustHold (fwdRegion a) = false → Completes (.fwdWrite e a val (beMask be) master sfn) s (fun t =>
        portsAfter e s t ∧ Stored a (a % 0x1000) d 0 be master val false s t ∧ (∀ k, k ≠ a → t.rd k = s.rd k) ∧
        t = { s with regs := t.regs, pend := t.pend, gp := t.gp, twn := { s.twn with fwdDone := s.twn.fwdDone + 1 } })) ∧
      (s.mustHold (fwdRegion a) = true → Completes (.fwdWrite e a val (beMask be) master sfn) s (fun t => portsAfter e s t ∧
        t = { s with gp := t.gp, twn := { s.twn with fwdDone := s.twn.fwdDone + 1, held := s.twn.held ++
          [(fwdRegion a, .fwdWrite a val (beMask be) master sfn)] } })))

/-- `t` is `s` with an SMBus status, a completion of master 6, and the SMBus address `addr` (R352, R353). -/
def Sys2Proof.SmbEnds (st : Nat) (data : List Word) (addr : Nat) (s t : State) : Prop :=
  t.hst = { s.hst with smbStat := st, smbAddr := addr } ∧ t.respOf 6 = ⟨st == 0, data⟩ ∧ ∀ q, q ≠ 6 → t.respOf q = s.respOf q

/-- SMBus and JTAG (R352 to R354, R359, R360); TLPs, the resets of PCIe and of a master, the batt-store window (R279, R347 to R349). -/
def Obligations.SmbusAndJtagCommandsComplete : Prop :=
  ∀ s : State, s.busRuns = true → unwatched s →
    (∀ (a : Nat) (d : RegDesc) (v : Word) (be : Fin 16) (late : Bool) (cls : Fin 4), fabric s a d →
      Completes (.pcieWriteTlp .bar0 a [(v, be.val)] late) s (AnsweredBy 0 true [] s) ∧
      Completes (.pcieReadTlp .bar0 a 1 late cls) s (FabricRead [] 0 a s)) ∧
    (∀ kind : PcieResetKind, Completes (.pcieReset kind none none) s (fun t => t.hst.msix = [] ∧ t.hst.msixEn = false ∧
      ∀ c : Fin 8, t.g (BMX_DMA_CFG_EN c) = 0 ∧ t.g (BMX_DMA_PTR_HEAD c) = 0)) ∧
    (∀ (m : Fin 8) (p : Partial), m.val ≠ 5 → m.val ≠ 7 → Completes (.masterReset m (some p)) s (fun t =>
      t.g BMX_ABORT_LAST_ADDR = p.addr % 2 ^ 32 ∧ t.g BMX_ABORT_INFO_MASTER = m ∧ t.g BMX_ABORT_INFO_BYTES = p.bytes % 256)) ∧
    (∀ (m : Fin 8) (off : Fin 0x1000000) (v : Word), off.val % 4 = 0 → s.usable 0xC000 = true → s.memUp (s.g BAT_WIN_CFG_CH) = true →
      s.g TWN_STAT_STATE ≠ 2 → 0x30E38E00 ≤ 0x1000000 * min 56 (s.g BAT_WIN_CFG_DBASE) + off.val →
      0x1000000 * min 56 (s.g BAT_WIN_CFG_DBASE) + off.val ≤ 0x38E38DFF →
      Completes (.battWindowAccess m off (some v) 0) s (fun t => AnsweredBy m true [] s t ∧
        tget (fun _ => 0) t.scopy (0x2000000 * s.g BAT_WIN_CFG_CH + (0x1000000 * min 56 (s.g BAT_WIN_CFG_DBASE) + off.val - 0x30E38E00) / 4) = v)) ∧
    (s.hst.smbBusy = false →
      (∀ (off : Fin 0x1000) (d : RegDesc) (v : Word) (late : Bool), fabric s (0x1000 + off) d →
        Completes (.wrDirect 1 (off.castLE (by decide)) v true 7 late) s (fun t => SmbEnds 0 [] s.hst.smbAddr s t ∧
          Stored (0x1000 + off) off d 0 15 6 v late s t ∧ (∀ k, k ≠ 0x1000 + off.val → t.rd k = s.rd k) ∧
          t = { s with regs := t.regs, resp := t.resp, pend := t.pend, hst := t.hst }) ∧
        Completes (.rdDirect 1 (off.castLE (by decide)) 3) s (fun t => SmbEnds 0 [0, s.rd (0x1000 + off)] s.hst.smbAddr s t ∧
          t = { s with resp := t.resp, hst := t.hst })) ∧
      (∀ (code : Fin 256) (off : Fin 0x10000) (v : Word) (late : Bool), 3 ≤ code.val →
        Completes (.wrDirect code off v true 7 late) s (fun t => SmbEnds 2 [] s.hst.smbAddr s t ∧ t = { s with resp := t.resp, hst := t.hst })) ∧
      (∀ (code count : Fin 256) (off : Fin 0x10000) (v : Word) (late : Bool),
        Completes (.wrDirect code off v false count late) s (fun t => t = { s with hst := { s.hst with smbStat := 3 } }) ∧
        (count.val ≠ 7 → Completes (.wrDirect code off v true count late) s (fun t => t = { s with hst := { s.hst with smbStat := 4 } }))) ∧
      (∀ a : Word, Completes (.setAddr a true 4) s (fun t => SmbEnds 0 [] a.toNat s t ∧ t = { s with resp := t.resp, hst := t.hst })) ∧
      (∀ (a : Nat) (d : RegDesc) (v : Word) (late : Bool) (cls : Fin 4), s.hst.smbAddr = a → fabric s a d →
        Completes (.wrInd v true 4 late false) s (fun t => SmbEnds 0 [] (a + 4) s t ∧ FabricWrite [] 6 a d 15 v late s { t with hst := s.hst }) ∧
        Completes (.rdInd late false cls) s (fun t => SmbEnds 0 [0, s.rd a] (a + 4) s t ∧ RegsKeep [BMX_PARK_T0] s t ∧
          t = { s with regs := t.regs, resp := t.resp, hst := t.hst }) ∧
        Completes (.rdInd late true cls) s (fun t => FabricRead [] 6 a s { t with hst := s.hst } ∧
          t.hst = { s.hst with smbAddr := a + 4, smbBusy := true })) ∧
      Completes .status s (fun t => t = { s with resp := t.resp } ∧
        OneAt (fun _ => ⟨true, []⟩) s.resp t.resp 6 ⟨true, [BitVec.ofNat 32 s.hst.smbStat]⟩) ∧
      Ignored .smbusStretchLimit s) ∧
    (s.hst.smbBusy = true → Completes .smbusStretchLimit s (fun t =>
      t = { s with resp := t.resp, hst := { s.hst with smbBusy := false, smbStat := 1 } } ∧
      OneAt (fun _ => ⟨true, []⟩) s.resp t.resp 6 ⟨false, [1, 0xFFFFFFFF]⟩)) ∧
    Completes (.smbusTimeout none) s (fun t => t = { s with hst := { s.hst with smbAddr := 0, smbStat := 0, smbBusy := false } }) ∧
    (∀ p : Partial, Completes (.smbusTimeout (some p)) s (fun t =>
      t = { s with regs := t.regs, hst := { s.hst with smbAddr := 0, smbStat := 0, smbBusy := false } } ∧ Regs (abortFlds s 6 p) s t)) ∧
    (∀ (a : Nat) (d : RegDesc) (be : Fin 16) (v : Word) (late : Bool) (cls : Fin 4), fabric s a d →
      Completes (.jtagBusAccess (BitVec.ofNat 32 (0x20000000 + a)) true be v late cls) s (fun t =>
        FabricWrite [] 4 a d be v late s { t with hst := s.hst } ∧ t.hst = { s.hst with jtagErr := false }) ∧
      Completes (.jtagBusAccess (BitVec.ofNat 32 (0x20000000 + a)) false be v late cls) s (fun t =>
        FabricRead [] 4 a s { t with hst := s.hst } ∧ t.hst = { s.hst with jtagErr := false })) ∧
    (∀ (w : Fin 0x20000) (be : Fin 16) (v : Word) (late : Bool) (cls : Fin 4),
      let old := tget (fun _ => 0) s.hst.sram w
      Completes (.jtagBusAccess (BitVec.ofNat 32 (0x10000000 + 4 * w)) true be v late cls) s (fun t =>
        t = { s with regs := t.regs, resp := t.resp, hst := { s.hst with sram := t.hst.sram, jtagErr := false } } ∧
        OneAt (fun _ => 0) s.hst.sram t.hst.sram w ((old &&& ~~~beMask be) ||| (v &&& beMask be)) ∧
        OneAt (fun _ => ⟨true, []⟩) s.resp t.resp 4 ⟨true, []⟩ ∧ Regs [(⟨0x7048, 6, 3⟩, 4)] s t) ∧
      Completes (.jtagBusAccess (BitVec.ofNat 32 (0x10000000 + 4 * w)) false be v late cls) s (fun t =>
        t = { s with regs := t.regs, resp := t.resp, hst := { s.hst with jtagErr := false } } ∧
        OneAt (fun _ => ⟨true, []⟩) s.resp t.resp 4 ⟨true, [old]⟩ ∧ Regs [(⟨0x7048, 6, 3⟩, 4)] s t))

/-- What adding `n` to a 48-bit counter does (R39): COUNT, its bits [47:32] and the sticky OVF. -/
def Sys2Proof.perfFlds (s : State) (k n : Nat) : List (Fld × Nat) :=
  let v := s.g ⟨k, 0, 32⟩ + 2 ^ 32 * s.g ⟨k + 4, 0, 16⟩ + n
  [(⟨k, 0, 32⟩, v % 2 ^ 32), (⟨k + 4, 0, 16⟩, v / 2 ^ 32 % 2 ^ 16), (⟨k + 4, 16, 1⟩, bit (s.on ⟨k + 4, 16, 1⟩ || decide (2 ^ 48 ≤ v)))]

/-- What every decoded read of the batt store reports (R276). -/
def Sys2Proof.inflFlds (s : State) (o : BattObs) : List (Fld × Nat) :=
  [(MEM_INFL_NOW, min 3072 o.infl), (MEM_INFL_PEAK, max (s.g MEM_INFL_PEAK) (min 3072 o.infl))]

/-- The frame is UNCOV at the channels that read slot `i` of path `p`, and at no other (R69, R277). -/
def Sys2Proof.readersUncov (p i : Nat) (s t : State) : Prop :=
  (∀ c ∈ battReaders s p i, tget (fun _ => 0) t.uncov c = s.sfn + 1) ∧
  ∀ c, c ∉ battReaders s p i → tget (fun _ => 0) t.uncov c = tget (fun _ => 0) s.uncov c

/-- Where an uncorrectable codeword outside the cells was met (R277, R278). -/
def Sys2Proof.ueFlds (ch cw : Nat) : List (Fld × Nat) :=
  [(BAT_UE_LAST_PATH, 0), (BAT_UE_LAST_SLOT, 0), (BAT_UE_SFN_LO_SFN, 0), (BAT_UE_SFN_HI_SFN, 0), (BAT_UE_CW_CW, cw), (BAT_UE_CW_CH, ch)]

/-- Some cell holds an uncorrectable codeword that has been met (R277). -/
def Sys2Proof.cellsUe (t : State) : Bool := t.cells.any (fun p => p.2.good % 16 == 5 || p.2.good % 16 == 6)

/-- The batt store: reads, scrubbing, paths (R125, R270, R271, R273, R274, R276 to R278, R280, Table 12-2). -/
def Obligations.BattReadsScrubsAndPathsComplete : Prop :=
  ∀ s : State,
    (∀ (p : Fin 4096) (i : Fin 2048) (o : BattObs) (r n : Nat), unwatched s → ungauged s → battReads s p i r n → (s.cellOf r n).good = 1 →
      o.ue = none → o.crcBad = false →
      (o.late = false → Completes (.battReadReturn p i o) s
        (Sets (inflFlds s o ++ perfFlds s BAT_CHK_ONLY_COUNT.addr o.chk ++ perfFlds s BAT_CORR_COUNT.addr o.corr) s)) ∧
      (o.late = true → Completes (.battReadReturn p i o) s (fun t =>
        t = { s with regs := t.regs, uncov := t.uncov, battLate := (2048 * p.val + i.val) :: s.battLate } ∧ readersUncov p i s t ∧ Regs (inflFlds s o ++ occFlds s BAT_LATE_OCC_COUNT.addr ++
          perfFlds s BAT_CHK_ONLY_COUNT.addr o.chk ++ perfFlds s BAT_CORR_COUNT.addr o.corr) s t))) ∧
    (∀ (p : Fin 4096) (i : Fin 2048) (o : BattObs) (r n w : Nat), unwatched s → ungauged s → battReads s p i r n → (s.cellOf r n).good = 1 → s.ringOwner r = (p.val, i.val) →
      o.ue = some w → w < 16 → o.crcBad = false → o.late = false → Completes (.battReadReturn p i o) s (fun t =>
        let slot := s.f (bpFirst (bpKey p)) + i.val
        t = { s with regs := t.regs, cells := t.cells, uncov := t.uncov } ∧
        OneAt (fun _ => noCell) s.cells t.cells (1024 * r + n % 516) { s.cellOf r n with good := 5 } ∧
        readersUncov p i s t ∧
        Regs (inflFlds s o ++ perfFlds s BAT_CHK_ONLY_COUNT.addr o.chk ++ perfFlds s BAT_CORR_COUNT.addr o.corr ++
          occFlds s BAT_UE_OCC_COUNT.addr ++ [(BAT_UE_LAST_PATH, p.val), (BAT_UE_LAST_SLOT, slot % 2 ^ 17), (BAT_UE_SFN_LO_SFN, n % 2 ^ 32),
            (BAT_UE_SFN_HI_SFN, n / 2 ^ 32 % 2 ^ 29), (BAT_UE_CW_CW, (16 * (516 * (r / 16) + n % 516) + w) % 2 ^ 24),
            (BAT_UE_CW_CH, r % 16), (BAT_STAT_UE, 1)]) s t)) ∧
    (∀ (ch : Fin 16) (cw : Fin 14913080), s.ready 0xC000 = true → s.memUp ch = true →
      let k := 1024 * (16 * (cw.val / 16 / 516) + ch.val) + cw.val / 16 % 516
      let c := tget (fun _ => noCell) s.cells k
      (c.good / 16 ≤ cw.val % 16 ∨ 12681216 ≤ cw.val →
        Completes (.battScrubRead ch cw 1 none) s (Sets (perfFlds s BAT_CHK_ONLY_COUNT.addr 1) s) ∧
        Completes (.battScrubRead ch cw 2 none) s (Sets (perfFlds s BAT_CORR_COUNT.addr 1) s) ∧
        (∀ ms, Completes (.battScrubRead ch cw 0 (some ms)) s
          (Sets [(MEM_SCRUB_LAST_MS, ms % 2 ^ 16), (MEM_SCRUB_PASSES, (s.g MEM_SCRUB_PASSES + 1) % 2 ^ 16)] s))) ∧
      (cw.val < 12681216 → c ≠ noCell → Completes (.battScrubRead ch cw 3 none) s (fun t =>
        t = { s with regs := t.regs, cells := t.cells } ∧ OneAt (fun _ => noCell) s.cells t.cells k { c with good := 6 + 16 * (c.good / 16) } ∧
        Regs ((BAT_STAT_UE, bit (cellsUe t)) :: occFlds s BAT_SCRUB_UE_OCC_COUNT.addr) s t)) ∧
      (cw.val < 12681216 → c = noCell → Completes (.battScrubRead ch cw 3 none) s (Sets (occFlds s BAT_SCRUB_UE_OCC_COUNT.addr) s)) ∧
      (12681216 ≤ cw.val → (s.mode ≠ 4 ∨ cw.val < 12815928) → Completes (.battScrubRead ch cw 3 none) s (Sets (occFlds s BAT_UE_OCC_COUNT.addr ++ ueFlds ch cw) s))) ∧
    (∀ m : Fin 8, s.usable 0xB000 = true → s.on BAT_PATH_CMD_READ = false →
      let p := s.g BAT_PATH_SEL_PATH
      (p = 0 → Completes (.pathRead m) s (SetsBy m (resFlds s BAT_PATH_CTRL_VALID.addr true ++ [(BAT_PATH_CODE_CODE, 1)]) s)) ∧
      (p ≠ 0 → Completes (.pathRead m) s (SetsBy m (resFlds s BAT_PATH_CTRL_VALID.addr false ++ [(BAT_PATH_CODE_CODE, 0),
        (⟨0xB040, 0, 32⟩, s.g ⟨bpKey p, 0, 32⟩), (⟨0xB044, 0, 32⟩, s.g ⟨bpKey p + 4, 0, 32⟩), (BAT_PATH_D2_RING0, (s.ringsOf p).headD 0 % 2 ^ 15),
        (BAT_PATH_D2_ALLOC, bit (s.ringsOf p != [])), (BAT_PATH_D3_DEPTH, bpDepth s p % 2 ^ 10)]) s))) ∧
    (∀ (m : Fin 8) (late : Bool), alone s → s.usable 0xB000 = true → s.on BAT_PATH_CMD_WRITE = false →
      let p := s.g BAT_PATH_SEL_PATH
      (p = 0 → Completes (.pathWrite m late) s (SetsBy m (resFlds s BAT_PATH_CTRL_VALID.addr true ++ [(BAT_PATH_CODE_CODE, 1)]) s)) ∧
      (p ≠ 0 → s.on BAT_PATH_D1_EN = true → s.g BAT_PATH_D0_NSLOT = 0 → bpNamed s p = false → Completes (.pathWrite m late) s
        (SetsBy m (resFlds s BAT_PATH_CTRL_VALID.addr true ++ [(BAT_PATH_CODE_CODE, 5)]) s)) ∧
      (bpCode s = 0 → Completes (.pathWrite m late) s (fun t =>
        AnsweredBy m true [] s t ∧ t = { s with regs := t.regs, resp := t.resp, pend := t.pend } ∧
        t.pend = s.pend ++ [⟨bpKey p, 0xFFFFFFF, s.rd (bpKey p), none, if late then 1 else 0, 0, 7⟩,
          ⟨bpKey p + 4, 0xFFF, s.rd (bpKey p + 4), none, if late then 1 else 0, 0, 7⟩] ∧
        Regs ((BMX_PARK_T0, m.val) :: (⟨bpKey p, 0, 28⟩, s.g ⟨0xB040, 0, 28⟩) :: (⟨bpKey p + 4, 0, 12⟩, s.g ⟨0xB044, 0, 12⟩) ::
          (BAT_PATH_CODE_CODE, 0) :: resFlds s BAT_PATH_CTRL_VALID.addr false) s t)))

/-- The memory window, training and failure of channels (R20, R268, R275, R279). -/
def Obligations.MemoryWindowAndChannelsComplete : Prop :=
  ∀ s : State,
    (∀ (m : Fin 8) (off : Fin 0x1000000), s.busRuns = true →
      let ch := s.g BAT_WIN_CFG_CH
      let a := 0x1000000 * min 56 (s.g BAT_WIN_CFG_DBASE) + off.val
      let k := 0x2000000 * ch + (a - 0x30E38E00) / 4
      (off.val % 4 = 0 → s.usable 0xC000 = true → s.memUp ch = true → 0x30E38E00 ≤ a → a ≤ 0x38E38DFF →
        (∀ v : Word, s.g TWN_STAT_STATE ≠ 2 → Completes (.battWindowAccess m off (some v) 0) s (fun t => AnsweredBy m true [] s t ∧
          t = { s with regs := t.regs, resp := t.resp, scopy := t.scopy } ∧ OneAt (fun _ => 0) s.scopy t.scopy k v ∧
          RegsKeep [BMX_PARK_T0] s t)) ∧
        (∀ v : Word, s.g TWN_STAT_STATE = 2 → Completes (.battWindowAccess m off (some v) 0) s (Denied m s)) ∧
        Completes (.battWindowAccess m off none 0) s (fun t => AnsweredBy m true [tget (fun _ => 0) s.scopy k] s t ∧
          t = { s with regs := t.regs, resp := t.resp, free := t.free } ∧ RegsKeep [BMX_PARK_T0] s t) ∧
        (s.mode ≠ 4 → Completes (.battWindowAccess m off none 3) s (fun t => AnsweredBy m false [] s t ∧
          t = { s with regs := t.regs, resp := t.resp } ∧ Regs ((BMX_PARK_T0, m.val) :: occFlds s BAT_UE_OCC_COUNT.addr ++ ueFlds ch (a / 64)) s t)) ∧
        (s.mode = 4 → 0x30E38E00 ≤ a → (∀ r : Fin 100, (tget (fun _ => (0, [])) s.twn.staged r).2 ≠ []) →
          Completes (.battWindowAccess m off none 3) s (fun t => AnsweredBy m false [] s t ∧
            ∃ r : Fin 100, OneAt (fun _ => (0, [])) s.twn.staged t.twn.staged r (0, []) ∧ t.twn.complete &&& 2 ^ r.val = 0))) ∧
      (∀ v : Word, a < 0x30E38E00 → Completes (.battWindowAccess m off (some v) 0) s (Denied m s)) ∧
      ((off.val % 4 ≠ 0 ∨ s.usable 0xC000 = false ∨ s.memUp ch = false ∨ 0x38E38DFF < a) → ∀ (w : Option Word) (cls : Fin 4),
        Completes (.battWindowAccess m off w cls) s (Denied m s))) ∧
    (∀ (ch : Fin 16) (ok : Bool), s.mode ≠ 0 → s.on CLK_PLL_STAT_G6_LK = true → Completes (.memChannelTrained ch ok) s (fun t =>
      t = { s with regs := t.regs, cells := s.cells.filter (fun p => p.1 / 1024 % 16 != ch.val) } ∧
      t.on (bitOf MEM_STAT_TRAINED ch) = ok ∧ t.on (bitOf MEM_STAT_FAIL ch) = !ok ∧
      t.g BAT_STAT_UE = bit (cellsUe t) ∧
      (ok = true → s.pwr.inReset = false → prereqMet t 0xC000 = true →
        (prereqPages 0xC000).all (fun q => t.ready q && !t.on (PG_READY_FAILED q)) = true → t.ready 0xC000 = true) ∧
      RegsKeep ([bitOf MEM_STAT_TRAINED ch, bitOf MEM_STAT_FAIL ch, BAT_STAT_UE] ++
        [0xB000, 0xC000].flatMap (fun pg => [PG_READY_READY pg, PG_READY_FAILED pg, PG_CMD_SRST pg])) s t)) ∧
    (∀ (ch : Fin 16) (ok : Bool), (s.mode = 0 ∨ s.on CLK_PLL_STAT_G6_LK = false) → Ignored (.memChannelTrained ch ok) s) ∧
    (∀ ch : Fin 16, s.on (bitOf MEM_STAT_TRAINED ch) = true → Completes (.memChannelFail ch) s (fun t =>
      t = { s with regs := t.regs, cells := s.cells.filter (fun p => p.1 / 1024 % 16 != ch.val) } ∧
      t.on (bitOf MEM_STAT_FAIL ch) = true ∧ t.memUp ch = false ∧
      t.g BAT_STAT_UE = bit (cellsUe t) ∧
      RegsKeep ([bitOf MEM_STAT_FAIL ch, BAT_STAT_UE] ++
        [0xB000, 0xC000].flatMap (fun pg => [PG_READY_READY pg, PG_READY_FAILED pg, PG_CMD_SRST pg])) s t)) ∧
    (∀ ch : Fin 16, s.on (bitOf MEM_STAT_TRAINED ch) = false → Ignored (.memChannelFail ch) s) ∧
    (s.pwr.inReset = false → Completes .memPllLockLoss s (fun t => t = { s with regs := t.regs, cells := [] } ∧
      Regs ([(CLK_PLL_STAT_G6_LK, 0), (MEM_STAT_FAIL, 0xFFFF), (PG_READY_READY 0xB000, 0), (BAT_STAT_UE, 0)] ++
        (s.sels.filter (fun n => (s.selOf n).on && s.f (seScheme (selKey n)) == 2 && (s.g (seHl (selKey n)) == 2 || s.g (seHl (selKey n)) == 3))).map
          (fun n => (seHl (selKey n), 1))) s t)) ∧
    (s.pwr.inReset = true → Ignored .memPllLockLoss s)

/-- BUSY of the calibration commands' result sets (R44, R390), with the runs of `c`. -/
def Sys2Proof.calBusyList (c : CalSt) : List (Fld × Nat) :=
  (resBusy CAL_TCAL_CTRL_VALID.addr, bit ((c.running ++ c.queue).any (fun r => (r.kind == 2 || r.kind == 3) && r.host))) ::
  (resBusy CAL_MCAL_CTRL_VALID.addr, bit ((c.running ++ c.queue).any (fun r => r.kind == 4 && r.host))) ::
  (List.range 16).map (fun n => (resBusy (LGS_LCAL_CTRL_VALID n).addr,
    bit (c.running.any (fun r => decide (r.kind ≤ 1) && r.target / 12 == n) || c.queue.any (fun r => r.host && decide (r.kind ≤ 1) && r.target / 12 == n))))

/-- The control word of a result set that completes, but BUSY (R44). -/
def Sys2Proof.resFlds3 (s : State) (k : Nat) (failed : Bool) : List (Fld × Nat) :=
  [(resValid k, 1), (resFailed k, bit failed), (resSeq k, (s.g (resSeq k) + 1) % 2 ^ 16)]

/-- The result words of a run of `kind` on `target` (R394, Tables 18-6 and 18-7): a lane's always, a port's and a memory channel's for
a host command. -/
def Sys2Proof.calResFlds (s : State) (kind target code : Nat) (host : Bool) (fig0 fig1 : Nat) : List (Fld × Nat) :=
  let n := target / 12
  if kind ≤ 1 then
    resFlds3 s (LGS_LCAL_CTRL_VALID n).addr (code != 0) ++
      [(LGS_LCAL_RES_CODE n, code), (LGS_LCAL_RES_LANE n, target % 12), (LGS_LCAL_RES_KIND n, kind)] ++
      (if code = 0 then [(LGS_LCAL_FIG_WIDTH n, fig0 % 2 ^ 16), (LGS_LCAL_FIG_HEIGHT n, if kind = 0 then fig1 % 2 ^ 16 else 0)] else []) ++
      (if host then [(LGS_LCAL_CMD_RUN n, 0)] else [])
  else if host = false then []
  else if kind ≤ 3 then
    resFlds3 s CAL_TCAL_CTRL_VALID.addr (code != 0) ++ [(CAL_TCAL_RES_CODE, code), (CAL_TCAL_CMD_RUN, 0)] ++
      (if code = 0 then [(CAL_TCAL_RES_RESID, fig0 % 2 ^ 16)] else [])
  else resFlds3 s CAL_MCAL_CTRL_VALID.addr (code != 0) ++ [(CAL_MCAL_RES_CODE, code), (CAL_MCAL_CMD_RUN, 0)] ++
    (if code = 0 then [(CAL_MCAL_RES_MARGIN, fig0 % 2 ^ 16)] else [])

/-- A target's figure has flag `fl` in `t` (R394): a lane's in LCAL_ST, else in the device's own table. -/
def Sys2Proof.calFlagFlds (kind target fl : Nat) : List (Fld × Nat) :=
  if kind = 0 then [(LGS_LCAL_ST_RX_FLAG (target / 12) (target % 12), fl)]
  else if kind = 1 then [(LGS_LCAL_ST_TS_FLAG (target / 12) (target % 12), fl)] else []

/-- What holds of every target's flag after a run's `kind` on `target` took flag `fl`. -/
def Sys2Proof.CalFlagged (kind target fl : Nat) (s t : State) : Prop :=
  if kind ≤ 1 then t.cal.flag = s.cal.flag else OneAt (fun _ => 3) s.cal.flag t.cal.flag (1024 * kind + target) fl

/-- A run of `kind` on `target` ends in `t` with `code` other than success (R391): its settings stay, its figure is INVALID. -/
def Sys2Proof.CalFailed (kind target code : Nat) (host : Bool) (running : List CalRun) (queue : List CalRun) (s t : State) : Prop :=
  t = { s with regs := t.regs, cal := { s.cal with running := running, queue := queue, flag := t.cal.flag } } ∧ CalFlagged kind target 2 s t ∧
    Regs (calResFlds s kind target code host 0 0 ++ calFlagFlds kind target 2 ++ calBusyList t.cal ++
      (if kind ≤ 1 then occFlds s (LGS_LCAL_OCC_COUNT (target / 12)).addr else [])) s t

/-- No run of the target waits or is in progress. -/
abbrev Sys2Proof.calIdle (s : State) (kind target : Nat) : Prop := (s.cal.queue ++ s.cal.running).any (fun r => r.kind == kind && r.target == target) = false

/-- Requests for calibration runs, their start, end and abort (R389 to R395, Table 18-2). -/
def Obligations.CalibrationCommandsComplete : Prop :=
  ∀ s : State,
    (∀ (m : Fin 8) (lg : Fin 16), s.usable (lgBase lg + 0xD000) = true → s.on (LGS_LCAL_CMD_RUN lg) = false →
      let lane := s.g (perMaster (LGS_LCAL_SEL_LANE lg) m)
      let kind := s.g (perMaster (LGS_LCAL_SEL_KIND lg) m)
      (lane < 12 → calAdmits s kind (12 * lg + lane) = true → calIdle s kind (12 * lg + lane) → Completes (.lcalRun m lg) s (fun t =>
        AnsweredBy m true [] s t ∧ t.cal = { s.cal with queue := s.cal.queue ++ [⟨kind, 12 * lg + lane, true, 0, 0⟩] } ∧
        t = { s with regs := t.regs, resp := t.resp, cal := t.cal } ∧
        Regs ((BMX_PARK_T0, m.val) :: (LGS_LCAL_CMD_RUN lg, 1) :: calBusyList t.cal) s t)) ∧
      (12 ≤ lane → Completes (.lcalRun m lg) s (SetsBy m (resFlds s (LGS_LCAL_CTRL_VALID lg).addr true ++
        [(LGS_LCAL_RES_CODE lg, 9), (LGS_LCAL_RES_LANE lg, lane), (LGS_LCAL_RES_KIND lg, kind), (LGS_LCAL_CMD_RUN lg, 0)]) s))) ∧
    (∀ m : Fin 8, s.usable 0x1D000 = true → s.on CAL_TCAL_CMD_RUN = false →
      let p := s.g (perMaster CAL_TCAL_SEL_PORT m)
      let kind := if p < 0x200 then 2 else 3
      (calAdmits s kind p = true → calIdle s kind p → Completes (.tcalRun m) s (fun t =>
        AnsweredBy m true [] s t ∧ t.cal = { s.cal with queue := s.cal.queue ++ [⟨kind, p, true, 0, 0⟩] } ∧
        t = { s with regs := t.regs, resp := t.resp, cal := t.cal } ∧
        Regs ((BMX_PARK_T0, m.val) :: (CAL_TCAL_CMD_RUN, 1) :: calBusyList t.cal) s t)) ∧
      (calAdmits s kind p = false → Completes (.tcalRun m) s (SetsBy m (resFlds s CAL_TCAL_CTRL_VALID.addr true ++
        [(CAL_TCAL_RES_CODE, 9), (CAL_TCAL_CMD_RUN, 0)]) s))) ∧
    (∀ m : Fin 8, s.usable 0x1D000 = true → s.on CAL_MCAL_CMD_RUN = false → calIdle s 4 (s.g (perMaster CAL_MCAL_SEL_CH m)) →
      Completes (.mcalRun m) s (fun t => AnsweredBy m true [] s t ∧
        t.cal = { s.cal with queue := s.cal.queue ++ [⟨4, s.g (perMaster CAL_MCAL_SEL_CH m), true, 0, 0⟩] } ∧
        t = { s with regs := t.regs, resp := t.resp, cal := t.cal } ∧
        Regs ((BMX_PARK_T0, m.val) :: (CAL_MCAL_CMD_RUN, 1) :: calBusyList t.cal) s t)) ∧
    (∀ (kind : Fin 5) (target : Fin 1024), s.ready 0x1D000 = true → calBg s kind = true → s.f CAL_CFG_PERIOD_MIN ≠ 0 →
      calAdmits s kind target = true → calIdle s kind target → Completes (.calPeriodExpiry kind target) s (fun t =>
        t.cal = { s.cal with queue := s.cal.queue ++ [⟨kind, target, false, 0, 0⟩] } ∧ t = { s with regs := t.regs, cal := t.cal } ∧
        Regs (calBusyList t.cal) s t)) ∧
    (∀ (kind : Fin 5) (target : Fin 1024), (s.ready 0x1D000 = false ∨ calBg s kind = false ∨ s.f CAL_CFG_PERIOD_MIN = 0) →
      Ignored (.calPeriodExpiry kind target) s) ∧
    (∀ (kind : Fin 5) (target : Fin 1024) (r : CalRun) (rest : List CalRun), (kind.val ≤ 1 → target.val < 192) → s.cal.queue = r :: rest →
      r.kind = kind.val → r.target = target.val → r ∉ rest → s.cal.running = [] → calSettled s kind target = true → s.ready 0x1D000 = true →
      let miss := calMiss s kind target (calTemp s kind target)
      let act := s.g (LGS_LANE_EQ_SLICE (target / 12) (target % 12))
      (miss = 0 → Completes (.blockingRunStart kind target) s (fun t =>
        (∃ x : Fin 3, (kind.val = 0 → act < 3 → x.val ≠ act) ∧
          t.cal = { s.cal with queue := rest, running := [{ r with temp := calTemp s kind target, spare := x.val }], flag := t.cal.flag }) ∧
        CalFlagged kind target 1 s t ∧ t = { s with regs := t.regs, cal := t.cal, free := t.free } ∧
        Regs (calFlagFlds kind target 1 ++ calBusyList t.cal) s t)) ∧
      (miss ≠ 0 → Completes (.blockingRunStart kind target) s (CalFailed kind target miss r.host [] rest s))) ∧
    (∀ (kind : Fin 5) (target : Fin 1024) (r : CalRun) (rx tx : Int) (dq : List Nat) (fig0 fig1 : Nat), ungauged s →
      (kind.val ≤ 1 → target.val < 192) → s.cal.running = [r] → r.kind = kind.val → r.target = target.val →
      (kind.val = 4 → s.f CAL_CFG_MIN_MARGIN ≤ fig0) → Completes (.blockingRunComplete kind target rx tx dq fig0 fig1) s (fun t =>
        OneAt (fun _ => []) s.cal.last t.cal.last (1024 * kind + target) [calTemp s kind target] ∧ CalFlagged kind target 0 s t ∧
        (kind.val = 0 → t.cal.swap = s.cal.swap ++ [(target.val, r.spare)]) ∧ (kind.val ≠ 0 → t.cal.swap = s.cal.swap) ∧
        (kind.val = 4 → OneAt (fun _ => []) s.cal.dqTo t.cal.dqTo target ((dq.take 16).map (fun v => v % 16))) ∧
        (kind.val ≠ 4 → t.cal.dqTo = s.cal.dqTo) ∧
        (1 ≤ kind.val → kind.val ≤ 3 → tget (fun _ => 0) t.cal.corr (tsKey s target false) = rx ∧
          tget (fun _ => 0) t.cal.corr (tsKey s target true) = tx) ∧
        (kind.val = 0 ∨ kind.val = 4 → t.cal.corr = s.cal.corr) ∧
        (∀ k, k ≠ tsKey s target false → k ≠ tsKey s target true → tget (fun _ => 0) t.cal.corr k = tget (fun _ => 0) s.cal.corr k) ∧
        t = { s with
          regs := t.regs
          cal := { s.cal with running := [], last := t.cal.last, flag := t.cal.flag, swap := t.cal.swap, dqTo := t.cal.dqTo, corr := t.cal.corr } } ∧
        Regs (calResFlds s kind target 0 r.host fig0 fig1 ++ calFlagFlds kind target 0 ++ calBusyList t.cal ++
          (if kind.val = 0 then [(LGS_LCAL_ST_RX_WIDTH (target / 12) (target % 12), fig0 % 2 ^ 16)] else []) ++
          (if kind.val ≤ 1 then occFlds s (LGS_LCAL_OCC_COUNT (target / 12)).addr else [])) s t)) ∧
    (∀ (target : Fin 1024) (r : CalRun) (rx tx : Int) (dq : List Nat) (fig0 fig1 : Nat), s.cal.running = [r] → r.kind = 4 →
      r.target = target.val → fig0 < s.f CAL_CFG_MIN_MARGIN → Completes (.blockingRunComplete 4 target rx tx dq fig0 fig1) s
        (CalFailed 4 target 8 r.host [] s.cal.queue s)) ∧
    (∀ (kind : Fin 5) (target : Fin 1024) (code : Fin 10) (r : CalRun), (kind.val ≤ 1 → target.val < 192) → abortFits kind code = true →
      s.cal.running = [r] → r.kind = kind.val → r.target = target.val → Completes (.blockingRunAbort kind target code) s
        (CalFailed kind target code r.host [] s.cal.queue s)) ∧
    (∀ (lane : Fin 192) (r : CalRun), s.cal.running = [r] → r.kind = 0 → r.target = lane.val → Completes (.mismatch lane) s
      (CalFailed 0 lane 7 r.host [] s.cal.queue s)) ∧
    (∀ (kind : Fin 5) (target : Fin 1024) (code : Fin 10) (rx tx : Int) (dq : List Nat) (fig0 fig1 : Nat), s.cal.running = [] →
      Ignored (.blockingRunComplete kind target rx tx dq fig0 fig1) s ∧ Ignored (.blockingRunAbort kind target code) s)

/-- FUSE_STAT and FR_BAD for the array `f` (Table 18-7). -/
def Sys2Proof.fuseFlds (f : Tab Word) : List (Fld × Nat) :=
  let l := (List.range 32).map (slotWords f)
  [(CAL_FUSE_STAT_USED, (l.filter slotUsed).length), (CAL_FUSE_STAT_COMMITTED, ((l.filter slotUsed).filter slotCommitted).length),
    (CAL_FR_BAD_MAP, bitsFrom (l.map (fun w => slotUsed w && !slotCommitted w)))]

/-- The record that TR_D holds: 14 words. -/
def Sys2Proof.stagedRecord (s : State) : List Word := (List.range 14).map (fun i => BitVec.ofNat 32 (s.g (CAL_TR_D_DATA i)))

/-- The result of a programming command (R399). -/
def Sys2Proof.progFlds (s : State) (code : Nat) (slot : Option Nat) : List (Fld × Nat) :=
  resFlds s CAL_FR_CTRL_VALID.addr (code != 0) ++ [(CAL_FR_CODE_CODE, code), (CAL_FCMD_PROG, 0)] ++
    (match slot with | some i => [(CAL_FR_CODE_SLOT, i)] | none => [])

/-- Fuse records (R396 to R400, Tables 18-3 to 18-5): the read at power-up, programming and its checks, its end, its abort. -/
def Obligations.FuseCommandsComplete : Prop :=
  ∀ s : State,
    (∀ (crcOk : Bool) (fact : List (Nat × Int)), s.pwr.inReset = false → s.pwr.fusesRead = false → s.calTs = [] → s.cal.corr = [] →
      let recs := committed s.fuses
      let best := recs.filter (fun r => bestRecord recs (recType r) (recTarget r) == some r)
      let f := if crcOk then fact.foldl (fun t p => tset (fun _ => 0) t p.1 p.2) [] else []
      let c := best.foldl applyRecord { s.cal with fact := f, fr := s.fuses }
      Completes (.fuseReadComplete crcOk fact) s (fun t =>
        t = { s with regs := t.regs, calTs := t.calTs, cal := { c with dq := c.dqTo }, pwr := { s.pwr with fusesRead := true } } ∧
        (∀ k, tget (fun _ => 0) t.calTs k = 1024 * (tget (fun _ => 0) c.fact k + tget (fun _ => 0) c.trim k)) ∧
        Regs ((CAL_FUSE_STAT_FACT_BAD, bit (!crcOk)) :: fuseFlds s.fuses) s t)) ∧
    (∀ (crcOk : Bool) (fact : List (Nat × Int)), (s.pwr.inReset = true ∨ s.pwr.fusesRead = true) → Ignored (.fuseReadComplete crcOk fact) s) ∧
    (∀ (m : Fin 8) (low : Bool), s.usable 0x1D000 = true → s.on CAL_FCMD_PROG = false →
      let w := stagedRecord s
      let best := bestRecord (committed s.fuses) (recType w) (recTarget w)
      (freeSlot s.fuses = none → Completes (.prog m low) s (SetsBy m (progFlds s 1 none) s)) ∧
      (∀ i, freeSlot s.fuses = some i →
        ((recKnown (recType w) (recTarget w) = false ∨ recLen w = 0 ∨ 13 < recLen w ∨ recGen w = 0) →
          Completes (.prog m low) s (SetsBy m (progFlds s 2 none) s)) ∧
        (recKnown (recType w) (recTarget w) = true → recLen w ≠ 0 → recLen w ≤ 13 → recGen w ≠ 0 →
          (best.any (fun r => decide (recGen w ≤ recGen r)) = true → Completes (.prog m low) s (SetsBy m (progFlds s 3 none) s)) ∧
          (best.any (fun r => decide (recGen w ≤ recGen r)) = false →
            Completes (.prog m true) s (SetsBy m (progFlds s 7 none) s) ∧
            Completes (.prog m false) s (fun t => AnsweredBy m true [] s t ∧ t.cal = { s.cal with prog := some (i, w), halt := false } ∧
              t = { s with regs := t.regs, resp := t.resp, cal := t.cal } ∧
              Regs [(BMX_PARK_T0, m.val), (CAL_FCMD_PROG, 1), (resBusy CAL_FR_CTRL_VALID.addr, 1)] s t))))) ∧
    (∀ (i : Fin 32) (w : List Word), s.cal.prog = some (i.val, w) → w.length = 14 → s.cal.halt = false → slotUsed (slotWords s.fuses i) = false →
      Completes (.fuseProgDone true) s (fun t => slotWords t.fuses i = w ++ [BitVec.ofNat 32 (recordCrc w), commitWord] ∧
        (∀ j, j / 16 ≠ i.val → tget (fun _ => 0) t.fuses j = tget (fun _ => 0) s.fuses j) ∧ t.cal.prog = none ∧
        t = { s with regs := t.regs, fuses := t.fuses, cal := { (applyRecord s.cal w) with prog := none, fr := t.cal.fr } } ∧
        slotWords t.cal.fr i = slotWords t.fuses i ∧ Regs (fuseFlds t.fuses ++ progFlds s 0 (some i)) s t) ∧
      Completes (.fuseProgDone false) s (fun t => slotWords t.fuses i = w ++ [BitVec.ofNat 32 (recordCrc w), 0] ∧
        (∀ j, j / 16 ≠ i.val → tget (fun _ => 0) t.fuses j = tget (fun _ => 0) s.fuses j) ∧
        t = { s with regs := t.regs, fuses := t.fuses, cal := { s.cal with prog := none, fr := t.cal.fr } } ∧
        slotWords t.cal.fr i = slotWords t.fuses i ∧ Regs (fuseFlds t.fuses ++ progFlds s 6 (some i)) s t) ∧
      (∀ (n : Fin 16) (part : Word), Completes (.fuseProgAbort n part) s (fun t =>
        (∀ j, j < 16 → tget (fun _ => 0) t.fuses (16 * i + j) =
          if j < n.val then (w ++ [BitVec.ofNat 32 (recordCrc w)]).getD j 0 else if j = n.val then (w ++ [BitVec.ofNat 32 (recordCrc w)]).getD j 0 &&& part else 0) ∧
        (∀ j, j / 16 ≠ i.val → tget (fun _ => 0) t.fuses j = tget (fun _ => 0) s.fuses j) ∧
        t = { s with regs := t.regs, fuses := t.fuses, cal := { s.cal with prog := none, halt := false } } ∧
        Regs (fuseFlds t.fuses ++ progFlds s 4 (some i)) s t))) ∧
    (∀ (i : Fin 32) (w : List Word) (n : Fin 16) (part : Word), s.cal.prog = some (i.val, w) → s.cal.halt = true →
      Ignored (.fuseProgDone true) s ∧ Completes (.fuseProgAbort n part) s (fun t =>
        t = { s with regs := t.regs, fuses := t.fuses, cal := { s.cal with prog := none, halt := false } } ∧
        Regs (fuseFlds t.fuses ++ progFlds s 5 (some i)) s t)) ∧
    (∀ (ok : Bool) (n : Fin 16) (part : Word), s.cal.prog = none → Ignored (.fuseProgDone ok) s ∧ Ignored (.fuseProgAbort n part) s)

/-- An instruction word of format R (R242, Table 11-2): OP [5:0], D [10:6], A [15:11], [18:16] 0, B [23:19], FN [31:24]. -/
def Sys2Proof.rWord (op fn d a b : Nat) : Word := BitVec.ofNat 32 (op + 2 ^ 6 * d + 2 ^ 11 * a + 2 ^ 19 * b + 2 ^ 24 * fn)

/-- An instruction word of format I, B or L (R242): OP [5:0], D or B [10:6], A [15:11], IMM or OFF [31:16]. -/
def Sys2Proof.iWord (op d a : Nat) (k : BitVec 16) : Word := BitVec.ofNat 32 (op + 2 ^ 6 * d + 2 ^ 11 * a + 2 ^ 16 * k.toNat)

/-- Engine `e` runs, and its PC names a word of the active bank that reads without error (R240, R243, R262, R263); nothing is injected or counted. -/
abbrev Sys2Proof.Fetches (s : State) (e : Nat) (w : Word) : Prop :=
  s.usable (0x200000 + 0x1000 * e) = true ∧ s.g (FE_STAT_STATE e) = 1 ∧ (s.engOf e).halting = false ∧ s.injecting = false ∧ s.on PRF_P_CTL_RUN = false ∧
    s.g (FE_PC_PC e) % 4 = 0 ∧ s.g (FE_PC_PC e) ≤ 0x7FFC ∧
    tget (fun _ => 0) (s.engOf e).ecc (8192 * s.g (FE_STAT_ACT_BANK e) + s.g (FE_PC_PC e) / 4) = 0 ∧
    tget (fun _ => 0) (s.engOf e).mem (8192 * s.g (FE_STAT_ACT_BANK e) + s.g (FE_PC_PC e) / 4) = w

/-- Engine `e` issues instruction word `w`: no register of `uses` waits for the data of a BLD (R245). -/
abbrev Sys2Proof.Issues (s : State) (e : Nat) (w : Word) (uses : List Nat) : Prop :=
  Fetches s e w ∧ ∀ r ∈ uses, (s.engOf e).ops.any (fun o => !o.write && !o.drop && o.dest == r) = false

/-- General register `r` of engine `e` (R240). -/
def Sys2Proof.reg (s : State) (e r : Nat) : Word := tget (fun _ => 0) (s.engOf e).gr r

/-- The instruction of engine `e` has put `v` into register `d`; the PC has advanced to `pc` and the other fields `l` hold what is said. -/
def Sys2Proof.Computes (e d : Nat) (v : Word) (pc : Nat) (l : List (Fld × Nat)) (s t : State) : Prop :=
  t = { s with regs := t.regs, eng := t.eng } ∧ OneAt (fun _ => engReset) s.eng t.eng e { s.engOf e with gr := (t.engOf e).gr } ∧
    OneAt (fun _ => 0) (s.engOf e).gr (t.engOf e).gr d v ∧ Regs ((FE_PC_PC e, pc) :: l) s t

/-- A fault of engine `e` (R262, Table 11-8): FAULTED, the cause, the PC; loads lose their data; the streams are silenced at the next tick. -/
def Sys2Proof.Faults (e cause : Nat) (s t : State) : Prop :=
  t = { s with regs := t.regs, eng := t.eng } ∧
    OneAt (fun _ => engReset) s.eng t.eng e { s.engOf e with mute := true, ops := (s.engOf e).ops.map (fun o => { o with drop := true }) } ∧
    Regs ([(FE_STAT_STATE e, 3), (FE_FAULT_CAUSE e, cause), (FE_FAULT_PC_PC e, s.g (FE_PC_PC e))] ++ occFlds s (FE_FAULT_OCC_COUNT e).addr) s t

/-- Command `c` runs the R-format instruction (`op`, `fn`), which computes d := f a b. -/
def Sys2Proof.FormR (c : Fin 64 → Instr) (op fn : Nat) (f : State → Nat → Word → Word → Word) (s : State) : Prop :=
  ∀ (e : Fin 64) (d a b : Fin 32), Issues s e (rWord op fn d a b) [d.val, a.val, b.val] →
    Completes (c e) s (Computes e d (f s e (reg s e a) (reg s e b)) (s.g (FE_PC_PC e) + 4) [] s)

/-- Command `c` runs the I-format instruction `op`, which computes d := f a IMM. -/
def Sys2Proof.FormK (c : Fin 64 → Instr) (op : Nat) (f : Word → BitVec 16 → Word) (s : State) : Prop :=
  ∀ (e : Fin 64) (d a : Fin 32) (k : BitVec 16), Issues s e (iWord op d a k) [d.val, a.val] →
    Completes (c e) s (Computes e d (f (reg s e a) k) (s.g (FE_PC_PC e) + 4) [] s)

/-- The CRC of Table 11-2 (R244) that CRC_SEL names, of one byte. -/
def Sys2Proof.crcStep (s : State) (e : Nat) (c : Word) (b : Byte) : Word := feCrcByte (tget (fun _ => 0) (s.engOf e).csr 5).toNat c b

/-- The address a + IMM (R243). -/
def Sys2Proof.eaddr (s : State) (e a : Nat) (k : BitVec 16) : Nat := (reg s e a + k.signExtend 32).toNat

/-- Command `c` runs the load `op` of `n` bytes (R241, R243, R263): data memory, little-endian; below 0x8000 aligned; the words of the host
mailbox that LDW reads; a misaligned address and one that no load reaches fault. -/
def Sys2Proof.FormLoad (c : Fin 64 → Instr) (op n : Nat) (ext : Nat → Word) (s : State) : Prop :=
  ∀ (e : Fin 64) (d a : Fin 32) (k : BitVec 16), Issues s e (iWord op d a k) [d.val, a.val] →
    let x := eaddr s e a k
    (x % n = 0 → x < 0x8000 → tget (fun _ => 0) (s.engOf e).ecc (16384 + x / 4) = 0 → Completes (c e) s
      (Computes e d (ext ((tget (fun _ => 0) (s.engOf e).mem (16384 + x / 4)).toNat / 256 ^ (x % 4) % 256 ^ n)) (s.g (FE_PC_PC e) + 4) [] s)) ∧
    (n = 4 → x % 4 = 0 → 0x8000 ≤ x → x < 0x8040 → Completes (c e) s
      (Computes e d (BitVec.ofNat 32 (s.g (FE_H_IN_D_DATA e ((x - 0x8000) / 4)))) (s.g (FE_PC_PC e) + 4) [] s)) ∧
    (x % n ≠ 0 → Completes (c e) s (Faults e 3 s)) ∧
    (x % n = 0 → 0x8000 ≤ x → (n ≠ 4 ∨ 0x8160 ≤ x) → Completes (c e) s (Faults e 4 s))

/-- Command `c` runs the store `op` of the low `n` bytes of d. -/
def Sys2Proof.FormStore (c : Fin 64 → Instr) (op n : Nat) (s : State) : Prop :=
  ∀ (e : Fin 64) (d a : Fin 32) (k : BitVec 16), Issues s e (iWord op d a k) [d.val, a.val] →
    let x := eaddr s e a k
    let old := tget (fun _ => 0) (s.engOf e).mem (16384 + x / 4)
    let mask : Word := BitVec.ofNat 32 ((256 ^ n - 1) * 256 ^ (x % 4))
    (x % n = 0 → x < 0x8000 → tget (fun _ => 0) (s.engOf e).ecc (16384 + x / 4) = 0 → Completes (c e) s (fun t =>
      t = { s with regs := t.regs, eng := t.eng } ∧
      OneAt (fun _ => engReset) s.eng t.eng e { s.engOf e with mem := (t.engOf e).mem, ecc := (t.engOf e).ecc } ∧
      OneAt (fun _ => 0) (s.engOf e).mem (t.engOf e).mem (16384 + x / 4)
        ((old &&& ~~~mask) ||| ((reg s e d <<< (8 * (x % 4))) &&& mask)) ∧
      (∀ j, tget (fun _ => 0) (t.engOf e).ecc j = tget (fun _ => 0) (s.engOf e).ecc j) ∧
      Regs [(FE_PC_PC e, s.g (FE_PC_PC e) + 4)] s t)) ∧
    (n = 4 → x % 4 = 0 → 0x8040 ≤ x → x < 0x8080 → s.g (FE_H_OUT_DB_SEQ e) = s.g (FE_H_OUT_ACK_ACK e) → Completes (c e) s
      (Sets [(FE_PC_PC e, s.g (FE_PC_PC e) + 4), (FE_H_OUT_D_DATA e ((x - 0x8040) / 4), (reg s e d).toNat)] s)) ∧
    (n = 4 → x % 4 = 0 → 0x8040 ≤ x → x < 0x8080 → s.g (FE_H_OUT_DB_SEQ e) ≠ s.g (FE_H_OUT_ACK_ACK e) → Completes (c e) s
      (Sets ((FE_PC_PC e, s.g (FE_PC_PC e) + 4) :: occFlds s (FE_MBX_OVR_OCC_COUNT e).addr) s)) ∧
    (x % n ≠ 0 → Completes (c e) s (Faults e 3 s)) ∧
    (x % n = 0 → 0x8000 ≤ x → (n ≠ 4 ∨ x < 0x8040 ∨ 0x8100 ≤ x) → Completes (c e) s (Faults e 4 s))

/-- Byte `x` of the half of the overhead buffer that engine `e` sees (R105, R252, Table 11-1). -/
def Sys2Proof.oh (s : State) (e x : Nat) : Nat :=
  (tget (fun _ => (0 : Byte)) s.ohb (((2 * (e / 4) + (1 - tget (fun _ => 0) s.ohbLine (e / 4))) * 12 + x / 0x800) * 0x800 + x % 0x800)).toNat

/-- Command `c` runs the overhead load `op` of `n` bytes, `n` 1 or 4 (R243, R252). -/
def Sys2Proof.FormOhLoad (c : Fin 64 → Instr) (op n : Nat) (s : State) : Prop :=
  ∀ (e : Fin 64) (d a : Fin 32) (k : BitVec 16), Issues s e (iWord op d a k) [d.val, a.val] →
    let x := eaddr s e a k
    (x % n = 0 → x < 0x6000 → Completes (c e) s (Computes e d (BitVec.ofNat 32 (if n = 1 then oh s e x else
      oh s e x + 2 ^ 8 * oh s e (x + 1) + 2 ^ 16 * oh s e (x + 2) + 2 ^ 24 * oh s e (x + 3))) (s.g (FE_PC_PC e) + 4) [] s)) ∧
    (x % n ≠ 0 → Completes (c e) s (Faults e 3 s)) ∧
    (x % n = 0 → 0x6000 ≤ x → Completes (c e) s (Faults e 5 s))

/-- Command `c` runs the overhead store `op` of `n` bytes, `n` 1 or 4 (R108, R252): into a transmit area, where neither the late window nor an
HDLC context keeps it out. -/
def Sys2Proof.FormOhStore (c : Fin 64 → Instr) (op n : Nat) (s : State) : Prop :=
  ∀ (e : Fin 64) (d a : Fin 32) (k : BitVec 16), Issues s e (iWord op d a k) [d.val, a.val] →
    let x := eaddr s e a k
    let off := x % 0x800 - 0x400
    let ks := (List.range n).map (fun i => feOhb s e x + i)
    let rest := s.ohbStale.filter (fun y => decide (y ∉ ks))
    (x % n = 0 → x < 0x6000 → 0x404 ≤ x % 0x800 → off < 0x100 → s.nowNs % 125000 < 123000 → Completes (c e) s (fun t =>
      t = { s with regs := t.regs, ohb := t.ohb, ohbStale := rest } ∧ (∀ i, i < n → oh t e (x + i) = (reg s e d).toNat / 256 ^ i % 256) ∧
      (∀ y, y < 0x6000 → (y < x ∨ x + n ≤ y) → oh t e y = oh s e y) ∧
      (∀ j, j / 0x800 ≠ (2 * (e.val / 4) + (1 - tget (fun _ => 0) s.ohbLine (e.val / 4))) * 12 + x / 0x800 →
        tget (fun _ => (0 : Byte)) t.ohb j = tget (fun _ => (0 : Byte)) s.ohb j) ∧
      Regs [(FE_PC_PC e, s.g (FE_PC_PC e) + 4)] s t)) ∧
    (x % n = 0 → x < 0x6000 → 0x404 ≤ x % 0x800 → off < 0x100 → 123000 ≤ s.nowNs % 125000 → Completes (c e) s (fun t =>
      t = { s with regs := t.regs, ohbStale := rest ++ ks } ∧
      Regs ((FE_PC_PC e, s.g (FE_PC_PC e) + 4) :: occFlds s (LGM_OHB_LATE_OCC_COUNT (e.val / 4)).addr) s t)) ∧
    (x % n ≠ 0 → Completes (c e) s (Faults e 3 s)) ∧
    (x % n = 0 → (0x6000 ≤ x ∨ x % 0x800 < 0x400) → Completes (c e) s (Faults e 5 s))

/-- The engines' arithmetic, logic, shifts, comparisons, constants and CRC (R242 to R244); their loads and stores, of data memory and of the
overhead buffer (R241, R243, R252, R257, R262, Table 11-3). -/
def Obligations.EngineArithmeticLoadsAndStoresComplete : Prop :=
  (∀ s : State,
    FormR .feAdd 0x01 0 (fun _ _ x y => x + y) s ∧
    FormR .feSub 0x01 1 (fun _ _ x y => x - y) s ∧
    FormR .feAnd 0x01 2 (fun _ _ x y => x &&& y) s ∧
    FormR .feOr 0x01 3 (fun _ _ x y => x ||| y) s ∧
    FormR .feXor 0x01 4 (fun _ _ x y => x ^^^ y) s ∧
    FormR .feShl 0x01 5 (fun _ _ x y => x <<< (y.toNat % 32)) s ∧
    FormR .feShr 0x01 6 (fun _ _ x y => x >>> (y.toNat % 32)) s ∧
    FormR .feSha 0x01 7 (fun _ _ x y => x.sshiftRight (y.toNat % 32)) s ∧
    FormR .feClt 0x01 8 (fun _ _ x y => if x.toInt < y.toInt then 1 else 0) s ∧
    FormR .feCltu 0x01 9 (fun _ _ x y => if x.toNat < y.toNat then 1 else 0) s ∧
    FormR .feMul 0x01 10 (fun _ _ x y => BitVec.ofNat 32 (x.toNat * y.toNat)) s ∧
    FormR .feMulhi 0x01 11 (fun _ _ x y => BitVec.ofNat 32 (x.toNat * y.toNat / 2 ^ 32)) s ∧
    FormK .feAddk 0x02 (fun x k => x + k.signExtend 32) s ∧
    FormK .feAndk 0x03 (fun x k => x &&& k.setWidth 32) s ∧
    FormK .feOrk 0x04 (fun x k => x ||| k.setWidth 32) s ∧
    FormK .feXork 0x05 (fun x k => x ^^^ k.setWidth 32) s ∧
    FormK .feCltk 0x06 (fun x k => if x.toInt < k.toInt then 1 else 0) s ∧
    FormK .feKhi 0x07 (fun x k => (k.setWidth 32 <<< 16) ||| (x &&& 0xFFFF)) s ∧
    FormK .feShlk 0x08 (fun x k => x <<< (k.toNat % 32)) s ∧
    FormK .feShrk 0x09 (fun x k => x >>> (k.toNat % 32)) s ∧
    FormK .feShak 0x0A (fun x k => x.sshiftRight (k.toNat % 32)) s ∧
    FormR .feCrcb 0x33 0 (fun s e x y => crcStep s e x (y.extractLsb' 0 8)) s ∧
    FormR .feCrcw 0x34 0 (fun s e x y => crcStep s e (crcStep s e (crcStep s e (crcStep s e x (y.extractLsb' 0 8)) (y.extractLsb' 8 8))
      (y.extractLsb' 16 8)) (y.extractLsb' 24 8)) s) ∧
  (∀ s : State,
    FormLoad .feLdw 0x10 4 (BitVec.ofNat 32) s ∧
    FormLoad .feLdh 0x11 2 (fun v => (BitVec.ofNat 16 v).signExtend 32) s ∧
    FormLoad .feLdhu 0x12 2 (BitVec.ofNat 32) s ∧
    FormLoad .feLdb 0x13 1 (fun v => (BitVec.ofNat 8 v).signExtend 32) s ∧
    FormLoad .feLdbu 0x14 1 (BitVec.ofNat 32) s ∧
    FormStore .feStw 0x15 4 s ∧
    FormStore .feSth 0x16 2 s ∧
    FormStore .feStb 0x17 1 s ∧
    FormOhLoad .feOldw 0x18 4 s ∧
    FormOhLoad .feOldbu 0x19 1 s ∧
    FormOhStore .feOstw 0x1A 4 s ∧
    FormOhStore .feOstb 0x1B 1 s)

/-- Command `c` runs the bus operation `op` (R245, R246): posted, while fewer than eight are outstanding; a ninth stalls. -/
def Sys2Proof.FormBus (c : Fin 64 → Instr) (op : Nat) (write : Bool) (s : State) : Prop :=
  ∀ (e : Fin 64) (d a : Fin 32) (k : BitVec 16), Issues s e (iWord op d a k) [d.val, a.val] →
    let x := eaddr s e a k
    (x % 4 = 0 → x < 0x240000 → (s.engOf e).ops.length < 8 → Completes (c e) s (fun t =>
      t = { s with regs := t.regs, eng := t.eng } ∧ OneAt (fun _ => engReset) s.eng t.eng e { s.engOf e with
        ops := (s.engOf e).ops ++ [⟨write, x, if write then reg s e d else 0, d, false⟩] } ∧
      Regs [(FE_PC_PC e, s.g (FE_PC_PC e) + 4), (FE_STAT_OUTST e, (s.engOf e).ops.length + 1)] s t)) ∧
    (x % 4 = 0 → x < 0x240000 → 8 ≤ (s.engOf e).ops.length → Ignored (c e) s) ∧
    (x % 4 ≠ 0 → Completes (c e) s (Faults e 3 s)) ∧
    (x % 4 = 0 → 0x2000000 ≤ x → Completes (c e) s (Faults e 4 s))

/-- The target of a branch or CALL: the PC plus 4 × OFF (R242). -/
def Sys2Proof.target (s : State) (e : Nat) (k : BitVec 16) : Nat := ((s.g (FE_PC_PC e) : Int) + 4 * k.toInt).toNat % 2 ^ 32

/-- Command `c` runs the branch `op` (R242, R243). -/
def Sys2Proof.FormB (c : Fin 64 → Instr) (op : Nat) (f : Word → Word → Bool) (s : State) : Prop :=
  ∀ (e : Fin 64) (b a : Fin 32) (k : BitVec 16), Issues s e (iWord op b a k) [b.val, a.val] → 0 ≤ (s.g (FE_PC_PC e) : Int) + 4 * k.toInt →
    Completes (c e) s (Sets [(FE_PC_PC e, if f (reg s e a) (reg s e b) then target s e k else s.g (FE_PC_PC e) + 4)] s)

/-- The engines' bus operations, branches, waits, CSRs and HALT (R242, R243, R245, R247, R262, R264). -/
def Obligations.EngineBusBranchesAndCsrsComplete : Prop :=
  ∀ s : State,
    FormBus .feBld 0x20 false s ∧
    FormBus .feBst 0x21 true s ∧
    FormB .feBreq 0x28 (fun x y => x == y) s ∧
    FormB .feBrne 0x29 (fun x y => x != y) s ∧
    FormB .feBrlt 0x2A (fun x y => decide (x.toInt < y.toInt)) s ∧
    FormB .feBrge 0x2B (fun x y => decide (y.toInt ≤ x.toInt)) s ∧
    FormB .feBrlo 0x2C (fun x y => decide (x.toNat < y.toNat)) s ∧
    FormB .feBrhs 0x2D (fun x y => decide (y.toNat ≤ x.toNat)) s ∧
    (∀ (e : Fin 64) (d a b : Fin 32), Issues s e (rWord 0x22 0 d a b) [] →
      ((s.engOf e).ops = [] → Completes (.feBsync e) s (Sets [(FE_PC_PC e, s.g (FE_PC_PC e) + 4)] s)) ∧
      ((s.engOf e).ops ≠ [] → Ignored (.feBsync e) s)) ∧
    (∀ (e : Fin 64) (d a : Fin 32) (k : BitVec 16), Issues s e (iWord 0x2E d a k) [d.val] → 0 ≤ (s.g (FE_PC_PC e) : Int) + 4 * k.toInt →
      Completes (.feCall e) s (Computes e d (BitVec.ofNat 32 (s.g (FE_PC_PC e) + 4)) (target s e k) [] s)) ∧
    (∀ (e : Fin 64) (d a b : Fin 32),
      (Issues s e (rWord 0x2F 0 d a b) [a.val] → Completes (.feJmp e) s (Sets [(FE_PC_PC e, (reg s e a).toNat)] s)) ∧
      (Issues s e (rWord 0x2F 1 d a b) [d.val, a.val] → Completes (.feJmp e) s
        (Computes e d (BitVec.ofNat 32 (s.g (FE_PC_PC e) + 4)) (reg s e a).toNat [] s))) ∧
    (∀ (e : Fin 64) (d a b : Fin 32), Issues s e (rWord 0x30 0 d a b) [d.val, a.val] →
      let ev : Word := BitVec.ofNat 32 (s.g (FE_EVPEND_EV e)) &&& reg s e a
      (reg s e a = 0 → Completes (.feWait e) s (Faults e 7 s)) ∧
      (reg s e a ≠ 0 → ev = 0 → Completes (.feWait e) s (fun t => t = { s with regs := t.regs, eng := t.eng } ∧
        OneAt (fun _ => engReset) s.eng t.eng e { s.engOf e with wd := 0 } ∧ Regs [(FE_STAT_STATE e, 2)] s t)) ∧
      (ev ≠ 0 → Completes (.feWait e) s (fun t => t = { s with regs := t.regs, eng := t.eng } ∧
        OneAt (fun _ => engReset) s.eng t.eng e { s.engOf e with wd := 0, gr := (t.engOf e).gr } ∧
        OneAt (fun _ => 0) (s.engOf e).gr (t.engOf e).gr d ev ∧
        Regs [(FE_PC_PC e, s.g (FE_PC_PC e) + 4), (FE_EVPEND_EV e, s.g (FE_EVPEND_EV e) - ev.toNat)] s t))) ∧
    (∀ (e : Fin 64) (d a : Fin 32) (n hi : Fin 256), Issues s e (iWord 0x31 d a (BitVec.ofNat 16 (n + 256 * hi))) [d.val, a.val] →
      feCsrListed n = true →
      (n.val ≠ 4 → Completes (.feRdc e) s (Computes e d (feCsrRead s e n) (s.g (FE_PC_PC e) + 4) [] s)) ∧
      (n.val = 4 → Completes (.feRdc e) s (fun t => t.free = s.free + 1 ∧
        Computes e d (reg t e d) (s.g (FE_PC_PC e) + 4) [] s { t with free := s.free }))) ∧
    (∀ (e : Fin 64) (d a : Fin 32) (n hi : Fin 256), Issues s e (iWord 0x32 d a (BitVec.ofNat 16 (n + 256 * hi))) [a.val] →
      feCsrListed n = true →
      (n.val = 0x11 → Completes (.feWrc e) s (Sets [(FE_PC_PC e, s.g (FE_PC_PC e) + 4), (FE_H_IN_ACK_ACK e, (reg s e a).toNat % 2 ^ 16)] s)) ∧
      (n.val = 0x12 → Completes (.feWrc e) s (Sets [(FE_PC_PC e, s.g (FE_PC_PC e) + 4), (FE_H_OUT_DB_SEQ e, (reg s e a).toNat % 2 ^ 16)] s)) ∧
      (n.val ≠ 0x11 → n.val ≠ 0x12 → Completes (.feWrc e) s (fun t => t = { s with regs := t.regs, eng := t.eng } ∧
        OneAt (fun _ => engReset) s.eng t.eng e { s.engOf e with csr := (t.engOf e).csr } ∧
        OneAt (fun _ => 0) (s.engOf e).csr (t.engOf e).csr n (if feCsrMask n = 0 then tget (fun _ => 0) (s.engOf e).csr n
          else reg s e a &&& BitVec.ofNat 32 (feCsrMask n)) ∧ Regs [(FE_PC_PC e, s.g (FE_PC_PC e) + 4)] s t))) ∧
    (∀ (e : Fin 64) (d a b : Fin 32), Issues s e (rWord 0x3F 0 d a b) [] → s.on (FE_CMD_STOP e) = false →
      ((s.engOf e).ops = [] → Completes (.feHalt e) s (fun t => t = { s with regs := t.regs, eng := t.eng } ∧
        OneAt (fun _ => engReset) s.eng t.eng e (s.engOf e) ∧ Regs [(FE_PC_PC e, s.g (FE_PC_PC e) + 4), (FE_STAT_STATE e, 0)] s t)) ∧
      ((s.engOf e).ops ≠ [] → Completes (.feHalt e) s (fun t => t = { s with regs := t.regs, eng := t.eng } ∧
        OneAt (fun _ => engReset) s.eng t.eng e { s.engOf e with
          halting := true, ops := (s.engOf e).ops.map (fun o => { o with drop := true }) } ∧
        Regs [(FE_PC_PC e, s.g (FE_PC_PC e) + 4)] s t)))

/-- The rows of the engines' instructions. -/
def Sys2Proof.engineRows (e : Fin 64) : List Instr :=
  [.feAdd e, .feSub e, .feAnd e, .feOr e, .feXor e, .feShl e, .feShr e, .feSha e, .feClt e, .feCltu e, .feMul e, .feMulhi e, .feAddk e, .feAndk e,
    .feOrk e, .feXork e, .feCltk e, .feKhi e, .feShlk e, .feShrk e, .feShak e, .feLdw e, .feLdh e, .feLdhu e, .feLdb e, .feLdbu e, .feStw e,
    .feSth e, .feStb e, .feOldw e, .feOldbu e, .feOstw e, .feOstb e, .feBld e, .feBst e, .feBsync e, .feBreq e, .feBrne e, .feBrlt e, .feBrge e,
    .feBrlo e, .feBrhs e, .feCall e, .feJmp e, .feWait e, .feRdc e, .feWrc e, .feCrcb e, .feCrcw e, .feHalt e]

/-- An engine faults on a PC outside its bank, on a word that the instruction set does not have, and on one that no longer reads; it does not
run while it is STOPPED, WAITING or FAULTED (R240, R242, R243, R262, R263). -/
def Obligations.EnginesFaultOnWhatTheyCannotIssue : Prop :=
  ∀ (s : State) (e : Fin 64), ∀ c ∈ engineRows e,
    (s.g (FE_STAT_STATE e) ≠ 1 → Ignored c s) ∧
    (s.usable (0x200000 + 0x1000 * e) = true → s.g (FE_STAT_STATE e) = 1 → (s.engOf e).halting = false →
      (s.g (FE_PC_PC e) % 4 ≠ 0 ∨ 0x7FFC < s.g (FE_PC_PC e)) → Completes c s (Faults e 2 s)) ∧
    (∀ w, Fetches s e w → (w.toNat % 64 ∈ [0, 0x0B, 0x1C, 0x23, 0x35, 0x3E] ∨ w.toNat % 64 = 1 ∧ 12 ≤ w.toNat / 2 ^ 24 ∨
      w.toNat % 64 ∈ [1, 0x22, 0x2F, 0x30, 0x33, 0x34, 0x3F] ∧ w.toNat / 2 ^ 16 % 8 ≠ 0) → Completes c s (Faults e 1 s)) ∧
    (s.usable (0x200000 + 0x1000 * e) = true → s.g (FE_STAT_STATE e) = 1 → (s.engOf e).halting = false → s.injecting = false →
      s.g (FE_PC_PC e) % 4 = 0 → s.g (FE_PC_PC e) ≤ 0x7FFC →
      tget (fun _ => 0) (s.engOf e).ecc (8192 * s.g (FE_STAT_ACT_BANK e) + s.g (FE_PC_PC e) / 4) = 2 → Completes c s (fun t =>
        Faults e 9 s { t with eng := tset (fun _ => engReset) t.eng e { t.engOf e with ecc := (s.engOf e).ecc } }))

/-- An engine's control page takes a command of master `m` (R258, R259): in no pair, the page in service, the command not running. -/
abbrev Sys2Proof.takes (s : State) (e : Nat) (c : Fld) : Prop := alone s ∧ s.usable (0x200000 + 0x1000 * e) = true ∧ s.on c = false

/-- The result of an engine's command (Table 11-9); a STOP of an engine in STOPPED has no effect and reports success; BUSY stays while another
command runs (R44). -/
def Sys2Proof.engRes (s : State) (e cmd code : Nat) : List (Fld × Nat) :=
  let k := (FE_CMD_CTRL_VALID e).addr
  [(resValid k, 1), (resFailed k, bit (code != 0 && code != 3)), (resSeq k, (s.g (resSeq k) + 1) % 2 ^ 16),
    (resBusy k, bit ((cmd != 1 && s.on (FE_CMD_STOP e)) || (cmd != 2 && s.on (FE_CMD_CHECK e)))),
    (FE_CMD_CODE_CODE e, code), (FE_CMD_CODE_CMD e, cmd), (bitOf (FE_CMD_START e) cmd, 0)]

/-- IDLE_CRC and ACT_CRC with active bank `b` and the valid bits `v0`, `v1` (Table 11-9). -/
def Sys2Proof.crcFlds (x : Eng) (e b : Nat) (v0 v1 : Bool) : List (Fld × Nat) :=
  let crc (k : Nat) (v : Bool) : Nat := if v then (tget (fun _ => 0) x.mem (8192 * k + 7)).toNat else 0
  [(FE_ACT_CRC_CRC e, if b = 0 then crc 0 v0 else crc 1 v1), (FE_IDLE_CRC_CRC e, if b = 0 then crc 1 v1 else crc 0 v0)]

/-- The engines' control pages, windows, mailboxes, timers and watchdogs (R248, R250, R257 to R259, R262, R263). -/
def Obligations.EngineControlCommandsComplete : Prop :=
  ∀ (s : State) (m : Fin 8) (e : Fin 64),
    let x := s.engOf e
    let b := s.g (FE_BANK_SEL_BANK e)
    (takes s e (FE_CMD_START e) → (s.g (FE_STAT_STATE e) = 1 ∨ s.g (FE_STAT_STATE e) = 2) → Completes (.feStart m e) s (SetsBy m (engRes s e 0 1) s)) ∧
    (takes s e (FE_CMD_START e) → s.g (FE_STAT_STATE e) ∉ [1, 2] → s.on (feValid e b) = false → Completes (.feStart m e) s (SetsBy m (engRes s e 0 2) s)) ∧
    (takes s e (FE_CMD_START e) → s.g (FE_STAT_STATE e) ∉ [1, 2] → s.on (feValid e b) = true → Completes (.feStart m e) s (fun t =>
      AnsweredBy m true [] s t ∧ t = { s with regs := t.regs, resp := t.resp, eng := t.eng } ∧
      OneAt (fun _ => engReset) s.eng t.eng e { x with gr := [], halting := false, wd := 0, tmr := false, csr := x.csr.filter (fun p => decide (0x100 ≤ p.1)) } ∧
      Regs ((BMX_PARK_T0, m.val) :: [(FE_STAT_STATE e, 1), (FE_STAT_ACT_BANK e, b),
        (FE_PC_PC e, 4 * ((tget (fun _ => 0) x.mem (8192 * b + 2)).toNat % 2 ^ 13)), (FE_FAULT_CAUSE e, 0), (FE_EVPEND_EV e, 0), (FE_H_IN_DB_SEQ e, 0),
        (FE_H_IN_ACK_ACK e, 0), (FE_H_OUT_DB_SEQ e, 0), (FE_H_OUT_ACK_ACK e, 0)] ++
        crcFlds x e b (s.on (FE_STAT_VALID0 e)) (s.on (FE_STAT_VALID1 e)) ++ engRes s e 0 0) s t)) ∧
    (takes s e (FE_CMD_STOP e) → s.g (FE_STAT_STATE e) = 0 → Completes (.feStop m e) s (SetsBy m (engRes s e 1 3) s)) ∧
    (takes s e (FE_CMD_STOP e) → s.g (FE_STAT_STATE e) ≠ 0 → Completes (.feStop m e) s (fun t =>
      AnsweredBy m true [] s t ∧ t = { s with regs := t.regs, resp := t.resp, eng := t.eng } ∧
      OneAt (fun _ => engReset) s.eng t.eng e { x with halting := true, ops := x.ops.map (fun o => { o with drop := true }) } ∧
      Regs [(BMX_PARK_T0, m.val), (FE_CMD_STOP e, 1), (resBusy (FE_CMD_CTRL_VALID e).addr, 1)] s t)) ∧
    (s.on (FE_CMD_STOP e) = true → x.ops = [] → Completes (.feStopDone e) s (fun t => t = { s with regs := t.regs, eng := t.eng } ∧
      OneAt (fun _ => engReset) s.eng t.eng e { x with halting := false } ∧ Regs ((FE_STAT_STATE e, 0) :: engRes s e 1 0) s t)) ∧
    ((s.on (FE_CMD_STOP e) = false ∨ x.ops ≠ []) → Ignored (.feStopDone e) s) ∧
    (takes s e (FE_CMD_CHECK e) → s.on (FE_STAT_SWAP_PEND e) = true → b ≠ s.g (FE_STAT_ACT_BANK e) →
      Completes (.feCheck m e) s (SetsBy m (engRes s e 2 6) s)) ∧
    (takes s e (FE_CMD_CHECK e) → (s.on (FE_STAT_SWAP_PEND e) = false ∨ b = s.g (FE_STAT_ACT_BANK e)) → Completes (.feCheck m e) s (fun t =>
      AnsweredBy m true [] s t ∧ t = { s with regs := t.regs, resp := t.resp, eng := t.eng } ∧
      OneAt (fun _ => engReset) s.eng t.eng e { x with chk := b + 1 } ∧
      Regs [(BMX_PARK_T0, m.val), (FE_CMD_CHECK e, 1), (resBusy (FE_CMD_CTRL_VALID e).addr, 1)] s t)) ∧
    (∀ k : Fin 2, x.chk = k.val + 1 →
      let v0 := s.on (FE_STAT_VALID0 e) || (k.val == 0 && feCheckCode s e k == 0)
      let v1 := s.on (FE_STAT_VALID1 e) || (k.val == 1 && feCheckCode s e k == 0)
      Completes (.feCheckDone e) s (fun t => t = { s with regs := t.regs, eng := t.eng } ∧
        OneAt (fun _ => engReset) s.eng t.eng e { x with chk := 0 } ∧
        Regs ([(FE_STAT_VALID0 e, bit v0), (FE_STAT_VALID1 e, bit v1)] ++ crcFlds x e (s.g (FE_STAT_ACT_BANK e)) v0 v1 ++
          engRes s e 2 (feCheckCode s e k)) s t)) ∧
    (x.chk = 0 → Ignored (.feCheckDone e) s) ∧
    (alone s → s.usable (0x200000 + 0x1000 * e) = true →
      (∀ (w : Fin 0x2000) (v : Word), Completes (.feWindowWrite m e ⟨0x8000 + 4 * w, by omega⟩ v) s (fun t => AnsweredBy m true [] s t ∧
        t = { s with regs := t.regs, resp := t.resp, eng := t.eng } ∧
        OneAt (fun _ => engReset) s.eng t.eng e { x with mem := (t.engOf e).mem, ecc := (t.engOf e).ecc } ∧
        OneAt (fun _ => 0) x.mem (t.engOf e).mem (16384 + w) v ∧ OneAt (fun _ => 0) x.ecc (t.engOf e).ecc (16384 + w) 0 ∧
        RegsKeep [BMX_PARK_T0] s t)) ∧
      (∀ (w : Fin 0x2000) (v : Word), s.on (FE_CTL_IWIN e) = false → s.on (FE_STAT_SWAP_PEND e) = false →
        let k := 1 - s.g (FE_STAT_ACT_BANK e)
        let v0 := s.on (FE_STAT_VALID0 e) && k != 0
        let v1 := s.on (FE_STAT_VALID1 e) && k != 1
        Completes (.feWindowWrite m e ⟨4 * w, by omega⟩ v) s (fun t => AnsweredBy m true [] s t ∧
          t = { s with regs := t.regs, resp := t.resp, eng := t.eng } ∧
          OneAt (fun _ => engReset) s.eng t.eng e { x with mem := (t.engOf e).mem, ecc := (t.engOf e).ecc } ∧
          OneAt (fun _ => 0) x.mem (t.engOf e).mem (8192 * k + w) v ∧ OneAt (fun _ => 0) x.ecc (t.engOf e).ecc (8192 * k + w) 0 ∧
          Regs ([(BMX_PARK_T0, m.val), (FE_STAT_VALID0 e, bit v0), (FE_STAT_VALID1 e, bit v1)] ++
            crcFlds (t.engOf e) e (s.g (FE_STAT_ACT_BANK e)) v0 v1) s t)) ∧
      (∀ (w : Fin 0x2000) (v : Word), (s.on (FE_CTL_IWIN e) = false ∧ s.on (FE_STAT_SWAP_PEND e) = true ∨
        s.on (FE_CTL_IWIN e) = true ∧ (s.g (FE_STAT_STATE e) = 1 ∨ s.g (FE_STAT_STATE e) = 2)) →
        Completes (.feWindowWrite m e ⟨4 * w, by omega⟩ v) s (Denied m s))) ∧
    (∀ w : Fin 24576, s.ready (0x200000 + 0x1000 * e) = true → s.injecting = false →
      (tget (fun _ => 0) x.ecc w = 0 → Ignored (.feScrub e w) s) ∧
      (tget (fun _ => 0) x.ecc w = 1 → Completes (.feScrub e w) s (fun t => t = { s with regs := t.regs, eng := t.eng } ∧
        OneAt (fun _ => engReset) s.eng t.eng e { x with ecc := (t.engOf e).ecc } ∧ OneAt (fun _ => 0) x.ecc (t.engOf e).ecc w 0 ∧
        Regs (occFlds s (FE_ECC_OCC_COUNT e).addr) s t))) ∧
    (s.g (FE_STAT_STATE e) ≠ 2 → alone s → s.usable (0x200000 + 0x1000 * e) = true → ∀ v : Word,
      Completes (.hInDbWrite m e v false) s (SetsBy m [(FE_H_IN_DB_SEQ e, v.toNat % 2 ^ 16),
        (bitOf (FE_EVPEND_EV e) 5, bit (s.on (bitOf (FE_EVPEND_EV e) 5) || s.g (FE_H_IN_ACK_ACK e) != v.toNat % 2 ^ 16))] s) ∧
      Completes (.hOutAckWrite m e v false) s (SetsBy m [(FE_H_OUT_ACK_ACK e, v.toNat % 2 ^ 16),
        (bitOf (FE_EVPEND_EV e) 7, bit (s.on (bitOf (FE_EVPEND_EV e) 7) || s.g (FE_H_OUT_DB_SEQ e) == v.toNat % 2 ^ 16))] s) ∧
      (∀ i : Fin 16, s.g (FE_H_IN_DB_SEQ e) = s.g (FE_H_IN_ACK_ACK e) → Completes (.hInDWrite m e i v false) s
        (SetsBy m [(FE_H_IN_D_DATA e i, v.toNat)] s)) ∧
      (∀ i : Fin 16, s.g (FE_H_IN_DB_SEQ e) ≠ s.g (FE_H_IN_ACK_ACK e) → Completes (.hInDWrite m e i v false) s (Denied m s))) ∧
    (s.g (FE_STAT_STATE e) = 1 → s.ready (0x200000 + 0x1000 * e) = true → s.f (FE_CTL_WDOG_FR e) ≠ 0 → s.f (FE_CTL_WDOG_FR e) ≤ x.wd →
      Completes (.feWatchdog e) s (Faults e 8 s)) ∧
    ((s.g (FE_STAT_STATE e) ≠ 1 ∨ s.f (FE_CTL_WDOG_FR e) = 0 ∨ x.wd < s.f (FE_CTL_WDOG_FR e)) → Ignored (.feWatchdog e) s) ∧
    (x.tmr = true → s.g (FE_STAT_STATE e) ≠ 2 → Completes (.feTimerExpiry e) s (fun t => t = { s with regs := t.regs, eng := t.eng } ∧
      OneAt (fun _ => engReset) s.eng t.eng e { x with tmr := false } ∧ Regs [(bitOf (FE_EVPEND_EV e) 2, 1)] s t)) ∧
    (∀ w : Word, x.tmr = true → s.g (FE_STAT_STATE e) = 2 → s.g (FE_PC_PC e) ≤ 0x7FFC →
      tget (fun _ => 0) x.mem (8192 * s.g (FE_STAT_ACT_BANK e) + s.g (FE_PC_PC e) / 4) = w →
      let ev : Word := (BitVec.ofNat 32 (s.g (FE_EVPEND_EV e)) ||| 4) &&& reg s e (w.toNat / 2 ^ 11 % 32)
      (ev = 0 → Completes (.feTimerExpiry e) s (fun t => t = { s with regs := t.regs, eng := t.eng } ∧
        OneAt (fun _ => engReset) s.eng t.eng e { x with tmr := false } ∧ Regs [(bitOf (FE_EVPEND_EV e) 2, 1)] s t)) ∧
      (ev ≠ 0 → Completes (.feTimerExpiry e) s (fun t => t = { s with regs := t.regs, eng := t.eng } ∧
        OneAt (fun _ => engReset) s.eng t.eng e { x with tmr := false, gr := (t.engOf e).gr } ∧
        OneAt (fun _ => 0) x.gr (t.engOf e).gr (w.toNat / 2 ^ 6 % 32) ev ∧
        Regs [(FE_PC_PC e, s.g (FE_PC_PC e) + 4), (FE_STAT_STATE e, 1),
          (FE_EVPEND_EV e, (BitVec.ofNat 32 (s.g (FE_EVPEND_EV e)) ||| 4).toNat - ev.toNat)] s t))) ∧
    (x.tmr = false → Ignored (.feTimerExpiry e) s)

/-- The register fields that show what a channel is watched for (Table 6-10): DEF_STAT, TCM_STAT, SFSD, their histories, ACC. -/
def Sys2Proof.watchFlds (c : Nat) : List Fld :=
  [⟨(CH_DEF_STAT_LOS c).addr, 0, 18⟩, ⟨(CH_TCM_STAT_LTC1 c).addr, 0, 24⟩, ⟨(CH_SFSD_SF c).addr, 0, 16⟩, CH_DEF_HIST_HIST c, CH_TCM_HIST_HIST c,
    CH_ACC_ACC_S1_PT c, CH_ACC_ACC_K1 c, CH_ACC_ACC_K2 c, CH_ACC_TR_ACC c]

/-- The words that show what its paths (words 3 to 5, Table 6-12) and the tributaries of its LG (words 1 and 2, Table 6-13) are watched
for. -/
def Sys2Proof.watchWord (c k : Nat) : Bool :=
  (decide (pathKey c 0 0 ≤ k) && decide (k < pathKey (c + 1) 0 0) && decide (12 ≤ k % 256) && decide (k % 256 < 24)) ||
    (decide (tribKey (c / 12) 0 0 ≤ k) && decide (k < tribKey (c / 12 + 1) 0 0) && decide (4 ≤ k % 256) && decide (k % 256 < 12))

/-- The monitors of a channel: its line layers and its paths. -/
def Sys2Proof.monOf (c k : Nat) : Bool :=
  (k / 8 == c && decide (k < 0x10000)) || (decide (0x10000 + 8 * pathIx c 0 0 ≤ k) && decide (k < 0x10000 + 8 * pathIx (c + 1) 0 0))

/-- The channel's monitors forget what they have accepted and declared (R110). -/
def Sys2Proof.forget (c : Nat) (x : State) : State := { x with mon := x.mon.filter (fun p => !monOf c p.1) }

/-- In `t` the listed fields hold the listed values, every other register is as in `s` and everything else as in `x`, but for what follows
from the channel's condition: the words that show what is watched (R109, R120, R122), and the monitors of the channel, which restart their
integrations when a server-layer defect clears, or what lies behind their own AIS or LOP when that clears (R109). -/
def Sys2Proof.Moves (c : Nat) (l : List (Fld × Nat)) (s x t : State) : Prop :=
  t = { x with regs := t.regs, mon := t.mon } ∧
  (∀ k, t.mn k = x.mn k ∨ (monOf c k = true ∧ (t.mn k = (x.mn k).restart ∨ t.mn k = (x.mn k).restartOwn))) ∧
  (∀ p ∈ l, t.g p.1 = p.2) ∧
  ∀ k i, i < 32 → watchWord c k = false → covers (watchFlds c ++ l.map Prod.fst) k i = false → (t.rd k).getLsbD i = (s.rd k).getLsbD i

/-- CDR_LK and DFE_ON of a lane (R73, R87): the DFE works from 2,488.32 Mb/s on; the model's choice (log 73): DFE_ON reads 0 while the CDR
is not locked. -/
def Sys2Proof.cdrFlds (c : Nat) (lk : Bool) (rate : Nat) : List (Fld × Nat) :=
  [(LGS_LANE_EQ_CDR_LK (c / 12) (c % 12), bit lk), (LGS_LANE_EQ_DFE_ON (c / 12) (c % 12), bit (lk && decide (3 ≤ rate)))]

/-- The members of a bond of lead `c` (R75): their state and their CDRs. -/
def Sys2Proof.memberFlds (c st : Nat) (lk : Bool) (rate : Nat) : List (Fld × Nat) :=
  [c + 1, c + 2, c + 3].flatMap (fun x => (CH_DISC_STAT_STATE x, st) :: cdrFlds x lk rate)

/-- The carder in IDLE (R89). -/
def Sys2Proof.idleFlds (c : Nat) : List (Fld × Nat) :=
  [(CH_ALN_STAT_CAND_N c, 0), (CH_ALN_STAT_CAR_STATE c, 0), (CH_ALN_STAT_OOF c, 0), (CH_ALN_STAT_LOF c, 0), (CH_ALN_STAT_OOM c, 0),
    (CH_ALN_STAT_LOM c, 0), (CH_ALN_STAT_LOL c, 0), (CH_ALN_STAT_BLOCK_LOCK c, 0), (CH_ALN_STAT_MIMIC_AMBIG c, 0), (CH_ALN_SKEW_SKEW_EXC c, 0)]

/-- A lane without candidates and without a tie (R89, R93). -/
def Sys2Proof.noHunt (l : LaneSt) : LaneSt := { l with cands := [], tieOpen := false, ties := [], errN := 0, sole := none }

/-- A lane whose carder is in IDLE (R89, R99, R194): nothing aligned, no extension derived. -/
def Sys2Proof.stopLane (l : LaneSt) : LaneSt := { noHunt l with aligned := false, extLock := false, extGood := 0, extBad := 0 }

/-- The members of a bond that ends have ended their discovery runs (R94). -/
def Sys2Proof.unbound (c : Nat) (b : Bool) (x : State) : State :=
  if b then [c + 1, c + 2, c + 3].foldl (fun t m => t.setLane m { t.lane m with prevPos := none }) x else x

/-- Entry into SILENT (R76, R84, R94): the fields, and the state from `x`, whose lane held a bond or not. -/
def Sys2Proof.silentFlds (c : Nat) (s x : State) : List (Fld × Nat) :=
  [(CH_DISC_STAT_STATE c, 0), (CH_DISC_STAT_ADM_FMT c, 0),
    (CH_DISC_STAT_TRACE_VALID c, if 4 ≤ s.disc c ∧ s.disc c ≤ 7 then 0 else s.g (CH_DISC_STAT_TRACE_VALID c))] ++
    cdrFlds c false 0 ++ idleFlds c ++ (if (x.lane c).bond then memberFlds c 0 false 0 else [])
def Sys2Proof.silent (c : Nat) (x : State) : State :=
  forget c ((unbound c (x.lane c).bond x).setLane c { stopLane (x.lane c) with bond := false, prevPos := none, auto := false })

/-- The sweep of the masked rates is over with the present one (R77). -/
def Sys2Proof.sweepOver (c : Nat) (l : LaneSt) (s : State) : Bool :=
  let m := rateMask s c
  m &&& (l.tried ||| 2 ^ s.g (CH_DISC_STAT_RATE c)) == m

/-- On to the next rate (R77, R75): from a lane in state `l`, whose hunt met a blocking member in this step or not. -/
def Sys2Proof.nextFlds (c : Nat) (l : LaneSt) (met : Bool) (s : State) : List (Fld × Nat) :=
  let swept := sweepOver c l s
  [(CH_DISC_STAT_STATE c, 2), (CH_DISC_STAT_RATE c, nextRate (rateMask s c) (s.g (CH_DISC_STAT_RATE c))),
    (CH_DISC_STAT_RATE_FAIL c, bit (s.on (CH_DISC_STAT_RATE_FAIL c) || (swept && !l.locked))),
    (CH_DISC_STAT_BOND_BLOCKED c, bit ((met || s.on (CH_DISC_STAT_BOND_BLOCKED c)) && (!swept || met || l.blocked)))]
def Sys2Proof.nextLane (c : Nat) (l : LaneSt) (s : State) : LaneSt :=
  if sweepOver c l s then { l with tried := 0, locked := false, blocked := false }
  else { l with tried := l.tried ||| 2 ^ s.g (CH_DISC_STAT_RATE c) }

/-- Back from FRAME_HUNT to RATE_HUNT (Table 4-2), from the lane state `l`. -/
def Sys2Proof.backFlds (c : Nat) (l : LaneSt) (s : State) : List (Fld × Nat) :=
  nextFlds c l false s ++ cdrFlds c false 0 ++ idleFlds c ++ (if l.bond then memberFlds c 0 false 0 else [])
def Sys2Proof.backLane (c : Nat) (l : LaneSt) (s : State) : LaneSt := nextLane c { stopLane l with bond := false } s
def Sys2Proof.backState (c : Nat) (l : LaneSt) (s : State) : State := (unbound c l.bond s).setLane c (backLane c l s)

/-- A fresh capture (R78). -/
def Sys2Proof.noCapture (l : LaneSt) : LaneSt := { l with capMsg := [], capN := 0, cap := none, ss := 0, ssN := 0, flav := none, late8 := false, twExp := false }

/-- The fields of a fresh hunt at rate `r` (R89, R95, R97, R98, R100), with the lanes of a bond aligned or not. -/
def Sys2Proof.huntFlds (c r : Nat) (aligned : Bool) : List (Fld × Nat) :=
  (CH_ALN_STAT_CAND_N c, 0) :: (match rateFam r with
    | .eth => [(CH_ALN_STAT_CAR_STATE c, 1), (CH_ALN_STAT_BLOCK_LOCK c, 0)]
    | .otn => [(CH_ALN_STAT_CAR_STATE c, if (r = 9 ∨ r = 11) ∧ aligned = false then 4 else 1), (CH_ALN_STAT_OOF c, 1), (CH_ALN_STAT_OOM c, 1)]
    | _ => [(CH_ALN_STAT_CAR_STATE c, 1), (CH_ALN_STAT_OOF c, 1)])

/-- IDENTIFIED (R78, R79, Tables 4-1 and 4-5): the format, the flavour, whether a trace was captured and how long it is. -/
def Sys2Proof.identFlds (c : Nat) (l : LaneSt) (s : State) : List (Fld × Nat) :=
  let r := s.g (CH_DISC_STAT_RATE c)
  let tr := if rateFam r = .eth then none else l.cap
  [(CH_DISC_STAT_STATE c, 4), (CH_DISC_STAT_FMT c, fmtOf r (l.flav.getD (s.f (CH_DISC_CFG_FLAV_DEF c) == 1))),
    (CH_DISC_STAT_FLAV_DEFAULTED c, bit (rateFam r == .sdh && l.flav.isNone)), (CH_DISC_STAT_TRACE_VALID c, bit tr.isSome),
    (CH_DISC_STAT_TRACE_LEN c, tr.elim 0 (fun t => traceLen t.length))] ++ occFlds s (CH_DISC_OCC_COUNT c).addr

/-- A lane in FRAME_HUNT whose format is decided once the carder is in frame, or whose TRACE_WAIT has expired (R78). -/
def Sys2Proof.decided (c : Nat) (l : LaneSt) (s : State) : Bool :=
  let r := s.g (CH_DISC_STAT_RATE c)
  s.disc c == 3 && (rateFam r == .eth || l.twExp || (l.cap.isSome && (rateFam r != .sdh || l.flav.isSome)))

/-- Lanes and the discovery machine (R72 to R78, Tables 4-1 and 4-2): signal, the hunt for rates, the bond, the 8 ms of FRAME_HUNT,
TRACE_WAIT. -/
def Obligations.LaneDiscoveryCommandsComplete : Prop :=
  ∀ (s : State) (c : Fin 192), s.ready (chBase c) = true →
    let l := s.lane c
    let r := s.g (CH_DISC_STAT_RATE c)
    let m := rateMask s c
    let sig (n : Nat) : Fld × Nat := (LGS_LANE_EQ_SIG_DET (c.val / 12) (c.val % 12), n)
    (s.disc c = 0 → m = 0 → Completes (.signalDetect c) s (Moves c [sig 1, (CH_DISC_STAT_STATE c, 1)] s s)) ∧
    (s.disc c = 0 → m ≠ 0 →
      let first := (l.lastRate.filter (fun q => s.f (CH_DISC_CFG_START_HINT c) == 1 && hasRate m q)).getD (nextRate m 11)
      Completes (.signalDetect c) s (Moves c [sig 1, (CH_DISC_STAT_STATE c, 2), (CH_DISC_STAT_RATE c, first)] s
        (s.setLane c { l with tried := 0, locked := false, blocked := false }))) ∧
    (s.disc c ≠ 0 → Completes (.signalDetect c) s (Moves c [sig 1] s s)) ∧
    (∀ held : Bool,
      ((s.disc c = 1 ∨ (s.disc c = 2 ∧ held = true)) → Completes (.signalDetectLoss c held) s
        (Moves c (sig 0 :: silentFlds c s s) s (silent c s))) ∧
      (s.disc c ≠ 1 → (s.disc c ≠ 2 ∨ held = false) → Completes (.signalDetectLoss c held) s (Moves c [sig 0] s s))) ∧
    (s.disc c = 2 → Completes (.rateDwellExpiry c) s (Moves c (nextFlds c l false s) s (s.setLane c (nextLane c l s)))) ∧
    (s.disc c ≠ 2 → Completes (.rateDwellExpiry c) s (Moves c [] s s) ∧ Completes (.cdrLock c) s (Moves c [] s s)) ∧
    (s.disc c = 2 → r < 12 → r ≠ 9 → r ≠ 11 → Completes (.cdrLock c) s
      (Moves c ([(CH_DISC_STAT_STATE c, 3), (CH_DISC_STAT_RATE_FAIL c, 0)] ++ cdrFlds c true r ++ huntFlds c r l.aligned ++
        [(LGS_LANE_EQ_CTLE (c.val / 12) (c.val % 12), s.drawn.toNat % 2 ^ 5)]) s
        (s.draw.setLane c (noHunt (noCapture { l with locked := true, bond := false }))))) ∧
    (s.disc c = 2 → c.val % 4 = 0 → r = 9 ∨ r = 11 →
      let blocks := [c.val + 1, c.val + 2, c.val + 3].any (fun x => decide (4 ≤ s.disc x ∧ s.disc x ≤ 7))
      (blocks = true → Completes (.cdrLock c) s (Moves c (nextFlds c { l with blocked := true } true s) s
        (s.setLane c (nextLane c { l with blocked := true } s)))) ∧
      (blocks = false → Completes (.cdrLock c) s (fun t =>
        let members := [c.val + 1, c.val + 2, c.val + 3]
        let set := [(CH_DISC_STAT_STATE c, 3), (CH_DISC_STAT_RATE_FAIL c, 0), (CH_DISC_STAT_BOND_BLOCKED c, 0)] ++ cdrFlds c true r ++ huntFlds c r l.aligned ++
          memberFlds c 8 true r ++ members.flatMap idleFlds
        (∀ p ∈ set, t.g p.1 = p.2) ∧
        (∀ k i, i < 32 → watchWord c k = false → covers (watchFlds c ++ set.map Prod.fst ++ (c.val :: members).map (fun x => LGS_LANE_EQ_CTLE (x / 12) (x % 12))) k i = false →
          (t.rd k).getLsbD i = (s.rd k).getLsbD i) ∧
        t.lane c = noHunt (noCapture { l with locked := true, bond := true }) ∧
        (∀ x ∈ members, t.lane x = { stopLane (s.lane x) with prevPos := none, twExp := false }) ∧
        (∀ n, n < c ∨ c + 3 < n → t.lane n = s.lane n) ∧
        (∀ k, members.any (fun x => monOf x k) = true → t.mn k = monReset) ∧
        (∀ k, members.any (fun x => monOf x k) = false → t.mn k = s.mn k ∨ (monOf c k = true ∧ (t.mn k = (s.mn k).restart ∨ t.mn k = (s.mn k).restartOwn))) ∧
        t = { s with regs := t.regs, ln := t.ln, mon := t.mon, free := s.free + 4 }))) ∧
    (s.disc c = 3 → s.g (CH_ALN_STAT_CAR_STATE c) = 3 → Completes (.frameHuntTimeout c) s
      (Moves c [] s (s.setLane c { l with late8 := true }))) ∧
    (s.disc c = 3 → s.g (CH_ALN_STAT_CAR_STATE c) ≠ 3 → Completes (.frameHuntTimeout c) s
      (Moves c (backFlds c { l with late8 := true } s) s (backState c { l with late8 := true } s))) ∧
    (s.disc c ≠ 3 → Completes (.frameHuntTimeout c) s (Moves c [] s s)) ∧
    (s.disc c = 3 → s.g (CH_ALN_STAT_CAR_STATE c) = 3 → Completes (.traceWaitExpiry c) s
      (Moves c (identFlds c l s) s (s.setLane c { l with auto := true, twExp := true }))) ∧
    (s.disc c = 3 → s.g (CH_ALN_STAT_CAR_STATE c) ≠ 3 → Completes (.traceWaitExpiry c) s
      (Moves c [] s (s.setLane c { l with twExp := true }))) ∧
    (s.disc c ≠ 3 → Completes (.traceWaitExpiry c) s (Moves c [] s s))

/-- HOLD_OFF, or through it to SILENT (R84). -/
def Sys2Proof.heldFlds (c : Nat) (s x : State) : List (Fld × Nat) :=
  occFlds s (CH_GONE_OCC_COUNT c).addr ++ (if s.f (CH_DISC_TIME_HOLD_MS c) = 0 then
    [(CH_DISC_STAT_STATE c, 0), (CH_DISC_STAT_ADM_FMT c, 0), (CH_DISC_STAT_TRACE_VALID c, 0)] ++ cdrFlds c false 0 ++ idleFlds c ++
      (if (x.lane c).bond then memberFlds c 0 false 0 else [])
  else [(CH_DISC_STAT_STATE c, 7)])
def Sys2Proof.heldState (c : Nat) (s x : State) : State :=
  let x := x.setLane c { x.lane c with ssN := 0, flav := none }
  if s.f (CH_DISC_TIME_HOLD_MS c) = 0 then silent c x else x

/-- Admission, HOLD_OFF, LOS and the eye monitor of lanes (R73, R76, R80 to R84, R87, R110). -/
def Obligations.LaneServiceCommandsComplete : Prop :=
  ∀ (s : State) (c : Fin 192),
    let l := s.lane c
    let disc := s.disc c
    (∀ (m : Fin 8) (late : Bool), alone s → s.usable (chBase c) = true → s.on (CH_ADMIT_GO c) = false →
      Completes (.admitGo m c late) s (fun t =>
        t = { s.setLane c { l with adm := some (s.g (CH_ADMIT_FMT c), if late then 1 else 0) } with regs := t.regs, resp := t.resp } ∧
        AnsweredBy m true [] s t ∧
        Regs [(BMX_PARK_T0, m.val), (resBusy (CH_ADM_CTRL_VALID c).addr, 1), (CH_ADMIT_GO c, 1)] s t)) ∧
    (s.ready (chBase c) = true →
      (disc = 5 → l.admSfn + max 4 (s.f (CH_DISC_TIME_ADM_FRAMES c)) ≤ s.sfn → Completes (.admittedExpiry c) s
        (Moves c [(CH_DISC_STAT_STATE c, 6)] s (s.setLane c { l with lastRate := some (s.g (CH_DISC_STAT_RATE c)) }))) ∧
      (disc ≠ 5 ∨ s.sfn < l.admSfn + max 4 (s.f (CH_DISC_TIME_ADM_FRAMES c)) → Completes (.admittedExpiry c) s (Moves c [] s s)) ∧
      (let gone := s.on (CH_ALN_STAT_LOF c) = true ∨ s.on (CH_ALN_STAT_LOM c) = true ∨
          (fmtFam (s.g (CH_DISC_STAT_ADM_FMT c)) = .eth ∧ s.g (CH_ALN_STAT_BLOCK_LOCK c) = 0);
        (disc = 5 ∨ disc = 6 → s.f (CH_DISC_TIME_REHUNT c) ≠ 0 → gone → Completes (.rehuntExpiry c) s
          (Moves c (heldFlds c s s) s (heldState c s s))) ∧
        ((disc ≠ 5 ∧ disc ≠ 6) ∨ s.f (CH_DISC_TIME_REHUNT c) = 0 ∨ ¬gone → Completes (.rehuntExpiry c) s (Moves c [] s s))) ∧
      (disc = 7 → Completes (.holdOffExpiry c) s (Moves c (silentFlds c s s) s (silent c s))) ∧
      (disc ≠ 7 → Completes (.holdOffExpiry c) s (Moves c [] s s)) ∧
      (∀ energyOnly : Bool, energyOnly = false ∨ s.f (CH_DEF_CFG_LOS_NRG c) ≠ 0 → disc ≠ 8 →
        let x := s.setLane c { l with los := true, ethDown := true }
        (disc = 4 → Completes (.losDeclare c energyOnly) s (Moves c (silentFlds c s x) s (silent c x))) ∧
        (disc = 5 ∨ disc = 6 → Completes (.losDeclare c energyOnly) s (Moves c (heldFlds c s x) s (heldState c s x))) ∧
        (disc ∉ [4, 5, 6] → Completes (.losDeclare c energyOnly) s (fun t => Moves c [] s x t ∧ t.on (CH_DEF_STAT_LOS c) = true))) ∧
      (disc = 8 → ∀ energyOnly : Bool, energyOnly = false ∨ s.f (CH_DEF_CFG_LOS_NRG (leadOf c)) ≠ 0 → s.disc (leadOf c) ≠ 8 →
        let d := leadOf c
        let y := s.setLane c { l with los := true }
        let x := y.setLane d { y.lane d with ethDown := true }
        (s.disc d = 4 → Completes (.losDeclare c energyOnly) s (Moves d (silentFlds d s x) s (silent d x))) ∧
        (s.disc d = 5 ∨ s.disc d = 6 → Completes (.losDeclare c energyOnly) s (Moves d (heldFlds d s x) s (heldState d s x))) ∧
        (s.disc d ∉ [4, 5, 6] → Completes (.losDeclare c energyOnly) s (Moves d [] s x))) ∧
      (s.f (CH_DEF_CFG_LOS_NRG (if disc = 8 then leadOf c else c)) = 0 → Ignored (.losDeclare c true) s) ∧
      Completes (.losClear c) s (Moves (if disc = 8 then leadOf c else c) [] s (s.setLane c { l with los := false }))) ∧
    (s.ready (chBase c) = false → Ignored (.signalDetect c) s ∧ Ignored (.losDeclare c false) s ∧ Ignored (.losClear c) s) ∧
    (∀ (m : Fin 8) (lg : Fin 16),
      (s.usable (0x100000 + 0x10000 * lg.val) = true → s.on (LGS_EYE_SEL_START lg) = false → Completes (.start m lg) s (fun t =>
        AnsweredBy m true [] s t ∧ t = { s with regs := t.regs, resp := t.resp, eye := t.eye } ∧
        OneAt (fun _ => 0) s.eye t.eye lg (s.f (LGS_EYE_SEL_LANE lg) + 1 +
          32 * s.sparesTaken (12 * lg + s.f (LGS_EYE_SEL_LANE lg))) ∧
        Regs [(BMX_PARK_T0, m.val), (resBusy (LGS_EYE_CTRL_VALID lg).addr, 1), (LGS_EYE_SEL_START lg, 1)] s t)) ∧
      (s.on (LGS_EYE_SEL_START lg) = true →
        let e := tget (fun _ => 0) s.eye lg
        let lane := e % 32 - 1
        let after (l : List (Fld × Nat)) (t : State) : Prop := t = { s with regs := t.regs, eye := t.eye } ∧
          OneAt (fun _ => 0) s.eye t.eye lg 0 ∧ Regs ([(LGS_EYE_SEL_START lg, 0), (LGS_EYE_LANE_LANE lg, lane % 16)] ++ l) s t
        ∀ (free : Bool) (width height : Nat),
          (e < 64 → (e < 32 ∨ free = true) → lane < 12 → ungauged s → Completes (.eyeMeasureDone lg free width height) s
            (after (resFlds s (LGS_EYE_CTRL_VALID lg).addr false ++
              [(LGS_EYE_VAL_WIDTH lg, width % 2 ^ 16), (LGS_EYE_VAL_HEIGHT lg, height % 2 ^ 16)]))) ∧
          (64 ≤ e ∨ (32 ≤ e ∧ free = false) ∨ 12 ≤ lane → Completes (.eyeMeasureDone lg free width height) s
            (after (resFlds s (LGS_EYE_CTRL_VALID lg).addr true)))) ∧
      (s.on (LGS_EYE_SEL_START lg) = false → ∀ (free : Bool) (width height : Nat), Ignored (.eyeMeasureDone lg free width height) s))

/-- In frame (R92, R94, R97): at position `pos`, with the multiframe number `mf`; the lane is identified where its format is decided. -/
def Sys2Proof.frameFlds (c pos : Nat) (l : LaneSt) (s : State) : List (Fld × Nat) :=
  [(CH_ALN_STAT_CAND_N c, 0), (CH_ALN_STAT_CAR_STATE c, 3), (CH_ALN_STAT_OOF c, 0), (CH_ALN_STAT_OOM c, 0), (CH_ALN_STAT_MIMIC_AMBIG c, 0)] ++
    (if l.prevPos.any (fun p => p != pos) then occFlds s (CH_REALIGN_OCC_COUNT c).addr else []) ++
    (if decided c l s then identFlds c l s else [])
def Sys2Proof.frameLane (c pos mf : Nat) (l : LaneSt) (s : State) : LaneSt :=
  { noHunt l with prevPos := some pos, lockPos := pos, mfas := mf, oomN := 0, imN := 0, auto := decided c l s || l.auto }

/-- Back to FRAME_HUNT from IDENTIFIED (R78, R89): the trace is released, the capture starts afresh. -/
def Sys2Proof.lostFlds (c : Nat) : List (Fld × Nat) := [(CH_DISC_STAT_STATE c, 3), (CH_DISC_STAT_TRACE_VALID c, 0)]
def Sys2Proof.lostLane (l : LaneSt) : LaneSt := noCapture { l with auto := false }

/-- The carder's windows and framing defects (R78, R90 to R100). -/
def Obligations.CarderCommandsComplete : Prop :=
  ∀ (s : State) (c : Fin 192), s.ready (chBase c) = true →
    let l := s.lane c
    let car := s.g (CH_ALN_STAT_CAR_STATE c)
    let fam := rateFam (s.g (CH_DISC_STAT_RATE c))
    let conf := l.cands.filter (fun k => k.conf)
    let same (i : Instr) : Prop := Completes i s (Moves c [] s s)
    (car = 1 → l.tieOpen = true → l.sole = none →
      (conf = [] → Completes (.tieWindowClose c) s (Moves c [] s (s.setLane c { l with tieOpen := false }))) ∧
      (∀ k, conf = [k] → k.pos ≠ l.tiePos → Completes (.tieWindowClose c) s
        (Moves c [(CH_ALN_STAT_CAND_N c, 1), (CH_ALN_STAT_CAND_PEAK c, max 1 (s.g (CH_ALN_STAT_CAND_PEAK c)))] s
          (s.setLane c { l with sole := some k.pos, cands := [k] }))) ∧
      (∀ k, conf = [k] → k.pos = l.tiePos → Completes (.tieWindowClose c) s
        (Moves c (frameFlds c k.pos l s) s (s.setLane c (frameLane c k.pos k.mfas l s)))) ∧
      (2 ≤ conf.length → s.f (CH_ALN_CFG_TIE_BRK c) ≠ 0 → Completes (.tieWindowClose c) s
        (Moves c [(CH_ALN_STAT_CAR_STATE c, 2), (CH_ALN_STAT_CAND_N c, conf.length % 16),
          (CH_ALN_STAT_CAND_PEAK c, max conf.length (s.g (CH_ALN_STAT_CAND_PEAK c)) % 16)] s
          (s.setLane c { l with tieOpen := false, cands := conf, ties := conf.map (fun k => (k, none)) }))) ∧
      (2 ≤ conf.length → s.f (CH_ALN_CFG_TIE_BRK c) = 0 → s.disc c ≠ 3 → Completes (.tieWindowClose c) s
        (Moves c ([(CH_ALN_STAT_CAND_N c, 0), (CH_ALN_STAT_MIMIC_AMBIG c, 1)] ++ occFlds s (CH_MIMIC_OCC_COUNT c).addr) s
          (s.setLane c (noHunt l)))) ∧
      (2 ≤ conf.length → s.f (CH_ALN_CFG_TIE_BRK c) = 0 → s.disc c = 3 → Completes (.tieWindowClose c) s
        (Moves c (backFlds c l s ++ occFlds s (CH_MIMIC_OCC_COUNT c).addr) s (backState c l s)))) ∧
    (car ≠ 1 ∨ l.tieOpen = false ∨ l.sole ≠ none → same (.tieWindowClose c)) ∧
    (let due := car ≠ 0 ∧ fam ≠ .eth ∧ s.on (CH_ALN_STAT_OOF c) = true ∧ s.on (CH_ALN_STAT_LOF c) = false;
      (due → s.disc c ≠ 4 → Completes (.lofDeclare c) s (Moves c [(CH_ALN_STAT_LOF c, 1)] s s)) ∧
      (due → s.disc c = 4 → Completes (.lofDeclare c) s
        (Moves c ((CH_ALN_STAT_LOF c, 1) :: lostFlds c) s (s.setLane c (lostLane l)))) ∧
      (¬due → same (.lofDeclare c))) ∧
    (s.on (CH_ALN_STAT_OOF c) = false → Completes (.lofClear c) s (Moves c [(CH_ALN_STAT_LOF c, 0)] s s)) ∧
    (s.on (CH_ALN_STAT_OOF c) = true → same (.lofClear c)) ∧
    (let due := car = 3 ∧ s.on (CH_ALN_STAT_OOM c) = true ∧ s.on (CH_ALN_STAT_LOM c) = false;
      (due → s.disc c ≠ 4 → Completes (.lomDeclare c) s (Moves c [(CH_ALN_STAT_LOM c, 1)] s s)) ∧
      (due → s.disc c = 4 → Completes (.lomDeclare c) s
        (Moves c ((CH_ALN_STAT_LOM c, 1) :: lostFlds c) s (s.setLane c (lostLane l)))) ∧
      (¬due → same (.lomDeclare c))) ∧
    (s.on (CH_ALN_STAT_OOM c) = false → Completes (.lomClear c) s (Moves c [(CH_ALN_STAT_LOM c, 0)] s s)) ∧
    (s.on (CH_ALN_STAT_OOM c) = true → same (.lomClear c)) ∧
    (let loose := car = 4 ∨ s.on (CH_ALN_SKEW_SKEW_EXC c) = true;
      (l.bond = true → loose → Completes (.lolDeclare c) s (Moves c [(CH_ALN_STAT_LOL c, 1)] s s)) ∧
      (l.bond = false ∨ ¬loose → same (.lolDeclare c)) ∧
      (¬loose → Completes (.lolClear c) s (Moves c [(CH_ALN_STAT_LOL c, 0)] s s)) ∧
      (loose → same (.lolClear c))) ∧
    (car ≠ 0 → fam = .eth →
      let up : List (Fld × Nat) := [(CH_ALN_STAT_BLOCK_LOCK c, 1), (CH_ALN_STAT_CAR_STATE c, 3)]
      let down : List (Fld × Nat) := [(CH_ALN_STAT_BLOCK_LOCK c, 0), (CH_ALN_STAT_CAR_STATE c, 1)]
      (s.disc c ≠ 3 → Completes (.blockLockChange c true) s (Moves c up s s)) ∧
      (s.disc c = 3 → Completes (.blockLockChange c true) s
        (Moves c (up ++ identFlds c l s) s (s.setLane c { l with auto := true }))) ∧
      (s.disc c ≠ 3 → s.disc c ≠ 4 → s.disc c ≠ 7 → Completes (.blockLockChange c false) s
        (Moves c down s (s.setLane c { l with ethDown := true }))) ∧
      (s.disc c = 7 → Completes (.blockLockChange c false) s
        (Moves c down s (s.setLane c { l with ethDown := true, ssN := 0, flav := none }))) ∧
      (s.disc c = 3 → l.late8 = false → Completes (.blockLockChange c false) s
        (Moves c down s (s.setLane c { l with ethDown := true, capN := 0, ssN := 0 }))) ∧
      (s.disc c = 3 → l.late8 = true → Completes (.blockLockChange c false) s
        (Moves c (backFlds c l s) s (backState c { l with ethDown := true } s))) ∧
      (s.disc c = 4 → Completes (.blockLockChange c false) s
        (Moves c (down ++ lostFlds c) s (s.setLane c (lostLane { l with ethDown := true }))))) ∧
    (car = 0 ∨ fam ≠ .eth → ∀ lock : Bool, same (.blockLockChange c lock))

/-- In `t` the listed fields hold the listed values, the fields `free` are anything, every other register is as in `s`, and everything else
as in `x`, but for what follows from the frame: the words that show what is watched, the channel's own monitors, and the bytes of the
overhead buffer that its area of the line-side half holds (R105). -/
def Sys2Proof.FrameSeen (c : Nat) (free : List Fld) (l : List (Fld × Nat)) (s x t : State) : Prop :=
  t = { x with regs := t.regs, mon := t.mon, ohb := t.ohb } ∧ (∀ k, monOf c k = false → t.mn k = s.mn k) ∧
  (let b := ohbKey (c / 12) (s.lineHalf (c / 12)) (c % 12) 0
    ∀ n, (n < b ∨ b + 0x400 ≤ n) → tget (fun _ => 0) t.ohb n = tget (fun _ => 0) s.ohb n) ∧
  (∀ p ∈ l, t.g p.1 = p.2) ∧
  ∀ k i, i < 32 → watchWord c k = false → covers (watchFlds c ++ free ++ l.map Prod.fst) k i = false → (t.rd k).getLsbD i = (s.rd k).getLsbD i

/-- A lane whose frames nothing alters on the way: no injection is active, no buffered write waits for its line frame, it is no bond's. -/
abbrev Sys2Proof.plainLane (c : Nat) (s : State) : Prop :=
  s.ready (chBase c) = true ∧ s.injecting = false ∧ (s.lane c).bond = false ∧ ∀ p ∈ s.pend, p.line ≠ some c

/-- A PM counter after `n` more (R39), and after the errors of a BIP, counted as bits or as one errored frame (R119). -/
def Sys2Proof.pmFld (s : State) (f : Fld) (n : Nat) : Fld × Nat := (f, min 0xFFFFFFFF (s.g f + n))
def Sys2Proof.bipFld (s : State) (c : Nat) (f : Fld) (n : Nat) : Fld × Nat :=
  pmFld s f (if s.f (CH_DEF_CFG_PM_BLOCK c) = 1 then (if n = 0 then 0 else 1) else n)
/-- After a remote indication (R119): more than the BIP's width counts as 0. -/
def Sys2Proof.reiFld (s : State) (f : Fld) (n w : Nat) : Fld × Nat := pmFld s f (if w < n then 0 else n)

/-- LINE_FRAME (R78, R88 to R99, R103, R112, R119): nothing before FRAME_HUNT and of a bonded member; the hunt opens, closes and confirms
candidates; a tie is resolved by its checks; in frame, the pattern, the multiframe and the counters; loss of frame; Ethernet; the
alignment of a bond. -/
def Obligations.LineFramesComplete : Prop :=
  ∀ (s : State) (c : Fin 192) (o : LineObs),
    let l := s.lane c
    let car := s.g (CH_ALN_STAT_CAR_STATE c)
    let rate := s.g (CH_DISC_STAT_RATE c)
    let v := s.chView c
    let peak (n : Nat) : Fld × Nat := (CH_ALN_STAT_CAND_PEAK c, max n (s.g (CH_ALN_STAT_CAND_PEAK c)))
    ((s.ready (chBase c) = false ∨ s.disc c < 3 ∨ s.disc c = 8) → Ignored (.lineFrame c o) s) ∧
    (plainLane c s → rateFam rate ≠ .eth → s.disc c = 3 →
      (car = 1 → l.tieOpen = false → l.sole = none →
        (∀ m, l.cands = [] → o.ms = [m] → m.bits = framePattern → m.pos < frameBits rate → o.lo ≤ m.pos → m.pos < o.hi → Completes (.lineFrame c o) s
          (Moves c [(CH_ALN_STAT_CAND_N c, 1), peak 1] s (s.setLane c { l with cands := [⟨m.pos, 1, m.mfas, false⟩] }))) ∧
        (∀ k, l.cands = [k] → o.ms = [] → k.pos < frameBits rate → o.lo ≤ k.pos → k.pos < o.hi → Completes (.lineFrame c o) s
          (Moves c [(CH_ALN_STAT_CAND_N c, 0), peak 0] s (s.setLane c { l with cands := [] }))) ∧
        (∀ k m, l.cands = [k] → o.ms = [m] → m.bits = framePattern → m.pos = k.pos → k.pos < frameBits rate → o.lo ≤ k.pos → k.pos < o.hi →
          (rateFam rate = .otn → m.mfas = (k.mfas + 1) % 256) →
          let conf := k.conf || decide (max 2 (s.f (CH_ALN_CFG_IF_GOOD c)) ≤ k.n + 1)
          Completes (.lineFrame c o) s (Moves c [(CH_ALN_STAT_CAND_N c, 1), peak 1] s
            (s.setLane c { l with cands := [⟨k.pos, k.n + 1, m.mfas, conf⟩], tieOpen := conf, tiePos := if conf then k.pos else l.tiePos })))) ∧
      (∀ a b : Cand, car = 2 → rateFam rate = .sdh → l.ties = [(a, none), (b, none)] → a.pos ≠ b.pos → a.pos < frameBits rate → b.pos < frameBits rate → ∀ u v w z : Nat,
        o.b1s = [(a.pos, u, v), (b.pos, w, z)] →
        (u = v → w ≠ z → Completes (.lineFrame c o) s
          (Moves c (frameFlds c a.pos l s) s (s.setLane c (frameLane c a.pos a.mfas l s)))) ∧
        ((u = v ↔ w = z) → Completes (.lineFrame c o) s
          (Moves c (backFlds c l s ++ occFlds s (CH_MIMIC_OCC_COUNT c).addr) s (backState c l s))))) ∧
    (plainLane c s → car = 3 → (s.disc c = 5 ∨ s.disc c = 6) → o.paths = [] → o.tribs = [] → o.msi = none → v.stat = 0 → v.sf = false → s.g ⟨(CH_DEF_STAT_LOS c).addr, 0, 18⟩ = 0 →
      (rateFam rate = .sdh → s.chFam c = .sdh →
        let w := 8 * stsOf rate
        let pm : List (Fld × Nat) := [bipFld s c (CH_PMC_COUNT c 0) (popCount o.b1 8), bipFld s c (CH_PMC_COUNT c 1) (popCount o.b2 w),
          reiFld s (CH_PMC_COUNT c 2) o.rei w]
        (o.pat = true → Completes (.lineFrame c o) s (fun t =>
          FrameSeen c [] pm s (s.setLane c { l with errN := 0, back := popCount o.b2 w }) t ∧
          (t.mn (lineMon c 0)).runs = runsStep [o.k2 % 8 == 7, o.k2 % 8 == 6] (s.mn (lineMon c 0)).runs ∧
          (t.mn (lineMon c 0)).acc 0 = (accStep 3 o.k1 ((s.mn (lineMon c 0)).accs.getD 0 accReset)).acc ∧
          (t.mn (lineMon c 0)).acc 1 = (accStep 3 o.k2 ((s.mn (lineMon c 0)).accs.getD 1 accReset)).acc ∧
          (t.mn (lineMon c 0)).acc 2 = (accStep 8 o.s1 ((s.mn (lineMon c 0)).accs.getD 2 accReset)).acc)) ∧
        (o.pat = false → l.errN + 1 < max 2 (s.f (CH_ALN_CFG_OOF_N_SDH c)) → Completes (.lineFrame c o) s
          (FrameSeen c [] pm s (s.setLane c { l with errN := l.errN + 1, back := popCount o.b2 w }))) ∧
        (o.pat = false → max 2 (s.f (CH_ALN_CFG_OOF_N_SDH c)) ≤ l.errN + 1 → Completes (.lineFrame c o) s
          (FrameSeen c [] (pm ++ huntFlds c rate l.aligned ++ occFlds s (CH_OOF_OCC_COUNT c).addr) s
            (s.setLane c { noHunt l with back := popCount o.b2 w, extLock := false, extGood := 0, extBad := 0 })))) ∧
      (rateFam rate = .otn → s.chFam c = .otn → o.tcm = [] → o.pat = true → s.on (CH_ALN_STAT_OOM c) = false →
        let good := o.mfas == (l.mfas + 1) % 256
        let n := if good then 0 else l.oomN + 1
        let e := o.ext.getD 0 % 0x8000
        let tv := o.ext.any (fun x => decide (0x8000 ≤ x)) && (e == l.ext || e == (l.ext + 1) % 0x8000)
        let upN := if tv then min 3 (l.extGood + 1) else 0
        let downN := if tv then 0 else min 3 (l.extBad + 1)
        let lk := if l.extLock then decide (downN < 3) else decide (3 ≤ upN)
        let x := { l with
          ext := e, extGood := upN, extBad := downN, extLock := lk, back := popCount o.sm.bip 8, backs := [popCount o.odu.bip 8], errN := 0,
          mfas := o.mfas }
        let sees := if o.mfas = 0 then s.sels.filter (fun n => s.f (seScheme (selKey n)) == 2 && s.f (seTmode (selKey n)) == 1) else []
        let free := sees.flatMap (fun n => [⟨selKey n + 56, 0, 16⟩, ⟨selKey n + 60, 0, 32⟩, ⟨selKey n + 92, 0, 16⟩, ⟨selKey n + 96, 0, 32⟩])
        let ns := corrected s c false (s.instant o.at_) 0 / 2 ^ 16
        let stamped (t : State) : Prop := ∀ n ∈ sees,
          (s.selWch n = c → t.g ⟨selKey n + 56, 0, 16⟩ = 0x8000 + e ∧ t.g ⟨selKey n + 60, 0, 32⟩ = ns / 1000000000 % 4 * 2 ^ 30 + ns % 1000000000) ∧
          (s.f (sePslot (selKey n)) < 98304 → s.slotCh (s.f (sePslot (selKey n))) = c →
            t.g ⟨selKey n + 92, 0, 16⟩ = 0x8000 + e ∧ t.g ⟨selKey n + 96, 0, 32⟩ = ns / 1000000000 % 4 * 2 ^ 30 + ns % 1000000000)
        let pm : List (Fld × Nat) := [bipFld s c (CH_PMC_COUNT c 0) (popCount o.sm.bip 8), reiFld s (CH_PMC_COUNT c 1) o.sm.bei 8,
          bipFld s c (CH_PMC_COUNT c 2) (popCount o.odu.bip 8), reiFld s (CH_PMC_COUNT c 3) o.odu.bei 8]
        (n < max 2 (s.f (CH_ALN_CFG_OOM_N c)) → Completes (.lineFrame c o) s (fun t => FrameSeen c free pm s (s.setLane c { x with oomN := n }) t ∧ stamped t)) ∧
        (max 2 (s.f (CH_ALN_CFG_OOM_N c)) ≤ n → Completes (.lineFrame c o) s
          (fun t => FrameSeen c free (pm ++ [(CH_ALN_STAT_OOM c, 1)]) s (s.setLane c { x with oomN := 0, imN := 0 }) t ∧ stamped t)))) ∧
    (plainLane c s → car = 3 → (s.disc c = 5 ∨ s.disc c = 6) → o.tribs = [] → o.msi = none → v.stat = 0 → v.sf = false → s.g ⟨(CH_DEF_STAT_LOS c).addr, 0, 18⟩ = 0 → o.pat = true →
      rateFam rate = .sdh → s.chFam c = .sdh → ∀ p q : _, o.paths = [p] → p.trib = 0 → p.idx < 2048 → p.pj = false → p.nj = false →
      s.pathOver c p.idx = some q → q.first = p.idx → (s.pathView v c p.idx 0).1 &&& 0x6F = 0 →
      let k := pathKey c p.idx 0
      Completes (.lineFrame c o) s (fun t =>
        FrameSeen c [CH_PMC_COUNT c 0, CH_PMC_COUNT c 1, CH_PMC_COUNT c 2] [bipFld s c (paCnt k 0) (popCount p.bip 8), reiFld s (paCnt k 1) p.rei 8] s
          { (s.setLane c { l with errN := 0, back := popCount o.b2 (8 * stsOf rate) }) with spe := t.spe } t ∧
        t.spe = (if (t.mn (monKey c p.idx 0 0)).acc 1 = (s.mn (monKey c p.idx 0 0)).acc 1 then s.spe else (speFresh s (512 * c.val + p.idx)).spe) ∧
        (t.mn (monKey c p.idx 0 0)).runs = runsStep [p.ptr == .ones, p.rdi, false, false, false,
          (match p.ptr with | .valid _ ndf => ndf | .invalid => true | .ones => false)] (s.mn (monKey c p.idx 0 0)).runs ∧
        (t.mn (monKey c p.idx 0 0)).acc 0 = (accStep 5 p.label ((s.mn (monKey c p.idx 0 0)).accs.getD 0 accReset)).acc)) ∧
    (plainLane c s → 3 ≤ s.disc c → s.disc c < 8 → rateFam rate = .eth → Completes (.lineFrame c o) s
      (let down := l.ethDown || s.chLos c || s.g (CH_ALN_STAT_BLOCK_LOCK c) == 0;
        Moves c [] s (s.setLane c { l with ethErr := l.ethErr + o.blocks, ethDown := down }))) ∧
    (s.ready (chBase c) = true → s.injecting = false → (∀ p ∈ s.pend, p.line ≠ some c.val) → l.bond = true → s.disc c = 3 →
      rate = 9 ∨ rate = 11 → o.ms = [] → l.cands = [] →
      let maps : List (Fld × Nat) := [(CH_LANE_MAP0_MAP c, laneMap o 0 16 % 2 ^ 32), (CH_LANE_MAP1_MAP c, laneMap o 16 4 % 2 ^ 8)]
      (car = 4 → o.lanesOk rate = true → o.skew ≤ 180 → Completes (.lineFrame c o) s
        (Moves c ([(CH_ALN_STAT_CAR_STATE c, 1), (CH_ALN_SKEW_SKEW_EXC c, 0), (CH_ALN_SKEW_SKEW_NS c, o.skew)] ++ maps) s
          (s.setLane c { l with aligned := true }))) ∧
      (car = 1 → o.lanesOk rate = true → 180 < o.skew → Completes (.lineFrame c o) s
        (Moves c ([(CH_ALN_STAT_CAR_STATE c, 4), (CH_ALN_SKEW_SKEW_EXC c, 1), (CH_ALN_STAT_CAND_N c, 0)] ++ maps) s
          (s.setLane c { noHunt l with aligned := false }))) ∧
      (car = 1 → o.lanesOk rate = false → Completes (.lineFrame c o) s
        (Moves c [(CH_ALN_STAT_CAR_STATE c, 4), (CH_ALN_SKEW_SKEW_EXC c, 0), (CH_ALN_STAT_CAND_N c, 0)] s
          (s.setLane c { noHunt l with aligned := false }))))
/-- A channel of family `f` whose detectors run (R109). -/
abbrev Sys2Proof.detects (c : Nat) (f : Fam) (s : State) : Prop := s.ready (chBase c) = true ∧ s.disc c ≠ 8 ∧ s.chFam c = f

/-- The condition `i` has held, or been absent, for at least `n` frames in a row at monitor `k`. -/
abbrev Sys2Proof.ran (s : State) (k i : Nat) (b : Bool) (n : Nat) : Prop := ((s.mn k).runs[i]?).any (fun p => p.1 == b && decide (n ≤ p.2)) = true

/-- The channel's state with one monitor's defect declared or cleared; AIS and LOP of a path exclude each other (R109). -/
def Sys2Proof.marked (s : State) (k : Nat) (d : Defect) (b : Bool) : State :=
  let x := s.mn k
  let x := if b && d == .ais then x.put .lop false else if b && d == .lop then x.put .ais false else x
  s.setMn k (x.put d b)

/-- The frames of Table 6-3 that an AIS-L, an RDI, an LOP-P needs: 0 in the field selects the value given there. -/
def Sys2Proof.aisN (s : State) (c : Nat) : Nat :=
  if s.f (CH_DEF_CFG_AIS_N c) = 0 then (if s.isSdh c then 3 else 5) else s.f (CH_DEF_CFG_AIS_N c)
def Sys2Proof.rdiN (s : State) (c : Nat) : Nat := if s.f (CH_DEF_CFG_RDI_N c) = 0 then 5 else s.f (CH_DEF_CFG_RDI_N c)
def Sys2Proof.lopN (s : State) (c : Nat) : Nat := if s.f (CH_DEF_CFG_LOP_N c) = 0 then 8 else s.f (CH_DEF_CFG_LOP_N c)

/-- SONET/SDH and Ethernet defects (R109, R110, R112, Table 6-3): declared once their frame count has held, cleared by their clearing
condition; a line defect then shows where nothing masks it, and LOS masks every other. -/
def Obligations.SdhAndEthernetDefectsComplete : Prop :=
  ∀ (s : State) (c : Fin 192),
    let k := lineMon c 0
    let clear := s.chLos c = false ∧ s.on (CH_ALN_STAT_LOF c) = false ∧ s.forced = []
    (detects c .sdh s →
      (ran s k 0 true (aisN s c) → Completes (.defectDeclare (.line c) .ais) s (fun t => Moves c [] s (marked s k .ais true) t ∧
        (clear → t.on (CH_DEF_STAT_AIS c) = true ∧ t.on (CH_DEF_STAT_RDI c) = false ∧ t.on (CH_SFSD_SF c) = true))) ∧
      (ran s k 0 false (aisN s c) → Completes (.defectDeclare (.line c) .ais) s (Moves c [] s s) ∧
        Completes (.defectClear (.line c) .ais) s (fun t => Moves c [] s (marked s k .ais false) t ∧
          (s.forced = [] → t.on (CH_DEF_STAT_AIS c) = false))) ∧
      (ran s k 1 true (rdiN s c) → Completes (.defectDeclare (.line c) .rdi) s (fun t => Moves c [] s (marked s k .rdi true) t ∧
        (clear → (s.mn k).has .ais = false → t.on (CH_DEF_STAT_RDI c) = true))) ∧
      (ran s k 1 false (rdiN s c) → Completes (.defectClear (.line c) .rdi) s (fun t => Moves c [] s (marked s k .rdi false) t ∧
        (s.forced = [] → t.on (CH_DEF_STAT_RDI c) = false))) ∧
      (∀ (idx : Fin 2048) (trib : Fin 29), s.pathHere c idx trib = true →
        let e := Ent.path c idx trib 0
        let p := monKey c idx trib 0
        let centre (x : State) : State := if trib.val = 0 then speFresh x (512 * c.val + idx.val) else x
        (ran s p 0 true 3 → Completes (.defectDeclare e .ais) s (Moves c [] s (marked s p .ais true))) ∧
        (ran s p 5 true (lopN s c) → Completes (.defectDeclare e .lop) s (Moves c [] s (marked s p .lop true))) ∧
        (ran s p 1 true (rdiN s c) → Completes (.defectDeclare e .rdi) s (Moves c [] s (marked s p .rdi true))) ∧
        (ran s p 1 false (rdiN s c) → Completes (.defectClear e .rdi) s (Moves c [] s (marked s p .rdi false))) ∧
        (3 ≤ (s.mn p).eqA → Completes (.defectClear e .ais) s (Moves c [] s (centre (marked s p .ais false)))) ∧
        (3 ≤ (s.mn p).eqN → Completes (.defectClear e .lop) s (Moves c [] s (centre (marked s p .lop false)))) ∧
        ((s.mn p).eqA < 3 → Completes (.defectClear e .ais) s (Moves c [] s s)))) ∧
    (∀ (d : Fin 3) (on : Bool), detects c .eth s →
      let l := s.lane c
      let eth := (if d.val = 0 then bit on else l.eth % 2) + 2 * (if d.val = 1 then bit on else l.eth / 2 % 2) +
        4 * (if d.val = 2 then bit on else l.eth / 4)
      l.eth < 8 → Completes (.ethDefectChange c d on) s (fun t => Moves c [] s (s.setLane c { l with eth := eth }) t ∧
        (s.forced = [] → s.chLos c = false → s.g (CH_ALN_STAT_BLOCK_LOCK c) = 1 → d.val = 0 → t.on (CH_DEF_STAT_HI_BER c) = on))) ∧
    (∀ (d : Fin 3) (on : Bool), (s.ready (chBase c) = false ∨ s.chFam c ≠ .eth) → Ignored (.ethDefectChange c d on) s) ∧
    (s.ready (chBase c) = false → ∀ d : Defect, Ignored (.defectDeclare (.line c) d) s ∧ Ignored (.defectClear (.line c) d) s) ∧
    (∀ energyOnly : Bool, (energyOnly = false ∨ s.f (CH_DEF_CFG_LOS_NRG c) ≠ 0) → detects c .sdh s → s.disc c = 3 → s.forced = [] →
      Completes (.losDeclare c energyOnly) s (fun t =>
        t.g ⟨(CH_DEF_STAT_LOS c).addr, 0, 18⟩ = 1 + 2 * s.g (CH_ALN_STAT_OOF c) ∧ t.g ⟨(CH_SFSD_SF c).addr, 0, 16⟩ = 1))

/-- OTN defects (R109, R111, Table 6-4): of the OTU, the HO ODU, a TCM level that is monitored, and an LO ODU in its path entry; the
OTU's AIS is detected per G.798. -/
def Obligations.OtnDefectsComplete : Prop :=
  ∀ (s : State) (c : Fin 192), detects c .otn s →
    let rule (e : Ent) (k : Nat) (d : Defect) (i n : Nat) : Prop :=
      (ran s k i true n → Completes (.otnDefectDeclare e d) s (Moves c [] s (s.setMn k ((s.mn k).put d true)))) ∧
      (ran s k i false n → Completes (.otnDefectDeclare e d) s (Moves c [] s s) ∧
        Completes (.otnDefectClear e d) s (Moves c [] s (s.setMn k ((s.mn k).put d false))))
    Completes (.otnDefectDeclare (.line c) .ais) s (fun t => Moves c [] s (marked s (lineMon c 0) .ais true) t ∧
      (s.chLos c = false → t.on (CH_DEF_STAT_AIS c) = true ∧ t.g ⟨(CH_DEF_STAT_LOS c).addr, 12, 6⟩ = 0 ∧
        t.g ⟨(CH_TCM_STAT_LTC1 c).addr, 0, 24⟩ = 0)) ∧
    Completes (.otnDefectClear (.line c) .ais) s (Moves c [] s (marked s (lineMon c 0) .ais false)) ∧
    rule (.line c) (lineMon c 0) .rdi 1 5 ∧
    rule (.odu c 0) (lineMon c 1) .ais 0 3 ∧ rule (.odu c 0) (lineMon c 1) .oci 2 3 ∧ rule (.odu c 0) (lineMon c 1) .lck 3 3 ∧
    rule (.odu c 0) (lineMon c 1) .rdi 1 5 ∧
    (∀ lv : Fin 7, lv.val ≠ 0 → s.tcmMon c lv = true →
      rule (.odu c lv) (lineMon c (1 + lv.val)) .ltc 4 3 ∧ rule (.odu c lv) (lineMon c (1 + lv.val)) .ais 0 3 ∧
      rule (.odu c lv) (lineMon c (1 + lv.val)) .ociLck 6 3 ∧ rule (.odu c lv) (lineMon c (1 + lv.val)) .rdi 1 5) ∧
    (∀ idx : Fin 2048, s.pathHere c idx 0 = true →
      let e := Ent.path c idx 0 0
      let k := monKey c idx 0 0
      rule e k .ais 0 3 ∧ rule e k .oci 2 3 ∧ rule e k .lck 3 3 ∧ rule e k .rdi 1 5)

/-- The words of a path entry as the window shows them (Table 6-12), for the path `p` or none: `i` below 36 from the entry, counters and
history from the holding copies with SRC (R45); the accepted trace; a word that the path has no use for reads 0. -/
def Sys2Proof.pathWord (s : State) (c idx trib : Nat) (head : Nat) (src : Bool) (i : Nat) : Nat :=
  let k := pathKey c idx trib
  let tr := ((s.mn (monKey c idx trib 0)).msgAcc.getD [])
  let j := 4 * (i - 36)
  if i = 0 then head
  else if pathUnused (s.pathOver c idx) trib i then 0
  else if src && decide (5 ≤ i) && decide (i ≤ 19) then (s.rd (heldKey k + 4 * i)).toNat
  else if i < 36 then (s.rd (k + 4 * i)).toNat
  else fb tr j + 2 ^ 8 * fb tr (j + 1) + 2 ^ 16 * fb tr (j + 2) + 2 ^ 24 * fb tr (j + 3)

/-- Tributary monitors and the path and tributary windows (R36, R39, R45, R120, R122, R123, R125, R126, R127, Tables 6-11 to 6-13), with the
window of the batt store's fixed paths (R280). -/
def Obligations.TributariesAndPathWindowsComplete : Prop :=
  ∀ (s : State) (m : Fin 8) (lg : Fin 16),
    let pg := lgBase lg + 0xE000
    let lc := s.g (LGM_PW_SEL_CH lg)
    let c := lg.val * 12 + lc
    let idx := s.g (LGM_PW_SEL_IDX lg)
    let trib := s.g (LGM_PW_SEL_TRIB lg)
    let src := s.g (LGM_PW_SEL_SRC lg) == 1
    let read (code : Nat) (head : Nat) : Prop := Completes (.pwRead m lg) s (SetsBy m
      (resFlds s (LGM_PW_CTRL_VALID lg).addr (code != 0) ++ [(LGM_PW_CODE_CODE lg, code)] ++
        (if code ≤ 1 then (List.range 52).map (fun i => (LGM_PW_D_DATA lg i, pathWord s c idx trib head src i)) else [])) s)
    (∀ (kind : Fin 2) (num : Fin 252) (d : Fin 4) (on : Bool), s.ready pg = true → (kind.val = 0 ∨ num.val < 24) →
      let k := tribKey lg kind num
      let met := tribMet kind (s.f (trFmt k)) d (tget (fun _ => tribStReset) s.trib k)
      (s.tribEn kind k = true → met = on → Completes (.tribDefectDeclare lg kind num d on) s (fun t =>
        t = { s with regs := t.regs } ∧
        (let off := s.tribDetached lg kind k || s.tribMasked lg kind k;
          t.on (trDet k) = s.tribDetached lg kind k ∧ t.on (bitOf (trStat k) d) = (on && !off) ∧ (off = true → t.g (trStat k) = 0)) ∧
        ∀ x i, i < 32 → (x < tribKey lg 0 0 ∨ tribKey (lg + 1) 0 0 ≤ x ∨ x % 256 < 4 ∨ 12 ≤ x % 256) →
          (t.rd x).getLsbD i = (s.rd x).getLsbD i)) ∧
      ((s.tribEn kind k = false ∨ met ≠ on) → Ignored (.tribDefectDeclare lg kind num d on) s)) ∧
    (s.usable pg = true → s.on (LGM_PW_CMD_READ lg) = false →
      ((12 ≤ lc ∨ s.disc c = 8 ∨ (if (s.lane c).bond then 2048 else 512) ≤ idx) → read 3 0) ∧
      (lc < 12 → s.disc c ≠ 8 → idx < 512 →
        (28 < trib → read 2 0) ∧
        (trib ≤ 28 → s.pathOver c idx = none → read 1 0) ∧
        (∀ p, s.pathOver c idx = some p →
          (trib = 0 → p.first ≠ idx → read 1 0) ∧
          (trib = 0 → p.first = idx → read 0 (p.kind + 4 * p.slots)) ∧
          (0 < trib → trib ≤ 28 → (p.kind ≠ 1 ∨ s.loThrough (512 * c + idx) = none) → read 2 0)))) ∧
    (∀ late : Bool, alone s → s.usable pg = true → s.on (LGM_PW_CMD_WRITE lg) = false → lc < 12 → s.disc c ≠ 8 → idx < 512 → trib = 0 →
      ∀ p, s.pathOver c idx = some p → p.first = idx →
        let k := pathKey c idx 0
        let d (i : Nat) : Word := s.rd (LGM_PW_D_DATA lg i).addr
        let w := if late then 1 else 0
        (src = true → Completes (.pwWrite m lg late) s
          (SetsBy m (resFlds s (LGM_PW_CTRL_VALID lg).addr true ++ [(LGM_PW_CODE_CODE lg, 4)]) s)) ∧
        (src = false → s.chFam c ≠ .otn → Completes (.pwWrite m lg late) s (fun t =>
          AnsweredBy m true [] s t ∧ t = { s with regs := t.regs, resp := t.resp, pend := t.pend } ∧
          t.pend = s.pend ++ ⟨k + 4, 0x3FFFFF, s.rd (k + 4), some c, w, 0, 7⟩ ::
            (List.range 16).map (fun i => ⟨k + 80 + 4 * i, 0xFFFFFFFF, s.rd (k + 80 + 4 * i), some c, w, 0, 7⟩) ∧
          Regs ((BMX_PARK_T0, m.val) :: (⟨k + 4, 0, 22⟩, (d 1).toNat % 2 ^ 22) :: (LGM_PW_CODE_CODE lg, 0) ::
            (List.range 2).map (fun i => (⟨k + 24 + 4 * i, 0, 32⟩, (d (6 + i)).toNat)) ++
            (List.range 16).map (fun i => (⟨k + 80 + 4 * i, 0, 32⟩, (d (20 + i)).toNat)) ++
            resFlds s (LGM_PW_CTRL_VALID lg).addr false) s t)) ∧
        (src = false → s.chFam c = .otn → Completes (.pwWrite m lg late) s (fun t =>
          AnsweredBy m true [] s t ∧ t = { s with regs := t.regs, resp := t.resp, pend := t.pend } ∧
          t.pend = s.pend ++ [⟨k + 4, 0x3FFFFF, s.rd (k + 4), some c, w, 0, 7⟩, ⟨k + 8, 0x555, s.rd (k + 8), some c, w, 0, 7⟩,
            ⟨k + 8, 0xAAA, (s.rd (k + 8) &&& ~~~0x555) ||| (d 2 &&& 0x555), none, w, 0, 7⟩] ++
            (List.range 16).map (fun i => ⟨k + 80 + 4 * i, 0xFFFFFFFF, s.rd (k + 80 + 4 * i), some c, w, 0, 7⟩) ∧
          Regs ((BMX_PARK_T0, m.val) :: (⟨k + 4, 0, 22⟩, (d 1).toNat % 2 ^ 22) :: (⟨k + 8, 0, 12⟩, (d 2).toNat % 2 ^ 12) ::
            (LGM_PW_CODE_CODE lg, 0) :: (List.range 14).map (fun i => (⟨k + 24 + 4 * i, 0, 32⟩, (d (6 + i)).toNat)) ++
            (List.range 16).map (fun i => (⟨k + 80 + 4 * i, 0, 32⟩, (d (20 + i)).toNat)) ++
            resFlds s (LGM_PW_CTRL_VALID lg).addr false) s t))) ∧
    (let num := s.g (LGM_TM_SEL_NUM lg)
      let kind := s.g (LGM_TM_SEL_KIND lg)
      let tsrc := s.g (LGM_TM_SEL_SRC lg) == 1
      let k := tribKey lg kind num
      let d (i : Nat) : Word := s.rd (LGM_TM_D_DATA lg i).addr
      let bad := (if kind = 0 then 252 else 24) ≤ num;
      s.usable pg = true →
      (s.on (LGM_TM_CMD_READ lg) = false →
        (bad → Completes (.tmRead m lg) s (SetsBy m (resFlds s (LGM_TM_CTRL_VALID lg).addr true ++ [(LGM_TM_CODE_CODE lg, 1)]) s)) ∧
        (¬bad → Completes (.tmRead m lg) s (SetsBy m (resFlds s (LGM_TM_CTRL_VALID lg).addr false ++ (LGM_TM_CODE_CODE lg, 0) ::
          (List.range 7).map (fun i => (LGM_TM_D_DATA lg i,
            (s.rd ((if tsrc && decide (2 ≤ i) then heldKey k else k) + 4 * i)).toNat))) s))) ∧
      (∀ late : Bool, alone s → s.on (LGM_TM_CMD_WRITE lg) = false →
        (bad → Completes (.tmWrite m lg late) s (SetsBy m (resFlds s (LGM_TM_CTRL_VALID lg).addr true ++ [(LGM_TM_CODE_CODE lg, 1)]) s)) ∧
        (¬bad → tsrc = true → Completes (.tmWrite m lg late) s
          (SetsBy m (resFlds s (LGM_TM_CTRL_VALID lg).addr true ++ [(LGM_TM_CODE_CODE lg, 4)]) s)) ∧
        (¬bad → tsrc = false → Completes (.tmWrite m lg late) s (fun t =>
          AnsweredBy m true [] s t ∧ t = { s with regs := t.regs, resp := t.resp, pend := t.pend } ∧
          t.pend = s.pend ++ [⟨k, 0x7FFFFF, s.rd k, none, if late then 1 else 0, 0, 7⟩] ∧
          Regs ((BMX_PARK_T0, m.val) :: (⟨k, 0, 23⟩, (d 0).toNat % 2 ^ 23) :: (LGM_TM_CODE_CODE lg, 0) ::
            (List.range 4).map (fun i => (⟨k + 12 + 4 * i, 0, 32⟩, (d (3 + i)).toNat)) ++
            resFlds s (LGM_TM_CTRL_VALID lg).addr false) s t)))) ∧
    (s.usable 0xB000 = true → s.g BAT_PATH_SEL_PATH ≠ 0 →
      (s.on BAT_PATH_CMD_READ = false → Completes (.pathRead m) s (fun t => AnsweredBy m true [] s t ∧ t.g BAT_PATH_CODE_CODE = 0 ∧
        t.g ⟨0xB040, 0, 32⟩ = s.g ⟨bpKey (s.g BAT_PATH_SEL_PATH), 0, 32⟩ ∧ t.g ⟨0xB044, 0, 32⟩ = s.g ⟨bpKey (s.g BAT_PATH_SEL_PATH) + 4, 0, 32⟩)) ∧
      (∀ late : Bool, alone s → s.on BAT_PATH_CMD_WRITE = false → bpCode s = 0 → Completes (.pathWrite m late) s (fun t =>
        AnsweredBy m true [] s t ∧ t.g BAT_PATH_CODE_CODE = 0 ∧ t.g ⟨bpKey (s.g BAT_PATH_SEL_PATH), 0, 28⟩ = s.g ⟨0xB040, 0, 28⟩ ∧
        t.g ⟨bpKey (s.g BAT_PATH_SEL_PATH) + 4, 0, 12⟩ = s.g ⟨0xB044, 0, 12⟩)))

/-- The words of an interchange page that hold an entry (R136, R149, Table 7-8), and the bits of it. -/
def Sys2Proof.icStored (lox : Bool) (w : Nat) : Option Word :=
  if lox then (if w < 0x540 then some 0x3FFFFF else if 0x800 ≤ w ∧ w < 0xD40 then some 7
    else if 0x4000 ≤ w ∧ w < 0xD300 then some 0x3FFFF else none)
  else if w < 0x1F500 then some 0xFFFFFFFF else none

/-- The command result of an interchange page but BUSY (R44, Table 7-5): of command `cmd` (0 SEAL, 1 ABANDON, 2 COPY_ACTIVE) with `code`. -/
def Sys2Proof.icResFlds (s : State) (pg cmd code : Nat) : List (Fld × Nat) :=
  resFlds3 s (IC_CMD_CTRL_VALID pg).addr (code != 0) ++
    [(IC_CMD_CODE_CODE pg, code), (IC_CMD_CODE_CMD pg, cmd), (⟨(IC_CMD_SEAL pg).addr, (IC_CMD_SEAL pg).lo + cmd, 1⟩, 0)]

/-- The fault of an entry at SEAL (R138, R144, R150), by its code; 0 none. -/
def Sys2Proof.sealFault (s : State) (lox : Bool) (w : Nat) : Nat :=
  if s.icBad lox (s.icStandby lox) w = 2 then 7 else if lox then loxCheck s w else tsiCheck (s.icWord lox w)

/-- What a window write does (R136, R137): in EDIT the standby entry takes the value and is sound again; an offset without storage takes
nothing; in another state the write is refused and counted; an unaligned offset is refused. -/
def Sys2Proof.FormWindow (lox : Bool) (m : Fin 8) (off : Nat) (v : Word) (s : State) (i : Instr) : Prop :=
  let pg := icPage lox
  (s.usable pg = true → off % 4 = 0 →
    (∀ bits, icStored lox (off / 4) = some bits → s.g (IC_STAT_STBY_STATE pg) = 0 → Completes i s (fun t =>
      let k := (1 - s.g (IC_STAT_ACTIVE pg)) * 0x100000 + off / 4
      AnsweredBy m true [] s t ∧ t = { (s.setIc lox (t.ic lox)) with regs := t.regs, resp := t.resp } ∧ RegsKeep [BMX_PARK_T0] s t ∧
      t.ic lox = { s.ic lox with ent := (t.ic lox).ent, bad := (t.ic lox).bad } ∧
      OneAt (icDflt lox) (s.ic lox).ent (t.ic lox).ent k (v &&& bits) ∧ OneAt (fun _ => 0) (s.ic lox).bad (t.ic lox).bad k 0)) ∧
    (icStored lox (off / 4) ≠ none → s.g (IC_STAT_STBY_STATE pg) ≠ 0 → Completes i s (fun t =>
      AnsweredBy m false [] s t ∧ t = { s with regs := t.regs, resp := t.resp } ∧ Regs ((BMX_PARK_T0, m.val) :: occFlds s (pg + 0x70)) s t)) ∧
    (icStored lox (off / 4) = none → Completes i s (SetsBy m [] s))) ∧
  (s.busRuns = true → (s.usable pg = false ∨ off % 4 ≠ 0) → Completes i s (Denied m s))

/-- What the page's commands do (R138 to R140, R144, R149, R150). -/
def Sys2Proof.FormPage (lox : Bool) (m : Fin 8) (copied : Nat) (s : State) (sl slDone abandon copy copyDone : Instr) : Prop :=
  let pg := icPage lox
  let st := s.g (IC_STAT_STBY_STATE pg)
  let x := s.ic lox
  let a := s.g (IC_STAT_ACTIVE pg)
  let idle (c : Nat) : Prop := s.on ⟨(IC_CMD_SEAL pg).addr, (IC_CMD_SEAL pg).lo + c, 1⟩ = false
  let after (y : Ic) (l : List (Fld × Nat)) (t : State) : Prop := t = { (s.setIc lox y) with regs := t.regs } ∧ Regs l s t
  let answered (y : Ic) (l : List (Fld × Nat)) (t : State) : Prop :=
    AnsweredBy m true [] s t ∧ t = { (s.setIc lox y) with regs := t.regs, resp := t.resp } ∧ Regs ((BMX_PARK_T0, m.val) :: l) s t
  let busy (n : Nat) : List (Fld × Nat) := [(IC_CMD_CTRL_BUSY pg, bit (n != 0))]
  (s.usable pg = true → st = 0 →
    (idle 0 → Completes sl s (answered { x with run := 1 }
      [(IC_STAT_STBY_STATE pg, 1), (IC_CMD_SEAL pg, 1), (IC_CMD_CTRL_BUSY pg, 1)])) ∧
    (idle 2 → Completes copy s (answered { x with run := 3 }
      [(IC_STAT_STBY_STATE pg, 3), (IC_CMD_COPY_ACTIVE pg, 1), (IC_CMD_CTRL_BUSY pg, 1)]))) ∧
  (s.usable pg = true → st ≠ 0 →
    let code := if st = 4 then 5 else 4;
    (idle 0 → Completes sl s (answered x (busy x.run ++ icResFlds s pg 0 4))) ∧
    (idle 2 → Completes copy s (answered x (busy x.run ++ icResFlds s pg 2 code)))) ∧
  (s.usable pg = true → idle 1 →
    (st = 4 → Completes abandon s (answered x (busy x.run ++ icResFlds s pg 1 5))) ∧
    (st ≠ 4 → x.run = 0 → Completes abandon s (answered x
      (busy 0 ++ icResFlds s pg 1 0 ++ [(IC_STAT_STBY_STATE pg, 0), (IC_STBY_SUM_SUM pg, 0)]))) ∧
    (st ≠ 4 → x.run = 1 ∨ x.run = 3 → Completes abandon s (fun t =>
      let y := t.ic lox
      AnsweredBy m true [] s t ∧ t = { (s.setIc lox y) with regs := t.regs, resp := t.resp } ∧
      y = { ent := y.ent, bad := y.bad, found := x.found, run := 0 } ∧
      (∀ w, tget (icDflt lox) y.ent (a * 0x100000 + w % 0x100000) = tget (icDflt lox) x.ent (a * 0x100000 + w % 0x100000)) ∧
      (∀ w, w < 0x100000 → tget (icDflt lox) y.ent ((1 - a) * 0x100000 + w) =
        tget (icDflt lox) x.ent ((if x.run = 3 ∧ w < copied then a else 1 - a) * 0x100000 + w)) ∧
      Regs ([(BMX_PARK_T0, m.val), (IC_STAT_STBY_STATE pg, 0), (IC_STBY_SUM_SUM pg, 0), (IC_CMD_CODE_CODE pg, 0), (IC_CMD_CODE_CMD pg, 1),
        (⟨(IC_CMD_SEAL pg).addr, (IC_CMD_SEAL pg).lo + (x.run - 1), 1⟩, 0), (IC_CMD_ABANDON pg, 0), (IC_CMD_CTRL_VALID pg, 1),
        (IC_CMD_CTRL_BUSY pg, 0), (IC_CMD_CTRL_LAST_FAILED pg, 0), (IC_CMD_CTRL_SEQ pg, (s.g (IC_CMD_CTRL_SEQ pg) + 2) % 2 ^ 16)]) s t))) ∧
  (x.run = 1 →
    (∀ l w r, icOrder lox = l ++ w :: r → (∀ y ∈ l, sealFault s lox y = 0) → sealFault s lox w ≠ 0 → Completes slDone s (after { x with run := 0 }
      (busy 0 ++ icResFlds s pg 0 (sealFault s lox w) ++
        [(IC_STAT_STBY_STATE pg, 0), (IC_STBY_SUM_SUM pg, 0), (IC_CMD_ENT_WORD pg, w)]))) ∧
    ((∀ w ∈ icOrder lox, sealFault s lox w = 0) → Completes slDone s (after { x with run := 0 }
      (let sum := (crcWords s lox (icOrder lox)).toNat;
        busy 0 ++ icResFlds s pg 0 0 ++ [(IC_STAT_STBY_STATE pg, 2), (IC_STBY_SUM_SUM pg, sum), (IC_CMD_SUM_SUM pg, sum)])))) ∧
  (x.run ≠ 1 → Ignored slDone s) ∧
  (x.run = 3 → Completes copyDone s (fun t =>
    let y := t.ic lox
    t = { (s.setIc lox y) with regs := t.regs } ∧ y = { ent := y.ent, bad := y.bad, found := x.found, run := 0 } ∧
    (∀ w, w < 0x100000 → ∀ p, tget (icDflt lox) y.ent (p % 2 * 0x100000 + w) = tget (icDflt lox) x.ent (a * 0x100000 + w)) ∧
    (∀ w, w < 0x100000 → ∀ p, tget (fun _ => 0) y.bad (p % 2 * 0x100000 + w) = tget (fun _ => 0) x.bad (a * 0x100000 + w)) ∧
    Regs (busy 0 ++ icResFlds s pg 2 0 ++ [(IC_STAT_STBY_STATE pg, 0)]) s t)) ∧
  (x.run ≠ 3 → Ignored copyDone s)

/-- The slot interchange and its lower-order stage (R132, R136 to R140, R144, R149, R150, Tables 7-4 to 7-8). SEAL's rules for a connection entry
(R138, Table 7-5): the fill code 3 is reserved; an ingress slot is one of 128,256; a lower-order output slot is one of 1,344 and takes no batt
path; a fill needs no source. -/
def Obligations.InterchangePagesComplete : Prop :=
  (∀ (s : State) (m : Fin 8) (copied : Fin 0x100000), alone s →
    (∀ (off : Fin 0x80000) (v : Word), FormWindow false m off v s (.tsiWindowWrite m off v)) ∧
    (∀ (off : Fin 0x40000) (v : Word), FormWindow true m off v s (.loxWindowWrite m off v)) ∧
    FormPage false m copied s (.seal m) .sealDone (.abandon m copied) (.copyActive m) .copyActiveDone ∧
    FormPage true m copied s (.loxSeal m) .loxSealDone (.loxAbandon m copied) (.loxCopyActive m) .loxCopyActiveDone) ∧
  (∀ (src : Fin 0x20000) (fill : Fin 4) (lo : Bool) (path : Fin 4096),
    let e := BitVec.ofNat 32 (src.val + 2 ^ 17 * fill.val + 2 ^ 19 * bit lo + 2 ^ 20 * path.val)
    tsiCheck e = (if fill.val = 3 then 2 else if fill.val ≠ 0 then 0
      else if lo = true then (if src.val < 1344 ∧ path.val = 0 then 0 else 3) else if src.val < 128256 then 0 else 1))

/-- The words of a container entry as MW_CMD.READ shows them (R180): NSL reads the slot count; counters from the holding copies with
SRC (R45). -/
def Sys2Proof.contWord (s : State) (c b e : Nat) (src : Bool) (i : Nat) : Nat :=
  let k := contKey c b e
  let w := (s.rd ((if src && decide (5 ≤ i) then heldKey k else k) + 4 * i)).toNat
  if i = 0 ∧ e ≠ 255 then w % 2 ^ 15 + 2 ^ 15 * (s.contSlots c b e false % 2 ^ 11) else w

/-- The mapping window and CHECK (R153 to R156, R165, R179, R180, Tables 8-2 to 8-6). What CHECK passes (R156): a bank whose check gives code 0
has used entries that lie in the channel's slots and do not overlap; of SONET/SDH they start at multiples of their slots and, where there is one,
cover every slot. -/
def Obligations.MappingWindowCommandsComplete : Prop :=
  (∀ (s : State) (m : Fin 8) (lg : Fin 16),
    let lc := s.g (LGC_MW_SEL_CH lg)
    let c := lg.val * 12 + lc
    let b := s.g (LGC_MW_SEL_BANK lg)
    let e := s.g (LGC_MW_SEL_IDX lg)
    let src := s.g (LGC_MW_SEL_SRC lg) == 1
    let d (i : Nat) : Nat := s.g (LGC_MW_D_DATA lg i)
    let k := contKey c b e
    let out := 12 ≤ lc ∨ s.disc c = 8
    let fail (code : Nat) : List (Fld × Nat) :=
      resFlds s (LGC_MW_CTRL_VALID lg).addr true ++ [(LGC_MW_CODE_CODE lg, code), (LGC_MW_CODE_ENT lg, 0)]
    let pass : List (Fld × Nat) :=
      resFlds s (LGC_MW_CTRL_VALID lg).addr false ++ [(LGC_MW_CODE_CODE lg, 0), (LGC_MW_CODE_ENT lg, 0)]
    let unchecked : Fld × Nat := (⟨(LGC_BANK_STAT_CHECKED lg).addr, 2 * lc + b, 1⟩, 0)
    (s.usable (lgBase lg) = true → s.on (LGC_MW_CMD_CHECK lg) = false → s.on (LGC_MW_CMD_READ lg) = false →
      (out → Completes (.mwRead m lg) s (SetsBy m (fail 9) s)) ∧
      (¬out → Completes (.mwRead m lg) s
        (SetsBy m (pass ++ (List.range 9).map (fun i => (LGC_MW_D_DATA lg i, contWord s c b e src i))) s))) ∧
    (s.usable (lgBase lg) = true → s.on (LGC_MW_CMD_CHECK lg) = false → s.on (LGC_MW_CMD_WRITE lg) = false → alone s →
      (out → Completes (.mwWrite m lg) s (SetsBy m (fail 9) s)) ∧
      (¬out → src = true ∨ s.rxBank c = b ∨ s.txBank c = b ∨ bankAwaited s c b = true → Completes (.mwWrite m lg) s (SetsBy m (fail 8) s)) ∧
      (¬out → src = false → s.rxBank c ≠ b → s.txBank c ≠ b → bankAwaited s c b = false →
        (e = 255 → Completes (.mwWrite m lg) s (SetsBy m (pass ++ [(bankFmt c b, d 0 % 2 ^ 5), unchecked]) s)) ∧
        (e ≠ 255 → Completes (.mwWrite m lg) s (SetsBy m (pass ++ [(⟨k, 0, 32⟩, d 0 % 2 ^ (if d 0 / 2 ^ 11 % 16 = 12 then 26 else 15)),
          (⟨k + 4, 0, 32⟩, d 1), (⟨k + 8, 0, 32⟩, d 2), (⟨k + 12, 0, 32⟩, d 3 % 2 ^ 27), (contCnt k 0, d 5), (contCnt k 1, d 6),
          (contCnt k 2, d 7), (contCnt k 3, d 8), unchecked]) s)))) ∧
    (s.usable (lgBase lg) = true → s.on (LGC_MW_CMD_CHECK lg) = true → Completes (.mwRead m lg) s (fun t =>
      AnsweredBy m true [] s t ∧ t = { s with regs := t.regs, resp := t.resp } ∧ t.rd (LGC_MW_CODE_CODE lg).addr = s.rd (LGC_MW_CODE_CODE lg).addr ∧
      (s.on (LGC_MW_CMD_READ lg) = false → Regs ((BMX_PARK_T0, m.val) :: occFlds s (lgBase lg + 0x3E0) ++
        [(PG_WADDR_OFFSET (lgBase lg), 0xA4), (PG_WADDR_MASTER (lgBase lg), m.val)]) s t))) ∧
    (s.usable (lgBase lg) = true → s.on (LGC_MW_CMD_CHECK lg) = false → alone s →
      (out → Completes (.check m lg) s (SetsBy m (fail 9) s)) ∧
      (¬out → Completes (.check m lg) s (fun t => AnsweredBy m true [] s t ∧ t = { s with regs := t.regs, resp := t.resp, chk := t.chk } ∧
        OneAt (fun _ => 0) s.chk t.chk lg (2 * lc + b + 1) ∧
        Regs [(BMX_PARK_T0, m.val), (LGC_MW_CTRL_BUSY lg, 1), (LGC_MW_CMD_CHECK lg, 1)] s t))) ∧
    (∀ x, tget (fun _ => 0) s.chk lg = x + 1 → x < 24 →
      let r := checkBank s (lg.val * 12 + x / 2) (x % 2)
      Completes (.checkDone lg) s (fun t => t = { s with regs := t.regs, chk := t.chk } ∧ OneAt (fun _ => 0) s.chk t.chk lg 0 ∧
        Regs (resFlds s (LGC_MW_CTRL_VALID lg).addr (r.1 != 0) ++ [(LGC_MW_CODE_CODE lg, r.1 % 256), (LGC_MW_CODE_ENT lg, r.2 % 256),
          (LGC_MW_CMD_CHECK lg, 0), (⟨(LGC_BANK_STAT_CHECKED lg).addr, x, 1⟩, bit (r.1 == 0))]) s t)) ∧
    (tget (fun _ => 0) s.chk lg = 0 → Ignored (.checkDone lg) s) ∧
    (∀ (ch : Fin 192) (n : Fin 255),
      Completes (.containerAcquired ch n false) s (Sets [(⟨contKey ch (s.g (CH_MAP_STAT_RX_IN_FORCE ch)) n + 16, 2, 1⟩, 0)] s) ∧
      Completes (.containerAcquired ch n true) s (Sets [(⟨contKey ch (s.g (CH_MAP_STAT_TX_IN_FORCE ch)) n + 16, 12, 1⟩, 0)] s))) ∧
  (∀ (s : State) (c b : Nat), (checkBank s c b).1 = 0 →
    let fmt := s.g (bankFmt c b)
    let first (e : Nat) : Nat := s.g (contStart (contKey c b e))
    let n (e : Nat) : Nat := s.contSlots c b e false
    let sdh := fmtFam fmt = .sdh ∧ fmt ≠ 0
    (∀ e f, e ∈ s.used c b → f ∈ s.used c b → e ≠ f → first e + n e ≤ first f ∨ first f + n f ≤ first e) ∧
    (∀ e ∈ s.used c b, first e + n e ≤ if sdh then stsOf (fmtRate fmt) else if fmt = 0xC ∨ fmt = 0xD then 2048 else 512) ∧
    (sdh → ∀ e ∈ s.used c b, first e % n e = 0) ∧
    (sdh → s.used c b ≠ [] → ∀ o, o < stsOf (fmtRate fmt) → ∃ e ∈ s.used c b, first e ≤ o ∧ o < first e + n e))

/-- What of CL_STAT follows from the descriptors (Table 8-9). -/
def Sys2Proof.clFree (c : Nat) : List Fld := [CH_CL_STAT_NO_MAPPER c, CH_CL_STAT_GRP_FAIL c, CH_CL_STAT_Q_FULL c]

/-- Client `c` has the GFP state `g` and the counter `i` one higher; CL_STAT shows it. -/
def Sys2Proof.GfpAfter (c : Nat) (g : Gfp) (count : Option Nat) (s t : State) : Prop :=
  t = { s with regs := t.regs, gfp := t.gfp, wire := t.wire } ∧ OneAt (fun _ => gfpReset) s.gfp t.gfp c g ∧
  (∀ i, count = some i → t.g (CH_CL_CNT_COUNT c i) = min 0xFFFFFFFF (s.g (CH_CL_CNT_COUNT c i) + 1)) ∧
  t.on (CH_CL_STAT_GFP_LOF c) = (g.sync != 2) ∧ t.on (CH_CL_STAT_CSF_RX c) = g.csf ∧ t.on (CH_CL_STAT_Q_FULL c) = g.full ∧
  RegsKeep ([CH_CL_STAT_GFP_LOF c, CH_CL_STAT_CSF_RX c] ++ clFree c ++ (count.map (CH_CL_CNT_COUNT c)).toList) s t

/-- Ethernet clients (R170 to R174, Tables 8-9 and 8-10): the mapper's queue, GFP-F delineation and its client data and client signal fail frames. -/
def Obligations.ClientCommandsComplete : Prop :=
  ∀ (s : State) (c : Fin 192), s.injecting = false →
    let g := s.gfpOf c
    (∀ (frame : List Byte) (raw : Nat),
      (isBound s c false = true → csfApplies s c = false → s.f (TB_PT_CFG_TC c) = 0 →
        let wrong := fcsOf frame ≠ fcsCalc frame ∨ frame.length < 64 ∨ 9600 < frame.length
        let held := (g.q.map List.length).sum
        (wrong → Completes (.clientFrameMap c frame raw) s
          (Sets [(CH_CL_CNT_COUNT c 3, min 0xFFFFFFFF (s.g (CH_CL_CNT_COUNT c 3) + 1))] s)) ∧
        (¬wrong → 262144 < held + frame.length → Completes (.clientFrameMap c frame raw) s (fun t =>
          t = { s with regs := t.regs, gfp := t.gfp } ∧ OneAt (fun _ => gfpReset) s.gfp t.gfp c { g with full := true } ∧
          t.g (CH_CL_CNT_COUNT c 2) = min 0xFFFFFFFF (s.g (CH_CL_CNT_COUNT c 2) + 1) ∧ t.on (CH_CL_STAT_Q_FULL c) = true ∧
          RegsKeep (CH_CL_CNT_COUNT c 2 :: CH_CL_STAT_GFP_LOF c :: CH_CL_STAT_CSF_RX c :: clFree c) s t)) ∧
        (¬wrong → held + frame.length ≤ 262144 → Completes (.clientFrameMap c frame raw) s (fun t =>
          t = { s with regs := t.regs, gfp := t.gfp } ∧ OneAt (fun _ => gfpReset) s.gfp t.gfp c { g with q := g.q ++ [frame] } ∧
          Regs [(CH_CL_CNT_COUNT c 0, min 0xFFFFFFFF (s.g (CH_CL_CNT_COUNT c 0) + 1))] s t))) ∧
      ((isBound s c false = false ∨ csfApplies s c = true) → Ignored (.clientFrameMap c frame raw) s)) ∧
    (∀ (o : GfpObs) (raw : Nat),
      (isBound s c true = true →
        let data := o.thecBad = false ∧ o.pti ≠ 4 ∧ o.upi = 1 ∧ (o.pfi = false ∨ o.pfcsBad = false)
        let at_ (y : Gfp) (n : Option Nat) (w : List Wire) : Prop := Completes (.gfpFrameRx c o raw) s (fun t => GfpAfter c y n s t ∧ t.wire = w ++ s.wire)
        (g.sync ≠ 2 → o.chec.val ≠ 0 → at_ { g with sync := 0 } none []) ∧
        (g.sync = 0 → o.chec.val = 0 → at_ { g with sync := 1 } none []) ∧
        (g.sync = 2 → o.chec.val = 2 → at_ { g with sync := 0 } (some 3) []) ∧
        (g.sync = 2 → o.chec.val ≠ 2 → o.thecBad = true → at_ g (some 3) []) ∧
        (g.sync = 2 → o.chec.val ≠ 2 → o.thecBad = false → o.pti = 4 → o.upi = 1 ∨ o.upi = 2 → at_ { g with csf := true } none []) ∧
        ((g.sync = 2 ∧ o.chec.val ≠ 2) ∨ (g.sync = 1 ∧ o.chec.val = 0) → data → s.f (TB_PT_CFG_TC c) = 0 →
          let y := { g with sync := 2, csf := false }
          (grpBad s c true = false → at_ y (some 1) (if s.drives then [.client c o.payload] else [])) ∧
          (grpBad s c true = true → at_ y none []))) ∧
      (isBound s c true = false → Ignored (.gfpFrameRx c o raw) s)) ∧
    (isBound s c false = true → csfApplies s c = true → s.f (CH_CL_CFG_CSF_EN c) = 1 → Completes (.csfSend c) s (fun t =>
      let f : List Byte := [0x80, if s.chLos c then 1 else 2]
      let l := gfpOctets f (0, 0) g.scr
      t = { s with gfp := t.gfp, wire := .gfp c f :: s.wire } ∧ OneAt (fun _ => gfpReset) s.gfp t.gfp c { g with out := g.out ++ l.1, scr := l.2 })) ∧
    ((isBound s c false = false ∨ csfApplies s c = false ∨ s.f (CH_CL_CFG_CSF_EN c) = 0) → Ignored (.csfSend c) s)

/-- What follows of the group's members and of the clients that it serves (R175, Table 8-12). -/
def Sys2Proof.vgFollow (s : State) (lg g : Nat) : List Fld :=
  let k := vgKey lg g
  [vgAct k, vgActHi k, vgPlct k, vgTlct k] ++ (grpUsers s lg g).flatMap (fun c => CH_CL_STAT_GFP_LOF c :: CH_CL_STAT_CSF_RX c :: clFree c)

/-- VCAT groups (R36, R174 to R176, R181): the descriptor window, rings, LCAS members that fail and return. -/
def Obligations.VcatGroupCommandsComplete : Prop :=
  ∀ (s : State) (m : Fin 8) (lg : Fin 16),
    let g := s.g (LGC_VG_SEL_GRP lg)
    let k := vgKey lg g
    let d (i : Nat) : Word := s.rd (LGC_VG_D_DATA lg i).addr
    let n := (d 0).toNat / 16 % 128
    let w := if (d 0).getLsbD 3 then 3 else 1
    let prov := (d 2).toNat + 2 ^ 32 * (d 3).toNat
    let lcas := (d 0).getLsbD 2
    let owner := 0x10000 + 16 * lg.val + g
    let need := if (d 0).getLsbD 0 && (d 0).getLsbD 1 then n * w else 0
    let had := (s.ringsOf owner).length
    let bad := n = 0 ∨ 64 < n ∨ 512 < n * w ∨ 2 ^ n ≤ prov
    let inUse := grpUsers s lg g ≠ [] ∧ (bit ((d 0).getLsbD 1) ≠ s.g (vgDir k) ∨ bit ((d 0).getLsbD 3) ≠ s.g (vgMtype k) ∨ n ≠ s.g (vgNmem k) ∨
      (lcas = false ∧ prov ≠ s.g (vgProv k) + 2 ^ 32 * s.g (vgProvHi k)))
    let pg := lgBase lg
    (s.usable pg = true → s.on (LGC_VG_CMD_READ lg) = false → Completes (.vgRead m lg) s (SetsBy m
      (resFlds s (LGC_VG_CTRL_VALID lg).addr false ++ (LGC_VG_CODE_CODE lg, 0) ::
        (List.range 9).map (fun i => (LGC_VG_D_DATA lg i, (s.rd (k + 4 * i)).toNat))) s)) ∧
    (∀ late : Bool, alone s → s.usable pg = true → s.on (LGC_VG_CMD_WRITE lg) = false →
      let refused (code : Nat) : Prop := Completes (.vgWrite m lg late) s
        (SetsBy m (resFlds s (LGC_VG_CTRL_VALID lg).addr true ++ [(LGC_VG_CODE_CODE lg, code)]) s)
      (bad → refused 2) ∧
      (¬bad → inUse → refused 4) ∧
      (¬bad → ¬inUse → s.ringsFree + had < need → refused 3) ∧
      (¬bad → ¬inUse → need ≤ s.ringsFree + had → Completes (.vgWrite m lg late) s (fun t =>
        let wait := if late then 1 else 0
        AnsweredBy m true [] s t ∧ t = { s with regs := t.regs, resp := t.resp, pend := t.pend, rings := t.rings, cells := t.cells } ∧
        (t.ringsOf owner).length = need ∧ (∀ o, o ≠ owner → t.ringsOf o = s.ringsOf o) ∧ (had = need → t.rings = s.rings ∧ t.cells = s.cells) ∧
        t.pend = s.pend ++ [⟨k, 0x1FFFFF, s.rd k, none, wait, 0, 7⟩, ⟨k + 4, 0xFFFF, s.rd (k + 4), none, wait, 0, 7⟩] ++
          (if lcas then [] else [⟨k + 8, 0xFFFFFFFF, s.rd (k + 8), none, wait, 0, 7⟩, ⟨k + 12, 0xFFFFFFFF, s.rd (k + 12), none, wait, 0, 7⟩]) ∧
        (∀ p ∈ resFlds s (LGC_VG_CTRL_VALID lg).addr false ++ [(BMX_PARK_T0, m.val), (LGC_VG_CODE_CODE lg, 0), (⟨k, 0, 21⟩, (d 0).toNat % 2 ^ 21),
          (⟨k + 4, 0, 16⟩, (d 1).toNat % 2 ^ 16), (⟨k + 8, 0, 32⟩, (d 2).toNat), (⟨k + 12, 0, 32⟩, (d 3).toNat)], t.g p.1 = p.2) ∧
        (need ≠ had → t.g BAT_RSV_FREE = (s.ringsFree + had - need) % 2 ^ BAT_RSV_FREE.w) ∧
        RegsKeep ([BMX_PARK_T0, ⟨(LGC_VG_CTRL_VALID lg).addr, 0, 32⟩, LGC_VG_CODE_CODE lg, ⟨k, 0, 32⟩, ⟨k + 4, 0, 32⟩, ⟨k + 8, 0, 32⟩,
          ⟨k + 12, 0, 32⟩, BAT_RSV_FREE, BAT_RSV_USED] ++ vgFollow s lg g) s t))) ∧
    (∀ (gr : Fin 16) (mem : Fin 64),
      let kk := vgKey lg gr
      let runs := s.f (vgEn kk) = 1 ∧ s.f (vgDir kk) = 1 ∧ s.f (vgLcas kk) = 1 ∧ mem.val < s.f (vgNmem kk)
      let f := if mem.val < 32 then bitOf (vgFail kk) (mem.val % 32) else bitOf (vgFailHi kk) (mem.val % 32)
      let p := s.g (vgProv kk) + 2 ^ 32 * s.g (vgProvHi kk)
      let after (b : Bool) (t : State) : Prop := t = { s with regs := t.regs } ∧ t.on f = b ∧ RegsKeep (f :: vgFollow s lg gr) s t ∧
        let act := t.g (vgAct kk) + 2 ^ 32 * t.g (vgActHi kk)
        act = p &&& ((t.g (vgFail kk) + 2 ^ 32 * t.g (vgFailHi kk)) ^^^ 0xFFFFFFFFFFFFFFFF) ∧
          t.on (vgPlct kk) = (act != 0 && act != p) ∧ t.on (vgTlct kk) = (act == 0 && p != 0)
      (runs → Completes (.lcasMemberFail lg gr mem) s (after true) ∧ Completes (.lcasMemberRestore lg gr mem) s (after false)) ∧
      (¬runs → Ignored (.lcasMemberFail lg gr mem) s ∧ Ignored (.lcasMemberRestore lg gr mem) s))

/-- The action by which selector `n` changes itself (R190): SEL_SWITCH with `arg`, at the first frame boundary from 256 µs on. -/
def Sys2Proof.ownAction (s : State) (n arg : Nat) : Action :=
  { seq := s.plk.nextSeq, sfn := (s.nowNs + 256000 + 124999) / 125000, tick := 0, us := false, items := [⟨3, n, arg⟩],
    hdr := ⟨false, false, false, 0, 0xF000 + n⟩, master := 7, mirroredIn := false, mirrorOut := false, unmirrored := true, groupIn := false,
    late := false, peerSeq := 0, check := [] }

/-- It joins the pending queue of an ACTIVE unit whose mirror link is down, which counts it as unmirrored (R56, R308). -/
def Sys2Proof.Asked (n arg : Nat) (x : SelSt) (l : List (Fld × Nat)) (s t : State) : Prop :=
  t = { s.setSel n { x with ask := none } with regs := t.regs, plk := t.plk, twn := { s.twn with unmirrored := s.twn.unmirrored + 1 } } ∧
  t.plk = { s.plk with queue := s.plk.queue ++ [ownAction s n arg],
                       nextSeq := if s.plk.nextSeq = 0xFFFFFFFF then 1 else s.plk.nextSeq + 1 } ∧
  Regs ((PLK_STAT_PEND_USED, t.pendUsed % 2 ^ 13) :: occFlds s 0xD0AC ++ l) s t

/-- The Plank of an ACTIVE unit in no link to its twin takes an action of its own. -/
abbrev Sys2Proof.plankTakes (s : State) : Prop :=
  s.usable 0x4000 = true ∧ s.running = true ∧ s.pendUsed + 1 ≤ 4096 ∧ s.on TWN_CFG_TWIN_EN = true ∧ s.mirrorUp = false ∧ unwatched s

/-- Requests of selectors (R187, R188, R190, Tables 9-2 and 9-3): what an input's change reports and asks for; a refusal is tried again; WTR
ends. The selector window (R36, R45, R125, R205, R207, Tables 9-7 and 9-8): every entry reads; a write refused by the table changes nothing;
otherwise configuration waits for its boundary, the counters' presets and the twelve delay words are there at once. -/
def Obligations.SelectorCommandsComplete : Prop :=
  (∀ (s : State) (n : Fin 4096),
    let k := selKey n
    let x := s.selOf n
    let i := selInputs s true n
    let sfN := if i.1 then max 1 x.sfN else 0
    let sdN := if i.2.1 then max 1 x.sdN else 0
    let y := { x with sfN := sfN, sdN := sdN, freeW := if i.1 then 0 else x.freeW, freeP := if i.2.2.1 then 0 else x.freeP }
    let hold := 80 * s.f (seHoldoff k)
    let req := selRequest s n (decide (hold < sfN)) (decide (hold < sdN)) i.2.2.1 i.2.2.2
    let was := s.g (seReq k)
    let op := s.g (seOp k)
    let begins := (was = 4 ∨ was = 6) ∧ 7 < req ∧ s.on (seSelected k) = true ∧ s.f (seRevert k) = 1 ∧ s.f (seWtr k) ≠ 0
    let shown (r : Nat) (run : Nat) : List (Fld × Nat) := [(seReq k, r), (seWsf k, bit i.1), (seWsd k, bit i.2.1), (sePsf k, bit i.2.2.1),
      (sePsd k, bit i.2.2.2), (seWtrRun k, run), (seOp k, if r < 7 ∧ (op = 4 ∨ op = 5) then 0xF else op)]
    let run := if req < 8 then 0 else s.g (seWtrRun k)
    (s.mode = 3 → x.on = true → s.f (seScheme k) ≠ 1 →
      (¬begins → (selWants s n req = s.g (seSelected k) ∨ selAsked s n = true ∨ x.ask ≠ none) → Completes (.selectorAdmit n) s (fun t =>
        t = { s.setSel n y with regs := t.regs } ∧ Regs (shown req run) s t)) ∧
      (begins → Completes (.selectorAdmit n) s (fun t =>
        t = { s.setSel n { y with wtrAt := s.sfn } with regs := t.regs } ∧ Regs (shown 8 1) s t)) ∧
      (¬begins → selWants s n req ≠ s.g (seSelected k) → selAsked s n = false → x.ask = none →
        (plankTakes s → Completes (.selectorAdmit n) s (Asked n (6 + selWants s n req) y (shown req run) s)) ∧
        (s.running = false → Completes (.selectorAdmit n) s (fun t =>
          t = { s.setSel n { y with ask := some (6 + selWants s n req) } with regs := t.regs } ∧ Regs (shown req run) s t)))) ∧
    ((s.mode ≠ 3 ∨ x.on = false ∨ s.f (seScheme k) = 1) → Ignored (.selectorAdmit n) s) ∧
    (∀ arg, x.ask = some arg →
      (s.mode = 3 → plankTakes s → Completes (.selectorAdmitRetry n) s (Asked n arg x [] s)) ∧
      (s.mode = 3 → s.running = false → Ignored (.selectorAdmitRetry n) s) ∧
      (s.mode ≠ 3 → Completes (.selectorAdmitRetry n) s (fun t => t = s.setSel n { x with ask := none }))) ∧
    (x.ask = none → Ignored (.selectorAdmitRetry n) s) ∧
    (s.on (seWtrRun k) = true → x.wtrAt + 80000 * s.f (seWtr k) ≤ s.sfn → Completes (.wtrExpiry n) s (Sets [(seWtrRun k, 0)] s)) ∧
    ((s.on (seWtrRun k) = false ∨ s.sfn < x.wtrAt + 80000 * s.f (seWtr k)) → Ignored (.wtrExpiry n) s)) ∧
  (∀ (s : State) (m : Fin 8) (lg : Fin 16),
    let pg := lgBase lg + 0xF000
    let k := selKey (256 * lg + s.g (LGP_SW_SEL_IDX lg))
    let src := s.g (LGP_SW_SEL_SRC lg) == 1
    let d (j : Nat) : Word := s.rd (LGP_SW_D_DATA lg j).addr
    let w (j : Nat) : Fld := ⟨k + 4 * j, 0, 32⟩
    let three (a : Nat) (r : Int × Int × Int) : List (Fld × Nat) := [(w a, intBits r.1), (w (a + 1), intBits r.2.1), (w (a + 2), intBits r.2.2)]
    s.usable pg = true →
      (s.on (LGP_SW_CMD_READ lg) = false → Completes (.swRead m lg) s (SetsBy m
        (resFlds s (LGP_SW_CTRL_VALID lg).addr false ++ (LGP_SW_CODE_CODE lg, 0) :: (List.range 32).map (fun i =>
          (LGP_SW_D_DATA lg i, (s.rd ((if src && (i == 11 || i == 12) then heldKey k else k) + 4 * i)).toNat))) s)) ∧
      (∀ late : Bool, alone s → s.on (LGP_SW_CMD_WRITE lg) = false →
        (swCode s lg ≠ 0 → Completes (.swWrite m lg late) s
          (SetsBy m (resFlds s (LGP_SW_CTRL_VALID lg).addr true ++ [(LGP_SW_CODE_CODE lg, swCode s lg)]) s)) ∧
        ((11 < (d 1).toNat % 16 → swCode s lg = 1) ∧
          (swCode s lg ≠ 1 → ((d 1).toNat / 2 ^ 15 % 2 ^ 12 = 0 ∨ (d 1).toNat / 2 ^ 15 % 2 ^ 12 = 4095) → swCode s lg = 2) ∧
          (swCode s lg ∉ [1, 2, 3] → ((d 0).toNat / 2 % 4 = 3 ∨ 8 < (d 0).toNat / 32 % 16) → swCode s lg = 4) ∧
          (src = true → swCode s lg ≠ 0)) ∧
        (swCode s lg = 0 → Completes (.swWrite m lg late) s (fun t =>
          AnsweredBy m true [] s t ∧ t = { s with regs := t.regs, resp := t.resp, pend := t.pend } ∧
          t.pend = s.pend ++ [(0, 0x1FFFFFF), (1, 0x7FFFFFF), (2, 0x1FFFF), (3, 0x3FFFFFF), (4, 0xFFFFFF)].map (fun p =>
            ⟨k + 4 * p.1, p.2, s.rd (k + 4 * p.1), none, if late then 1 else 0, 0, 7⟩) ∧
          Regs ([(BMX_PARK_T0, m.val), (⟨k, 0, 25⟩, (d 0).toNat % 2 ^ 25), (⟨k + 4, 0, 27⟩, (d 1).toNat % 2 ^ 27),
            (⟨k + 8, 0, 17⟩, (d 2).toNat % 2 ^ 17), (⟨k + 12, 0, 26⟩, (d 3).toNat % 2 ^ 26), (⟨k + 16, 0, 24⟩, (d 4).toNat % 2 ^ 24),
            (LGP_SW_CODE_CODE lg, 0)] ++ [11, 12, 16, 17, 18, 19, 25, 26, 27, 28].map (fun j => (w j, (d j).toNat)) ++
            three 20 (delays (d 16) (d 17) (d 18) (d 19)) ++ three 29 (delays (d 25) (d 26) (d 27) (d 28)) ++
            resFlds s (LGP_SW_CTRL_VALID lg).addr false) s t))))

/-- LATE of the copies and the state they make (R198, Table 9-6), for their keys and slacks. -/
def Sys2Proof.judgedFlds (k : Nat) (kw kp : Bool) (w p : Int) : List (Fld × Nat) :=
  [(seWlate k, bit (kw && decide (w < 0))), (sePlate k, bit (kp && decide (p < 0))),
    (seHl k, if kw = true ∧ kp = true ∧ 0 ≤ w ∧ 0 ≤ p then 2 else 3)]

/-- LOST (R203): counted on entry; the selected copy is due at HEADROOM. -/
def Sys2Proof.lostSel (s : State) (n : Nat) : List (Fld × Nat) :=
  let k := selKey n
  [(seHl k, 4), (if s.on (seSelected k) then seSlackP k else seSlackW k, 1000 * s.f (seHeadroom k))] ++
    (if s.g (seHl k) = 4 then [] else occFlds s (LGP_HLOST_OCC_COUNT (n / 256)).addr)

/-- A realignment by `r` frames from the slacks `w` and `p` (R201). -/
def Sys2Proof.realignFlds (s : State) (n : Nat) (r : Int) (kw kp : Bool) (w p : Int) : List (Fld × Nat) :=
  let k := selKey n
  let d := r * Int.ofNat (s.selOf n).period
  [(seSlackW k, intBits (w + d)), (seSlackP k, intBits (p + d)), (seRcnt k, (r % 65536).toNat), (seRseq k, (s.g (seRseq k) + 1) % 65536),
    (seRframes k, min 0xFFFFFFFF (s.g (seRframes k) + r.natAbs))] ++ occFlds s (LGP_REALIGN_OCC_COUNT (n / 256)).addr ++
    judgedFlds k kw kp (w + d) (p + d)

/-- The frames that bring a slack to HEADROOM or more (R201). -/
def Sys2Proof.realignBy (s : State) (n : Nat) (sl : Int) : Int :=
  (1000 * s.f (seHeadroom (selKey n)) - sl + (max 1 (s.selOf n).period : Nat) - 1) / (max 1 (s.selOf n).period : Nat)

/-- The frame marked as an edge frame of the egress channels that carry the hitless output (R118, R201, R202). -/
def Sys2Proof.edgeWith (s : State) (n : Nat) : List Nat := (hlReaders s n).foldl (fun l c => if c ∈ l then l else c :: l) s.edge

/-- A hitless selector in force. -/
abbrev Sys2Proof.hitless (s : State) (n : Nat) : Prop := (s.selOf n).on = true ∧ s.f (seScheme (selKey n)) = 2

/-- Hitless selectors: acquisition (R197, R203). -/
def Obligations.HitlessAcquisitionCompletes : Prop :=
  ∀ (s : State) (n : Fin 4096) (diffs : List Int) (period : Nat),
    let k := selKey n
    let h : Int := 1000 * s.f (seHeadroom k)
    let x := { s.selOf n with period := if s.f (seTmode k) = 0 then 125000 else max 1 period, lastW := [], lastP := [] }
    let w := s.on (seWkey k)
    let p := s.on (sePkey k)
    (hitless s n → s.g (seHl k) = 1 →
      (∀ d, w = true → p = true → diffs.length = 8 → diffs.getLast? = some d → (∀ a ∈ diffs, ∀ b ∈ diffs, (a - b).natAbs ≤ 1000) →
        (h + d.natAbs ≤ 64000000 →
          let sw := h + max 0 d
          let sp := h + max 0 (-d)
          Completes (.hitlessAcquired n diffs period) s (fun t =>
            t = { s.setSel n { x with lastW := [sw], lastP := [sp] } with regs := t.regs } ∧
            Regs [(seDiff k, intBits d), (seSlackW k, intBits sw), (seSlackP k, intBits sp), (seWlate k, 0), (sePlate k, 0), (seHl k, 2)] s t)) ∧
        (64000000 < h + d.natAbs → Completes (.hitlessAcquired n diffs period) s (fun t => t = { s.setSel n x with regs := t.regs } ∧
          Regs ((seDiff k, intBits d) :: lostSel s n) s t))) ∧
      (w = true → p = false → Completes (.hitlessAcquired n diffs period) s (fun t =>
        t = { s.setSel n { x with lastW := [h] } with regs := t.regs } ∧ Regs [(seSlackW k, intBits h), (seWlate k, 0), (seHl k, 3)] s t)) ∧
      (w = false → p = true → Completes (.hitlessAcquired n diffs period) s (fun t =>
        t = { s.setSel n { x with lastP := [h] } with regs := t.regs } ∧ Regs [(seSlackP k, intBits h), (sePlate k, 0), (seHl k, 3)] s t)) ∧
      ((w = false ∧ p = false ∨ (w = true ∧ p = true ∧ diffs.length ≠ 8)) → Ignored (.hitlessAcquired n diffs period) s)) ∧
    (((s.selOf n).on = false ∨ s.f (seScheme k) ≠ 2 ∨ s.g (seHl k) ≠ 1) → Ignored (.hitlessAcquired n diffs period) s)

/-- The selector after its output frame (R195, R201): `x` is it before, `y` what the choice has made of it. A frame to be repeated goes out once
more; of an AIS fill frame nothing; in ODU mode the frame's octets, in FRAME mode its SFN. -/
def Sys2Proof.afterOutput (s : State) (n : Nat) (o : HlObs) (x y : SelSt) : SelSt :=
  let odu := s.f (seTmode (selKey n)) == 1
  if 0 < y.rep then { y with rep := y.rep - 1, src := x.src, sent := x.sent, out := if odu then y.out ++ y.last else y.out }
  else if y.src = 2 then y
  else if odu then
    let l := if y.src = 0 then o.frameW else o.frameP
    { y with last := l, out := y.out ++ l, ext := (if y.src = 0 then o.extW else o.extP) % 0x8000 }
  else { y with sent := s.sfn - 1 - (if y.src = 0 then o.slackW else o.slackP).toNat / 125000 }

/-- Hitless selectors: frames at their due times (R197 to R203, Table 9-6). Keys and goodness are those that the slots and the store bear out
(R192, R194, R198). -/
def Obligations.HitlessFramesComplete : Prop :=
  ∀ (s : State) (n : Fin 4096) (ob : HlObs), hitless s n → s.injecting = false →
    let o := hlSeen s n ob
    let k := selKey n
    let x := s.selOf n
    let hl := s.g (seHl k)
    let run (y : SelSt) (l : List (Fld × Nat)) (edge : List Nat) : Prop := Completes (.hitlessFrameDue n ob) s (fun t =>
      t = { s.setSel n (afterOutput s n o x y) with regs := t.regs, edge := edge } ∧ Regs l s t)
    let keys : List (Fld × Nat) := [(seWkey k, bit o.keyW), (sePkey k, bit o.keyP)] ++
      (if o.keyW && o.keyP then [(seDiff k, intBits (o.slackW - o.slackP))] else [])
    let slackFlds : List (Fld × Nat) := (if o.keyW then [(seSlackW k, intBits o.slackW)] else []) ++ (if o.keyP then [(seSlackP k, intBits o.slackP)] else [])
    let thr := s.stepThr n
    let y := { x with lastW := slackPush thr o.keyW o.slackW x.lastW, lastP := slackPush thr o.keyP o.slackP x.lastP }
    let inW := -64000000 ≤ o.slackW ∧ o.slackW ≤ 64000000
    let inP := -64000000 ≤ o.slackP ∧ o.slackP ≤ 64000000
    let gW := o.goodW && o.keyW && decide (0 ≤ o.slackW)
    let gP := o.goodP && o.keyP && decide (0 ≤ o.slackP)
    let selP := s.on (seSelected k)
    let late (key : Bool) (sl : Int) : Prop := key = true ∧ sl < 0
    let up (key : Bool) (sl : Int) : Prop := key = true ∧ 0 ≤ sl
    let near (p : Bool) : List Nat := if (if p then o.slackP else o.slackW).natAbs ≤ 2000 then edgeWith s n else s.edge
    (hl = 1 → run { x with src := 2 } keys s.edge) ∧
    ((hl = 2 ∨ hl = 3) → inW → inP →
      ((if selP then gP else gW) = true → run { y with src := bit selP } (keys ++ slackFlds ++ judgedFlds k o.keyW o.keyP o.slackW o.slackP) (near selP)) ∧
      ((if selP then gP else gW) = false → (if selP then gW else gP) = true →
        run { y with src := 1 - bit selP } (keys ++ slackFlds ++ judgedFlds k o.keyW o.keyP o.slackW o.slackP) (near !selP)) ∧
      (o.keyW = false → o.keyP = false → run { y with src := 2 } (keys ++ [(seHl k, 1)]) s.edge) ∧
      (0 < x.period → x.period ≤ 125000 → (late o.keyW o.slackW ∨ late o.keyP o.slackP) → ¬up o.keyW o.slackW → ¬up o.keyP o.slackP →
        let r := realignBy s n (if late o.keyW o.slackW then o.slackW else o.slackP)
        let d := r * Int.ofNat x.period
        let w := if o.keyW then o.slackW else s.int (seSlackW k)
        let p := if o.keyP then o.slackP else s.int (seSlackP k)
        ((o.keyW = true → w + d ≤ 64000000) → (o.keyP = true → p + d ≤ 64000000) →
          run { y with lastW := y.lastW.map (· + d), lastP := y.lastP.map (· + d), rep := if x.src = 2 then 0 else (x.rep + r).toNat }
            (keys ++ realignFlds s n r o.keyW o.keyP w p) (edgeWith s n)) ∧
        ((o.keyW = true ∧ 64000000 < w + d ∨ o.keyP = true ∧ 64000000 < p + d) → run { y with src := 2 }
          (keys ++ (slackFlds.filter (fun p => p.1 != (if selP then seSlackP k else seSlackW k))) ++ lostSel s n) s.edge))) ∧
    ((hl = 2 ∨ hl = 3) → (o.keyW = true ∧ 64000000 < o.slackW ∨ o.keyP = true ∧ 64000000 < o.slackP) →
      run { y with src := if (if selP then gP else gW) then bit selP else 2 }
      (keys ++ (slackFlds.filter (fun p => p.1 != (if selP then seSlackP k else seSlackW k))) ++ lostSel s n) s.edge) ∧
    (hl = 4 → (if selP then gP else gW) = true → run { y with src := bit selP } (keys ++ slackFlds) (near selP)) ∧
    ((hl = 4 ∧ (if selP then gP else gW) = false ∨ (hl = 2 ∨ hl = 3) ∧ inW ∧ inP ∧ gW = false ∧ gP = false) → (o.keyW = true → 0 ≤ o.slackW) → (o.keyP = true → 0 ≤ o.slackP) →
      (o.keyW = true ∨ o.keyP = true) → run { y with src := 2 } (keys ++ slackFlds) s.edge)

/-- Hitless selectors: delay steps and realignment (R199 to R203). -/
def Obligations.DelayStepsAndRealignmentsComplete : Prop :=
  ∀ (s : State) (n : Fin 4096),
    let k := selKey n
    let x := s.selOf n
    let hl := s.g (seHl k)
    let w := s.int (seSlackW k)
    let p := s.int (seSlackP k)
    let kw := s.on (seWkey k)
    let kp := s.on (sePkey k)
    (∀ (copyP : Bool) (sl : List Int) (last : Int), hitless s n → 2 ≤ hl → sl.getLast? = some last → sl.length = 8 →
      let ref := meanInt (if copyP then x.lastP else x.lastW)
      let thr : Int := s.stepThr n
      let m := meanInt sl
      let y := if copyP then { x with lastP := sl } else { x with lastW := sl }
      let w' := if copyP then w else last
      let p' := if copyP then last else p
      let kw' := kw || !copyP
      let kp' := kp || copyP
      let base : List (Fld × Nat) := occFlds s (LGP_DSTEP_OCC_COUNT (n / 256)).addr ++ [(LGP_DSTEP_LAST_SEL (n / 256), n.val % 256),
        (seStep k, intBits (ref - m)), (seStepCopy k, bit copyP), (if copyP then sePkey k else seWkey k, 1)] ++
        (if kw' && kp' then [(seDiff k, intBits (w' - p'))] else [])
      let slack : Fld × Nat := (if copyP then seSlackP k else seSlackW k, intBits last)
      let far := (∀ a ∈ sl, thr < a - ref) ∨ (∀ a ∈ sl, thr < ref - a)
      let all (l : List (Fld × Nat)) : Prop := Completes (.delayStep n copyP sl) s (fun t => t = { s.setSel n y with regs := t.regs } ∧ Regs l s t)
      (-2 ^ 31 ≤ last ∧ last < 2 ^ 31) →
        (far → hl = 4 → all (slack :: base)) ∧
        (far → hl ≠ 4 → 0 ≤ m → m ≤ 64000000 → all (slack :: base ++ judgedFlds k kw' kp' w' p')) ∧
        (far → hl ≠ 4 → m < 0 → (if copyP then kw = true ∧ 0 ≤ w else kp = true ∧ 0 ≤ p) → all (slack :: base ++ judgedFlds k kw' kp' w' p')) ∧
        (far → hl ≠ 4 → 64000000 < m → all (base ++ (if s.on (seSelected k) = copyP then [] else [slack]) ++ lostSel s n)) ∧
        (¬far → Ignored (.delayStep n copyP sl) s)) ∧
    (∀ (copyP : Bool) (sl : List Int), (x.on = false ∨ s.f (seScheme k) ≠ 2 ∨ hl < 2 ∨ sl.length ≠ 8) → Ignored (.delayStep n copyP sl) s) ∧
    (let lw := s.on (seWlate k) = true ∧ 80 ≤ x.freeW
      let lp := s.on (sePlate k) = true ∧ 80 ≤ x.freeP
      let r := if lw then realignBy s n w else realignBy s n p
      let d := r * Int.ofNat x.period
      let due := hitless s n ∧ s.f (sePol k) = 0 ∧ hl = 3 ∧ (lw ∨ lp);
      (due → s.mode ≠ 3 → s.mode ≠ 4 → -2 ^ 31 ≤ w + d → w + d ≤ 64000000 → -2 ^ 31 ≤ p + d → p + d ≤ 64000000 →
        Completes (.realignAuto n) s (fun t =>
          t = { s.setSel n { x with lastW := x.lastW.map (· + d), lastP := x.lastP.map (· + d) } with regs := t.regs, edge := edgeWith s n } ∧
          Regs (realignFlds s n r kw kp w p) s t)) ∧
      (due → s.mode = 3 → selAsked s n = false → plankTakes s →
        Completes (.realignAuto n) s (Asked n (8 + 65536 * (r % 65536).toNat) x [] s)) ∧
      ((¬due ∨ s.mode = 4) → Ignored (.realignAuto n) s))

/-- Octet stuffing (R254, Table 11-4): flags and escapes of the frame are escaped. -/
def Sys2Proof.octetFrame (l : List Byte) : List Byte := [0x7E] ++ l.flatMap (fun b => if b = 0x7E ∨ b = 0x7D then [0x7D, b ^^^ 0x20] else [b]) ++ [0x7E]

/-- The FCS that a configuration selects (R253): 16 bits, or 32 with FCS32. -/
def Sys2Proof.fcsBytes (cfg : Nat) (l : List Byte) : List Byte :=
  if cfg / 128 % 2 = 1 then wordBytes (crc32 polyFcs l) else (wordBytes ((l.foldl (crcByte 0x8408) 0xFFFF) ^^^ 0xFFFF)).take 2

/-- Engine `e`'s HDLC assist works (R253, R262), and but for context `x` no context is enabled; every configuration is in force. -/
abbrev Sys2Proof.hdlcOnly (s : State) (e x : Nat) : Prop :=
  s.ready (0x200000 + 0x1000 * e) = true ∧ s.g (FE_STAT_STATE e) < 2 ∧ s.injecting = false ∧
  ∀ y : Fin 4, (y.val ≠ x → s.hcCfg e y % 4 = 0) ∧ (y.val = x → s.hcCfg e y / 64 % 2 = 0) ∧ (s.hdlcOf e y) = { hdlcReset with cfg := s.hcCfg e y }

/-- A ring register's base and size in bytes (R253): both count in words. -/
def Sys2Proof.ringAt (w : Word) : Nat × Nat := (w.toNat % 2 ^ 15 / 4 * 4, w.toNat / 2 ^ 16 % 2 ^ 15 / 4 * 4)

/-- The four bytes of a data word, least significant first; a last word is filled with zeros. -/
def Sys2Proof.dataWord (l : List Byte) (i : Nat) : Word :=
  BitVec.ofNat 32 (fb l (4 * i) + 2 ^ 8 * fb l (4 * i + 1) + 2 ^ 16 * fb l (4 * i + 2) + 2 ^ 24 * fb l (4 * i + 3))

/-- The HDLC assist (R253 to R256, Tables 11-4 and 11-6): a frame in the receive stream that a context owns becomes a record in its ring; a
record in its transmit ring becomes a frame in its stream; both raise their events. A faulted engine's contexts have stopped, and so have those
of a page that is not ready (R262). -/
def Obligations.HdlcPassesComplete : Prop :=
  (∀ (s : State) (e : Fin 64) (x : Fin 4), hdlcOnly s e x →
    let cfg := s.hcCfg e x
    let ch := cfg / 4 % 16
    let half := 1 - tget (fun _ => 0) s.ohbLine (e / 4)
    let area := ((2 * (e.val / 4) + half) * 12 + ch) * 2048
    let y := s.engOf e
    let csr (i : Nat) : Nat := (tget (fun _ => 0) y.csr (i + 8 * x)).toNat
    (cfg % 4 = 0 → Ignored (.hdlcRxPass e) s ∧ ∀ caps stamps : List Nat, s.csr e (0x27 + 8 * x) = 0 →
      (∀ z : Fin 4, s.csr e (0x27 + 8 * z) = 0) → Ignored (.hdlcTxPass e caps stamps) s) ∧
    (∀ data : List Byte, cfg % 2 = 1 → ch < 12 →
      let frame := octetFrame (data ++ fcsBytes cfg data)
      let r := ringAt (tget (fun _ => 0) y.csr (0x21 + 8 * x))
      let rd := csr 0x23
      let wr := csr 0x24
      let words := [BitVec.ofNat 32 (data.length + 2 ^ 16), BitVec.ofNat 32 (1024 * (s.sfn % 64))] ++
        (List.range ((data.length + 3) / 4)).map (dataWord data)
      ohbWord0 s area / 256 % 1024 = frame.length → frame.length ≤ 768 → ohbWord0 s area / 2 ^ 18 % 2 = 0 →
      (List.range frame.length).map (fun i => tget (fun _ => 0) s.ohb (area + 0x100 + i)) = frame →
      2 ≤ data.length → data.length ≤ max 4 (cfg / 256 % 2 ^ 12) → r.1 + r.2 ≤ 0x8000 → wr % 4 = 0 → wr + 4 * words.length ≤ r.2 → rd < r.2 →
      (wr + r.2 - rd) % r.2 + 4 * words.length + 4 ≤ r.2 → Completes (.hdlcRxPass e) s (fun t =>
        let z := t.engOf e
        t = { s with regs := t.regs, eng := t.eng } ∧ OneAt (fun _ => engReset) s.eng t.eng e
          { y with mem := z.mem, ecc := z.ecc, csr := z.csr, hdlc := z.hdlc } ∧
        (∀ i, tget (fun _ => 0) z.mem i = if 16384 + (r.1 + wr) / 4 ≤ i ∧ i < 16384 + (r.1 + wr) / 4 + words.length then
          words.getD (i - (16384 + (r.1 + wr) / 4)) 0 else tget (fun _ => 0) y.mem i) ∧
        OneAt (fun _ => 0) y.csr z.csr (0x24 + 8 * x) (BitVec.ofNat 32 ((wr + 4 * words.length) % r.2)) ∧
        OneAt (fun _ => hdlcReset) y.hdlc z.hdlc x { hdlcReset with cfg := cfg, inFr := true, pos := frame.length - 1, sfn6 := s.sfn % 64 } ∧
        Regs [(bitOf (FE_EVPEND_EV e) 3, 1)] s t)) ∧
    (∀ (data : List Byte) (caps stamps : List Nat), cfg / 2 % 2 = 1 → ch < 12 → hcOwner s s.hcCfg (e / 4) ch = some (4 * e.val + x) →
      let frame := octetFrame (data ++ fcsBytes cfg data)
      let r := ringAt (tget (fun _ => 0) y.csr (0x22 + 8 * x))
      let rd := csr 0x26
      let at_ := 16384 + (r.1 + rd) / 4
      let next := rd + 8 + (data.length + 3) / 4 * 4
      frame.length ≤ min 768 (caps.getD ch 0) → data ≠ [] → data.length ≤ max 4 (cfg / 256 % 2 ^ 12) → r.1 + r.2 ≤ 0x8000 → rd % 4 = 0 → next < r.2 →
      csr 0x25 = next → tget (fun _ => 0) y.mem at_ = BitVec.ofNat 32 data.length →
      (∀ i, i < (data.length + 3) / 4 → tget (fun _ => 0) y.mem (at_ + 2 + i) = dataWord data i) → y.ecc = [] →
      (∀ z : Fin 4, z ≠ x → s.csr e (0x27 + 8 * z) = 0) →
      Completes (.hdlcTxPass e caps stamps) s (fun t =>
        let z := t.engOf e
        t = { s with regs := t.regs, eng := t.eng, ohb := t.ohb } ∧ OneAt (fun _ => engReset) s.eng t.eng e { y with csr := z.csr, hdlc := z.hdlc } ∧
        tget (fun _ => 0) z.csr (0x26 + 8 * x) = BitVec.ofNat 32 next ∧ (tget (fun _ => 0) z.csr (0x27 + 8 * x)).getLsbD 31 = false ∧
        (∀ i, i ≠ 0x26 + 8 * x.val → i ≠ 0x27 + 8 * x.val → tget (fun _ => 0) z.csr i = tget (fun _ => 0) y.csr i) ∧ z.hdlc = y.hdlc ∧
        ohbWord0 t (area + 0x400) = 256 * frame.length ∧
        (List.range frame.length).map (fun i => tget (fun _ => 0) t.ohb (area + 0x500 + i)) = frame ∧
        (∀ i, (i < area + 0x400 ∨ area + 0x404 ≤ i) → (i < area + 0x500 ∨ area + 0x500 + frame.length ≤ i) →
          tget (fun _ => 0) t.ohb i = tget (fun _ => 0) s.ohb i) ∧
        Regs [(bitOf (FE_EVPEND_EV e) 4, 1)] s t))) ∧
  (∀ (s : State) (e : Fin 64) (caps stamps : List Nat), (s.g (FE_STAT_STATE e) = 3 ∨ s.ready (0x200000 + 0x1000 * e.val) = false) →
    Ignored (.hdlcRxPass e) s ∧ Ignored (.hdlcTxPass e caps stamps) s)

/-- A system frame and the boundary at its end find little to do: the time base runs, without a slew; no action waits for dispatch; no page of
a channel or an engine is ready, no port carries slots, the lower-order stage makes up nothing; no selector, fixed path, error injection, parity hold, join, capture or calibration
step is under way; the unit serves alone. -/
abbrev Sys2Proof.quietFrame (s : State) : Prop :=
  s.running = true ∧ s.stepRem = 0 ∧ 0 < s.tb.inc ∧ s.plk.queue = [] ∧ s.rings = [] ∧ s.sels = [] ∧ s.forced = [] ∧ s.safe = [] ∧
  s.injecting = false ∧ (∀ i : Fin 64, s.on (INJ_IJ_STAT_ACTIVE i) = false) ∧
  s.tsi.ent = [] ∧ s.lox.ent = [] ∧ (∀ p ∈ s.sel, p.2.moved = false) ∧ s.tsi.bad = [] ∧ s.lox.bad = [] ∧ s.tsi.found = [] ∧ s.lox.found = [] ∧
  s.mode ≤ 2 ∧ s.twn.joinAt = none ∧ s.twn.captureAt = [] ∧ s.twinState ≠ 7 ∧ s.on TWN_STAT_ELIGIBLE = false ∧ s.on TWN_STAT_TVW_RUN = false ∧
  s.on PRF_P_CTL_RUN = false ∧ (∀ p : Fin 576, s.on (PG_PAR_HOLD (0x1000 * p)) = false) ∧ s.calTs = [] ∧ s.cal.swap = [] ∧ s.cal.dqTo = [] ∧ s.cal.fact = [] ∧
  s.cal.trim = [] ∧ s.cal.corr = [] ∧ s.ohbStale = [] ∧
  (∀ c : Fin 192, s.ready (chBase c) = false) ∧ (∀ e : Fin 64, s.ready (0x200000 + 0x1000 * e) = false) ∧
  (∀ p : Fin 8, s.portSlots p = false)

/-- What nothing else of the block shows of a frame: what its line slots, stores, carriers, sinks and egress carried. -/
def Sys2Proof.emptyFrame (cyc : Nat) : FrameObs := { cyc := cyc }

/-- The registers that every frame boundary sets (R11, R144, R146, R213), with the digests of the ended frame (R285). -/
def Sys2Proof.frameFldsOf (cyc : Nat) (s : State) : List (Fld × Nat) :=
  [(CLK_FRAME_CYC_CYC, cyc % 2 ^ 18), (CLK_FRAME_CYC_CCLK_RANGE, bit (decide (cyc < 156094 ∨ 156406 < cyc))), (TB_STEP_REM_REM, 0),
    (TB_STAT_STEP_ACT, 0), (IC_STAT_ENT_ERR 0x8000, 0), (IC_STAT_ENT_ERR 0xA000, 0), (IC_STAT_BPATH_MISS 0x8000, 0), (IC_BPATH_SLOT_SLOT 0x8000, 0)] ++
  if s.ready 0x1C000 = false then [] else (List.range 192).flatMap (fun c =>
    let d := (digestAll s [] s.sfn).getD c (0, 0)
    [(PNC_DIG_CTRL_VALID c, 1), (⟨(PNC_DIG_CTRL_VALID c).addr, 1, 15⟩, 0), (⟨(PNC_DIG_CTRL_VALID c).addr, 16, 16⟩, (s.g ⟨(PNC_DIG_CTRL_VALID c).addr, 16, 16⟩ + 1) % 2 ^ 16),
      (⟨(PNC_DIG_VAL_DIGEST c).addr, 0, 32⟩, d.1.toNat), (⟨(PNC_DIG_SFN_LO_SFN_LO c).addr, 0, 32⟩, s.sfn % 2 ^ 32),
      (⟨(PNC_DIG_SFN_HI_SFN_HI c).addr, 0, 32⟩, s.sfn / 2 ^ 32 % 2 ^ 32), (⟨(PNC_DIG_FLAGS_EDGE c).addr, 0, 32⟩, d.2 % 2 ^ 32)])

/-- The boundary of the frame after `s` has been reached: `x` is `s` with what else the boundary changes (R11, R105, R116, R210, R285). Stores of
channels that carry nothing for them are dropped. The
receive areas that turn to the line side are empty but for the latest APS/PCC bytes of OTN channels (Table 6-2). -/
def Sys2Proof.Reached (x s t : State) : Prop :=
  t = { x with regs := t.regs, tb := evenTb s ((s.sfn + 1) * 125000), seen := t.seen, ohb := t.ohb, ohbLine := t.ohbLine, slotIn := [], loOut := [], spe := (storesKeep s).spe, odu := (storesKeep s).odu, edge := [], xingAis := [], battLate := [], twn := { x.twn with digests := ((s.sfn, digestAll s [] s.sfn) :: s.twn.digests).take 8 } } ∧
  (s.nowNs % 125000 < 123000 → ∀ k, statusKey k = true → tget (fun _ => 0) t.seen k = tget (fun _ => 0) s.regs k) ∧
  (123000 ≤ s.nowNs % 125000 → t.seen = s.seen) ∧
  (∀ n, tget (fun _ => 0) t.ohbLine n = if n < 16 then 1 - tget (fun _ => 0) s.ohbLine n else tget (fun _ => 0) s.ohbLine n) ∧
  (∀ k, tget (fun _ => 0) t.ohb k =
    if k < 16 * 49152 ∧ k % 2048 < 0x400 ∧ k / 24576 % 2 = tget (fun _ => 0) t.ohbLine (k / 49152) then
      (if 0x80 ≤ k % 2048 ∧ k % 2048 < 0xA0 ∧ s.chFam (12 * (k / 49152) + k % 24576 / 2048) = .otn then
        tget (fun _ => 0) s.ohb (49152 * (k / 49152) + 24576 * (1 - k / 24576 % 2) + k % 24576) else 0)
    else tget (fun _ => 0) s.ohb k)

/-- It has been reached, and but for the boundary's own registers only those of `l` have changed. -/
def Sys2Proof.ReachedWith (l : List (Fld × Nat)) (cyc : Nat) (x s t : State) : Prop := Reached x s t ∧ Regs (frameFldsOf cyc s ++ l) s t

/-- FRAME_TICK (R11, R12, R36, R45, R60, R64, R289, R381): a boundary by itself; the snapshot; starts and stops of error injection; buffered
writes; transitions of the mode; an action. A stopped time base has no boundaries. GO and STOP (R289, R294): the request waits for the boundary
that R17 gives; one that runs already loses another. -/
def Obligations.FrameTicksAndInjectionComplete : Prop :=
  ((∀ (s : State) (o : FrameObs), s.running = false → Ignored (.frameTick o) s) ∧
  ∀ (s : State) (cyc : Nat), quietFrame s →
    let calm := s.pend = [] ∧ s.plk.sent = []
    let still := s.inj = [] ∧ s.pwr.modeReqs = [] ∧ s.snap = none
    let tick (l : List (Fld × Nat)) (x : State) : Prop := Completes (.frameTick (emptyFrame cyc)) s (ReachedWith l cyc x s)
    (calm → still → tick [] s) ∧
    (∀ k : Nat, calm → s.inj = [] → s.pwr.modeReqs = [] → s.snap = some (k + 1) → tick [] { s with snap := some k }) ∧
    (calm → s.inj = [] → s.pwr.modeReqs = [] → s.snap = some 0 → s.f MON_MON_CFG_CLR_ON_SNAP = 0 → Completes (.frameTick (emptyFrame cyc)) s (fun t =>
      Reached { s with snap := none } s t ∧
      (∀ p ∈ frameFldsOf cyc s ++ [(DEV_SNAP_SNAP_SEQ, (s.g DEV_SNAP_SNAP_SEQ + 1) % 2 ^ 16), (DEV_SNAP_SFN_LO_SFN_LO, (s.sfn + 1) % 2 ^ 32), (DEV_SNAP_SFN_HI_SFN_HI, (s.sfn + 1) / 2 ^ 32 % 2 ^ 29), (DEV_SNAP_TAKE, 0)], t.g p.1 = p.2) ∧
      (∀ k, heldLive k = true → t.rd (holdOf k) = s.rd k ∧
        (isHistory k = true → s.rd k ≠ 0 → t.rd k = BitVec.ofNat 32 (historyOf s k)) ∧
        (isHistory k = false → t.rd k = if isPm k = true ∧ s.f (LGM_SNAP_CFG_CLR_ON_SNAP (heldLg k)) = 1 then 0 else s.rd k)) ∧
      (∀ k i, i < 32 → heldLive k = false → isHolding k = false →
        covers ((frameFldsOf cyc s).map Prod.fst ++ [DEV_SNAP_SNAP_SEQ, DEV_SNAP_SFN_LO_SFN_LO, DEV_SNAP_SFN_HI_SFN_HI, DEV_SNAP_TAKE]) k i = false →
        (t.rd k).getLsbD i = (s.rd k).getLsbD i))) ∧
    (∀ (slot arg cmd w : Nat), slot < 64 → calm → s.pwr.modeReqs = [] → s.snap = none →
      (s.inj = [⟨slot, arg, w + 1, cmd⟩] → tick [] { s with inj := [⟨slot, arg, w, cmd⟩] }) ∧
      (s.inj = [⟨slot, arg, 0, cmd⟩] → cmd < 2 →
        let fin (failed : Bool) (code : Nat) : List (Fld × Nat) :=
          resFlds s INJ_IJ_CTRL_VALID.addr failed ++ [(INJ_IJ_CODE_CODE, code), (bitOf INJ_IJ_CMD_GO cmd, 0)]
        let stat (on mode n : Nat) : List (Fld × Nat) :=
          [(INJ_IJ_STAT_ACTIVE slot, on), (INJ_IJ_STAT_MODE slot, mode), (INJ_IJ_STAT_SHADOWED slot, 0), (INJ_IJ_STAT_PAUSED slot, 0), (INJ_IJ_STAT_REMAIN slot, n)]
        let p := s.g (INJ_IJ_D0_POINT slot)
        (arg % 4 = 0 → tick (fin false 0 ++ stat 0 0 0) { s with inj := [] }) ∧
        (arg % 4 ≠ 0 → (p = 0 ∨ 0x1B < p) → tick (fin true 1) { s with inj := [] }) ∧
        (arg % 4 ≠ 0 → injCheck s slot = 0 → p ∉ [0x14, 0x16, 0x1A] → s.g (INJ_IJ_STAT_SHADOWED slot) = 0 → tick (fin false 0 ++ stat 1 (arg % 4) (if arg % 4 = 2 then max 1 (arg / 2 ^ 16 % 2 ^ 16) else 0) ++
          [(INJ_ACT_MAP0_MAP, if slot < 32 then 2 ^ slot else 0), (INJ_ACT_MAP1_MAP, if slot < 32 then 0 else 2 ^ (slot - 32))]) { s with inj := [] }))) ∧
    (∀ p : PendW, s.pend = [p] → s.plk.sent = [] → p.line = none → still → 0x20 ≤ p.addr % 0x1000 →
      (0 < p.wait → tick [] { s with pend := [{ p with wait := p.wait - 1 }] }) ∧
      (p.wait = 0 → p.addr < 0x240000 → pageKind p.addr ∈ [some .pwr, some .tpt, some .clk] → tick [] { s with pend := [] })) ∧
    (∀ cmd w : Nat, calm → s.inj = [] → s.snap = none →
      (s.pwr.modeReqs = [⟨cmd, w + 1⟩] → tick [] { s with pwr := { s.pwr with modeReqs := [⟨cmd, w⟩] } }) ∧
      (s.pwr.modeReqs = [⟨1, 0⟩] → s.mode = 1 → soloOk s = true →
        tick (devRes s 1 0 ++ [(DEV_MODE_PREV, 1), (DEV_MODE_MODE, 2), (TWN_STAT_CLAIM_OUT, 0), (TWN_STAT_STATE, 0)]) { s with pwr := { s.pwr with modeReqs := [] } })) ∧
    (∀ (a : Action) (port arg : Nat), s.pend = [] → still → s.plk.sent = [a] → a.ns = (s.sfn + 1) * 125000 → a.items = [⟨8, port, arg⟩] → s.busRuns = true → s.ready 0x3000 = true → tbPort port = true → arg < 2 ^ 32 →
      a.mirroredIn = false → a.groupIn = false → a.late = false → s.plk.groups = [] → Completes (.frameTick (emptyFrame cyc)) s (fun t =>
        ReachedWith [(TB_PT_ASYM_A port, arg), (JNL_HEAD_HEAD, (s.g JNL_HEAD_HEAD + 1) % 2 ^ 32), (PLK_STAT_PEND_USED, 0)] cyc
          { s with plk := { s.plk with sent := [], ring := t.plk.ring } } s t ∧
        OneAt (fun _ => blankRec) s.plk.ring t.plk.ring (s.g JNL_HEAD_HEAD % 1024) (recOf a 0 0 1 0)))) ∧
  (∀ (s : State) (m : Fin 8) (late : Bool), s.usable 0x20000 = true →
    let asked (cmd arg : Nat) (t : State) : Prop :=
      AnsweredBy m true [] s t ∧
      t = { s with regs := t.regs, resp := t.resp, inj := s.inj ++ [⟨s.g (perMaster INJ_IJ_SEL_SLOT m), arg, if late then 1 else 0, cmd⟩] } ∧
      Regs [(BMX_PARK_T0, m.val), (resBusy INJ_IJ_CTRL_VALID.addr, 1), (bitOf INJ_IJ_CMD_GO cmd, 1)] s t
    let lost := SetsBy m (occFlds s 0x203E0 ++ [(PG_WADDR_OFFSET 0x20000, INJ_IJ_CMD_GO.addr % 0x1000), (PG_WADDR_MASTER 0x20000, m)]) s
    (s.on INJ_IJ_CMD_GO = false → Completes (.go m late) s (asked 0 (s.g INJ_IJ_ARG_ARG))) ∧
    (s.on INJ_IJ_CMD_STOP = false → Completes (.stop m late) s (asked 1 0)) ∧
    (s.on INJ_IJ_CMD_GO = true → Completes (.go m late) s lost) ∧
    (s.on INJ_IJ_CMD_STOP = true → Completes (.stop m late) s lost))

/-- `t` is `x` but for the listed fields, which differ from `s` as said. -/
def Sys2Proof.SetsOver (l : List (Fld × Nat)) (s x t : State) : Prop := t = { x with regs := t.regs } ∧ Regs l s t

/-- The registers of a change of mode and twin state (R296, R381, Table 14-2); CONV_TIMEOUT clears on leaving CONVERGING (R323). -/
def Sys2Proof.modeFlds (s : State) (mode st : Nat) : List (Fld × Nat) :=
  [(DEV_MODE_PREV, s.mode), (DEV_MODE_MODE, mode), (TWN_STAT_CLAIM_OUT, bit (mode == 3)), (TWN_STAT_STATE, st)] ++
    (if s.twinState = 3 ∧ (mode = 3 ∨ mode = 4) then [(TWN_STAT_CONV_TIMEOUT, 0)] else [])

/-- The registers of a change of the twin state alone. -/
def Sys2Proof.stateFlds (s : State) (st : Nat) : List (Fld × Nat) :=
  (TWN_STAT_STATE, st) :: (if s.twinState = 3 then [(TWN_STAT_CONV_TIMEOUT, 0)] else [])

/-- The result of a TWN command (R324, Table 14-7). -/
def Sys2Proof.twnRes (s : State) (cmd code : Nat) : List (Fld × Nat) :=
  resFlds s TWN_CMD_CTRL_VALID.addr (decide (code ≠ 0 ∧ code ≠ 7)) ++ [(TWN_CMD_CODE_CODE, code), (TWN_CMD_CODE_CMD, cmd), (bitOf TWN_CMD_JOIN cmd, 0)]

/-- CMPL0 to CMPL3 show the flags `m` (Table 14-7); with every region COMPLETE on this unit, COPY_INCOMPLETE clears. -/
def Sys2Proof.cmplFlds (own m : Nat) : List (Fld × Nat) :=
  (List.range 4).map (fun i => (TWN_CMPL_MAP i, m / 2 ^ (32 * i) % (if i = 3 then 2 ^ 4 else 2 ^ 32))) ++
    (if own = 2 ^ 100 - 1 then [(TWN_STAT_COPY_INCOMPLETE, 0)] else [])

/-- Between `s` and `t` message `x` has left port `p`, where it waits for its acknowledgement (R342). -/
def Sys2Proof.Leaves (p : Nat) (x : Msg) (s t : State) : Prop :=
  t.wire = .msg p x :: s.wire ∧ OneAt (fun _ => gpReset) s.gp t.gp p (portSent (s.gpOf p) x)

/-- The commands of TWN (R299, R303, R304, R316, R324): JOIN, SERVE, LEAVE, FORCE_TAKEOVER; one that runs already. -/
def Obligations.TwinCommandsComplete : Prop :=
  ∀ (s : State) (m : Fin 8), s.usable 0xD000 = true →
    let ends (c : Fin 8 → Instr) (cmd code : Nat) : Prop := Completes (c m) s (SetsBy m (twnRes s cmd code) s)
    let joins := s.mode = 2 ∧ s.on TWN_STAT_CLAIM_OUT = false ∨ s.mode = 4 ∧ (s.twinState = 5 ∨ s.twinState = 3)
    (s.on TWN_CMD_JOIN = false →
      ((s.twinOn = false ∨ ¬joins) → ends .join 0 1) ∧
      (s.twinOn = true → joins → (s.mirrorUp = false → ends .join 0 2) ∧
        (s.mirrorUp = true → s.on TWN_STAT_TB_SKEW = true → ends .join 0 4) ∧
        (s.mirrorUp = true → s.on TWN_STAT_TB_SKEW = false → s.ready 0xB000 = false → ends .join 0 6) ∧
        (s.mirrorUp = true → s.on TWN_STAT_TB_SKEW = false → s.ready 0xB000 = true → canSend s s.mirrorPort → Completes (.join m) s (fun t =>
          AnsweredBy m true [] s t ∧ Leaves s.mirrorPort (.join (s.g TWN_CFG_PAIR_ID) (unitVersion s)) s t ∧
          SetsOver ((BMX_PARK_T0, m.val) :: modeFlds s 4 1 ++ [(TWN_CMD_JOIN, 1), (resBusy TWN_CMD_CTRL_VALID.addr, 1), (TWN_STAT_ELIGIBLE, 0)]) s
            { s with resp := t.resp, gp := t.gp, wire := t.wire } t)))) ∧
    (s.on TWN_CMD_SERVE = false →
      ((s.mode ≠ 2 ∨ s.twinOn = false) → ends .serve 1 1) ∧
      (s.mode = 2 → s.twinOn = true → (s.claimIn = true → ends .serve 1 5) ∧
        (s.claimIn = false → Completes (.serve m) s (SetsBy m (twnRes s 1 0 ++ modeFlds s 3 6) s)))) ∧
    (s.on TWN_CMD_LEAVE = false →
      (s.mode ≠ 4 → ends .leave 2 1) ∧
      (s.mode = 4 → Completes (.leave m) s (fun t => AnsweredBy m true [] s t ∧
        SetsOver ((BMX_PARK_T0, m.val) :: twnRes s 2 0 ++ modeFlds s 5 0) s
          { s with resp := t.resp, twn := { s.twn with joinAt := none, lost := false, takeover := none } } t))) ∧
    (s.on TWN_CMD_FORCE_TAKEOVER = false →
      ((s.mode ≠ 4 ∨ s.twinOn = false) → ends .forceTakeover 3 1) ∧
      (s.mode = 4 → s.twinOn = true → (s.claimIn = true → ends .forceTakeover 3 5) ∧
        (s.claimIn = false → Completes (.forceTakeover m) s (fun t => AnsweredBy m true [] s t ∧
          SetsOver ((BMX_PARK_T0, m.val) :: twnRes s 3 (if s.twn.complete = 2 ^ 100 - 1 then 0 else 7) ++
            (if s.twinState = 5 ∧ s.on TWN_STAT_ELIGIBLE = false then [(TWN_STAT_MISSED, 1)] else [])) s
            { s with resp := t.resp, twn := { s.twn with takeover := some 2 } } t)))) ∧
    (let lost (c : Fin 8 → Instr) : Prop := Completes (c m) s
        (SetsBy m (occFlds s 0xD3E0 ++ [(PG_WADDR_OFFSET 0xD000, TWN_CMD_JOIN.addr % 0x1000), (PG_WADDR_MASTER 0xD000, m)]) s);
      (s.on TWN_CMD_JOIN = true → lost .join) ∧ (s.on TWN_CMD_SERVE = true → lost .serve) ∧
      (s.on TWN_CMD_LEAVE = true → lost .leave) ∧ (s.on TWN_CMD_FORCE_TAKEOVER = true → lost .forceTakeover))

/-- An unsequenced message arrives intact (R342), while nothing of the port's own waits for an acknowledgement. -/
abbrev Sys2Proof.heard (s : State) (e : Env) : Prop :=
  3 ≤ s.g (GP_STAT_STATE e.port) ∧ e.crcOk = true ∧ (s.gpOf e.port).un0 = [] ∧ (s.gpOf e.port).wait0 = []

/-- A sequenced message of the mirror link is accepted on a unit of a pair (R295, R342). -/
abbrev Sys2Proof.mirrors (s : State) (e : Env) : Prop := accepts s e ∧ s.twinOn = true ∧ e.port.val = s.mirrorPort

/-- What the reply `x` to such a message leaves at the port. -/
def Sys2Proof.Replies (e : Env) (x : Msg) (s t : State) : Prop :=
  t.wire = .msg e.port x :: s.wire ∧
  OneAt (fun _ => gpReset) s.gp t.gp e.port (portSent { s.gpOf e.port with rx0 := ((s.gpOf e.port).rx0 + 1) % 2 ^ 32 } x)

/-- The first system-frame boundary at least 256 µs after `ns` (R304, R315). -/
def Sys2Proof.boundaryAfter (ns : Nat) : Nat := (ns + 256000 + 124999) / 125000

/-- What an ISOLATED standby does on its link's loss (R315, R318, Table 14-2): `own` are the regions still COMPLETE. -/
def Sys2Proof.isoFlds (s : State) (own : Nat) : List (Fld × Nat) :=
  stateFlds s 5 ++ cmplFlds own own ++
  (match s.twn.beat with
    | some b => if b.actSeq = s.twn.actSeq then [(TWN_STAT_ELIGIBLE, 1), (TWN_ELIG_SFN_LO_SFN, boundaryAfter b.ns % 2 ^ 32), (TWN_ELIG_SFN_HI_SFN, boundaryAfter b.ns / 2 ^ 32 % 2 ^ 29)]
      else [(TWN_STAT_ELIGIBLE, 0)]
    | none => [(TWN_STAT_ELIGIBLE, 0)])

/-- The regions of the messages that an ISOLATED standby still holds. -/
def Sys2Proof.heldMask (s : State) : Nat := (s.twn.held.map (fun p => 2 ^ p.1)).foldl (· ||| ·) 0

/-- Heartbeats and the mirror link (R300, R301, R313, R315, R318, R322, Table 14-1, Table 14-2). -/
def Obligations.HeartbeatsAndMirrorLossComplete : Prop :=
  ∀ s : State,
    (s.twinOn = true → canSend s s.mirrorPort → Completes .heartbeatSend s (fun t => t = { s with wire := .msg s.mirrorPort (.heartbeat
      { sfn := s.sfn, ns := s.nowNs, mode := s.mode, twin := s.twinState, claim := s.on TWN_STAT_CLAIM_OUT, prefer := s.on TWN_STAT_PREFER, pairId := s.g TWN_CFG_PAIR_ID, actSeq := s.twn.actSeq, fwdSeq := if s.mode = 4 then s.twn.fwdDone else s.twn.fwdSeq, unmirrored := s.twn.unmirrored, complete := s.twn.complete }) :: s.wire })) ∧
    (s.twinOn = false → Ignored .heartbeatSend s) ∧
    (∀ (e : Env) (b : Beat), heard s e → b.twin < 8 →
      let back := s.mirrorUp = false
      let seen (l : List (Fld × Nat)) (flight : Option (Nat × Nat)) : Prop := Completes (.heartbeat e b) s (fun t =>
        (∀ p, t.gpOf p = s.gpOf p) ∧
        SetsOver ([(TWN_STAT_LINK_UP, 1), (TWN_STAT_PEER_STATE, b.twin)] ++ (if b.claim = s.claimIn then [(TWN_STAT_CLAIM_FAULT, 0)] else
          if s.twn.lost = true ∧ b.claim = true then [(TWN_STAT_CLAIM_FAULT, 1)] else []) ++ l ++
          cmplFlds s.twn.complete (if s.mode = 3 then b.complete else s.twn.complete)) s
          { s with gp := t.gp, twn := { s.twn with beat := some b, unmirrored := (if b.twin = 5 then s.twn.unmirrored else if s.mirrorUp = false then 0 else s.twn.unmirrored), lost := s.twn.lost && !b.claim, flight := flight } } t)
      let pair := s.twinOn = true ∧ e.port.val = s.mirrorPort
      (¬pair → Completes (.heartbeat e b) s (fun t => t = { s with gp := t.gp } ∧ ∀ p, t.gpOf p = s.gpOf p)) ∧
      (pair → s.mode ≠ 3 → ¬(s.mode = 4 ∧ s.twinState = 5 ∧ back) → seen [] s.twn.flight) ∧
      (pair → s.mode = 3 → s.twinState = 7 → b.mode ≠ 4 → seen [(TWN_STAT_STATE, 6)] none) ∧
      (pair → s.mode = 3 → s.twinState = 7 → b.mode = 4 → seen [] s.twn.flight) ∧
      (pair → s.mode = 3 → s.twinState = 6 → back → b.mode = 4 → 2 ≤ b.twin → b.twin ≤ 4 → seen [(TWN_STAT_STATE, 7)] s.twn.flight) ∧
      (pair → s.mode = 3 → s.twinState = 6 → ¬(back ∧ b.mode = 4 ∧ 2 ≤ b.twin ∧ b.twin ≤ 4) → seen [] s.twn.flight) ∧
      (pair → s.mode = 4 → s.twinState = 5 → back → b.unmirrored = 0 → b.fwdSeq = s.twn.fwdDone → (s.twn.prev = 2 ∨ s.twn.prev = 4) →
        seen [(TWN_STAT_STATE, s.twn.prev), (TWN_MATCH_RUN_RUN, 0), (TWN_STAT_ELIGIBLE, 0)] s.twn.flight) ∧
      (pair → s.mode = 4 → s.twinState = 5 → back → (b.unmirrored ≠ 0 ∨ b.fwdSeq ≠ s.twn.fwdDone) → s.on TWN_CFG_AUTO_REJOIN = false → seen [] s.twn.flight)) ∧
    (∀ (e : Env) (b : Beat), 3 ≤ s.g (GP_STAT_STATE e.port) → e.crcOk = false →
      Completes (.heartbeat e b) s (Sets (occFlds s (0x10064 + 0x1000 * e.port)) s)) ∧
    ((s.twinOn = false ∨ s.mirrorUp = false) → Ignored .mirrorLinkLoss s) ∧
    (s.twinOn = true → s.mirrorUp = true →
      let down := occFlds s 0xD0A4 ++ [(TWN_STAT_LINK_UP, 0)]
      let loses (l : List (Fld × Nat)) (x : Twn) : Prop := Completes .mirrorLinkLoss s (SetsOver (down ++ l) s { s with twn := x })
      (s.mode = 4 → s.twinState = 1 → loses (twnRes s 0 2 ++ modeFlds s 2 0) { s.twn with joinAt := none }) ∧
      (s.mode = 3 → s.twinState ≠ 3 → loses [(TWN_STAT_STATE, 6)] { s.twn with flight := none, joinAt := none }) ∧
      (s.mode = 4 → 2 ≤ s.twinState → s.twinState ≤ 4 → s.claimIn = true →
        let own := s.twn.complete - (s.twn.complete &&& heldMask s)
        loses (isoFlds s own) { s.twn with complete := own, prev := if own = 2 ^ 100 - 1 then s.twinState else 2 }) ∧
      (s.mode = 4 → 2 ≤ s.twinState → (4 < s.twinState ∨ s.claimIn = false) → loses [] s.twn) ∧
      (s.mode ≠ 3 → s.mode ≠ 4 → loses [] s.twn))

/-- Joining, state copy and digests (R304 to R306, R308, R310, R311, R323). -/
def Obligations.JoinCopyAndDigestMessagesComplete : Prop :=
  ∀ (s : State) (e : Env),
    (∀ (pairId version : Nat), mirrors s e → canSend s e.port →
      let fits := s.mode = 3 ∧ s.on TWN_CFG_ACCEPT = true ∧ pairId = s.g TWN_CFG_PAIR_ID ∧ version = unitVersion s ∧
        s.twn.beat.any (fun b => b.prefer != s.on TWN_STAT_PREFER) = true
      let c := boundaryAfter s.nowNs
      (¬fits → Completes (.joinRx e pairId version) s (fun t => Replies e (.refuse 3) s t ∧ t = { s with gp := t.gp, wire := t.wire })) ∧
      (fits → s.on TWN_STAT_TB_SKEW = true → Completes (.joinRx e pairId version) s (fun t => Replies e (.refuse 4) s t ∧
        t = { s with gp := t.gp, wire := t.wire })) ∧
      (fits → s.on TWN_STAT_TB_SKEW = false → Completes (.joinRx e pairId version) s (fun t => Replies e (.accept c) s t ∧
        SetsOver [(TWN_COPY_SFN_LO_SFN, c % 2 ^ 32), (TWN_COPY_SFN_HI_SFN, c / 2 ^ 32 % 2 ^ 29)] s
          { s with gp := t.gp, wire := t.wire, twn := { s.twn with joinAt := some c, fwdSeq := 0, unmirrored := 0, flight := none } } t))) ∧
    (∀ c : Nat, mirrors s e →
      (s.mode = 4 → s.twinState = 1 → Completes (.accept e c) s (fun t => portsAfter e s t ∧
        SetsOver [(TWN_COPY_SFN_LO_SFN, c % 2 ^ 32), (TWN_COPY_SFN_HI_SFN, c / 2 ^ 32 % 2 ^ 29), (TWN_STAT_MISSED, 0)] s
          { s with gp := t.gp, twn := { s.twn with joinAt := some c, fwdDone := 0 } } t) ∧
        (0 < c → c < 256 → Completes (.refuse e c) s (fun t => portsAfter e s t ∧
          SetsOver (resFlds s TWN_CMD_CTRL_VALID.addr (decide (c ≠ 7)) ++ [(TWN_CMD_CODE_CODE, c), (TWN_CMD_CODE_CMD, 0), (TWN_CMD_JOIN, 0)] ++ modeFlds s 2 0) s
            { s with gp := t.gp, twn := { s.twn with joinAt := none } } t))) ∧
      ((s.mode ≠ 4 ∨ s.twinState ≠ 1) → Completes (.accept e c) s (fun t => portsAfter e s t ∧ t = { s with gp := t.gp }) ∧
        Completes (.refuse e c) s (fun t => portsAfter e s t ∧ t = { s with gp := t.gp }))) ∧
    (s.mode = 4 → s.twinState = 1 → s.twn.joinAt = none → Completes .joinTimeout s (fun t =>
      let c := s.drawn.toNat % 256
      SetsOver (resFlds s TWN_CMD_CTRL_VALID.addr (decide (c ≠ 0 ∧ c ≠ 7)) ++ [(TWN_CMD_CODE_CODE, c), (TWN_CMD_CODE_CMD, 0), (TWN_CMD_JOIN, 0)] ++ modeFlds s 2 0) s
        { s with free := s.free + 1 } t)) ∧
    ((s.mode ≠ 4 ∨ s.twinState ≠ 1 ∨ s.twn.joinAt ≠ none) → Ignored .joinTimeout s) ∧
    (∀ (region gen sfn offset : Nat) (data : List (Nat × Nat)) (last : Bool), 3 ≤ s.g (GP_STAT_STATE e.port) → e.crcOk = true →
      s.twinOn = true → e.port.val = s.mirrorPort → (s.gpOf e.port).un1 = [] → (s.gpOf e.port).wait1 = [] → e.seq = (s.gpOf e.port).rx1 →
      let g := { s.gpOf e.port with rx1 := ((s.gpOf e.port).rx1 + 1) % 2 ^ 32 }
      let old := tget (fun _ => (0, [])) s.twn.staged region
      let cells := if old.1 ≠ gen ∨ offset = 0 then data else old.2 ++ data
      (s.mode ≠ 4 → Completes (.copy e region gen sfn offset data last) s (fun t => t = { s with gp := t.gp } ∧
        OneAt (fun _ => gpReset) s.gp t.gp e.port g)) ∧
      (s.mode = 4 → region < 100 → s.regionDone region = false → data = [] → last = false →
        Completes (.copy e region gen sfn offset data last) s (fun t => OneAt (fun _ => gpReset) s.gp t.gp e.port g ∧
          t = { s with gp := t.gp, twn := { s.twn with captureAt := t.twn.captureAt } } ∧ OneAt (fun _ => 0) s.twn.captureAt t.twn.captureAt region sfn)) ∧
      (s.mode = 4 → region < 100 → s.regionDone region = false → data ≠ [] → last = false →
        Completes (.copy e region gen sfn offset data last) s (fun t => OneAt (fun _ => gpReset) s.gp t.gp e.port g ∧
          t = { s with gp := t.gp, twn := { s.twn with captureAt := t.twn.captureAt, staged := t.twn.staged } } ∧
          OneAt (fun _ => 0) s.twn.captureAt t.twn.captureAt region sfn ∧ OneAt (fun _ => (0, [])) s.twn.staged t.twn.staged region (gen, cells))) ∧
      (s.mode = 4 → region < 100 → s.regionDone region = false → canSend s e.port → last = true →
        Completes (.copy e region gen sfn offset data last) s (fun t =>
          t.wire = .msg e.port (.copyAck region gen) :: s.wire ∧ OneAt (fun _ => gpReset) s.gp t.gp e.port (portSent g (.copyAck region gen)) ∧
          t = { s with gp := t.gp, wire := t.wire, twn := { s.twn with captureAt := t.twn.captureAt, staged := t.twn.staged, stagedMap := s.twn.stagedMap ||| 2 ^ region } } ∧
          OneAt (fun _ => 0) s.twn.captureAt t.twn.captureAt region sfn ∧ OneAt (fun _ => (0, [])) s.twn.staged t.twn.staged region (gen, cells)))) ∧
    (∀ (region gen at_ : Nat) (b : Beat), mirrors s e → s.twn.flight = some (region, at_) → s.twn.beat = some b → s.mode = 3 →
      (gen = s.genOf region → Completes (.copyAck e region gen) s (fun t => portsAfter e s t ∧
        let m := b.complete ||| 2 ^ region
        SetsOver (cmplFlds s.twn.complete m) s { s with gp := t.gp, twn := { s.twn with flight := none, beat := some { b with complete := m } } } t)) ∧
      (gen ≠ s.genOf region → Completes (.copyAck e region gen) s (fun t => portsAfter e s t ∧ t = { s with gp := t.gp }))) ∧
    (∀ (n : Nat) (own peer : Digests), mirrors s e → s.nowNs ≤ (n + 5) * 125000 → s.twn.digests.find? (fun p => p.1 == n) = some (n, own) →
      let left := s.twn.digests.filter (fun q => q.1 != n)
      let l := ((own.zip peer).zipIdx).filter (fun p => p.1.1.2 &&& 0xD == 0 && p.1.2.2 &&& 0xD == 0)
      let bad := l.filter (fun p => p.1.1.1 != p.1.2.1)
      let run := min 65535 (s.g TWN_MATCH_RUN_RUN + 1)
      let kept (ch : Nat) : List Bool := match l.find? (fun p => p.2 == ch) with
        | some p => ((p.1.1.1 != p.1.2.1) :: tget (fun _ => []) s.twn.hist ch).take 15
        | none => tget (fun _ => []) s.twn.hist ch
      let step := s.mode = 4 ∧ s.twinState = 4 ∨ s.mode = 3 ∧ s.g TWN_STAT_PEER_STATE = 4
      let div := (l.map (fun p => p.2)).filter (fun ch => decide (min (max 1 (s.g TWN_DIV_CFG_DIV_M)) (max 1 (s.g TWN_DIV_CFG_DIV_N)) ≤
        (((kept ch).take (max 1 (s.g TWN_DIV_CFG_DIV_M))).filter (fun b => b)).length))
      (¬step ∨ div = [] → (bad = [] → l ≠ [] → ¬(s.mode = 4 ∧ s.twinState = 3 ∧ 8000 ≤ run ∧ s.twn.complete = 2 ^ 100 - 1) →
          Completes (.digest e true n peer) s (fun t => portsAfter e s t ∧ (∀ ch, tget (fun _ => []) t.twn.hist ch = kept ch) ∧
            SetsOver [(TWN_MATCH_RUN_RUN, run)] s { s with gp := t.gp, twn := { s.twn with digests := left, hist := t.twn.hist } } t)) ∧
        (bad = [] → l ≠ [] → s.mode = 4 → s.twinState = 3 → 8000 ≤ run → s.twn.complete = 2 ^ 100 - 1 →
          Completes (.digest e true n peer) s (fun t => portsAfter e s t ∧ (∀ ch, tget (fun _ => []) t.twn.hist ch = kept ch) ∧
            SetsOver ([(TWN_MATCH_RUN_RUN, run), (TWN_STAT_DIVERGED, 0)] ++ stateFlds s 4) s { s with gp := t.gp, twn := { s.twn with digests := left, hist := t.twn.hist } } t)) ∧
        (bad ≠ [] → Completes (.digest e true n peer) s (fun t => portsAfter e s t ∧ (∀ ch, tget (fun _ => []) t.twn.hist ch = kept ch) ∧
          SetsOver ((TWN_MATCH_RUN_RUN, 0) :: perfFlds s 0xD080 bad.length) s { s with gp := t.gp, twn := { s.twn with digests := left, hist := t.twn.hist } } t))) ∧
      (∀ ch : Nat, step → div = [ch] → ch < 192 → bad ≠ [] → Completes (.digest e true n peer) s (fun t => portsAfter e s t ∧
        SetsOver ((TWN_MATCH_RUN_RUN, 0) :: perfFlds s 0xD080 bad.length ++ occFlds s 0xD0A0 ++ [(TWN_DIV_LAST_CH, ch),
          (TWN_DIV_SFN_LO_SFN, n % 2 ^ 32), (TWN_DIV_SFN_HI_SFN, n / 2 ^ 32 % 2 ^ 29)] ++
          (if s.mode = 4 then [(TWN_STAT_STATE, 3), (TWN_STAT_DIVERGED, 1)] else [])) s
          { s with gp := t.gp, twn := { s.twn with digests := left, hist := [], convAt := if s.mode = 4 then s.nowNs else s.twn.convAt } } t))) ∧
    (∀ (n : Nat) (first : Bool) (peer : Digests), mirrors s e →
      let here := (s.twn.digests.find? (fun p => p.1 == n)).isSome = true
      let gone (t : State) : State := { s with gp := t.gp, twn := { s.twn with digests := s.twn.digests.filter (fun q => q.1 != n) } }
      (here → (first = false ∨ (n + 5) * 125000 < s.nowNs) → Completes (.digest e first n peer) s (fun t => portsAfter e s t ∧
        SetsOver (perfFlds s 0xD088 1) s (gone t) t)) ∧
      (¬here → first = true → (n + 5) * 125000 < s.nowNs → Completes (.digest e first n peer) s (fun t => portsAfter e s t ∧
        SetsOver (perfFlds s 0xD088 1) s { s with gp := t.gp } t)) ∧
      (¬here → (first = false ∨ s.nowNs ≤ (n + 5) * 125000) → Completes (.digest e first n peer) s (fun t => portsAfter e s t ∧ t = { s with gp := t.gp })))

/-- The commands that JOIN, SERVE, LEAVE and FORCE_TAKEOVER complete with (R299, R303, R304, R324); claims, takeover and the verification
window (R296, R309, R313 to R317, R320, R322, Table 14-5). -/
def Obligations.ClaimsAndTakeoversComplete : Prop :=
  ∀ s : State,
    (∀ m : Fin 8, s.usable 0xD000 = true → s.twinOn = true →
      (s.on TWN_CMD_JOIN = false → s.mode = 2 → s.on TWN_STAT_CLAIM_OUT = false → s.mirrorUp = true → s.on TWN_STAT_TB_SKEW = false →
        s.ready 0xB000 = true → canSend s s.mirrorPort → Completes (.join m) s (fun t => t.mode = 4 ∧ t.twinState = 1 ∧
          Leaves s.mirrorPort (.join (s.g TWN_CFG_PAIR_ID) (unitVersion s)) s t)) ∧
      (s.on TWN_CMD_SERVE = false → s.mode = 2 → s.claimIn = false → Completes (.serve m) s (fun t => t.mode = 3 ∧ t.twinState = 6)) ∧
      (s.on TWN_CMD_LEAVE = false → s.mode = 4 → Completes (.leave m) s (fun t => t.mode = 5)) ∧
      (s.on TWN_CMD_FORCE_TAKEOVER = false → s.mode = 4 → s.claimIn = false → Completes (.forceTakeover m) s (fun t => t.twn.takeover = some 2))) ∧
    (∀ level : Bool, s.twinOn = true → s.twn.beat = none →
      let flds := (TWN_STAT_CLAIM_IN, bit level) :: (if level then [] else [(TWN_STAT_CLAIM_CONFLICT, 0)])
      (nearHandover s = true → Completes (.claimInChange level) s (Sets flds s)) ∧
      (nearHandover s = false → level = false → Completes (.claimInChange level) s (SetsOver flds s { s with twn := { s.twn with lost := s.twn.lost || s.mode == 4 } })) ∧
      (nearHandover s = false → level = true → ¬(s.mode = 4 ∧ 2 ≤ s.twinState ∧ s.twinState ≤ 4 ∧ s.mirrorUp = false) →
        Completes (.claimInChange level) s (SetsOver flds s { s with twn := { s.twn with lost := false } }))) ∧
    (∀ level : Bool, s.twinOn = false → Ignored (.claimInChange level) s) ∧
    (let due := s.twinOn = true ∧ s.mode = 4 ∧ s.claimIn = false ∧ s.twn.lost = true
      let st := if s.twinState = 5 then s.twn.prev else s.twinState
      let fit := (st = 3 ∨ st = 4) ∧ s.twn.complete = 2 ^ 100 - 1 ∧ ¬(s.on TWN_STAT_DIVERGED = true ∧ s.on TWN_CFG_DIV_BLOCK = true) ∧ s.on TWN_CFG_AUTO_TAKE = true
      let decides (l : List (Fld × Nat)) (x : Option Nat) : Prop := Completes .takeoverDecision s (SetsOver l s { s with twn := { s.twn with lost := false, takeover := x } });
      (due → fit → s.mirrorUp = true → decides [] (some 0)) ∧
      (due → fit → s.mirrorUp = false → s.on TWN_STAT_PREFER = true → s.on TWN_STAT_ELIGIBLE = true → decides [] (some 1)) ∧
      (due → fit → s.mirrorUp = false → (s.on TWN_STAT_PREFER = false ∨ s.on TWN_STAT_ELIGIBLE = false) → decides [] s.twn.takeover) ∧
      (due → ¬fit → s.mirrorUp = true → decides (if s.twn.complete = 2 ^ 100 - 1 then [] else [(TWN_STAT_COPY_INCOMPLETE, 1)]) s.twn.takeover) ∧
      (due → ¬fit → s.mirrorUp = false → decides [] s.twn.takeover) ∧
      (¬due → Ignored .takeoverDecision s)) ∧
    (s.mode = 4 → s.twn.takeover ≠ none → Completes .takeover s (SetsOver (occFlds s 0xD0A8 ++ modeFlds s 3 6 ++
      [(TWN_STAT_ELIGIBLE, 0), (TWN_STAT_TVW_RUN, 1), (resBusy TWN_TVW_CTRL_VALID.addr, 1)]) s
      { s with tvwFail := 0, twn := { s.twn with takeover := none, lost := false, flight := none, held := [], tvwAt := s.nowNs, tvwRdi := 2 ^ 192 - 1 } })) ∧
    ((s.mode ≠ 4 ∨ s.twn.takeover = none) → Ignored .takeover s) ∧
    (let both := s.twinOn = true ∧ s.on TWN_STAT_CLAIM_OUT = true ∧ s.claimIn = true ∧ nearHandover s = false;
      (both → s.on TWN_STAT_PREFER = true → Completes .claimConflict s (Sets [(TWN_STAT_CLAIM_CONFLICT, 1)] s)) ∧
      (both → s.on TWN_STAT_PREFER = false → s.mirrorUp = true → Completes .claimConflict s (SetsOver ([(TWN_STAT_CLAIM_CONFLICT, 1), (DEV_MODE_PREV, s.mode), (DEV_MODE_MODE, 4), (TWN_STAT_CLAIM_OUT, 0), (TWN_STAT_STATE, 3), (TWN_MATCH_RUN_RUN, 0)]) s
        { s with twn := { s.twn with prev := 3, flight := none, lost := false, convAt := s.nowNs } })) ∧
      (both → s.on TWN_STAT_PREFER = false → s.mirrorUp = false → s.twn.beat = none → s.mode = 3 → Completes .claimConflict s (SetsOver ((TWN_STAT_CLAIM_CONFLICT, 1) :: modeFlds s 4 5 ++ [(TWN_STAT_ELIGIBLE, 0)]) s
        { s with twn := { s.twn with prev := 3, flight := none, lost := false } })) ∧
      (¬both → Ignored .claimConflict s)) ∧
    (∀ swing : Nat, s.on TWN_STAT_TVW_RUN = true → s.nowNs < s.twn.tvwAt + max 1 (s.g TWN_DIV_CFG_TVW_MS) * 1000000 * 3 / 4 →
      let lanes := (List.range 192).filter (fun l => s.f (CH_TX_CFG_TX_FMT (laneChannel s l)) != 0)
      let bad := lanes.filter (fun l => s.tvwFail / 2 ^ l % 2 == 1 || swing / 2 ^ l % 2 == 1 || s.twn.tvwRdi / 2 ^ laneChannel s l % 2 == 1)
      Completes (.tvwEnd swing) s (Sets (resFlds s TWN_TVW_CTRL_VALID.addr false ++ [(TWN_TVW_RES_CHECKED, lanes.length),
        (TWN_TVW_RES_FAILED, bad.length), (TWN_STAT_TVW_RUN, 0)] ++ (List.range 6).map (fun i => (TWN_TVW_MAP_MAP i,
          ((List.range 32).map (fun j => if 32 * i + j ∈ bad then 2 ^ j else 0)).sum))) s)) ∧
    (∀ swing : Nat, s.on TWN_STAT_TVW_RUN = false → Ignored (.tvwEnd swing) s) ∧
    (let late := s.twn.convAt + s.g TWN_DIV_CFG_CONV_LIM * 1000000000 ≤ s.nowNs;
      (s.mode = 4 → s.twinState = 3 → s.g TWN_DIV_CFG_CONV_LIM ≠ 0 → late → Completes .convTimeout s (Sets [(TWN_STAT_CONV_TIMEOUT, 1)] s)) ∧
      ((s.mode ≠ 4 ∨ s.twinState ≠ 3 ∨ s.g TWN_DIV_CFG_CONV_LIM = 0 ∨ ¬late) → Ignored .convTimeout s))

/-- A Gelvy port's part of the state once it has fallen to state `st'` (R342, R343): below UP its control channel starts afresh. -/
def Sys2Proof.fell (g : GpSt) (st' : Nat) : GpSt :=
  let x := { g with hello := g.hello && decide (4 ≤ st'), match_ := false, smGood := 0, smBad := 0, lmGood := 0, rxFill := [], rxBytes := [] }
  if 4 ≤ st' then x
  else { x with tx0 := 0, tx1 := 0, rx0 := 0, rx1 := 0, un0 := [], un1 := [], wait0 := [], wait1 := [], try0 := 0, try1 := 0 }

/-- A worker's manager port (R327): the lowest port `hears` names whose peer is a manager of the group. -/
def Sys2Proof.mgrFlds (s : State) (hears : Nat → Bool) : List (Fld × Nat) :=
  if s.g GRP_STAT_ROLE = 2 then
    match (List.range 8).find? (fun p => hears p && s.g (GP_STAT_PEER_ROLE p) == 1 && s.g (GP_PEER_TAG_GROUP_TAG p) == s.g GRP_CFG_GROUP_TAG) with
    | some p => [(GRP_STAT_MGR_UP, 1), (GRP_STAT_MGR_PORT, p)]
    | none => [(GRP_STAT_MGR_UP, 0)]
  else []

/-- In `s` a HELLO of the last three periods stands at port `p`. -/
def Sys2Proof.hearsHello (s : State) (p : Nat) : Bool := s.portUp p && (s.gpOf p).hello

/-- Port `p`, in state `st` before, falls to `st'` (R343); `g` is its part before. -/
def Sys2Proof.Falls (p st st' : Nat) (g : GpSt) (l : List (Fld × Nat)) (s t : State) : Prop :=
  t = { s with regs := t.regs, gp := t.gp } ∧ OneAt (fun _ => gpReset) s.gp t.gp p (fell g st') ∧
  Regs ((GP_STAT_STATE p, st') :: (if 4 ≤ st then occFlds s (GP_DOWN_OCC_COUNT p).addr else []) ++
    mgrFlds s (fun q => if q = p then decide (4 ≤ st') && g.hello else hearsHello s q) ++ l) s t

/-- Port `p` holds `g`, and the fields `l` what is said. -/
def Sys2Proof.PortSets (p : Nat) (g : GpSt) (l : List (Fld × Nat)) (s t : State) : Prop :=
  t = { s with regs := t.regs, gp := t.gp } ∧ OneAt (fun _ => gpReset) s.gp t.gp p g ∧ Regs l s t

/-- What a HELLO reports of its sender. -/
def Sys2Proof.peerFlds (p : Nat) (h : Hello) : List (Fld × Nat) :=
  [(GP_STAT_PEER_ID p, h.id), (GP_STAT_PEER_ROLE p, h.role), (GP_STAT_PEER_MODE p, h.mode), (GP_STAT_PEER_SLOT_EN p, bit h.slotEn),
    (GP_STAT_PEER_TWIN p, bit h.mirror), (GP_PEER_TAG_GROUP_TAG p, h.groupTag), (GP_PEER_TAG_PAIR_ID p, h.pairId)]

/-- The fields of a HELLO are as wide as its message makes them (Table 15-5). -/
abbrev Sys2Proof.helloFits (h : Hello) : Prop := h.id < 8 ∧ h.role < 4 ∧ h.mode < 8 ∧ h.groupTag < 2 ^ 16 ∧ h.pairId < 2 ^ 16

/-- Ports, HELLOs, retries and superframes (R326, R327, R334 to R337, R340, R342, R343, Table 15-6). -/
def Obligations.GelvyPortsCompleteTheirCommands : Prop :=
  ∀ (s : State) (p : Fin 8),
    let g := s.gpOf p
    let st := s.g (GP_STAT_STATE p)
    (st = 0 → s.f (GP_CFG_EN p) = 1 → Completes (.gelvySignalDetect p) s (Sets [(GP_STAT_STATE p, 1)] s)) ∧
    (st ≠ 0 ∨ s.f (GP_CFG_EN p) ≠ 1 → Ignored (.gelvySignalDetect p) s) ∧
    (st = 1 → Completes (.gelvyTrained p) s (PortSets p { g with lmGood := 0, lmMiss := 0 } [(GP_STAT_STATE p, 2)] s)) ∧
    (st ≠ 1 → Ignored (.gelvyTrained p) s) ∧
    (st ≠ 0 → Completes (.gelvyLaneLos p) s (Falls p st 0 g [] s)) ∧
    (st = 0 → Ignored (.gelvyLaneLos p) s) ∧
    (canSend s p → Completes (.helloSend p) s (fun t => t = { s with wire := .msg p (.hello { role := s.g GRP_STAT_ROLE, id := s.g GRP_STAT_ID, mode := s.mode, groupTag := s.g GRP_CFG_GROUP_TAG, pairId := s.g TWN_CFG_PAIR_ID, twinEn := s.twinOn, prefer := s.on TWN_STAT_PREFER, slotEn := s.f (GP_CFG_SLOT_EN p) == 1, mirror := s.twinOn && p.val == s.mirrorPort }) :: s.wire })) ∧
    (st < 4 → Ignored (.helloSend p) s) ∧
    (st = 5 → Completes (.helloTimeout p) s (Falls p st 4 { g with hello := false } [] s)) ∧
    (st ≠ 5 → Completes (.helloTimeout p) s (PortSets p { g with hello := false } (mgrFlds s (fun q => q != p.val && hearsHello s q)) s)) ∧
    (∀ (e : Env) (h : Hello), heard s e → e.port = p → helloFits h →
      let twin := s.twinOn && h.twinEn && h.mirror && p.val == s.mirrorPort && h.pairId == s.g TWN_CFG_PAIR_ID
      let ours := h.groupTag = s.g GRP_CFG_GROUP_TAG
      let both := h.slotEn && s.f (GP_CFG_SLOT_EN p) == 1
      let n := { g with hello := true, match_ := both }
      (st = 3 → Completes (.hello e h) s (PortSets p g [] s)) ∧
      (4 ≤ st → ¬ours → twin = false → Completes (.hello e h) s (PortSets p g (occFlds s (GP_TAG_MIS_OCC_COUNT p).addr) s)) ∧
      (st = 4 → ours → s.g GRP_STAT_ROLE = 0 → Completes (.hello e h) s
        (PortSets p n (peerFlds p h ++ (if both then [(GP_STAT_STATE p, 5)] else [])) s)) ∧
      (st = 5 → ours → s.g GRP_STAT_ROLE = 0 → both = false → Completes (.hello e h) s (Falls p st 4 n (peerFlds p h) s)) ∧
      (st = 5 → both = true → ours → s.g GRP_STAT_ROLE = 2 → h.role = 1 → (∀ q, q < p.val → hearsHello s q = false) →
        Completes (.hello e h) s (PortSets p n (peerFlds p h ++ [(GRP_STAT_MGR_UP, 1), (GRP_STAT_MGR_PORT, p.val)]) s)) ∧
      (∀ i : Fin 7, st = 5 → both = true → ours → s.isManager = true → h.role = 2 → h.id = i.val + 1 → s.on (GRP_MEMBER_ALT_VALID i) = false →
        let here := peerFlds p h ++ [(GRP_MEMBER_PRESENT i, 1), (bitOf GRP_STAT_MEMBERS i, 1)]
        (g.member = i.val + 1 ∨ g.member = i.val + 9 → Completes (.hello e h) s (PortSets p n here s)) ∧
        (g.member = 0 → (∀ q : Fin 8, (s.gpOf q).member ≠ i.val + 1) →
          Completes (.hello e h) s (PortSets p { n with member := i.val + 1 } (here ++ [(GRP_MEMBER_PORT i, p.val)]) s)) ∧
        (∀ q : Fin 8, g.member = 0 → (s.gpOf q).member = i.val + 1 → (∀ r : Fin 8, r < q → (s.gpOf r).member ≠ i.val + 1) → q ≠ p →
          (∀ r : Fin 8, (s.gpOf r).member ≠ i.val + 9) →
          (s.g (GP_PEER_TAG_PAIR_ID q) ≠ h.pairId → s.mode ≠ 2 → s.mode ≠ 3 → Completes (.hello e h) s
            (PortSets p { n with member := i.val + 9 } (here ++ [(GRP_MEMBER_ALT_VALID i, 1), (GRP_MEMBER_ALT_PORT i, p.val)]) s)) ∧
          (s.g (GP_PEER_TAG_PAIR_ID q) = h.pairId → Completes (.hello e h) s (PortSets p n (peerFlds p h ++ occFlds s GRP_DUP_OCC_COUNT.addr) s))))) ∧
    (∀ bulk : Bool,
      let l := if bulk then g.un1 else g.un0
      let n := if bulk then g.try1 else g.try0
      let max_ := max 1 (s.g GLV_CFG_RETRY_MAX)
      (st < 4 ∨ l = [] → Ignored (.retryTimeout p bulk) s) ∧
      (4 ≤ st → l ≠ [] → max_ ≤ n → Completes (.retryTimeout p bulk) s (Falls p st 3 g [(GP_STAT_CTRL_FAIL p, 1)] s)) ∧
      (4 ≤ st → l ≠ [] → n < max_ → s.injecting = false → Completes (.retryTimeout p bulk) s (fun t =>
        t.wire = (l.map (fun x => Wire.msg p x.2)).reverse ++ s.wire ∧
        PortSets p (if bulk then { g with try1 := n + 1 } else { g with try0 := n + 1 }) (occFlds s (GP_RETRY_OCC_COUNT p).addr) s { t with wire := s.wire }))) ∧
    (∀ (e : Env) (ctrl : Nat) (frame : List Byte), accepts s e → Completes (.ptpMessageRx e ctrl frame) s (fun t => portsAfter e s t ∧ t = { s with gp := t.gp })) ∧
    (∀ o : SuperObs,
      let errs := perfFlds s (0x10040 + 0x1000 * p.val) o.corr ++ perfFlds s (0x10048 + 0x1000 * p.val) o.ucw
      let seen := errs ++ [(GP_STAT_SKEW_NS p, min 255 o.skew)]
      let good := o.smCrc = true ∧ o.sfn = s.sfn + 1 ∧ o.skew ≤ 64
      let lm := { g with lmGood := g.lmGood + 1, lmMiss := 0, arrs := if st = 5 ∧ o.smCrc then stampIn s p false o.at_ (o.sfn - 1) g.arrs else g.arrs }
      (st < 2 → Ignored (.superframeRx p o) s) ∧
      (2 ≤ st → o.lm = false → 2 ≤ g.lmMiss → Completes (.superframeRx p o) s (Falls p st 1 { g with lmMiss := 0 } errs s)) ∧
      (2 ≤ st → st ≠ 5 → o.lm = false → g.lmMiss < 2 → Completes (.superframeRx p o) s (PortSets p { g with lmGood := 0, lmMiss := g.lmMiss + 1 } errs s)) ∧
      (st = 2 → o.lm = true → Completes (.superframeRx p o) s
        (PortSets p lm (seen ++ (if 1 ≤ g.lmGood ∧ o.skew ≤ 64 then [(GP_STAT_STATE p, 3)] else [])) s)) ∧
      (st = 3 → o.lm = true → good → Completes (.superframeRx p o) s (PortSets p { lm with smGood := g.smGood + 1, smBad := 0 }
        (seen ++ (if 1 ≤ g.smGood then [(GP_STAT_STATE p, 4), (GP_STAT_CTRL_FAIL p, 0)] else [])) s)) ∧
      (3 ≤ st → st ≠ 5 → o.lm = true → ¬good → g.smBad < 7 → Completes (.superframeRx p o) s
        (PortSets p { lm with smGood := 0, smBad := g.smBad + 1 } (seen ++ occFlds s (GP_SM_ERR_OCC_COUNT p).addr) s)) ∧
      (3 ≤ st → o.lm = true → ¬good → 7 ≤ g.smBad → Completes (.superframeRx p o) s
        (Falls p st 2 { lm with smGood := 0, smBad := g.smBad + 1 } (seen ++ occFlds s (GP_SM_ERR_OCC_COUNT p).addr) s)) ∧
      (st = 5 → o.lm = true → ¬good → g.smBad < 7 → o.late = false → Completes (.superframeRx p o) s
        (PortSets p { lm with smGood := 0, smBad := g.smBad + 1, rxSfn := s.sfn + 1, rxFill := [], rxBytes := [] } (seen ++ occFlds s (GP_SM_ERR_OCC_COUNT p).addr) s)) ∧
      (st = 5 → o.lm = true → good → o.late = true → Completes (.superframeRx p o) s
        (PortSets p { lm with smGood := g.smGood + 1, smBad := 0, rxSfn := s.sfn + 1, rxFill := [], rxBytes := [] } (seen ++ occFlds s (GP_LATE_SF_OCC_COUNT p).addr) s)) ∧
      (∀ (k fill : Nat) (b : List Byte), st = 5 → o.lm = true → good → o.late = false → k < 3744 → o.slots = [(k, fill, b)] →
        Completes (.superframeRx p o) s (fun t =>
          let x := t.gpOf p
          PortSets p { lm with smGood := g.smGood + 1, smBad := 0, rxSfn := o.sfn, rxFill := x.rxFill, rxBytes := x.rxBytes } seen s t ∧
          OneAt (fun _ => 1) [] x.rxFill k (if fill = 3 ∨ k ∈ o.ucwSlots then 1 else fill) ∧
          OneAt (fun _ => []) [] x.rxBytes k (if fill = 0 ∧ k ∉ o.ucwSlots then b else []))))

/-- The member that port `p` serves (R327). -/
def Sys2Proof.memberAt (s : State) (p : Nat) : Nat := (s.gpOf p).member % 8

/-- A proxy access of master `m` to offset `off` of member `id` (R332, R333). -/
def Sys2Proof.proxOf (s : State) (m id off : Nat) (write : Bool) (be : Nat) (data : Word) (sent : Bool) : Prox := ⟨s.proxTag, id, m, off, write, be, data, sent, [], []⟩

/-- Group actions and proxy accesses (R62, R64, R328, R330 to R333, R348). -/
def Obligations.GroupOutcomesAndProxiesComplete : Prop :=
  ∀ s : State,
    (∀ n : Fin 8, (s.isManager = false ∨ n.val = 0 ∨ s.on (GRP_MEMBER_PRESENT (n - 1)) = false ∨ s.memberLive n = true) → Ignored (.memberDepart n) s) ∧
    (∀ i : Fin 7, s.isManager = true → s.on (GRP_MEMBER_PRESENT i) = true → s.memberLive (i + 1) = false →
      let gone := occFlds s GRP_DEPART_OCC_COUNT.addr ++ [(GRP_MEMBER_PRESENT i, 0), (bitOf GRP_STAT_MEMBERS i, 0)]
      (s.plk.groups = [] → s.prox = [] → Completes (.memberDepart ⟨i + 1, by omega⟩) s (Sets gone s)) ∧
      (∀ (j : GroupJob) (k : Nat), s.plk.groups = [j] → j.waiting = [i.val + 1, k] → k ≠ i.val + 1 → s.prox = [] → Completes (.memberDepart ⟨i + 1, by omega⟩) s
        (SetsOver gone s { s with plk := { s.plk with groups := [{ j with waiting := [k], failed := j.failed + 2 ^ (i.val + 1), reason := if j.failed = 0 then 6 else j.reason }] } })) ∧
      (∀ x : Prox, s.plk.groups = [] → s.prox = [x] → x.id = i.val + 1 → x.write = false → 0 < x.m → x.m < 8 → s.busRuns = true →
        Completes (.memberDepart ⟨i + 1, by omega⟩) s (fun t => SetsOver gone s { s with resp := t.resp, prox := [] } t ∧
          OneAt (fun _ => ⟨true, []⟩) s.resp t.resp x.m ⟨false, [0xFFFFFFFF]⟩))) ∧
    (∀ (e : Env) (j : GroupJob) (status reason applied index : Nat), accepts s e → s.isManager = true → s.plk.groups = [j] →
      let i := memberAt s e.port
      let told := { j with waiting := j.waiting.filter (· != i), failed := if status = 0 then j.failed else j.failed + 2 ^ i, reason := if status = 0 ∨ j.failed ≠ 0 then j.reason else reason }
      (i ∈ j.waiting → (told.waiting ≠ [] ∨ j.own = none) → Completes (.result e j.act.seq status reason applied index) s (fun t => portsAfter e s t ∧
        t = { s with gp := t.gp, plk := { s.plk with groups := [told] } })) ∧
      (∀ r : JRec, j.waiting = [i] → j.own = some r → r.status = 0 → status = 0 → j.failed = 0 → s.on PRF_P_CTL_RUN = false →
        Completes (.result e j.act.seq status reason applied index) s (fun t => portsAfter e s t ∧
          SetsOver [(JNL_HEAD_HEAD, (s.g JNL_HEAD_HEAD + 1) % 2 ^ 32)] s { s with gp := t.gp, plk := { s.plk with groups := [], ring := t.plk.ring } } t ∧
          OneAt (fun _ => blankRec) s.plk.ring t.plk.ring (s.g JNL_HEAD_HEAD % 1024) { r with failed := 0 }))) ∧
    (∀ (e : Env) (status reason applied index seq : Nat), accepts s e → s.isManager = false →
      Completes (.result e seq status reason applied index) s (fun t => portsAfter e s t ∧ t = { s with gp := t.gp })) ∧
    (∀ (e : Env) (a : Action), accepts s e → canSend s e.port → s.isWorker = true → s.twinOn = false → e.port.val = s.g GRP_STAT_MGR_PORT → (s.g (GP_STAT_PEER_MODE e.port) = 2 ∨ s.g (GP_STAT_PEER_MODE e.port) = 3) →
      s.plk.queue = [a] → a.groupIn = true → a.mirrorOut = false → a.mirroredIn = false → s.plk.groups = [] →
      ((s.mode = 4 ∨ s.mode = 5) → Completes (.groupCancelRx e a.peerSeq) s (fun t => Replies e (.result a.peerSeq 5 0x02 0 0) s t ∧
        t = { s with gp := t.gp, wire := t.wire })) ∧
      (s.mode ≠ 4 → s.mode ≠ 5 → Completes (.groupCancelRx e a.peerSeq) s (fun t =>
        Replies e (.result a.peerSeq 6 0x0B 0 0) s t ∧
        SetsOver [(JNL_HEAD_HEAD, (s.g JNL_HEAD_HEAD + 1) % 2 ^ 32), (PLK_STAT_PEND_USED, t.pendUsed % 2 ^ 13)] s
          { s with gp := t.gp, wire := t.wire, plk := { s.plk with queue := [], ring := t.plk.ring } } t ∧
        OneAt (fun _ => blankRec) s.plk.ring t.plk.ring (s.g JNL_HEAD_HEAD % 1024) (recOf a 6 0 0 0x0B)))) ∧
    (∀ (e : Env) (origin : Nat), accepts s e → s.isWorker = false → s.twinOn = false → Completes (.groupCancelRx e origin) s (fun t => portsAfter e s t ∧
      t = { s with gp := t.gp })) ∧
    (∀ (m : Fin 8) (off : Fin 0x4000000) (be : Fin 16) (data : Word), 0 < m.val → s.usable 0xE000 = true → s.isManager = true →
      let w := off.val / 0x800000
      let id := s.g (GRP_PX_SEL_ID w)
      let at_ := s.g (GRP_PX_SEL_BASE w) * 0x800000 + off.val % 0x800000 / 4 * 4
      let answered (ok : Bool) (data : List Word) (t : State) : Prop := OneAt (fun _ => ⟨true, []⟩) s.resp t.resp m ⟨ok, data⟩
      (id = 0 → Completes (.proxyAccess m off false be data) s (fun t => answered false [0xFFFFFFFF] t ∧ t = { s with resp := t.resp }) ∧
        Completes (.proxyAccess m off true be data) s (fun t => answered false [] t ∧ t = { s with resp := t.resp })) ∧
      (id ≠ 0 → s.memberPresent id = false → Completes (.proxyAccess m off false be data) s (fun t => answered false [0xFFFFFFFF] t ∧ t = { s with resp := t.resp }) ∧
        Completes (.proxyAccess m off true be data) s (fun t => answered false [] t ∧ t = { s with regs := t.regs, resp := t.resp } ∧
          Regs (occFlds s GRP_PX_ERR_OCC_COUNT.addr ++ [(GRP_PX_LAST_ADDR, at_), (GRP_PX_LAST_ID, id)]) s t)) ∧
      (id ≠ 0 → s.memberPresent id = true → s.prox = [] → canSend s (s.memberPort id) → ∀ write : Bool, Completes (.proxyAccess m off write be data) s (fun t =>
        Leaves (s.memberPort id) (.rraReq s.proxTag at_ write be data) s t ∧ (if write then answered true [] t else t.resp = s.resp) ∧
        t = { s with resp := t.resp, gp := t.gp, wire := t.wire, prox := [proxOf s m id at_ write be data true], proxTag := (s.proxTag + 1) % 2 ^ 32 }))) ∧
    (∀ (m : Fin 8) (off : Fin 0x4000000) (be : Fin 16) (data : Word), 0 < m.val → s.busRuns = true → (s.usable 0xE000 = false ∨ s.isManager = false) →
      Completes (.proxyAccess m off false be data) s (fun t => OneAt (fun _ => ⟨true, []⟩) s.resp t.resp m ⟨false, [0xFFFFFFFF]⟩ ∧ t = { s with resp := t.resp })) ∧
    (∀ (x : Prox) (e : Env) (data : Word), s.prox = [x] → x.sent = true → 0 < x.m → x.m < 8 → s.busRuns = true → x.off < 2 ^ 25 → x.id < 8 →
      let back (ok : Bool) (d : List Word) (t : State) : Prop := OneAt (fun _ => ⟨true, []⟩) s.resp t.resp x.m ⟨ok, d⟩
      let bad := occFlds s GRP_PX_ERR_OCC_COUNT.addr ++ [(GRP_PX_LAST_ADDR, x.off), (GRP_PX_LAST_ID, x.id)]
      (accepts s e → x.write = false → x.more = [] → Completes (.rraRsp e x.tag 0 data) s (fun t => portsAfter e s t ∧ back true (x.got ++ [data]) t ∧
        t = { s with gp := t.gp, resp := t.resp, prox := [] })) ∧
      (∀ (a : Nat) (rest : List Nat), accepts s e → canSend s e.port → x.write = false → x.more = a :: rest → a < 2 ^ 26 → s.usable 0xE000 = true →
        s.isManager = true →
        let id := s.g (GRP_PX_SEL_ID (a / 0x800000))
        let at_ := s.g (GRP_PX_SEL_BASE (a / 0x800000)) * 0x800000 + a % 0x800000
        id ≠ 0 → s.memberPresent id = true → s.memberPort id = e.port.val → Completes (.rraRsp e x.tag 0 data) s (fun t =>
          Replies e (.rraReq s.proxTag at_ false 15 0) s t ∧
          let y : Prox := ⟨s.proxTag, id, x.m, at_, false, 15, 0, true, rest, x.got ++ [data]⟩
          t = { s with gp := t.gp, wire := t.wire, proxTag := (s.proxTag + 1) % 2 ^ 32, prox := [y] })) ∧
      (accepts s e → x.write = true → Completes (.rraRsp e x.tag 0 data) s (fun t => portsAfter e s t ∧ t = { s with gp := t.gp, prox := [] })) ∧
      (accepts s e → x.write = true → Completes (.rraRsp e x.tag 1 data) s (fun t => portsAfter e s t ∧ SetsOver bad s { s with gp := t.gp, prox := [] } t)) ∧
      (accepts s e → Completes (.rraRsp e (x.tag + 1) 0 data) s (fun t => portsAfter e s t ∧ t = { s with gp := t.gp })) ∧
      (x.write = false → Completes (.proxyTimeout x.tag) s (fun t => back false [0xFFFFFFFF] t ∧ t = { s with resp := t.resp, prox := [] })) ∧
      (x.write = true → Completes (.proxyTimeout x.tag) s (SetsOver bad s { s with prox := [] })) ∧
      Ignored (.proxyTimeout (x.tag + 1)) s)

/-- The Hatter core serves the request with code `code` (R362, R363): in RUN, one request not yet acknowledged, room for the reply; nothing of its
calibration is under way. -/
abbrev Sys2Proof.served (s : State) (code : Nat) : Prop :=
  s.ready 0x8000 = true ∧ s.g ⟨(HTR_H2C_D_DATA 0).addr, 0, 8⟩ = code ∧ s.g HTR_H2C_DB_SEQ ≠ s.g HTR_H2C_ACK_ACK ∧ s.g HTR_C2H_DB_SEQ = s.g HTR_C2H_ACK_ACK ∧
  s.g HTR_STAT_STATE = 1

/-- Word `i` of the request. -/
def Sys2Proof.req (s : State) (i : Nat) : Nat := s.g (HTR_H2C_D_DATA i)

/-- The registers of a reply with status `st` and the words `more` (R363, Table 16-8). -/
def Sys2Proof.replyFlds (s : State) (st : Nat) (more : List Nat) : List (Fld × Nat) :=
  [(⟨(HTR_C2H_D_DATA 0).addr, 0, 8⟩, req s 0 % 256), (⟨(HTR_C2H_D_DATA 0).addr, 8, 8⟩, 1 + more.length), (⟨(HTR_C2H_D_DATA 0).addr, 16, 16⟩, req s 0 / 2 ^ 16), (HTR_C2H_D_DATA 1, st)] ++
  more.zipIdx.map (fun p => (HTR_C2H_D_DATA (2 + p.2), p.1)) ++ [(HTR_H2C_ACK_ACK, s.g HTR_H2C_DB_SEQ), (HTR_C2H_DB_SEQ, (s.g HTR_C2H_DB_SEQ + 1) % 2 ^ 16)]

/-- HTR.GEN as the flash of `t` gives it (R362). -/
def Sys2Proof.genFlds (t : State) : List (Fld × Nat) := [(HTR_GEN_GEN_A, imgGen t 0 % 2 ^ 16), (HTR_GEN_GEN_B, imgGen t 1 % 2 ^ 16)]

/-- Nothing of calibration runs, waits or is programmed (R364, R400). -/
abbrev Sys2Proof.calStill (s : State) : Prop := s.cal.queue = [] ∧ s.cal.running = [] ∧ s.cal.prog = none ∧ s.cal.halt = false

/-- The Hatter core (R354, R355, R362 to R365, Tables 16-7 to 16-9): boot, its limit, the watchdog, RESTART, the report of RUN, the mailbox and
its requests, REMAP. -/
def Obligations.HatterCommandsComplete : Prop :=
  ∀ s : State,
    (let free := s.hatterOut = true ∧ s.hst.booting = false ∧ s.g HTR_STAT_STATE ≠ 1
      let boots (c : Instr) (i fallback run : Nat) : Prop := Completes c s (SetsOver (genFlds s ++ [(HTR_STAT_IMAGE, i), (HTR_STAT_FALLBACK, fallback),
        (HTR_VERSION_VERSION, (s.flashWord (0x100000 * i + 2)).toNat)]) s { s with hst := { s.hst with booting := true, wdogRun := run } })
      let none_ (c : Instr) : Prop := Completes c s (SetsOver (genFlds s ++ (HTR_STAT_STATE, 0) :: (if s.on HTR_CMD_RESTART = true then
        resFlds s HTR_CMD_CTRL_VALID.addr true ++ [(HTR_CMD_CODE_CODE, 2), (HTR_CMD_RESTART, 0)] else [])) s { s with hst := { s.hst with booting := false } })
      let other := 1 - s.g HTR_STAT_IMAGE
      let fell := 3 ≤ s.hst.wdogRun ∧ imgGen s other ≠ 0;
      (free → fell → boots .hatterBoot other 1 0) ∧
      (free → ¬fell → imgGen s 0 ≠ 0 → imgGen s 1 ≤ imgGen s 0 → boots .hatterBoot 0 0 s.hst.wdogRun) ∧
      (free → ¬fell → imgGen s 0 < imgGen s 1 → boots .hatterBoot 1 0 s.hst.wdogRun) ∧
      (free → imgGen s 0 = 0 → imgGen s 1 = 0 → none_ .hatterBoot) ∧
      (¬free → Ignored .hatterBoot s) ∧
      (s.hst.booting = true → imgGen s other ≠ 0 → boots .hatterBootTimeout other 1 0) ∧
      (s.hst.booting = true → imgGen s other = 0 → none_ .hatterBootTimeout) ∧
      (s.hst.booting = false → Ignored .hatterBootTimeout s ∧ Ignored .hatterRun s)) ∧
    (s.hst.booting = true → Completes .hatterRun s (SetsOver ((HTR_STAT_STATE, 1) :: (if s.on HTR_CMD_RESTART = true then
        resFlds s HTR_CMD_CTRL_VALID.addr false ++ [(HTR_CMD_CODE_CODE, 0), (HTR_CMD_RESTART, 0)] else [])) s { s with hst := { s.hst with booting := false } })) ∧
    (∀ older : Bool, calStill s →
      let up := s.hatterOut = true ∧ (s.g HTR_STAT_STATE = 1 ∨ s.hst.booting = true)
      (up → Completes (.hatterWatchdog older) s (SetsOver (occFlds s HTR_WDOG_OCC_COUNT.addr ++ [(HTR_STAT_STATE, 3), (HTR_REMAP_SWAP, 0), (HTR_STAT_REMAP, 0)]) s
        { s with hst := { s.hst with booting := false, remapLk := false, wdogRun := if older then 1 else s.hst.wdogRun + 1 } })) ∧
      (¬up → Ignored (.hatterWatchdog older) s)) ∧
    (∀ m : Fin 8, s.usable 0x8000 = true → s.on HTR_CMD_RESTART = false → calStill s →
      let copying := s.twinOn = true ∧ (s.twinState = 2 ∨ s.twn.beat.any (fun b => b.twin == 2) = true)
      (copying → Completes (.restart m) s (SetsBy m (resFlds s HTR_CMD_CTRL_VALID.addr true ++ [(HTR_CMD_CODE_CODE, 1)]) s)) ∧
      (¬copying → Completes (.restart m) s (fun t => AnsweredBy m true [] s t ∧
        SetsOver [(BMX_PARK_T0, m.val), (resBusy HTR_CMD_CTRL_VALID.addr, 1), (HTR_STAT_STATE, 2), (HTR_REMAP_SWAP, 0), (HTR_STAT_REMAP, 0), (HTR_CMD_RESTART, 1)] s
          { s with resp := t.resp, hst := { s.hst with booting := false, remapLk := false } } t))) ∧
    (∀ (m : Fin 8) (v : Word), s.usable 0x8000 = true →
      Completes (.h2cDbWrite m v) s (SetsBy m [(HTR_H2C_DB_SEQ, v.toNat % 2 ^ 16)] s) ∧
      Completes (.c2hAckWrite m v) s (SetsBy m [(HTR_C2H_ACK_ACK, v.toNat % 2 ^ 16)] s) ∧
      (let locked := (m.val ≠ 1 ∧ m.val ≠ 4) ∨ s.hst.remapLk = true ∨ s.on (PG_LOCK_LOCK 0x8000) = true;
        (¬locked → Completes (.remapSwap m v) s (fun t => AnsweredBy m true [] s t ∧
          SetsOver [(BMX_PARK_T0, m.val), (HTR_REMAP_SWAP, v.toNat % 2), (HTR_STAT_REMAP, v.toNat % 2)] s { s with resp := t.resp, hst := { s.hst with remapLk := true } } t)) ∧
        (locked → Completes (.remapSwap m v) s (fun t => AnsweredBy m false [] s t ∧ t = { s with regs := t.regs, resp := t.resp } ∧
          Regs ((BMX_PARK_T0, m.val) :: occFlds s 0x83E8 ++ [(PG_VADDR_OFFSET 0x8000, 0x38), (PG_VADDR_MASTER 0x8000, m.val), (PG_VADDR_KIND 0x8000, 0)]) s t)))) ∧
    (s.busRuns = true → s.usable 0x8000 = false → ∀ (m : Fin 8) (v : Word), Completes (.h2cDbWrite m v) s (Denied m s) ∧ Completes (.c2hAckWrite m v) s (Denied m s)) ∧
    (served s 1 → Completes .getInfo s (Sets (replyFlds s 0 [s.g HTR_VERSION_VERSION, s.g HTR_STAT_IMAGE, imgGen s 0, imgGen s 1]) s)) ∧
    (s.g HTR_H2C_DB_SEQ = s.g HTR_H2C_ACK_ACK → Ignored .getInfo s ∧ ∀ (ok : Bool) (n : Nat), Ignored (.imgWrite ok n) s ∧ Ignored (.imgErase ok n) s ∧ Ignored (.imgCommit ok) s ∧ Ignored .feLoad s) ∧
    (∀ (ok : Bool) (upto : Nat),
      let img := req s 1
      let off := req s 2
      let len := req s 0 / 256 % 256
      let fits := img < 2 ∧ 3 ≤ len ∧ len ≤ 15 ∧ off % 4 = 0 ∧ off + 4 * (len - 2) ≤ 0x400000
      let n := if ok then len - 2 else min upto (len - 2)
      (served s 0x10 → ¬fits → Completes (.imgWrite ok upto) s (Sets (replyFlds s 2 []) s)) ∧
      (served s 0x10 → fits → img = s.g HTR_STAT_IMAGE → Completes (.imgWrite ok upto) s (Sets (replyFlds s 1 []) s)) ∧
      (served s 0x10 → fits → img ≠ s.g HTR_STAT_IMAGE → Completes (.imgWrite ok upto) s (fun t =>
        SetsOver (genFlds t ++ replyFlds s (if ok then 0 else 3) []) s { s with hst := { s.hst with flash := t.hst.flash } } t ∧
        ∀ w, t.flashWord w = if img * 0x100000 + off / 4 ≤ w ∧ w < img * 0x100000 + off / 4 + n then BitVec.ofNat 32 (req s (3 + (w - (img * 0x100000 + off / 4)))) else s.flashWord w)) ∧
      (served s 0x11 → 1 < img → Completes (.imgErase ok upto) s (Sets (replyFlds s 2 []) s)) ∧
      (served s 0x11 → img < 2 → img = s.g HTR_STAT_IMAGE → Completes (.imgErase ok upto) s (Sets (replyFlds s 1 []) s)) ∧
      (served s 0x11 → img < 2 → img ≠ s.g HTR_STAT_IMAGE → Completes (.imgErase ok upto) s (fun t =>
        SetsOver (genFlds t ++ replyFlds s (if ok then 0 else 3) []) s { s with hst := { s.hst with flash := t.hst.flash } } t ∧
        ∀ w, t.flashWord w = if img * 0x100000 ≤ w ∧ w < img * 0x100000 + (if ok then 0x100000 else min upto 0x100000) then 0xFFFFFFFF else s.flashWord w))) ∧
    (∀ ok : Bool,
      let img := req s 1
      let gen := max (imgGen s 0) (imgGen s 1) + 1
      (served s 0x12 → 1 < img → Completes (.imgCommit ok) s (Sets (replyFlds s 2 []) s)) ∧
      (served s 0x12 → img < 2 → imgOk s img (BitVec.ofNat 32 gen) = false → Completes (.imgCommit ok) s (fun t =>
        SetsOver (replyFlds s (1 + s.drawn.toNat % 3) []) s { s with free := s.free + 1 } t)) ∧
      (served s 0x12 → img < 2 → imgOk s img (BitVec.ofNat 32 gen) = true → ok = false → Completes (.imgCommit ok) s (Sets (replyFlds s 3 []) s)) ∧
      (served s 0x12 → img < 2 → imgOk s img (BitVec.ofNat 32 gen) = true → ok = true → Completes (.imgCommit ok) s (fun t =>
        SetsOver (genFlds t ++ replyFlds s 0 []) s { s with hst := { s.hst with flash := t.hst.flash } } t ∧
        OneAt (fun _ => 0xFFFFFFFF) s.hst.flash t.hst.flash (img * 0x100000 + 3) (BitVec.ofNat 32 gen)))) ∧
    (let e := req s 1
      let w := req s 2 / 4
      let len := (s.flashWord (w + 1)).toNat % 2 ^ 14
      let b := 1 - s.feAct e
      let fits := e < 64 ∧ req s 2 % 4 = 0 ∧ req s 2 + 32 ≤ 0x1000000 ∧ 8 ≤ len ∧ len ≤ 8192
      let idle := s.usable (0x200000 + 0x1000 * e) = true ∧ s.mode ≠ 4 ∧ s.on (FE_STAT_SWAP_PEND e) = false ∧ (s.engOf e).chk = 0;
      (served s 0x20 → ¬fits → Completes .feLoad s (Sets (replyFlds s 2 []) s)) ∧
      (served s 0x20 → fits → ¬idle → Completes .feLoad s (Sets (replyFlds s 1 []) s)) ∧
      (served s 0x20 → fits → idle → s.forwards = false → Completes .feLoad s (fun t =>
        let y := s.engOf e
        let z := t.engOf e
        let code := feCheckCode { s with eng := t.eng } e b
        OneAt (fun _ => engReset) s.eng t.eng e { y with mem := z.mem, ecc := z.ecc } ∧
        (∀ i, tget (fun _ => 0) z.mem i = if 8192 * b ≤ i ∧ i < 8192 * b + len then s.flashWord (w + (i - 8192 * b)) else tget (fun _ => 0) y.mem i) ∧
        (∀ i, tget (fun _ => 0) z.ecc i = if 8192 * b ≤ i ∧ i < 8192 * b + len then 0 else tget (fun _ => 0) y.ecc i) ∧
        t.free = s.free + (if code = 0 then 0 else 1) ∧ t = { s with regs := t.regs, eng := t.eng, free := t.free } ∧
        Regs ((feValid e b, bit (code == 0)) :: replyFlds s (if code = 0 then 0 else 1 + s.drawn.toNat % 3) [] ++
          crcFlds z e (s.feAct e) (if b = 0 then code == 0 else s.on (FE_STAT_VALID0 e)) (if b = 1 then code == 0 else s.on (FE_STAT_VALID1 e))) s t)))

/-- An interrupt message has left for vector `v`: the vector rests until its EOI (R368). -/
def Sys2Proof.vecSent (h : Hst) (v now : Nat) (t : State) : Prop :=
  t.hst = { h with armed := h.armed - (h.armed &&& 2 ^ v), vecPend := h.vecPend - (h.vecPend &&& 2 ^ v), sentAt := t.hst.sentAt } ∧
  OneAt (fun _ => 0) h.sentAt t.hst.sentAt v (now + 1)

/-- Interrupts (R368, R370): EOI arms vectors again; MSIX_UNMASK sends a pending message whose level stands, and drops another. -/
def Obligations.InterruptCommandsComplete : Prop :=
  ∀ s : State,
    (∀ (m : Fin 8) (v : Word), s.usable 0x6000 = true → s.hst.sentAt = [] → Completes (.eoi m v) s (fun t =>
      AnsweredBy m true [] s t ∧ RegsKeep [BMX_PARK_T0] s t ∧
      t = { s with regs := t.regs, resp := t.resp, hst := { s.hst with armed := s.hst.armed ||| v.toNat, vecLvl := s.hst.vecLvl - (s.hst.vecLvl &&& v.toNat) } })) ∧
    (∀ (m : Fin 8) (v : Word), s.busRuns = true → s.usable 0x6000 = false → Completes (.eoi m v) s (Denied m s)) ∧
    (∀ v : Fin 32,
      let h := { s.hst with vecMask := s.hst.vecMask - (s.hst.vecMask &&& 2 ^ v.val) }
      let msix (t : State) : Prop := OneAt (fun _ => 0) s.hst.msix t.hst.msix (4 * v.val + 3) 0
      ((s.hst.msixEn = false ∨ s.hst.fnMask = true ∨ s.hst.vecPend = 0) → Completes (.msixUnmask v) s (fun t =>
        t = { s with hst := { h with msix := t.hst.msix } } ∧ msix t)) ∧
      (s.hst.msixEn = true → s.hst.fnMask = false → s.hst.vecPend = 2 ^ v.val → s.hst.vecLvl / 2 ^ v.val % 2 = 0 → Completes (.msixUnmask v) s (fun t =>
        t = { s with hst := { h with msix := t.hst.msix, vecPend := 0 } } ∧ msix t)) ∧
      (s.hst.msixEn = true → s.hst.fnMask = false → s.hst.vecPend = 2 ^ v.val → s.hst.vecLvl / 2 ^ v.val % 2 = 1 → s.hst.armed / 2 ^ v.val % 2 = 1 → s.on PRF_P_CTL_RUN = false →
        Completes (.msixUnmask v) s (fun t =>
          t = { s with wire := .msix v :: s.wire, hst := t.hst } ∧ msix t ∧ vecSent { h with msix := t.hst.msix } v s.nowNs t)))

/-- A gauge after a clear (R403, R406). -/
def Sys2Proof.clearFlds (g : Nat) : List (Fld × Nat) :=
  [(MON_G_MIN_MIN g, 0x7FFFFFFF), (MON_G_MAX_MAX g, 0x80000000), (MON_G_N_N g, 0)] ++ (List.range 32).map (fun i => (MON_G_BIN_COUNT g i, 0))

/-- The two's complement of a number in 32 bits. -/
def Sys2Proof.word32 (v : Int) : Nat := (v % 2 ^ 32).toNat

/-- What a recorded sample does to a gauge (R405): MIN, MAX, N and the bin of [EDGE0, EDGE0 + 30 × STEP). -/
def Sys2Proof.sampleFlds (s : State) (g : Nat) (v : Int) : List (Fld × Nat) :=
  let e := s.int (MON_G_EDGE0_EDGE0 g)
  let step : Int := max 1 (s.g (MON_G_STEP_STEP g) : Int)
  let b := if v < e then 0 else min 31 ((v - e) / step + 1).toNat
  [(MON_G_N_N g, min 0xFFFFFFFF (s.g (MON_G_N_N g) + 1)), (MON_G_BIN_COUNT g b, min 0xFFFFFFFF (s.g (MON_G_BIN_COUNT g b) + 1)),
    (MON_G_MIN_MIN g, word32 (min (s.int (MON_G_MIN_MIN g)) v)), (MON_G_MAX_MAX g, word32 (max (s.int (MON_G_MAX_MAX g)) v))]

/-- The head of the tag buffer, as E_STAT and E_REC show it (R411). -/
def Sys2Proof.tagFlds (l : List (List Word)) : List (Fld × Nat) :=
  (PRF_E_STAT_LEVEL, l.length) :: (List.range 4).map (fun i => (PRF_E_REC_DATA i, ((l.headD []).getD i 0).toNat))

/-- Gauges, transaction trace and instruction tags (R403 to R407, R410, R411, Table 19-5). -/
def Obligations.MonitorCommandsComplete : Prop :=
  ∀ (s : State) (m : Fin 8),
    (let g := s.g (perMaster MON_G_SEL_GAUGE m);
      (s.usable 0x1E000 = true → s.on (MON_G_CMD_CLEAR g) = false → Completes (.gaugeClear m) s (fun t => AnsweredBy m true [] s t ∧
        OneAt (fun _ => 0) s.gaug t.gaug g 0 ∧ SetsOver ((BMX_PARK_T0, m.val) :: clearFlds g) s { s with resp := t.resp, gaug := t.gaug } t)) ∧
      (∀ v : Word, s.usable 0x1E000 = true → s.pend = [] → (∀ q : Fin 16, s.g (MON_G_CFG_SRC q) = 2 → q.val = g) →
        let n := tget (fun _ => 0) s.gaug g
        let put (l : List (Fld × Nat)) (x : Nat) : Prop := Completes (.gWr m v) s (fun t => AnsweredBy m true [] s t ∧
          OneAt (fun _ => 0) s.gaug t.gaug g x ∧ SetsOver ((BMX_PARK_T0, m.val) :: (MON_G_WR_VAL g, v.toNat) :: l) s { s with resp := t.resp, gaug := t.gaug } t)
        (s.g (MON_G_CFG_SRC g) ≠ 2 → put [] n) ∧
        (s.g (MON_G_CFG_SRC g) = 2 → n % 2 ^ min 20 (s.g (MON_G_CFG_SHIFT g)) ≠ 0 → put [] (n + 1)) ∧
        (s.g (MON_G_CFG_SRC g) = 2 → n % 2 ^ min 20 (s.g (MON_G_CFG_SHIFT g)) = 0 → put (sampleFlds s g v.toInt) (n + 1)))) ∧
    (s.usable 0x1F000 = true →
      (s.on PRF_T_CMD_START = false →
        let full := s.g PRF_T_STAT_LEVEL = 512 ∧ s.on PRF_T_CFG_WRAP = false
        Completes (.traceStart m) s (fun t => AnsweredBy m true [] s t ∧
          SetsOver [(BMX_PARK_T0, m.val), (PRF_T_CMD_CODE_CODE, 0), (PRF_T_STAT_RUN, bit (decide ¬full)), (PRF_T_STAT_FULL, bit (decide full))] s
            { s with resp := t.resp, prf := { s.prf with cfg := s.rd PRF_T_CFG_MASTERS.addr, alo := s.rd PRF_T_ALO_ADDR.addr, ahi := s.rd PRF_T_AHI_ADDR.addr } } t)) ∧
      (s.on PRF_T_CMD_STOP = false → Completes (.traceStop m) s (SetsBy m [(PRF_T_CMD_CODE_CODE, 0), (PRF_T_STAT_RUN, 0)] s)) ∧
      (s.on PRF_T_CMD_RESET = false → (s.on PRF_T_STAT_RUN = true → Completes (.traceReset m) s (SetsBy m [(PRF_T_CMD_CODE_CODE, 1)] s)) ∧
        (s.on PRF_T_STAT_RUN = false → Completes (.traceReset m) s (fun t => AnsweredBy m true [] s t ∧
          SetsOver [(BMX_PARK_T0, m.val), (PRF_T_CMD_CODE_CODE, 0), (PRF_T_STAT_FULL, 0), (PRF_T_STAT_LEVEL, 0), (PRF_T_HEAD_HEAD, 0)] s
            { s with resp := t.resp, prf := { s.prf with trace := [] } } t))) ∧
      (∀ idx : Word,
        let h := s.g PRF_T_HEAD_HEAD
        let n := idx.toNat
        let age := (h + 2 ^ 32 - n) % 2 ^ 32
        let there := 1 ≤ age ∧ age ≤ 512 ∧ tget (fun _ => []) s.prf.trace (n % 512) ≠ []
        let l := if there then tget (fun _ => []) s.prf.trace (n % 512) else []
        Completes (.tRdIdxWrite m idx) s (SetsBy m ([(PRF_T_RD_IDX_IDX m, n), (PRF_T_REC_CTRL_VALID m, bit (decide there)), (PRF_T_REC_CTRL_GONE m, bit (decide (¬there ∧ n < h))),
          (PRF_T_REC_CTRL_AHEAD m, bit (decide (¬there ∧ h ≤ n)))] ++ (List.range 4).map (fun i => (PRF_T_REC_DATA m i, (l.getD i 0).toNat))) s)) ∧
      (s.on PRF_E_CMD_POP = false → Completes (.pop m) s (fun t => AnsweredBy m true [] s t ∧
        SetsOver ((BMX_PARK_T0, m.val) :: tagFlds (s.prf.tags.drop 1)) s { s with resp := t.resp, prf := { s.prf with tags := s.prf.tags.drop 1 } } t))) ∧
    (∀ (e : Fin 64) (pc : Nat) (instr cycle : Word) (stall causes complete : Nat) (fault : Bool), pc < 0x8000 →
      let run := s.ready 0x1F000 = true ∧ s.on PRF_E_CFG_EN = true ∧ s.prf.mask / 2 ^ e.val % 2 = 1
      let l := s.prf.tags ++ [[BitVec.ofNat 32 (pc + 0x10000 * e + 0x400000 * s.g (FE_STAT_ACT_BANK e)), instr, cycle,
        BitVec.ofNat 32 (min 65535 stall + 0x10000 * (causes % 16) + 0x100000 * (if fault then 4095 else min 4095 complete))]]
      (run → s.prf.tags.length < 64 → Completes (.instrTagRecord e pc instr cycle stall causes complete fault) s
        (SetsOver (tagFlds l) s { s with prf := { s.prf with tags := l } })) ∧
      (run → 64 ≤ s.prf.tags.length → Completes (.instrTagRecord e pc instr cycle stall causes complete fault) s (Sets (occFlds s PRF_TAG_LOST_OCC_COUNT.addr) s)) ∧
      (¬run → Ignored (.instrTagRecord e pc instr cycle stall causes complete fault) s))

/-- Resolution of an epoch (R50). An epoch within 32 ns of a boundary resolves to that boundary, and any other to the boundary that its frame,
or its microsecond, begins with. The boundary in ns is its SFN's frame and its tick. -/
def Obligations.EpochsResolveToBoundaries : Prop :=
  ∀ (us : Bool) (t n : Nat),
    let p := if us then 1000 else 125000
    let b := resolveNs t (classPeriod us)
    (n * p ≤ t + 32 → t ≤ n * p + 32 → b = n * p) ∧
    (n * p ≤ t → t + 32 < (n + 1) * p → b = n * p) ∧
    sfnOfNs b = b / 125000 ∧ b = 125000 * sfnOfNs b + 1000 * tickOfNs us b ∧ tickOfNs us b < 125 ∧ (us = false → tickOfNs us b = 0)

/-- A recorded sample (R405): bin 0 holds every sample below EDGE0, bin k of 1 to 30 those in [EDGE0 + (k − 1) × STEP, EDGE0 + k × STEP),
bin 31 the rest; the bin and N count, up to 0xFFFFFFFF; MIN and MAX follow, also where they have saturated. -/
def Obligations.RecordedSamplesUpdateTheGauge : Prop :=
  ∀ (s : State) (g : Fin 16) (v : Int), -(2 : Int) ^ 31 ≤ v → v < 2 ^ 31 →
    let e := s.int (MON_G_EDGE0_EDGE0 g)
    let st : Int := max 1 (s.g (MON_G_STEP_STEP g) : Int)
    ∀ k : Fin 32,
      (k.val = 0 → v < e) → (0 < k.val → e + (k.val - 1) * st ≤ v) → (0 < k.val → k.val < 31 → v < e + k.val * st) →
      Sets [(MON_G_BIN_COUNT g k, min 0xFFFFFFFF (s.g (MON_G_BIN_COUNT g k) + 1)), (MON_G_N_N g, min 0xFFFFFFFF (s.g (MON_G_N_N g) + 1)),
        (MON_G_MIN_MIN g, word32 (min (s.int (MON_G_MIN_MIN g)) v)), (MON_G_MAX_MAX g, word32 (max (s.int (MON_G_MAX_MAX g)) v))] s (gaugeRecord s g v)

/-- The performance counters' fields. -/
def Sys2Proof.prfFlds : List Fld := (List.range 64).flatMap (fun i => [PRF_P_VAL_COUNT i, PRF_P_VAL_HI_COUNT i, PRF_P_VAL_HI_OVF i])

/-- Bit `v` of a mask. -/
abbrev Sys2Proof.has (x v : Nat) : Prop := x / 2 ^ v % 2 = 1

/-- What follows every command (R366 to R368): a vector whose level rises sends once until its EOI, where MSI-X is enabled; masked, it becomes
pending; INT_N is low while a vector of INTN_MASK has level 1 (R369). Nothing else changes but the counters of event 14 of Table 19-3. -/
def Obligations.SettleTouchesInterruptsOnly : Prop :=
  ∀ s : State,
    let t := s.settle
    let rises (v : Nat) : Prop := has (irqLevels s) v ∧ ¬has s.hst.vecLvl v ∧ has s.hst.armed v ∧ s.hst.msixEn = true
    let open_ (v : Nat) : Prop := s.hst.fnMask = false ∧ ¬has s.hst.vecMask v
    t = { s with regs := t.regs, wire := t.wire, free := t.free, hst := { s.hst with vecLvl := irqLevels s, armed := t.hst.armed, vecPend := t.hst.vecPend, sentAt := t.hst.sentAt, intN := decide (irqLevels s &&& s.g IRQ_INTN_MASK_MASK ≠ 0) } } ∧
    RegsKeep prfFlds s t ∧
    (∃ l : List (Fin 32), t.wire = l.map (fun v => .msix v.val) ++ s.wire ∧ l.Nodup ∧ ∀ v : Fin 32, v ∈ l ↔ rises v ∧ open_ v) ∧
    ∀ v : Nat, v < 32 →
      (rises v → open_ v → ¬has t.hst.armed v ∧ ¬has t.hst.vecPend v ∧ tget (fun _ => 0) t.hst.sentAt v = s.nowNs + 1) ∧
      (rises v → ¬open_ v → has t.hst.armed v ∧ has t.hst.vecPend v ∧ tget (fun _ => 0) t.hst.sentAt v = tget (fun _ => 0) s.hst.sentAt v) ∧
      (¬rises v → (has t.hst.armed v ↔ has s.hst.armed v) ∧ (has t.hst.vecPend v ↔ has s.hst.vecPend v) ∧
        tget (fun _ => 0) t.hst.sentAt v = tget (fun _ => 0) s.hst.sentAt v)

/-- A step takes the command that has waited longest and runs it with the rest of the queue; with none waiting the block idles (the model's
choice, log entry 1). -/
def Obligations.StepRunsTheFrontCommand : Prop :=
  ∀ (s : State) (c : Instr) (rest : List Instr),
    step { s with pending := c :: rest } = exec c { s with pending := rest } ∧ step { s with pending := [] } = .next { s with pending := [] }

/-- `n` steps, each of which answers a next state. -/
def Sys2Proof.steps : Nat → State → State → Prop
  | 0, s, t => t = s
  | n + 1, s, t => ∃ u : State, step s = .next u ∧ steps n u t

/-- Every command completes: `n` steps take the first `n` commands of the queue, in order, and none adds one; as many steps as commands wait
empty it. -/
def Obligations.EveryStepConsumesOneCommand : Prop :=
  ∀ (s : State) (n : Nat), n ≤ s.pending.length → ∃ t : State, steps n s t ∧ t.pending = s.pending.drop n

/-- What reset leaves (R2, R49, R233, R303, R310, R356, R374, R375, R403 and the reset columns of the register tables): the block held in its
cold reset, in BOOT, no command waiting, the registers at the values that the tables give. -/
def Obligations.ResetLeavesTheTablesValues : Prop :=
  let s := State.reset
  s.pwr.inReset = true ∧ s.pending = [] ∧ s.mode = 0 ∧ s.rd 0 = 0x0D192000 ∧
  (∀ p ∈ ([(DEV_Q_CAUSE_FIRST, 7), (PWR_TJ_WARN_C, 100), (TB_CFG_HO_WIN, 4), (TB_TB_INC_NS, 2), (TB_TOD_CFG_BAUD, 4), 
    (PLK_LEAD_LOCAL_US, 64), (PLK_LEAD_WIDE_US, 256), (BMX_AGE_AGE_LIM, 16), (TWN_CFG_AUTO_TAKE, 1), (TWN_CFG_AUTO_REJOIN, 1), (TWN_CFG_TB_FOLLOW, 1),
    (TWN_CFG_PORT, 7), (TWN_DIV_CFG_DIV_N, 2), (TWN_DIV_CFG_DIV_M, 8), (TWN_DIV_CFG_HB_MISS, 5), (TWN_DIV_CFG_TVW_MS, 10), (TWN_DIV_CFG_CONV_LIM, 10),
    (GRP_PX_TMO_US, 50), (GLV_CFG_HELLO_MS, 1), (GLV_CFG_RETRY_US, 20), (GLV_CFG_RETRY_MAX, 8), (CAL_CFG_BG_EN, 7), (CAL_CFG_TRIG_C, 6),
    (CAL_CFG_PERIOD_MIN, 60), (CAL_CFG_MIN_MARGIN, 20), (PRF_T_CFG_MASTERS, 0xFF), (PRF_T_CFG_TARGETS, 0x8F), (PRF_E_CFG_MEAN_LOG2, 10)] : List (Fld × Nat)),
    s.g p.1 = p.2) ∧
  (∀ q : Fin 4, s.g (TB_RCLK_SRC q) = 0x1FF ∧ s.g (TB_TT_CFG_AVG_LOG2 q) = 6) ∧ (∀ c : Fin 8, s.g (BMX_DMA_CFG_SIZE_LOG2 c) = 3) ∧
  (∀ g : Fin 16, s.g (MON_G_STEP_STEP g) = 1 ∧ s.g (MON_G_MIN_MIN g) = 0x7FFFFFFF ∧ s.g (MON_G_MAX_MAX g) = 0x80000000) ∧
  (∀ e : Fin 64, s.g (FE_CTL_WDOG_FR e) = 8) ∧
  (∀ c : Fin 192, s.g (CH_DISC_CFG_RATE_MASK c) = 0x5FF ∧ s.g (CH_DISC_TIME_HOLD_MS c) = 100 ∧ s.g (CH_ALN_TIME_LOF_SET c) = 24 ∧
    s.g (CH_BER_CFG_SF_EXP c) = 3 ∧ s.g (CH_BER_CFG_SD_EXP c) = 6 ∧ s.g (CH_CA_MASK_MASK c) = 0x182)

/-- The canonical form holds at reset. -/
def Obligations.ResetTablesAreCanonical : Prop := State.reset.tablesWf = true

/-- The canonical form of the registers, the fuse array, the flash, the SRAM, the overhead buffers and the state copies is kept by every
command and every step. -/
def Obligations.StepsKeepTablesCanonical : Prop :=
  ∀ s : State, s.tablesWf = true →
    (∀ (c : Instr) (t : State), exec c s = .next t → t.tablesWf = true) ∧ ∀ t : State, step s = .next t → t.tablesWf = true
end

