-- ==== Sys2Proof/Laws/Word.lean ====
section
/-!
SUPPORT. What the sparse table and the field accessors do: a read after a write, at the same place and elsewhere, and the
canonical form kept by every write.
-/

namespace Sys2Proof

theorem tget_tins_same {α : Type} (d : Nat → α) (k : Nat) (v : α) (t : Tab α) :
    (∀ p ∈ t, p.1 ≠ k) → tget d (tins k v t) k = v := by
  induction t with
  | nil => intro _; simp [tins, tget]
  | cons p r ih =>
    intro h
    have hp : p.1 ≠ k := h p (by simp)
    simp only [tins]
    split
    · simp [tget]
    · simp only [tget, hp, if_false]
      exact ih (fun q hq => h q (by simp [hq]))

theorem tget_tins_ne {α : Type} (d : Nat → α) (k q : Nat) (v : α) (t : Tab α) (h : q ≠ k) :
    tget d (tins k v t) q = tget d t q := by
  induction t with
  | nil => simp [tins, tget, Ne.symm h]
  | cons p r ih =>
    simp only [tins]
    split
    · simp [tget, Ne.symm h]
    · simp only [tget, ih]

theorem tget_filter_ne {α : Type} (d : Nat → α) (k q : Nat) (t : Tab α) (h : q ≠ k) :
    tget d (t.filter (fun p => p.1 != k)) q = tget d t q := by
  induction t with
  | nil => rfl
  | cons p r ih =>
    by_cases hp : p.1 = k
    · have : ¬ p.1 = q := fun e => h (by omega)
      simp [List.filter, hp, tget, Ne.symm h]
      simpa using ih
    · have hb : (p.1 != k) = true := by simp [hp]
      simp only [List.filter, hb, tget, ih]

theorem tget_of_absent {α : Type} (d : Nat → α) (k : Nat) (t : Tab α) (h : ∀ p ∈ t, p.1 ≠ k) :
    tget d t k = d k := by
  induction t with
  | nil => rfl
  | cons p r ih =>
    simp only [tget, h p (by simp), if_false]
    exact ih (fun q hq => h q (by simp [hq]))

theorem filter_absent {α : Type} (k : Nat) (t : Tab α) :
    ∀ p ∈ t.filter (fun p => p.1 != k), p.1 ≠ k := by
  intro p hp
  simpa using (List.mem_filter.mp hp).2

/-- A read after a write of the same key gives the value written. -/
@[simp] theorem tget_tset_same {α : Type} [DecidableEq α] (d : Nat → α) (t : Tab α) (k : Nat) (v : α) :
    tget d (tset d t k v) k = v := by
  unfold tset
  split
  · next h => rw [tget_of_absent d k _ (filter_absent k t)]; exact h.symm
  · exact tget_tins_same d k v _ (filter_absent k t)

/-- A write leaves every other key alone. -/
theorem tget_tset_ne {α : Type} [DecidableEq α] (d : Nat → α) (t : Tab α) (k q : Nat) (v : α) (h : q ≠ k) :
    tget d (tset d t k v) q = tget d t q := by
  unfold tset
  split
  · exact tget_filter_ne d k q t h
  · rw [tget_tins_ne d k q v _ h]; exact tget_filter_ne d k q t h

theorem twf_filter {α : Type} [DecidableEq α] (d : Nat → α) (f : Nat × α → Bool) (t : Tab α) (h : twf d t = true) :
    twf d (t.filter f) = true := by
  induction t with
  | nil => rfl
  | cons p r ih =>
    simp only [twf, Bool.and_eq_true] at h
    obtain ⟨⟨h1, h2⟩, h3⟩ := h
    by_cases hf : f p = true
    · simp only [List.filter, hf, twf, Bool.and_eq_true]
      refine ⟨⟨h1, ?_⟩, ih h3⟩
      rw [List.all_eq_true] at h2 ⊢
      intro q hq
      exact h2 q (List.mem_filter.mp hq).1
    · simp only [List.filter, hf]
      exact ih h3

theorem tins_all {α : Type} (k : Nat) (v : α) (t : Tab α) (f : Nat × α → Bool) (h : t.all f = true)
    (hk : f (k, v) = true) : (tins k v t).all f = true := by
  induction t with
  | nil => simp [tins, hk]
  | cons p r ih =>
    simp only [List.all_cons, Bool.and_eq_true] at h
    simp only [tins]
    split
    · simp [hk, h.1]; simpa using h.2
    · simp only [List.all_cons, Bool.and_eq_true]
      exact ⟨h.1, ih h.2⟩

theorem twf_tins {α : Type} [DecidableEq α] (d : Nat → α) (k : Nat) (v : α) (t : Tab α)
    (h : twf d t = true) (hv : v ≠ d k) (ha : ∀ p ∈ t, p.1 ≠ k) : twf d (tins k v t) = true := by
  induction t with
  | nil => simp [tins, twf, hv]
  | cons p r ih =>
    have h0 := h
    simp only [twf, Bool.and_eq_true] at h
    obtain ⟨⟨h1, h2⟩, h3⟩ := h
    simp only [tins]
    split
    · next hlt =>
      have hall : (p :: r).all (fun q => decide (k < q.1)) = true := by
        simp only [List.all_cons, Bool.and_eq_true, decide_eq_true_eq]
        refine ⟨hlt, ?_⟩
        rw [List.all_eq_true] at h2 ⊢
        intro q hq
        have := h2 q hq
        simp only [decide_eq_true_eq] at this ⊢
        omega
      unfold twf
      simp only [Bool.and_eq_true]
      exact ⟨⟨by simp [hv], hall⟩, h0⟩
    · next hge =>
      have hne := ha p (by simp)
      simp only [twf, Bool.and_eq_true]
      refine ⟨⟨h1, tins_all k v r _ h2 (by simp; omega)⟩, ih h3 (fun q hq => ha q (by simp [hq]))⟩

/-- Every write keeps the canonical form. -/
theorem twf_tset {α : Type} [DecidableEq α] (d : Nat → α) (t : Tab α) (k : Nat) (v : α) (h : twf d t = true) :
    twf d (tset d t k v) = true := by
  unfold tset
  split
  · exact twf_filter d _ t h
  · next hv => exact twf_tins d k v _ (twf_filter d _ t h) hv (filter_absent k t)

theorem getLsbD_fieldMask (lo w i : Nat) :
    (fieldMask lo w).getLsbD i = (decide (i < 32) && decide (lo ≤ i) && decide (i < lo + w)) := by
  unfold fieldMask
  simp only [BitVec.getLsbD_shiftLeft, BitVec.getLsbD_setWidth, BitVec.getLsbD_allOnes]
  by_cases h1 : i < 32 <;> by_cases h2 : lo ≤ i <;> simp [h1, h2]
  by_cases h3 : i < lo + w <;> simp [h3] <;> omega

/-- A field read after it was written gives the low bits of the value written. -/
theorem wordGet_wordSet_same (x : Word) (lo w v : Nat) (h : lo + w ≤ 32) :
    wordGet (wordSet x lo w v) lo w = v % 2 ^ w := by
  have : (wordSet x lo w v).extractLsb' lo w = BitVec.ofNat w v := by
    apply BitVec.eq_of_getLsbD_eq
    intro i hi
    simp only [BitVec.getLsbD_extractLsb', wordSet, BitVec.getLsbD_or, BitVec.getLsbD_and, BitVec.getLsbD_not,
      getLsbD_fieldMask, BitVec.getLsbD_shiftLeft, BitVec.getLsbD_ofNat]
    have h1 : lo + i < 32 := by omega
    have h2 : i < 32 := by omega
    simp [hi, h1, h2]
  rw [wordGet, this, BitVec.toNat_ofNat]

/-- A write of one field leaves a field that shares no bit with it alone. -/
theorem wordGet_wordSet_disjoint (x : Word) (lo w v lo' w' : Nat) (h : lo' + w' ≤ lo ∨ lo + w ≤ lo') :
    wordGet (wordSet x lo w v) lo' w' = wordGet x lo' w' := by
  have : (wordSet x lo w v).extractLsb' lo' w' = x.extractLsb' lo' w' := by
    apply BitVec.eq_of_getLsbD_eq
    intro i hi
    simp only [BitVec.getLsbD_extractLsb', wordSet, BitVec.getLsbD_or, BitVec.getLsbD_and, BitVec.getLsbD_not,
      getLsbD_fieldMask]
    have hm : (decide (lo ≤ lo' + i) && decide (lo' + i < lo + w)) = false := by
      rcases h with h | h
      · simp; omega
      · simp; omega
    rw [Bool.and_assoc, hm]
    simp [hi]
    by_cases h32 : lo' + i < 32
    · simp [h32]
    · simp [BitVec.getLsbD_of_ge x (lo' + i) (by omega)]
  rw [wordGet, wordGet, this]

end Sys2Proof
end

