-- ==== Sys2Proof/Laws/Regs.lean ====
section
/-!
SUPPORT. What the register operations do, once: a field read after a write, the bits that a list of writes keeps, occurrence counters,
result sets, completions.
-/

namespace Sys2Proof.Machine

open Sys2Proof

theorem covers_nil (k i : Nat) : covers [] k i = false := rfl

theorem covers_append (a b : List Fld) (k i : Nat) : covers (a ++ b) k i = (covers a k i || covers b k i) := by
  simp [covers, List.any_append]

theorem covers_cons (f : Fld) (l : List Fld) (k i : Nat) :
    covers (f :: l) k i = (f.addr == k && decide (f.lo ≤ i) && decide (i < f.lo + f.w) || covers l k i) := by
  simp [covers]

theorem rd_setFld (t : Tab Word) (f : Fld) (v k : Nat) :
    tget resetWordOf (setFld t f v) k = if k = f.addr then wordSet (tget resetWordOf t k) f.lo f.w v else tget resetWordOf t k := by
  unfold setFld
  split
  · next h => subst h; simp
  · next h => exact tget_tset_ne _ _ _ _ _ h

theorem setFlds_append (a b : List (Fld × Nat)) (t : Tab Word) : setFlds (a ++ b) t = setFlds b (setFlds a t) := by
  induction a generalizing t with
  | nil => rfl
  | cons p a ih => exact ih _

theorem u_append (s : State) (a b : List (Fld × Nat)) : s.u (a ++ b) = (s.u a).u b := by
  simp [State.u, setFlds_append]

theorem u_cons (s : State) (p : Fld × Nat) (l : List (Fld × Nat)) : s.u (p :: l) = (s.u [p]).u l := rfl

theorem u_nil (s : State) : s.u [] = s := rfl

/-- A field after a write of that field. -/
theorem g_u_same (s : State) (f : Fld) (v : Nat) (h : f.lo + f.w ≤ 32) : (s.u [(f, v)]).g f = v % 2 ^ f.w := by
  simp [State.u, setFlds, State.g, State.rd, rd_setFld, wordGet_wordSet_same _ _ _ _ h]

/-- A field after a write of a field that shares no bit with it. -/
theorem g_u_ne (s : State) (f q : Fld) (v : Nat) (h : q.addr ≠ f.addr ∨ q.lo + q.w ≤ f.lo ∨ f.lo + f.w ≤ q.lo) :
    (s.u [(f, v)]).g q = s.g q := by
  simp only [State.u, setFlds, State.g, State.rd, rd_setFld]
  split
  · next e => rw [wordGet_wordSet_disjoint]; rcases h with h | h | h <;> omega
  · rfl

theorem getLsbD_wordSet (x : Word) (lo w v i : Nat) (h : ¬ (lo ≤ i ∧ i < lo + w)) : (wordSet x lo w v).getLsbD i = x.getLsbD i := by
  simp only [wordSet, BitVec.getLsbD_or, BitVec.getLsbD_and, BitVec.getLsbD_not, getLsbD_fieldMask]
  have : (decide (lo ≤ i) && decide (i < lo + w)) = false := by simp; omega
  rw [Bool.and_assoc, this]
  by_cases hi : i < 32
  · simp [hi]
  · simp [BitVec.getLsbD_of_ge x i (by omega)]

theorem keep_refl (l : List Fld) (s : State) : RegsKeep l s s := fun _ _ _ _ => rfl

theorem keep_trans {a b : List Fld} {s t u : State} (h1 : RegsKeep a s t) (h2 : RegsKeep b t u) : RegsKeep (a ++ b) s u := by
  intro k i hi hc
  rw [covers_append, Bool.or_eq_false_iff] at hc
  exact (h2 k i hi hc.2).trans (h1 k i hi hc.1)

theorem keep_mono {a b : List Fld} {s t : State} (h : RegsKeep a s t) (hab : ∀ k i, covers b k i = false → covers a k i = false) :
    RegsKeep b s t := fun k i hi hc => h k i hi (hab k i hc)

/-- What is kept depends on the register file alone. -/
theorem keep_congr {l : List Fld} {s t s' t' : State} (h : RegsKeep l s t) (hs : s'.regs = s.regs) (ht : t'.regs = t.regs) :
    RegsKeep l s' t' := by
  intro k i hi hc
  simpa [State.rd, hs, ht] using h k i hi hc

theorem keep_u1 (s : State) (f : Fld) (v : Nat) : RegsKeep [f] s (s.u [(f, v)]) := by
  intro k i hi hc
  simp only [State.u, setFlds, State.rd, rd_setFld]
  split
  · next e =>
    subst e
    apply getLsbD_wordSet
    simp [covers_cons, covers_nil] at hc
    omega
  · rfl

/-- A list of writes keeps every bit outside its fields. -/
theorem keep_u (s : State) (l : List (Fld × Nat)) : RegsKeep (l.map Prod.fst) s (s.u l) := by
  induction l generalizing s with
  | nil => exact keep_refl _ _
  | cons p l ih => rw [u_cons]; exact keep_trans (keep_u1 s p.1 p.2) (ih (s.u [p]))

/-- Two fields share no bit. -/
def apart (f q : Fld) : Prop := q.addr ≠ f.addr ∨ q.lo + q.w ≤ f.lo ∨ f.lo + f.w ≤ q.lo

theorem g_u_apart (s : State) (l : List (Fld × Nat)) (q : Fld) (h : ∀ p ∈ l, apart p.1 q) : (s.u l).g q = s.g q := by
  induction l generalizing s with
  | nil => rfl
  | cons p l ih =>
    rw [u_cons, ih _ (fun x hx => h x (by simp [hx]))]
    exact g_u_ne s p.1 q p.2 (h p (by simp))

/-- After a list of writes to fields that share no bit, each field holds what was written. -/
theorem g_u_mem (s : State) (l : List (Fld × Nat)) (hd : l.Pairwise (fun p q => apart q.1 p.1)) (p : Fld × Nat) (hp : p ∈ l)
    (hw : p.1.lo + p.1.w ≤ 32) : (s.u l).g p.1 = p.2 % 2 ^ p.1.w := by
  induction l generalizing s with
  | nil => cases hp
  | cons a l ih =>
    rw [u_cons]
    rw [List.pairwise_cons] at hd
    rcases List.mem_cons.mp hp with rfl | hm
    · rw [g_u_apart _ _ _ (fun x hx => hd.1 x hx)]
      exact g_u_same s p.1 p.2 hw
    · exact ih _ hd.2 hm

/-- Writes to fields that share no bit set them, where each value fits its field. -/
theorem regs_u (s : State) (l : List (Fld × Nat)) (hd : l.Pairwise (fun p q => apart q.1 p.1))
    (hw : ∀ p ∈ l, p.1.lo + p.1.w ≤ 32 ∧ p.2 < 2 ^ p.1.w) : Regs l s (s.u l) := by
  refine ⟨fun p hp => ?_, keep_u s l⟩
  rw [g_u_mem s l hd p hp (hw p hp).1, Nat.mod_eq_of_lt (hw p hp).2]

theorem sets_u (s : State) (l : List (Fld × Nat)) (hd : l.Pairwise (fun p q => apart q.1 p.1))
    (hw : ∀ p ∈ l, p.1.lo + p.1.w ≤ 32 ∧ p.2 < 2 ^ p.1.w) : Sets l s (s.u l) := ⟨rfl, regs_u s l hd hw⟩

theorem bit_lt (b : Bool) : bit b < 2 := by cases b <;> decide

theorem g_lt (s : State) (f : Fld) : s.g f < 2 ^ f.w := by
  unfold State.g wordGet; exact BitVec.isLt _

/-- A completion of a master changes nothing but that master's record, and the park of target 0. -/
theorem answer_eq (s : State) (m : Nat) (ok : Bool) (data : List Word) (h : s.busRuns = true) :
    s.answer m ok data =
      { s with resp := tset (fun _ => ⟨true, []⟩) s.resp m ⟨ok, data⟩ }.u [(BMX_PARK_T0, m)] := by
  have h2 : ({ s with resp := tset (fun _ => ⟨true, []⟩) s.resp m ⟨ok, data⟩ } : State).busRuns = true := h
  simp [State.answer, State.reply, h, State.park, h2, BMX_PARK_T0]

theorem answeredBy_answer (s : State) (m : Nat) (ok : Bool) (data : List Word) (h : s.busRuns = true) (hm : m < 8) :
    AnsweredBy m ok data s (s.answer m ok data) := by
  rw [answer_eq s m ok data h]
  refine ⟨?_, ?_, ?_⟩
  · simp [State.respOf, State.u]
  · intro q hq
    simp only [State.respOf, State.u]
    exact tget_tset_ne _ _ _ _ _ hq
  · rw [g_u_same _ _ _ (by decide)]
    exact Nat.mod_eq_of_lt hm

end Sys2Proof.Machine
end

