-- ==== Sys2Proof/Laws/Pending.lean ====
section
/-!
SUPPORT. No operation of the block touches the queue of waiting commands: one lemma per operation and per command, and `exec_quiet`
for all of them. A command's meaning takes the state without the command itself; `step` has removed it.
-/

namespace Sys2Proof.Machine

set_option maxRecDepth 4000
set_option linter.all false

open Sys2Proof

@[simp] theorem pend_ite (c : Prop) [Decidable c] (a b : State) : (if c then a else b).pending = if c then a.pending else b.pending := by split <;> rfl

@[simp] theorem pend_foldl {α : Type} (f : State → α → State) (l : List α) (s : State) (h : ∀ t a, (f t a).pending = t.pending) :
    (l.foldl f s).pending = s.pending := by
  induction l generalizing s with
  | nil => rfl
  | cons a l ih => exact (ih _).trans (h s a)

@[simp] theorem pend_foldl1 {α β : Type} (f : State × β → α → State × β) (l : List α) (p : State × β)
    (h : ∀ q a, (f q a).1.pending = q.1.pending) : (l.foldl f p).1.pending = p.1.pending := by
  induction l generalizing p with
  | nil => rfl
  | cons a l ih => exact (ih _).trans (h p a)

@[simp] theorem pend_foldl2 {α β : Type} (f : β × State → α → β × State) (l : List α) (p : β × State)
    (h : ∀ q a, (f q a).2.pending = q.2.pending) : (l.foldl f p).2.pending = p.2.pending := by
  induction l generalizing p with
  | nil => rfl
  | cons a l ih => exact (ih _).trans (h p a)

@[simp] theorem pend_ite_fst {β : Type} (c : Prop) [Decidable c] (a b : State × β) : (if c then a else b).1.pending = if c then a.1.pending else b.1.pending := by split <;> rfl

@[simp] theorem pend_ite_snd {β : Type} (c : Prop) [Decidable c] (a b : β × State) : (if c then a else b).2.pending = if c then a.2.pending else b.2.pending := by split <;> rfl

@[simp] theorem pend_u (s : State) (l : List (Fld × Nat))  : (State.u s l).pending = s.pending := by
  simp [State.u]

@[simp] theorem pend_setWord (s : State) (k : Nat) (w : Word)  : (State.setWord s k w).pending = s.pending := by
  simp [State.setWord]

@[simp] theorem pend_occ (s : State) (k : Nat)  : (State.occ s k).pending = s.pending := by
  simp [State.occ]

@[simp] theorem pend_occN (s : State) (k n : Nat) : (State.occN s k n).pending = s.pending := by
  induction n generalizing s with
  | zero => rfl
  | succ n ih => exact ih _

@[simp] theorem pend_occAckWrite (s : State) (k : Nat) (v : Nat)  : (State.occAckWrite s k v).pending = s.pending := by
  simp [State.occAckWrite]

@[simp] theorem pend_pmAdd (s : State) (f : Fld) (n : Nat)  : (State.pmAdd s f n).pending = s.pending := by
  simp [State.pmAdd]

@[simp] theorem pend_perfAdd (s : State) (k : Nat) (n : Nat)  : (State.perfAdd s k n).pending = s.pending := by
  simp [State.perfAdd]

@[simp] theorem pend_begin (s : State) (k : Nat)  : (State.begin s k).pending = s.pending := by
  simp [State.begin]

@[simp] theorem pend_result (s : State) (k : Nat) (failed : Bool) (l : List (Fld × Nat))  : (State.result s k failed l).pending = s.pending := by
  simp [State.result]

@[simp] theorem pend_draw (s : State)  : (State.draw s).pending = s.pending := by
  simp [State.draw]

@[simp] theorem pend_reply (s : State) (m : Nat) (ok : Bool) (data : List Word)  : (State.reply s m ok data).pending = s.pending := by
  simp [State.reply]

@[simp] theorem pend_park (s : State) (t : Nat) (m : Nat)  : (State.park s t m).pending = s.pending := by
  simp [State.park]

@[simp] theorem pend_answer (s : State) (m : Nat) (ok : Bool) (data : List Word)  : (State.answer s m ok data).pending = s.pending := by
  simp [State.answer]

@[simp] theorem pend_send (s : State) (w : Wire)  : (State.send s w).pending = s.pending := by
  simp [State.send]

@[simp] theorem pend_onPlk (s : State) (f : Plk → Plk)  : (State.onPlk s f).pending = s.pending := by
  simp [State.onPlk]

@[simp] theorem pend_eyeStart (s : State) (lg : Nat)  : (eyeStart s lg).pending = s.pending := by
  simp [eyeStart]

@[simp] theorem pend_wlost (s : State) (m : Nat) (a : Nat)  : (State.wlost s m a).pending = s.pending := by
  simp [State.wlost]

@[simp] theorem pend_lockViol (s : State) (m : Nat) (a : Nat)  : (State.lockViol s m a).pending = s.pending := by
  simp [State.lockViol]

@[simp] theorem pend_busyViol (s : State) (m : Nat) (a : Nat)  : (State.busyViol s m a).pending = s.pending := by
  simp [State.busyViol]

@[simp] theorem pend_command (s : State) (m : Nat) (c : Fld) (k : State → State) (h_k : ∀ y0, (k y0).pending = y0.pending) : (State.command s m c k).pending = s.pending := by
  unfold State.command; (repeat' split) <;> simp [*]

@[simp] theorem pend_setSpe (s : State) (g : Nat) (x : Spe)  : (State.setSpe s g x).pending = s.pending := by
  simp [State.setSpe]

@[simp] theorem pend_setOdu (s : State) (g : Nat) (x : OduSt)  : (State.setOdu s g x).pending = s.pending := by
  simp [State.setOdu]

@[simp] theorem pend_speFresh (s : State) (g : Nat)  : (speFresh s g).pending = s.pending := by
  simp [speFresh]

@[simp] theorem pend_each {α : Type} (s : State) (l : List α) (f : State → α → State) (h_f : ∀ y0 y1, (f y0 y1).pending = y0.pending) : (State.each s l f).pending = s.pending := by
  unfold State.each; (repeat' split) <;> simp [*]

@[simp] theorem pend_irqEoi (s : State) (mask : Nat)  : (irqEoi s mask).pending = s.pending := by
  simp [irqEoi]

@[simp] theorem pend_gaugeClear (s : State) (g : Nat)  : (gaugeClear s g).pending = s.pending := by
  simp [gaugeClear]

@[simp] theorem pend_gaugeRecord (s : State) (g : Nat) (v : Int)  : (gaugeRecord s g v).pending = s.pending := by
  simp [gaugeRecord]

@[simp] theorem pend_gaugeSample (s : State) (src : Nat) (idx : Nat) (v : Int)  : (gaugeSample s src idx v).pending = s.pending := by
  simp [gaugeSample]

@[simp] theorem pend_prfCount (s : State) (ev : Nat) (hit : Nat → Bool)  : (prfCount s ev hit).pending = s.pending := by
  simp [prfCount]

@[simp] theorem pend_afterSend (s : State) (l : List Nat)  : (afterSend s l).pending = s.pending := by
  simp [afterSend]

@[simp] theorem pend_settle (s : State)  : (State.settle s).pending = s.pending := by
  simp [State.settle]

@[simp] theorem pend_vecUnmask (s : State)  : (vecUnmask s).pending = s.pending := by
  simp [vecUnmask]

@[simp] theorem pend_eoiWrite (s : State) (mask : Nat)  : (eoiWrite s mask).pending = s.pending := by
  simp [eoiWrite]

@[simp] theorem pend_onCal (s : State) (f : CalSt → CalSt)  : (State.onCal s f).pending = s.pending := by
  simp [State.onCal]

@[simp] theorem pend_calBusy (s : State)  : (calBusy s).pending = s.pending := by
  simp [calBusy]

@[simp] theorem pend_calAsk (s : State) (kind : Nat) (target : Nat) (host : Bool)  : (calAsk s kind target host).pending = s.pending := by
  simp [calAsk]

@[simp] theorem pend_calResult (s : State) (kind : Nat) (target : Nat) (code : Nat) (host : Bool) (fig0 : Nat) (fig1 : Nat)  : (calResult s kind target code host fig0 fig1).pending = s.pending := by
  simp [calResult]

@[simp] theorem pend_calFlag (s : State) (kind : Nat) (target : Nat) (fl : Nat)  : (calFlag s kind target fl).pending = s.pending := by
  unfold calFlag; (repeat' split) <;> simp [*]

@[simp] theorem pend_lcalRun (s : State) (m : Nat) (n : Nat)  : (lcalRun s m n).pending = s.pending := by
  simp [lcalRun]

@[simp] theorem pend_tcalRun (s : State) (m : Nat)  : (tcalRun s m).pending = s.pending := by
  simp [tcalRun]

@[simp] theorem pend_mcalRun (s : State) (m : Nat)  : (mcalRun s m).pending = s.pending := by
  simp [mcalRun]

@[simp] theorem pend_calTempTrigger (s : State)  : (calTempTrigger s).pending = s.pending := by
  simp [calTempTrigger]

@[simp] theorem pend_calBringup (s : State)  : (calBringup s).pending = s.pending := by
  simp [calBringup]

@[simp] theorem pend_calFail (s : State) (r : CalRun) (code : Nat)  : (calFail s r code).pending = s.pending := by
  simp [calFail]

@[simp] theorem pend_calStart (s : State) (kind : Nat) (target : Nat)  : (calStart s kind target).pending = s.pending := by
  unfold calStart; (repeat' split) <;> simp [*]

theorem pend_calTake (s : State) (kind target : Nat) (r : CalRun) (t : State) (h : calTake s kind target = some (r, t)) : t.pending = s.pending := by
  unfold calTake at h
  split at h
  · cases h
  · cases h; simp

@[simp] theorem pend_calComplete (s : State) (kind target : Nat) (rx tx : Int) (dq : List Nat) (fig0 fig1 : Nat) :
    (calComplete s kind target rx tx dq fig0 fig1).pending = s.pending := by
  unfold calComplete
  split
  · rfl
  · next r t h =>
    rw [← pend_calTake s kind target r t h]
    dsimp only
    split
    · simp
    · (repeat' split) <;> simp

@[simp] theorem pend_calAbort (s : State) (kind target code : Nat) : (calAbort s kind target code).pending = s.pending := by
  unfold calAbort
  split
  · rfl
  · split
    · rfl
    · next r t h => rw [← pend_calTake s kind target r t h]; simp

@[simp] theorem pend_calAbortAll (s : State) (hit : CalRun → Bool)  : (calAbortAll s hit).pending = s.pending := by
  simp [calAbortAll]

@[simp] theorem pend_calTick (s : State)  : (calTick s).pending = s.pending := by
  simp [calTick]

@[simp] theorem pend_fuseShow (s : State)  : (fuseShow s).pending = s.pending := by
  simp [fuseShow]

@[simp] theorem pend_fuseRead (s : State) (crcOk : Bool) (fact : List (Nat × Int))  : (fuseRead s crcOk fact).pending = s.pending := by
  simp [fuseRead]

@[simp] theorem pend_progDone (s : State) (code : Nat) (slot : Option Nat)  : (progDone s code slot).pending = s.pending := by
  simp [progDone]

@[simp] theorem pend_progStart (s : State) (low : Bool)  : (progStart s low).pending = s.pending := by
  unfold progStart; (repeat' split) <;> simp [*]

@[simp] theorem pend_blow (s : State) (i : Nat) (l : List Word)  : (blow s i l).pending = s.pending := by
  simp [blow]

@[simp] theorem pend_frCopy (s : State) (i : Nat)  : (frCopy s i).pending = s.pending := by
  simp [frCopy]

@[simp] theorem pend_fuseDone (s : State) (ok : Bool)  : (fuseDone s ok).pending = s.pending := by
  unfold fuseDone; (repeat' split) <;> simp [*]

@[simp] theorem pend_fuseCut (s : State) (n : Nat) (part : Word)  : (fuseCut s n part).pending = s.pending := by
  unfold fuseCut; (repeat' split) <;> simp [*]

@[simp] theorem pend_fuseAbort (s : State) (n : Nat) (part : Word)  : (fuseAbort s n part).pending = s.pending := by
  unfold fuseAbort; (repeat' split) <;> simp [*]

@[simp] theorem pend_calRestart (s : State)  : (calRestart s).pending = s.pending := by
  simp [calRestart]

@[simp] theorem pend_calReset (s : State)  : (calReset s).pending = s.pending := by
  simp [calReset]

@[simp] theorem pend_setMode (s : State) (m : Nat)  : (setMode s m).pending = s.pending := by
  simp [setMode]

@[simp] theorem pend_devDone (s : State) (cmd : Nat) (code : Nat)  : (devDone s cmd code).pending = s.pending := by
  simp [devDone]

@[simp] theorem pend_failReleases (s : State)  : (failReleases s).pending = s.pending := by
  simp [failReleases]

@[simp] theorem pend_enterQuarantine (s : State) (first : Nat)  : (enterQuarantine s first).pending = s.pending := by
  simp [enterQuarantine]

@[simp] theorem pend_fatalPresent (s : State)  : (fatalPresent s).pending = s.pending := by
  simp [fatalPresent]

@[simp] theorem pend_coldReset (s : State) (cause : Nat)  : (coldReset s cause).pending = s.pending := by
  simp [coldReset]

@[simp] theorem pend_roleInForce (s : State)  : (roleInForce s).pending = s.pending := by
  simp [roleInForce]

@[simp] theorem pend_coreLocked (s : State)  : (coreLocked s).pending = s.pending := by
  simp [coreLocked]

@[simp] theorem pend_queueMode (s : State) (cmd : Nat) (late : Bool)  : (queueMode s cmd late).pending = s.pending := by
  simp [queueMode]

@[simp] theorem pend_applyMode (s : State) (cmd : Nat)  : (applyMode s cmd).pending = s.pending := by
  simp [applyMode]

@[simp] theorem pend_modeBoundary (s : State)  : (modeBoundary s).pending = s.pending := by
  simp [modeBoundary]

@[simp] theorem pend_modesNow (s : State)  : (modesNow s).pending = s.pending := by
  simp [modesNow]

@[simp] theorem pend_cmdBringup (s : State)  : (cmdBringup s).pending = s.pending := by
  simp [cmdBringup]

@[simp] theorem pend_cmdSolo (s : State) (late : Bool)  : (cmdSolo s late).pending = s.pending := by
  simp [cmdSolo]

@[simp] theorem pend_cmdQuarantine (s : State) (late : Bool)  : (cmdQuarantine s late).pending = s.pending := by
  simp [cmdQuarantine]

@[simp] theorem pend_cmdRelease (s : State) (late : Bool)  : (cmdRelease s late).pending = s.pending := by
  simp [cmdRelease]

@[simp] theorem pend_pageFail (s : State) (pg : Nat)  : (pageFail s pg).pending = s.pending := by
  simp [pageFail]

@[simp] theorem pend_pageInit (s : State) (pg : Nat) (ok : Bool)  : (pageInit s pg ok).pending = s.pending := by
  simp [pageInit]

@[simp] theorem pend_gradFlags (s : State) (temps : List Int) (volts : List Nat) (n : Nat)  : (gradFlags s temps volts n).pending = s.pending := by
  simp [gradFlags]

@[simp] theorem pend_regionMeasure (s : State) (temps : List Int) (volts : List Nat)  : (regionMeasure s temps volts).pending = s.pending := by
  simp [regionMeasure]

@[simp] theorem pend_injShow (s : State)  : (injShow s).pending = s.pending := by
  simp [injShow]

@[simp] theorem pend_injStop (s : State) (slot : Nat)  : (injStop s slot).pending = s.pending := by
  simp [injStop]

@[simp] theorem pend_injCount (s : State) (slot : Nat) (n : Nat)  : (injCount s slot n).pending = s.pending := by
  unfold injCount; (repeat' split) <;> simp [*]

@[simp] theorem pend_injUnitP (s : State) (p : Nat) (ok : Nat → Bool) (n : Nat)  : (injUnitP s p ok n).2.pending = s.pending := by
  simp [injUnitP]

@[simp] theorem pend_injUnit (s : State) (p : Nat) (dir : Nat) (hit : Nat → Bool) (n : Nat)  : (injUnit s p dir hit n).2.pending = s.pending := by
  simp [injUnit]

@[simp] theorem pend_injAny (s : State) (p : Nat) (hit : Nat → Bool) (n : Nat)  : (injAny s p hit n).2.pending = s.pending := by
  simp [injAny]

@[simp] theorem pend_setGp (s : State) (p : Nat) (g : GpSt)  : (State.setGp s p g).pending = s.pending := by
  simp [State.setGp]

@[simp] theorem pend_sendCtl (s : State) (p : Nat) (m : Msg)  : (State.sendCtl s p m).pending = s.pending := by
  simp [State.sendCtl]

@[simp] theorem pend_pump (s : State) (p : Nat) (bulk : Bool) (n : Nat) : (State.pump s p bulk n).pending = s.pending := by
  induction n generalizing s with
  | zero => rfl
  | succ n ih =>
    unfold State.pump
    dsimp only
    (repeat' split) <;> simp [ih]

@[simp] theorem pend_sendMsg (s : State) (p : Nat) (m : Msg)  : (State.sendMsg s p m).pending = s.pending := by
  simp [State.sendMsg]

@[simp] theorem pend_ackMsg (s : State) (p : Nat) (bulk : Bool) (ack : Nat)  : (State.ackMsg s p bulk ack).pending = s.pending := by
  simp [State.ackMsg]

@[simp] theorem pend_recvMsg (s : State) (e : Env) (bulk : Bool) (sequenced : Bool)  : (State.recvMsg s e bulk sequenced).1.pending = s.pending := by
  simp [State.recvMsg]

@[simp] theorem pend_onTwn (s : State) (f : Twn → Twn)  : (State.onTwn s f).pending = s.pending := by
  simp [State.onTwn]

@[simp] theorem pend_sendLine (s : State) (w : Wire)  : (State.sendLine s w).pending = s.pending := by
  simp [State.sendLine]

@[simp] theorem pend_forwardWrite (s : State) (m : Nat) (a : Nat) (v : Word) (mask : Word)  : (forwardWrite s m a v mask).pending = s.pending := by
  simp [forwardWrite]

@[simp] theorem pend_refuseLocal (s : State) (m : Nat)  : (State.refuseLocal s m).pending = s.pending := by
  simp [State.refuseLocal]

@[simp] theorem pend_regionWrite (s : State) (m : Nat) (pg : Nat) (a : Nat) (v : Word) (mask : Word) (k : State → State) (h_k : ∀ y0, (k y0).pending = y0.pending) : (regionWrite s m pg a v mask k).pending = s.pending := by
  unfold regionWrite; (repeat' split) <;> simp [*]

@[simp] theorem pend_regionCmd (s : State) (m : Nat) (c : Fld) (k : State → State) (h_k : ∀ y0, (k y0).pending = y0.pending) : (State.regionCmd s m c k).pending = s.pending := by
  unfold State.regionCmd; (repeat' split) <;> simp [*]

@[simp] theorem pend_setLane (s : State) (c : Nat) (l : LaneSt)  : (State.setLane s c l).pending = s.pending := by
  simp [State.setLane]

@[simp] theorem pend_setMn (s : State) (k : Nat) (x : Mon)  : (State.setMn s k x).pending = s.pending := by
  simp [State.setMn]

@[simp] theorem pend_monsRestart (s : State) (l : List Nat)  : (monsRestart s l).pending = s.pending := by
  simp [monsRestart]

@[simp] theorem pend_pathRestart (s : State) (v : ChView) (c : Nat) (ix : Nat)  : (pathRestart s v c ix).pending = s.pending := by
  simp [pathRestart]

@[simp] theorem pend_refreshPath (v : ChView) (c : Nat) (s : State) (ix : Nat)  : (refreshPath v c s ix).pending = s.pending := by
  simp [refreshPath]

@[simp] theorem pend_refreshLayers (s : State) (c : Nat)  : (refreshLayers s c).pending = s.pending := by
  simp [refreshLayers]

@[simp] theorem pend_tribRefresh (s : State) (lg : Nat)  : (tribRefresh s lg).pending = s.pending := by
  simp [tribRefresh]

@[simp] theorem pend_refreshCh (s : State) (c : Nat)  : (refreshCh s c).pending = s.pending := by
  simp [refreshCh]

@[simp] theorem pend_pathsClear (s : State) (l : List Nat)  : (pathsClear s l).pending = s.pending := by
  simp [pathsClear]

@[simp] theorem pend_monsReset (s : State) (c : Nat)  : (monsReset s c).pending = s.pending := by
  simp [monsReset]

@[simp] theorem pend_setCdr (s : State) (c : Nat) (lk : Bool) (rate : Nat)  : (setCdr s c lk rate).pending = s.pending := by
  simp [setCdr]

@[simp] theorem pend_showCands (s : State) (c : Nat)  : (showCands s c).pending = s.pending := by
  simp [showCands]

@[simp] theorem pend_dropHunt (s : State) (c : Nat)  : (dropHunt s c).pending = s.pending := by
  simp [dropHunt]

@[simp] theorem pend_carderStop (s : State) (c : Nat)  : (carderStop s c).pending = s.pending := by
  simp [carderStop]

@[simp] theorem pend_carderHunt (s : State) (c : Nat)  : (carderHunt s c).pending = s.pending := by
  unfold carderHunt; (try dsimp only); (repeat' (first | (simp [*]; done) | split | (refine (pend_foldl _ _ _ (fun _ _ => ?_)).trans ?_) | dsimp only)) <;> simp_all

@[simp] theorem pend_releaseBond (s : State) (c : Nat)  : (releaseBond s c).pending = s.pending := by
  simp [releaseBond]

@[simp] theorem pend_goSilent (s : State) (c : Nat)  : (goSilent s c).pending = s.pending := by
  simp [goSilent]

@[simp] theorem pend_rateOver (s : State) (c : Nat)  : (rateOver s c).pending = s.pending := by
  simp [rateOver]

@[simp] theorem pend_huntNext (s : State) (c : Nat)  : (huntNext s c).pending = s.pending := by
  simp [huntNext]

@[simp] theorem pend_backToRates (s : State) (c : Nat)  : (backToRates s c).pending = s.pending := by
  simp [backToRates]

@[simp] theorem pend_huntStart (s : State) (c : Nat)  : (huntStart s c).pending = s.pending := by
  simp [huntStart]

@[simp] theorem pend_captureReset (s : State) (c : Nat)  : (captureReset s c).pending = s.pending := by
  simp [captureReset]

@[simp] theorem pend_cdrLocked (s : State) (c : Nat)  : (cdrLocked s c).pending = s.pending := by
  simp [cdrLocked]

@[simp] theorem pend_identLost (s : State) (c : Nat)  : (identLost s c).pending = s.pending := by
  simp [identLost]

@[simp] theorem pend_identify (s : State) (c : Nat)  : (identify s c).pending = s.pending := by
  unfold identify; (try dsimp only); (repeat' (first | (simp [*]; done) | split | (refine (pend_foldl _ _ _ (fun _ _ => ?_)).trans ?_) | dsimp only)) <;> simp_all

@[simp] theorem pend_tryIdentify (s : State) (c : Nat) (expired : Bool)  : (tryIdentify s c expired).pending = s.pending := by
  simp [tryIdentify]

@[simp] theorem pend_captureFrame (s : State) (c : Nat) (msg : Option (List Byte)) (ss : Nat)  : (captureFrame s c msg ss).pending = s.pending := by
  unfold captureFrame; (repeat' split) <;> simp [*]

@[simp] theorem pend_afterOof (s : State) (c : Nat)  : (afterOof s c).pending = s.pending := by
  simp [afterOof]

@[simp] theorem pend_afterLoss (s : State) (c : Nat)  : (afterLoss s c).pending = s.pending := by
  simp [afterLoss]

@[simp] theorem pend_declareFrame (s : State) (c : Nat) (pos : Nat) (mfas : Nat)  : (declareFrame s c pos mfas).pending = s.pending := by
  unfold declareFrame; (try dsimp only); (repeat' (first | (simp [*]; done) | split | (refine (pend_foldl _ _ _ (fun _ _ => ?_)).trans ?_) | dsimp only)) <;> simp_all

@[simp] theorem pend_mimic (s : State) (c : Nat)  : (mimic s c).pending = s.pending := by
  simp [mimic]

@[simp] theorem pend_resolveTie (s : State) (c : Nat)  : (resolveTie s c).pending = s.pending := by
  unfold resolveTie; (try dsimp only); (repeat' (first | (simp [*]; done) | split | (refine (pend_foldl _ _ _ (fun _ _ => ?_)).trans ?_) | dsimp only)) <;> simp_all

@[simp] theorem pend_soleStep (s : State) (c : Nat) (within : Nat → Bool)  : (soleStep s c within).pending = s.pending := by
  unfold soleStep; (try dsimp only); (repeat' (first | (simp [*]; done) | split | (refine (pend_foldl _ _ _ (fun _ _ => ?_)).trans ?_) | dsimp only)) <;> simp_all

@[simp] theorem pend_huntStretch (s : State) (c : Nat) (o : LineObs)  : (huntStretch s c o).pending = s.pending := by
  simp [huntStretch]

@[simp] theorem pend_tieStretch (s : State) (c : Nat) (o : LineObs)  : (tieStretch s c o).pending = s.pending := by
  simp [tieStretch]

@[simp] theorem pend_closeTie (s : State) (c : Nat)  : (closeTie s c).pending = s.pending := by
  unfold closeTie; (try dsimp only); (repeat' (first | (simp [*]; done) | split | (refine (pend_foldl _ _ _ (fun _ _ => ?_)).trans ?_) | dsimp only)) <;> simp_all

@[simp] theorem pend_declareOof (s : State) (c : Nat)  : (declareOof s c).pending = s.pending := by
  simp [declareOof]

@[simp] theorem pend_mfasStep (s : State) (c : Nat) (m : Nat)  : (mfasStep s c m).pending = s.pending := by
  simp [mfasStep]

@[simp] theorem pend_patternStep (s : State) (c : Nat) (o : LineObs)  : (patternStep s c o).pending = s.pending := by
  simp [patternStep]

@[simp] theorem pend_alignStep (s : State) (c : Nat) (o : LineObs)  : (alignStep s c o).pending = s.pending := by
  simp [alignStep]

@[simp] theorem pend_holdOff (s : State) (c : Nat)  : (holdOff s c).pending = s.pending := by
  simp [holdOff]

@[simp] theorem pend_inService (s : State) (c : Nat)  : (inService s c).pending = s.pending := by
  simp [inService]

@[simp] theorem pend_admOutcome (s : State) (c : Nat) (code : Nat) (src : Nat) (sfn : Nat)  : (admOutcome s c code src sfn).pending = s.pending := by
  simp [admOutcome]

@[simp] theorem pend_setTxFmt (s : State) (c : Nat) (fmt : Nat)  : (setTxFmt s c fmt).pending = s.pending := by
  simp [setTxFmt]

@[simp] theorem pend_admitNow (s : State) (c : Nat) (fmt : Nat) (sfn : Nat)  : (admitNow s c fmt sfn).pending = s.pending := by
  simp [admitNow]

@[simp] theorem pend_admitLane (s : State) (c : Nat) (fmt : Nat) (src : Nat) (sfn : Nat)  : (admitLane s c fmt src sfn).1.pending = s.pending := by
  simp [admitLane]

@[simp] theorem pend_hostAdmit (s : State) (sfn : Nat) (c : Nat)  : (hostAdmit s sfn c).pending = s.pending := by
  unfold hostAdmit; (repeat' split) <;> simp [*]

@[simp] theorem pend_autoAdmit (s : State) (sfn : Nat) (c : Nat)  : (autoAdmit s sfn c).pending = s.pending := by
  simp [autoAdmit]

@[simp] theorem pend_holdReturn (s : State) (c : Nat)  : (holdReturn s c).pending = s.pending := by
  simp [holdReturn]

@[simp] theorem pend_relockQuad (s : State) (q : Nat)  : (relockQuad s q).pending = s.pending := by
  simp [relockQuad]

@[simp] theorem pend_signalAppears (s : State) (c : Nat)  : (signalAppears s c).pending = s.pending := by
  simp [signalAppears]

@[simp] theorem pend_afterLos (s : State) (c : Nat)  : (afterLos s c).pending = s.pending := by
  simp [afterLos]

@[simp] theorem pend_parFlip (s : State) (prm : Nat)  : (parFlip s prm).pending = s.pending := by
  simp [parFlip]

@[simp] theorem pend_entFlip (s : State) (i : Nat) (prm : Nat)  : (entFlip s i prm).pending = s.pending := by
  simp [entFlip]

@[simp] theorem pend_injApply (s : State) (slot : Nat) (arg : Nat)  : (injApply s slot arg).pending = s.pending := by
  simp [injApply]

@[simp] theorem pend_injCh (s : State) (p : Nat) (c : Nat) (n : Nat)  : (injCh s p c n).2.pending = s.pending := by
  simp [injCh]

@[simp] theorem pend_injOdu (c : Nat) (idx : Option Nat) (lv : Nat) (s : State) (o : OduObs)  : (injOdu c idx lv s o).2.pending = s.pending := by
  simp [injOdu]

@[simp] theorem pend_injLine (s : State) (c : Nat) (o : LineObs)  : (injLine s c o).2.pending = s.pending := by
  simp [injLine]

@[simp] theorem pend_injCommand (s : State) (m : Nat) (cmd : Nat) (late : Bool)  : (injCommand s m cmd late).pending = s.pending := by
  simp [injCommand]

@[simp] theorem pend_injPause (s : State)  : (injPause s).pending = s.pending := by
  simp [injPause]

@[simp] theorem pend_injBoundary (s : State)  : (injBoundary s).pending = s.pending := by
  simp [injBoundary]

@[simp] theorem pend_injReset (s : State)  : (injReset s).pending = s.pending := by
  simp [injReset]

@[simp] theorem pend_bufWriteBy (s : State) (m : Nat) (off : Nat) (k : Nat) (mask : Word) (v : Word) (line : Option Nat) (late : Bool)  : (bufWriteBy s m off k mask v line late).pending = s.pending := by
  simp [bufWriteBy]

@[simp] theorem pend_bufWrite (s : State) (k : Nat) (mask : Word) (v : Word) (line : Option Nat) (late : Bool)  : (bufWrite s k mask v line late).pending = s.pending := by
  simp [bufWrite]

@[simp] theorem pend_berRestart (s : State) (k : Nat)  : (berRestart s k).pending = s.pending := by
  simp [berRestart]

@[simp] theorem pend_bipCount (s : State) (c : Nat) (f : Fld) (n : Nat)  : (bipCount s c f n).pending = s.pending := by
  simp [bipCount]

@[simp] theorem pend_reiCount (s : State) (f : Fld) (n : Nat) (w : Nat)  : (reiCount s f n w).pending = s.pending := by
  simp [reiCount]

@[simp] theorem pend_lineMonitors (s : State) (c : Nat) (o : LineObs) (v : ChView)  : (lineMonitors s c o v).pending = s.pending := by
  unfold lineMonitors; (repeat' split) <;> simp [*]

@[simp] theorem pend_linePm (s : State) (c : Nat) (o : LineObs) (v : ChView)  : (linePm s c o v).pending = s.pending := by
  unfold linePm; (repeat' split) <;> simp [*]

@[simp] theorem pend_hoPathStep (s : State) (c : Nat) (slots : Nat) (p : PathObs) (masked : Bool)  : (hoPathStep s c slots p masked).pending = s.pending := by
  simp [hoPathStep]

@[simp] theorem pend_loOduStep (s : State) (c : Nat) (p : PathObs) (masked : Bool)  : (loOduStep s c p masked).pending = s.pending := by
  simp [loOduStep]

@[simp] theorem pend_pathPm (s : State) (v : ChView) (c : Nat) (p : PathObs)  : (pathPm s v c p).pending = s.pending := by
  simp [pathPm]

@[simp] theorem pend_pathFrame (v : ChView) (c : Nat) (s : State) (p : PathObs)  : (pathFrame v c s p).pending = s.pending := by
  unfold pathFrame; (repeat' split) <;> simp [*]

@[simp] theorem pend_tribRead (s : State) (k : Nat) (o : TribObs)  : (tribRead s k o).pending = s.pending := by
  simp [tribRead]

@[simp] theorem pend_tribFrame (c : Nat) (s : State) (o : TribObs)  : (tribFrame c s o).pending = s.pending := by
  simp [tribFrame]

@[simp] theorem pend_ohbPut (s : State) (k : Nat) (v : Nat)  : (ohbPut s k v).pending = s.pending := by
  simp [ohbPut]

@[simp] theorem pend_ohbPutWord (s : State) (k : Nat) (v : Nat)  : (ohbPutWord s k v).pending = s.pending := by
  simp [ohbPutWord]

@[simp] theorem pend_ohbFrame (s : State) (c : Nat) (o : LineObs) (inFrame : Bool)  : (ohbFrame s c o inFrame).pending = s.pending := by
  simp [ohbFrame]

@[simp] theorem pend_ohbSwap (s : State) (lg : Nat)  : (ohbSwap s lg).pending = s.pending := by
  simp [ohbSwap]

@[simp] theorem pend_markUncov (s : State) (c : Nat) (n : Nat)  : (markUncov s c n).pending = s.pending := by
  simp [markUncov]

@[simp] theorem pend_staleUncov (s : State) (n : Nat)  : (staleUncov s n).pending = s.pending := by
  simp [staleUncov]

@[simp] theorem pend_onEntity (s : State) (e : Ent) (f : Fam) (k : State → State) (h_k : ∀ y0, (k y0).pending = y0.pending) : (onEntity s e f k).pending = s.pending := by
  unfold onEntity; (repeat' split) <;> simp [*]

@[simp] theorem pend_putDefect (s : State) (e : Ent) (d : Defect) (b : Bool)  : (putDefect s e d b).pending = s.pending := by
  simp [putDefect]

@[simp] theorem pend_pwReadCmd (s : State) (lg : Nat)  : (pwReadCmd s lg).pending = s.pending := by
  simp [pwReadCmd]

@[simp] theorem pend_pwWriteCmd (s : State) (lg : Nat) (late : Bool)  : (pwWriteCmd s lg late).pending = s.pending := by
  simp [pwWriteCmd]

@[simp] theorem pend_tmReadCmd (s : State) (lg : Nat)  : (tmReadCmd s lg).pending = s.pending := by
  simp [tmReadCmd]

@[simp] theorem pend_tmWriteCmd (s : State) (lg : Nat) (late : Bool)  : (tmWriteCmd s lg late).pending = s.pending := by
  simp [tmWriteCmd]

@[simp] theorem pend_setIc (s : State) (lox : Bool) (x : Ic)  : (State.setIc s lox x).pending = s.pending := by
  simp [State.setIc]

@[simp] theorem pend_icWrite (s : State) (lox : Bool) (m : Nat) (off : Nat) (v : Word)  : (icWrite s lox m off v).pending = s.pending := by
  unfold icWrite; (repeat' split) <;> simp [*]

@[simp] theorem pend_icRead (s : State) (lox : Bool) (m : Nat) (off : Nat)  : (icRead s lox m off).pending = s.pending := by
  unfold icRead; (repeat' split) <;> simp [*]

@[simp] theorem pend_icResult (s : State) (lox : Bool) (cmd : Nat) (code : Nat) (l : List (Fld × Nat))  : (icResult s lox cmd code l).pending = s.pending := by
  simp [icResult]

@[simp] theorem pend_icStart (s : State) (lox : Bool) (cmd : Nat)  : (icStart s lox cmd).pending = s.pending := by
  simp [icStart]

@[simp] theorem pend_icStop (s : State) (lox : Bool)  : (icStop s lox).pending = s.pending := by
  simp [icStop]

@[simp] theorem pend_icAbandon (s : State) (lox : Bool) (copied : Nat)  : (icAbandon s lox copied).pending = s.pending := by
  simp [icAbandon]

@[simp] theorem pend_icSealDone (s : State) (lox : Bool)  : (icSealDone s lox).pending = s.pending := by
  unfold icSealDone; (repeat' split) <;> simp [*]

@[simp] theorem pend_icCopyDone (s : State) (lox : Bool)  : (icCopyDone s lox).pending = s.pending := by
  simp [icCopyDone]

@[simp] theorem pend_icCommit (s : State) (lox : Bool)  : (icCommit s lox).pending = s.pending := by
  simp [icCommit]

@[simp] theorem pend_icUncommit (s : State) (lox : Bool)  : (icUncommit s lox).pending = s.pending := by
  simp [icUncommit]

@[simp] theorem pend_icErrShow (s : State) (lox : Bool)  : (icErrShow s lox).pending = s.pending := by
  simp [icErrShow]

@[simp] theorem pend_icSwap (s : State) (lox : Bool) (n : Nat)  : (icSwap s lox n).pending = s.pending := by
  simp [icSwap]

@[simp] theorem pend_icFrame (s : State) (lox : Bool)  : (icFrame s lox).pending = s.pending := by
  simp [icFrame]

@[simp] theorem pend_icSrst (s : State) (lox : Bool)  : (icSrst s lox).pending = s.pending := by
  simp [icSrst]

@[simp] theorem pend_stageItem (s : State) (b : Nat) (arg : Word)  : (stageItem s b arg).pending = s.pending := by
  simp [stageItem]

@[simp] theorem pend_showUsed (s : State)  : (State.showUsed s).pending = s.pending := by
  simp [State.showUsed]

@[simp] theorem pend_setQueue (s : State) (q : List Action)  : (State.setQueue s q).pending = s.pending := by
  simp [State.setQueue]

@[simp] theorem pend_setSent (s : State) (q : List Action)  : (State.setSent s q).pending = s.pending := by
  simp [State.setSent]

@[simp] theorem pend_takeSeq (s : State)  : (State.takeSeq s).pending = s.pending := by
  simp [State.takeSeq]

@[simp] theorem pend_pmapShow (s : State) (seq : Nat) (map : Nat)  : (pmapShow s seq map).pending = s.pending := by
  simp [pmapShow]

@[simp] theorem pend_record (s : State) (r : JRec)  : (State.record s r).pending = s.pending := by
  simp [State.record]

@[simp] theorem pend_groupClose (s : State)  : (groupClose s).pending = s.pending := by
  unfold groupClose; (try dsimp only); (repeat' (first | (simp [*]; done) | split | (refine (pend_foldl _ _ _ (fun _ _ => ?_)).trans ?_) | dsimp only)) <;> simp_all

@[simp] theorem pend_groupReport (s : State) (seq : Nat) (i : Nat) (status : Nat) (reason : Nat)  : (groupReport s seq i status reason).pending = s.pending := by
  simp [groupReport]

@[simp] theorem pend_outcome (s : State) (a : Action) (r : JRec)  : (State.outcome s a r).pending = s.pending := by
  simp [State.outcome]

@[simp] theorem pend_deliverGroup (s : State) (a : Action) (check : List Nat)  : (deliverGroup s a check).pending = s.pending := by
  simp [deliverGroup]

@[simp] theorem pend_enqueue (s : State) (a : Action)  : (enqueue s a).pending = s.pending := by
  simp [enqueue]

@[simp] theorem pend_admitResult (s : State) (b : Nat) (code : Nat) (item : Nat) (seq : Nat) (sfn : Nat) (tick : Nat)  : (admitResult s b code item seq sfn tick).pending = s.pending := by
  simp [admitResult]

@[simp] theorem pend_admitRefuse (s : State) (b : Nat) (code : Nat) (item : Nat) (sfn : Nat) (tick : Nat)  : (admitRefuse s b code item sfn tick).pending = s.pending := by
  simp [admitRefuse]

@[simp] theorem pend_admitAt (s : State) (b : Nat) (m : Nat) (bns : Nat) (code : Nat) (ns : Nat)  : (admitAt s b m bns code ns).pending = s.pending := by
  simp [admitAt]

@[simp] theorem pend_admitTimed (s : State) (b : Nat) (m : Nat) (bns : Nat)  : (admitTimed s b m bns).pending = s.pending := by
  unfold admitTimed; (try dsimp only); (repeat' (first | (simp [*]; done) | split | (refine (pend_foldl _ _ _ (fun _ _ => ?_)).trans ?_) | dsimp only)) <;> simp_all

@[simp] theorem pend_admitBank (s : State) (b : Nat) (m : Nat)  : (admitBank s b m).pending = s.pending := by
  unfold admitBank; (try dsimp only); (repeat' (first | (simp [*]; done) | split | (refine (pend_foldl _ _ _ (fun _ _ => ?_)).trans ?_) | dsimp only)) <;> simp_all

@[simp] theorem pend_cancelTell (s : State) (a : Action) (from_ : Option Nat)  : (cancelTell s a from_).pending = s.pending := by
  simp [cancelTell]

@[simp] theorem pend_cancelBank (s : State) (b : Nat)  : (cancelBank s b).pending = s.pending := by
  unfold cancelBank; (try dsimp only); (repeat' (first | (simp [*]; done) | split | (refine (pend_foldl _ _ _ (fun _ _ => ?_)).trans ?_) | dsimp only)) <;> simp_all

@[simp] theorem pend_clearBank (s : State) (b : Nat)  : (clearBank s b).pending = s.pending := by
  simp [clearBank]

@[simp] theorem pend_loseItems (s : State) (pg : Nat)  : (loseItems s pg).pending = s.pending := by
  simp [loseItems]

@[simp] theorem pend_plkReset (s : State)  : (plkReset s).pending = s.pending := by
  simp [plkReset]

@[simp] theorem pend_latchRecord (s : State) (m : Nat) (n : Nat)  : (latchRecord s m n).pending = s.pending := by
  simp [latchRecord]

@[simp] theorem pend_findStart (s : State) (m : Nat)  : (findStart s m).pending = s.pending := by
  simp [findStart]

@[simp] theorem pend_findEnd (s : State) (m : Nat)  : (findEnd s m).pending = s.pending := by
  simp [findEnd]

@[simp] theorem pend_actionRx (s : State) (port : Nat) (a : ActMsg) (check : List Nat)  : (actionRx s port a check).pending = s.pending := by
  simp [actionRx]

@[simp] theorem pend_tbAdvance (s : State) (n : Nat)  : (tbAdvance s n).pending = s.pending := by
  simp [tbAdvance]

@[simp] theorem pend_tbReach (s : State) (target : Nat)  : (tbReach s target).pending = s.pending := by
  simp [tbReach]

@[simp] theorem pend_disciplined (s : State)  : (disciplined s).pending = s.pending := by
  simp [disciplined]

@[simp] theorem pend_tbLoad (s : State) (m : Nat)  : (tbLoad s m).pending = s.pending := by
  simp [tbLoad]

@[simp] theorem pend_tbReset (s : State)  : (tbReset s).pending = s.pending := by
  simp [tbReset]

@[simp] theorem pend_nowRead (s : State) (m : Nat)  : (nowRead s m).pending = s.pending := by
  simp [nowRead]

@[simp] theorem pend_incWrite (s : State) (m : Nat) (v : Word)  : (incWrite s m v).pending = s.pending := by
  simp [incWrite]

@[simp] theorem pend_setPt (s : State) (p : Nat) (x : PtSt)  : (State.setPt s p x).pending = s.pending := by
  simp [State.setPt]

@[simp] theorem pend_ptLost (s : State) (port : Nat)  : (ptLost s port).pending = s.pending := by
  simp [ptLost]

@[simp] theorem pend_ptPush (s : State) (port : Nat) (tx : Bool) (id : Nat) (kind : Nat) (oneStep : Bool) (stamp : Nat)  : (ptPush s port tx id kind oneStep stamp).pending = s.pending := by
  simp [ptPush]

@[simp] theorem pend_ptPop (s : State) (m : Nat) (tx : Bool)  : (ptPop s m tx).pending = s.pending := by
  simp [ptPop]

@[simp] theorem pend_tportSend (s : State) (p : Nat) (ctrl : Word) (frame : List Byte) (raw : Nat)  : (tportSend s p ctrl frame raw).pending = s.pending := by
  unfold tportSend; (try dsimp only); (repeat' (first | (simp [*]; done) | split | (refine (pend_foldl _ _ _ (fun _ _ => ?_)).trans ?_) | dsimp only)) <;> simp_all

@[simp] theorem pend_tportRecv (s : State) (p : Nat) (frame : List Byte) (raw : Nat)  : (tportRecv s p frame raw).pending = s.pending := by
  simp [tportRecv]

@[simp] theorem pend_markerOut (s : State) (p : Nat) (k : Nat) (off : Nat)  : (markerOut s p k off).pending = s.pending := by
  simp [markerOut]

@[simp] theorem pend_markerIn (s : State) (p : Nat) (k : Nat) (off : Nat)  : (markerIn s p k off).pending = s.pending := by
  simp [markerIn]

@[simp] theorem pend_ttStamp (s : State) (p : Nat) (k : Nat) (t3 : Nat) (t2 : Nat) (valid : Bool)  : (ttStamp s p k t3 t2 valid).pending = s.pending := by
  unfold ttStamp; (try dsimp only); (repeat' (first | (simp [*]; done) | split | (refine (pend_foldl _ _ _ (fun _ _ => ?_)).trans ?_) | dsimp only)) <;> simp_all

@[simp] theorem pend_ttPublish (s : State) (p : Nat)  : (ttPublish s p).pending = s.pending := by
  simp [ttPublish]

@[simp] theorem pend_ringShow (s : State)  : (ringShow s).pending = s.pending := by
  simp [ringShow]

@[simp] theorem pend_ringsDrop (s : State) (o : Nat)  : (ringsDrop s o).pending = s.pending := by
  simp [ringsDrop]

@[simp] theorem pend_ringsTake (s : State) (o : Nat) (n : Nat)  : (ringsTake s o n).pending = s.pending := by
  simp [ringsTake]

@[simp] theorem pend_setCell (s : State) (r : Nat) (n : Nat) (c : Cell)  : (State.setCell s r n c).pending = s.pending := by
  simp [State.setCell]

@[simp] theorem pend_windowRegion (s : State) (m : Nat) (c : Fld) (running : Bool) (k : State → State) (h_k : ∀ y0, (k y0).pending = y0.pending) : (windowRegion s m c running k).pending = s.pending := by
  unfold windowRegion; (repeat' split) <;> simp [*]

@[simp] theorem pend_windowCmd (s : State) (m : Nat) (c : Fld) (running : Bool) (k : State → State) (h_k : ∀ y0, (k y0).pending = y0.pending) : (windowCmd s m c running k).pending = s.pending := by
  unfold windowCmd; (repeat' split) <;> simp [*]

@[simp] theorem pend_mwReadCmd (s : State) (lg : Nat)  : (mwReadCmd s lg).pending = s.pending := by
  simp [mwReadCmd]

@[simp] theorem pend_mwWriteCmd (s : State) (lg : Nat)  : (mwWriteCmd s lg).pending = s.pending := by
  simp [mwWriteCmd]

@[simp] theorem pend_checkStart (s : State) (lg : Nat)  : (checkStart s lg).pending = s.pending := by
  simp [checkStart]

@[simp] theorem pend_checkEnd (s : State) (lg : Nat)  : (checkEnd s lg).pending = s.pending := by
  simp [checkEnd]

@[simp] theorem pend_mapRefresh (s : State) (c : Nat)  : (mapRefresh s c).pending = s.pending := by
  simp [mapRefresh]

@[simp] theorem pend_contFault (s : State) (c : Nat) (f : Fld) (b : Bool)  : (contFault s c f b).pending = s.pending := by
  simp [contFault]

@[simp] theorem pend_pathsForget (s : State) (c : Nat) (st : Nat) (n : Nat)  : (pathsForget s c st n).pending = s.pending := by
  simp [pathsForget]

@[simp] theorem pend_storesForget (s : State) (g : Nat) (n : Nat)  : (storesForget s g n).pending = s.pending := by
  simp [storesForget]

@[simp] theorem pend_setCar (s : State) (k : Nat) (x : Car)  : (State.setCar s k x).pending = s.pending := by
  simp [State.setCar]

@[simp] theorem pend_bankChange (s : State) (c : Nat) (tx : Bool) (b : Nat)  : (bankChange s c tx b).pending = s.pending := by
  unfold bankChange; (try dsimp only); (repeat' (first | (simp [*]; done) | split | (refine (pend_foldl _ _ _ (fun _ _ => ?_)).trans ?_) | dsimp only)) <;> simp_all

@[simp] theorem pend_mapLand (s : State) (c : Nat)  : (mapLand s c).pending = s.pending := by
  simp [mapLand]

@[simp] theorem pend_contAcquired (s : State) (c : Nat) (e : Nat) (tx : Bool)  : (contAcquired s c e tx).pending = s.pending := by
  simp [contAcquired]

@[simp] theorem pend_msiFrame (s : State) (c : Nat) (msi : List Nat)  : (msiFrame s c msi).pending = s.pending := by
  simp [msiFrame]

@[simp] theorem pend_contFrame (c : Nat) (s : State) (p : PathObs)  : (contFrame c s p).pending = s.pending := by
  unfold contFrame; (repeat' split) <;> simp [*]

@[simp] theorem pend_carFrame (s : State) (o : CarObs)  : (carFrame s o).pending = s.pending := by
  simp [carFrame]

@[simp] theorem pend_setGfp (s : State) (c : Nat) (g : Gfp)  : (State.setGfp s c g).pending = s.pending := by
  simp [State.setGfp]

@[simp] theorem pend_clRefresh (s : State) (c : Nat)  : (clRefresh s c).pending = s.pending := by
  simp [clRefresh]

@[simp] theorem pend_clLand (s : State) (c : Nat)  : (clLand s c).pending = s.pending := by
  simp [clLand]

@[simp] theorem pend_tcIngress (s : State) (c : Nat) (frame : List Byte) (raw : Nat)  : (tcIngress s c frame raw).2.pending = s.pending := by
  unfold tcIngress; (repeat' split) <;> simp [*]

@[simp] theorem pend_tcEgress (s : State) (c : Nat) (frame : List Byte) (raw : Nat)  : (tcEgress s c frame raw).2.pending = s.pending := by
  unfold tcEgress; (repeat' split) <;> simp [*]

@[simp] theorem pend_clientFrame (s : State) (c : Nat) (frame : List Byte) (raw : Nat)  : (clientFrame s c frame raw).pending = s.pending := by
  simp [clientFrame]

@[simp] theorem pend_gfpSend (s : State) (c : Nat) (f : List Byte)  : (gfpSend s c f).pending = s.pending := by
  simp [gfpSend]

@[simp] theorem pend_gfpFill (s : State) (c need n : Nat) : (gfpFill s c need n).pending = s.pending := by
  induction n generalizing s with
  | zero => rfl
  | succ n ih =>
    unfold gfpFill
    dsimp only
    (repeat' split) <;> simp [ih]

@[simp] theorem pend_gfpTake (s : State) (c : Nat) : (gfpTake s c).2.pending = s.pending := by
  simp [gfpTake]

@[simp] theorem pend_gfpRx (s : State) (c : Nat) (o : GfpObs) (raw : Nat)  : (gfpRx s c o raw).pending = s.pending := by
  simp [gfpRx]

@[simp] theorem pend_csfSend (s : State) (c : Nat)  : (csfSend s c).pending = s.pending := by
  simp [csfSend]

@[simp] theorem pend_vgRefresh (s : State) (lg : Nat) (g : Nat)  : (vgRefresh s lg g).pending = s.pending := by
  simp [vgRefresh]

@[simp] theorem pend_vgReadCmd (s : State) (lg : Nat)  : (vgReadCmd s lg).pending = s.pending := by
  simp [vgReadCmd]

@[simp] theorem pend_vgWriteCmd (s : State) (lg : Nat) (late : Bool)  : (vgWriteCmd s lg late).pending = s.pending := by
  simp [vgWriteCmd]

@[simp] theorem pend_lcasMember (s : State) (lg : Nat) (g : Nat) (m : Nat) (fail : Bool)  : (lcasMember s lg g m fail).pending = s.pending := by
  simp [lcasMember]

@[simp] theorem pend_vcatFrame (s : State) (sfn : Nat) (o : VcatObs)  : (vcatFrame s sfn o).pending = s.pending := by
  simp [vcatFrame]

@[simp] theorem pend_setSel (s : State) (n : Nat) (x : SelSt)  : (State.setSel s n x).pending = s.pending := by
  simp [State.setSel]

@[simp] theorem pend_recentre (s : State) (c : Nat)  : (recentre s c).pending = s.pending := by
  simp [recentre]

@[simp] theorem pend_extStep (s : State) (c : Nat) (o : Option Nat)  : (extStep s c o).pending = s.pending := by
  simp [extStep]

@[simp] theorem pend_sampleSeen (s : State)  : (sampleSeen s).pending = s.pending := by
  simp [sampleSeen]

@[simp] theorem pend_selEval (s : State) (n : Nat) (live : Bool) (step : Bool)  : (selEval s n live step).2.pending = s.pending := by
  simp [selEval]

@[simp] theorem pend_hlLost (s : State) (n : Nat)  : (hlLost s n).pending = s.pending := by
  simp [hlLost]

@[simp] theorem pend_hlJudge (s : State) (n : Nat)  : (hlJudge s n).pending = s.pending := by
  simp [hlJudge]

@[simp] theorem pend_markEdge (s : State) (c : Nat)  : (markEdge s c).pending = s.pending := by
  simp [markEdge]

@[simp] theorem pend_hlEdge (s : State) (n : Nat)  : (hlEdge s n).pending = s.pending := by
  simp [hlEdge]

@[simp] theorem pend_realign (s : State) (n : Nat) (r : Int)  : (realign s n r).pending = s.pending := by
  simp [realign]

@[simp] theorem pend_selMove (s : State) (n : Nat) (p : Nat)  : (selMove s n p).pending = s.pending := by
  simp [selMove]

@[simp] theorem pend_hlAcquire (s : State) (n : Nat) (diffs : List Int) (period : Nat)  : (hlAcquire s n diffs period).pending = s.pending := by
  simp [hlAcquire]

@[simp] theorem pend_hlOutput (s : State) (n : Nat) (o : HlObs) (x : SelSt) (t : State) : (hlOutput s n o x t).pending = t.pending := by
  unfold hlOutput
  dsimp only
  (repeat' split) <;> simp

@[simp] theorem pend_hlChoose (s : State) (n : Nat) (o : HlObs)  : (hlChoose s n o).pending = s.pending := by
  simp [hlChoose]

@[simp] theorem pend_hlDue (s : State) (n : Nat) (o : HlObs) : (hlDue s n o).pending = s.pending := by
  simp [hlDue]

@[simp] theorem pend_hlStep (s : State) (n : Nat) (copyP : Bool) (sl : List Int)  : (hlStep s n copyP sl).pending = s.pending := by
  simp [hlStep]

@[simp] theorem pend_selApply (s : State) (n : Nat) (arg : Nat)  : (selApply s n arg).pending = s.pending := by
  simp [selApply]

@[simp] theorem pend_selBoundary (s : State) (n : Nat)  : (selBoundary s n).pending = s.pending := by
  unfold selBoundary; (try dsimp only); (repeat' (first | (simp [*]; done) | split | (refine (pend_foldl _ _ _ (fun _ _ => ?_)).trans ?_) | dsimp only)) <;> simp_all

@[simp] theorem pend_selAdmit (s : State) (n : Nat) (arg : Nat)  : (selAdmit s n arg).1.pending = s.pending := by
  simp [selAdmit]

@[simp] theorem pend_selTry (s : State) (n : Nat) (arg : Nat)  : (selTry s n arg).pending = s.pending := by
  simp [selTry]

@[simp] theorem pend_selectorAdmit (s : State) (n : Nat)  : (selectorAdmit s n).pending = s.pending := by
  simp [selectorAdmit]

@[simp] theorem pend_selectorRetry (s : State) (n : Nat)  : (selectorRetry s n).pending = s.pending := by
  unfold selectorRetry; (repeat' split) <;> simp [*]

@[simp] theorem pend_wtrExpiry (s : State) (n : Nat)  : (wtrExpiry s n).pending = s.pending := by
  simp [wtrExpiry]

@[simp] theorem pend_realignAuto (s : State) (n : Nat)  : (realignAuto s n).pending = s.pending := by
  simp [realignAuto]

@[simp] theorem pend_selLand (s : State) (n : Nat)  : (selLand s n).pending = s.pending := by
  simp [selLand]

@[simp] theorem pend_swReadCmd (s : State) (lg : Nat)  : (swReadCmd s lg).pending = s.pending := by
  simp [swReadCmd]

@[simp] theorem pend_swWriteCmd (s : State) (lg : Nat) (late : Bool)  : (swWriteCmd s lg late).pending = s.pending := by
  simp [swWriteCmd]

@[simp] theorem pend_lgpReset (s : State) (lg : Nat)  : (lgpReset s lg).pending = s.pending := by
  simp [lgpReset]

@[simp] theorem pend_setEng (s : State) (e : Nat) (x : Eng)  : (State.setEng s e x).pending = s.pending := by
  simp [State.setEng]

@[simp] theorem pend_onEng (s : State) (e : Nat) (f : Eng → Eng)  : (State.onEng s e f).pending = s.pending := by
  simp [State.onEng]

@[simp] theorem pend_setGr (s : State) (e : Nat) (r : Nat) (v : Word)  : (State.setGr s e r v).pending = s.pending := by
  simp [State.setGr]

@[simp] theorem pend_setCsr (s : State) (e : Nat) (k : Nat) (v : Word)  : (State.setCsr s e k v).pending = s.pending := by
  simp [State.setCsr]

@[simp] theorem pend_setFeWord (s : State) (e : Nat) (k : Nat) (v : Word)  : (State.setFeWord s e k v).pending = s.pending := by
  simp [State.setFeWord]

@[simp] theorem pend_feCrcShow (s : State) (e : Nat)  : (feCrcShow s e).pending = s.pending := by
  simp [feCrcShow]

@[simp] theorem pend_feRead (s : State) (e : Nat) (k : Nat)  : (feRead s e k).2.pending = s.pending := by
  simp [feRead]

@[simp] theorem pend_feDrop (s : State) (e : Nat)  : (feDrop s e).pending = s.pending := by
  simp [feDrop]

@[simp] theorem pend_feFault (s : State) (e : Nat) (cause : Nat)  : (feFault s e cause).pending = s.pending := by
  simp [feFault]

@[simp] theorem pend_feNext (s : State) (e : Nat)  : (feNext s e).pending = s.pending := by
  simp [feNext]

@[simp] theorem pend_feTryWait (s : State) (e : Nat) (w : Word)  : (feTryWait s e w).pending = s.pending := by
  simp [feTryWait]

@[simp] theorem pend_feEvent (s : State) (e : Nat) (i : Nat)  : (feEvent s e i).pending = s.pending := by
  simp [feEvent]

@[simp] theorem pend_feStall (s : State) (e : Nat)  : (feStall s e).pending = s.pending := by
  simp [feStall]

@[simp] theorem pend_feIssue (s : State) (e : Nat) (op : FeOp) (run : State → Word → State) (h_run : ∀ y0 y1, (run y0 y1).pending = y0.pending) : (feIssue s e op run).pending = s.pending := by
  unfold feIssue; (try dsimp only); (repeat' (first | (simp [*]; done) | split | (refine (pend_foldl _ _ _ (fun _ _ => ?_)).trans ?_) | dsimp only)) <;> simp_all

@[simp] theorem pend_feSet (s : State) (e : Nat) (w : Word) (v : Word)  : (feSet s e w v).pending = s.pending := by
  simp [feSet]

@[simp] theorem pend_feAlu (e : Nat) (f : Word → Word → Word) (s : State) (w : Word)  : (feAlu e f s w).pending = s.pending := by
  simp [feAlu]

@[simp] theorem pend_feAluK (e : Nat) (k : Word → Word) (f : Word → Word → Word) (s : State) (w : Word)  : (feAluK e k f s w).pending = s.pending := by
  simp [feAluK]

@[simp] theorem pend_feLoad (e : Nat) (n : Nat) (ext : Nat → Word) (s : State) (w : Word)  : (feLoad e n ext s w).pending = s.pending := by
  unfold feLoad; (try dsimp only); (repeat' (first | (simp [*]; done) | split | (refine (pend_foldl _ _ _ (fun _ _ => ?_)).trans ?_) | dsimp only)) <;> simp_all

@[simp] theorem pend_feMailOut (s : State) (e : Nat) (i : Nat) (core : Bool) (v : Word)  : (feMailOut s e i core v).pending = s.pending := by
  simp [feMailOut]

@[simp] theorem pend_feStore (e : Nat) (n : Nat) (s : State) (w : Word)  : (feStore e n s w).pending = s.pending := by
  simp [feStore]

@[simp] theorem pend_feOhLoad (e : Nat) (n : Nat) (s : State) (w : Word)  : (feOhLoad e n s w).pending = s.pending := by
  simp [feOhLoad]

@[simp] theorem pend_setHdlc (s : State) (e : Nat) (x : Nat) (h : Hdlc)  : (State.setHdlc s e x h).pending = s.pending := by
  simp [State.setHdlc]

@[simp] theorem pend_ohTxByte (s : State) (k : Nat) (off : Nat) (v : Nat)  : (ohTxByte s k off v).pending = s.pending := by
  simp [ohTxByte]

@[simp] theorem pend_ohStale (s : State) (k : Nat) (n : Nat) (late : Bool)  : (ohStale s k n late).pending = s.pending := by
  simp [ohStale]

@[simp] theorem pend_feOhStore (e : Nat) (n : Nat) (s : State) (w : Word)  : (feOhStore e n s w).pending = s.pending := by
  simp [feOhStore]

@[simp] theorem pend_feCsrWrite (s : State) (e : Nat) (n : Nat) (v : Word)  : (feCsrWrite s e n v).pending = s.pending := by
  simp [feCsrWrite]

@[simp] theorem pend_feCsrReset (s : State) (e : Nat)  : (feCsrReset s e).pending = s.pending := by
  simp [feCsrReset]

@[simp] theorem pend_feOutst (s : State) (e : Nat)  : (feOutst s e).pending = s.pending := by
  simp [feOutst]

@[simp] theorem pend_fePost (e : Nat) (write : Bool) (s : State) (w : Word)  : (fePost e write s w).pending = s.pending := by
  simp [fePost]

@[simp] theorem pend_feHalted (s : State) (e : Nat)  : (feHalted s e).pending = s.pending := by
  simp [feHalted]

@[simp] theorem pend_feBranch (e : Nat) (cond : Word → Word → Bool) (s : State) (w : Word)  : (feBranch e cond s w).pending = s.pending := by
  simp [feBranch]

@[simp] theorem pend_feResult (s : State) (e : Nat) (cmd : Nat) (code : Nat)  : (feResult s e cmd code).pending = s.pending := by
  simp [feResult]

@[simp] theorem pend_feStart (s : State) (e : Nat)  : (feStart s e).pending = s.pending := by
  simp [feStart]

@[simp] theorem pend_feStop (s : State) (e : Nat)  : (feStop s e).pending = s.pending := by
  simp [feStop]

@[simp] theorem pend_feStopDone (s : State) (e : Nat)  : (feStopDone s e).pending = s.pending := by
  simp [feStopDone]

@[simp] theorem pend_feCheck (s : State) (e : Nat)  : (feCheck s e).pending = s.pending := by
  simp [feCheck]

@[simp] theorem pend_feCheckDone (s : State) (e : Nat)  : (feCheckDone s e).pending = s.pending := by
  simp [feCheckDone]

@[simp] theorem pend_feSwap (s : State) (e : Nat)  : (feSwap s e).1.pending = s.pending := by
  simp [feSwap]

@[simp] theorem pend_feReset (s : State) (e : Nat)  : (feReset s e).pending = s.pending := by
  simp [feReset]

@[simp] theorem pend_feWindowWrite (s : State) (m : Nat) (e : Nat) (off : Nat) (v : Word)  : (feWindowWrite s m e off v).pending = s.pending := by
  simp [feWindowWrite]

@[simp] theorem pend_feWindowRead (s : State) (m : Nat) (e : Nat) (off : Nat)  : (feWindowRead s m e off).pending = s.pending := by
  unfold feWindowRead; (try dsimp only); (repeat' (first | (simp [*]; done) | split | (refine (pend_foldl _ _ _ (fun _ _ => ?_)).trans ?_) | dsimp only)) <;> simp_all

@[simp] theorem pend_feInDb (s : State) (e : Nat) (v : Nat) (core : Bool)  : (feInDb s e v core).pending = s.pending := by
  simp [feInDb]

@[simp] theorem pend_feOutAck (s : State) (e : Nat) (v : Nat) (core : Bool)  : (feOutAck s e v core).pending = s.pending := by
  simp [feOutAck]

@[simp] theorem pend_feInD (s : State) (m : Nat) (e : Nat) (i : Nat) (v : Word) (core : Bool)  : (feInD s m e i v core).pending = s.pending := by
  simp [feInD]

@[simp] theorem pend_feMute (s : State) (e : Nat)  : (feMute s e).pending = s.pending := by
  simp [feMute]

@[simp] theorem pend_feTick (s : State) (e : Nat)  : (feTick s e).pending = s.pending := by
  simp [feTick]

@[simp] theorem pend_ringPut (s : State) (e : Nat) (base : Nat) (off : Nat) (ws : List Word)  : (ringPut s e base off ws).pending = s.pending := by
  simp [ringPut]

@[simp] theorem pend_hcCount (s : State) (e : Nat) (x : Nat) (lo : Nat) (w : Nat)  : (hcCount s e x lo w).pending = s.pending := by
  simp [hcCount]

@[simp] theorem pend_hcWrite (s : State) (e : Nat) (x : Nat) (r : HcRec)  : (hcWrite s e x r).1.pending = s.pending := by
  simp [hcWrite]

@[simp] theorem pend_hcStream (s : State) (lg : Nat) (ch : Nat) (l : List Byte)  : (hcStream s lg ch l).pending = s.pending := by
  simp [hcStream]

@[simp] theorem pend_hcTake (s : State) (e : Nat) (x : Nat)  : (hcTake s e x).pending = s.pending := by
  simp [hcTake]

@[simp] theorem pend_hcRxOne (s : State) (e : Nat) (x : Nat)  : (hcRxOne s e x).1.pending = s.pending := by
  simp [hcRxOne]

@[simp] theorem pend_hcRxPass (s : State) (e : Nat)  : (hcRxPass s e).pending = s.pending := by
  simp [hcRxPass]

@[simp] theorem pend_hcRecord (s : State) (e : Nat) (base : Nat) (off : Nat)  : (hcRecord s e base off).1.pending = s.pending := by
  unfold hcRecord; (try dsimp only); (repeat' (first | (simp [*]; done) | split | (refine (pend_foldl _ _ _ (fun _ _ => ?_)).trans ?_) | dsimp only)) <;> simp_all

@[simp] theorem pend_hcData (s : State) (e base off len : Nat) : (hcData s e base off len).2.pending = s.pending := by
  unfold hcData
  dsimp only
  refine (pend_foldl2 _ _ _ (fun q a => ?_)).trans rfl
  split <;> simp

@[simp] theorem pend_hcSendRec (e x cap : Nat) (r : HcTx) (len w0 w1 : Nat) (data : List Byte) (next : Nat) :
    (hcSendRec e x cap r len w0 w1 data next).s.pending = r.s.pending := by
  unfold hcSendRec
  extract_lets s cfg c off mark cap8 plain fits everFits
  split
  · rfl
  · have h : (injUnit s 0x0F 1 (fun i => bitsOf i 0 8 == c) 1).2.pending = r.s.pending := by simp [s]
    generalize injUnit s 0x0F 1 (fun i => bitsOf i 0 8 == c) 1 = q at h ⊢
    obtain ⟨a, t⟩ := q
    dsimp only at h ⊢
    (repeat' split) <;> simp [h]

@[simp] theorem pend_hcSendRecs (e x cap wr n : Nat) (r : HcTx) : (hcSendRecs e x cap wr n r).s.pending = r.s.pending := by
  induction n generalizing r with
  | zero => rfl
  | succ n ih =>
    unfold hcSendRecs
    extract_lets ring rd q s w0 len next b
    split
    · rfl
    · split
      · simp [ih, s, q]
      · split <;> simp [ih, s, q, b]

@[simp] theorem pend_hcTxOne (s : State) (e x : Nat) (caps stamps : List Nat) : (hcTxOne s e x caps stamps).1.pending = s.pending := by
  unfold hcTxOne
  dsimp only
  (repeat' split) <;> simp

@[simp] theorem pend_hcTxPass (s : State) (e : Nat) (caps stamps : List Nat) : (hcTxPass s e caps stamps).pending = s.pending := by
  unfold hcTxPass
  split
  · rfl
  · dsimp only
    split <;> simp

@[simp] theorem pend_bpWrite (s : State) (late : Bool)  : (bpWrite s late).pending = s.pending := by
  simp [bpWrite]

@[simp] theorem pend_bpRead (s : State)  : (bpRead s).pending = s.pending := by
  simp [bpRead]

@[simp] theorem pend_bpLand (s : State) (p : Nat) (old0 : Word)  : (bpLand s p old0).pending = s.pending := by
  simp [bpLand]

@[simp] theorem pend_cellWrite (s : State) (r : Nat) (n : Nat) (d : SlotData)  : (cellWrite s r n d).pending = s.pending := by
  simp [cellWrite]

@[simp] theorem pend_battUeShow (s : State)  : (battUeShow s).pending = s.pending := by
  simp [battUeShow]

@[simp] theorem pend_ueNote (s : State) (path : Nat) (slot : Nat) (sfn : Nat) (ch : Nat) (cw : Nat)  : (ueNote s path slot sfn ch cw).pending = s.pending := by
  simp [ueNote]

@[simp] theorem pend_battFrame (s : State) (n : Nat)  : (battFrame s n).pending = s.pending := by
  unfold battFrame; (try dsimp only); (repeat' (first | (simp [*]; done) | split | (refine (pend_foldl _ _ _ (fun _ _ => ?_)).trans ?_) | dsimp only)) <;> simp_all

@[simp] theorem pend_battUncov (s : State) (p : Nat) (i : Nat)  : (battUncov s p i).pending = s.pending := by
  simp [battUncov]

@[simp] theorem pend_cellUe (s : State) (r : Nat) (n : Nat) (k : Nat) (c : Cell)  : (cellUe s r n k c).pending = s.pending := by
  simp [cellUe]

@[simp] theorem pend_battReturn (s : State) (p : Nat) (i : Nat) (o : BattObs)  : (battReturn s p i o).pending = s.pending := by
  unfold battReturn; (try dsimp only); (repeat' (first | (simp [*]; done) | split | (refine (pend_foldl _ _ _ (fun _ _ => ?_)).trans ?_) | dsimp only)) <;> simp_all

@[simp] theorem pend_scrubRead (s : State) (ch : Nat) (cw : Nat) (cls : Nat) (passMs : Option Nat)  : (scrubRead s ch cw cls passMs).pending = s.pending := by
  unfold scrubRead; (try dsimp only); (repeat' (first | (simp [*]; done) | split | (refine (pend_foldl _ _ _ (fun _ _ => ?_)).trans ?_) | dsimp only)) <;> simp_all

@[simp] theorem pend_battWindow (s : State) (m : Nat) (off : Nat) (w : Option Word) (cls : Nat)  : (battWindow s m off w cls).pending = s.pending := by
  unfold battWindow; (try dsimp only); (repeat' (first | (simp [*]; done) | split | (refine (pend_foldl _ _ _ (fun _ _ => ?_)).trans ?_) | dsimp only)) <;> simp_all

@[simp] theorem pend_battEmpty (s : State)  : (battEmpty s).pending = s.pending := by
  simp [battEmpty]

@[simp] theorem pend_dropCells (s : State) (ch : Nat)  : (dropCells s ch).pending = s.pending := by
  simp [dropCells]

@[simp] theorem pend_memReady (s : State)  : (memReady s).pending = s.pending := by
  simp [memReady]

@[simp] theorem pend_memTrained (s : State) (ch : Nat) (ok : Bool)  : (memTrained s ch ok).pending = s.pending := by
  simp [memTrained]

@[simp] theorem pend_pounceLand (s : State) (u : Nat)  : (pounceLand s u).pending = s.pending := by
  simp [pounceLand]

@[simp] theorem pend_pounceEnd (s : State) (u : Nat) (l : List Byte) (carried : Word) (fcs32 : Bool)  : (pounceEnd s u l carried fcs32).pending = s.pending := by
  simp [pounceEnd]

@[simp] theorem pend_digestShow (s : State) (d : Digests) (n : Nat)  : (digestShow s d n).pending = s.pending := by
  simp [digestShow]

@[simp] theorem pend_parShow (s : State) (pg : Nat)  : (parShow s pg).pending = s.pending := by
  simp [parShow]

@[simp] theorem pend_parSettle (s : State) (pg : Nat)  : (parSettle s pg).pending = s.pending := by
  simp [parSettle]

@[simp] theorem pend_parNow (s : State) (pg : Nat)  : (parNow s pg).pending = s.pending := by
  simp [parNow]

@[simp] theorem pend_parHold (s : State) (pg : Nat)  : (parHold s pg).pending = s.pending := by
  simp [parHold]

@[simp] theorem pend_parFound (s : State) (k : Nat)  : (parFound s k).pending = s.pending := by
  simp [parFound]

@[simp] theorem pend_parRepair (s : State) (k : Nat)  : (parRepair s k).pending = s.pending := by
  simp [parRepair]

@[simp] theorem pend_parBoundary (s : State)  : (parBoundary s).pending = s.pending := by
  simp [parBoundary]

@[simp] theorem pend_parScan (s : State) (us : Nat) (bad : List Nat)  : (parScan s us bad).pending = s.pending := by
  simp [parScan]

@[simp] theorem pend_parActWrite (s : State) (pg : Nat) (v : Nat)  : (parActWrite s pg v).pending = s.pending := by
  simp [parActWrite]

@[simp] theorem pend_cntClr (s : State) (pg : Nat)  : (cntClr s pg).pending = s.pending := by
  simp [cntClr]

@[simp] theorem pend_snapTake (s : State) (sfn : Nat)  : (snapTake s sfn).pending = s.pending := by
  simp [snapTake]

@[simp] theorem pend_cmplShow (s : State)  : (cmplShow s).pending = s.pending := by
  simp [cmplShow]

@[simp] theorem pend_twinEnter (s : State) (st : Nat)  : (twinEnter s st).pending = s.pending := by
  simp [twinEnter]

@[simp] theorem pend_twinLose (s : State) (mask : Nat)  : (twinLose s mask).pending = s.pending := by
  simp [twinLose]

@[simp] theorem pend_stagingLost (s : State) (ch : Nat) (cw : Nat)  : (stagingLost s ch cw).pending = s.pending := by
  simp [stagingLost]

@[simp] theorem pend_twnDone (s : State) (cmd : Nat) (code : Nat)  : (twnDone s cmd code).pending = s.pending := by
  simp [twnDone]

@[simp] theorem pend_joinFail (s : State) (code : Nat)  : (joinFail s code).pending = s.pending := by
  simp [joinFail]

@[simp] theorem pend_twinJoin (s : State)  : (twinJoin s).pending = s.pending := by
  simp [twinJoin]

@[simp] theorem pend_twinReturn (s : State) (b : Beat)  : (twinReturn s b).pending = s.pending := by
  simp [twinReturn]

@[simp] theorem pend_twinBeat (s : State) (b : Beat)  : (twinBeat s b).pending = s.pending := by
  simp [twinBeat]

@[simp] theorem pend_eligible (s : State)  : (eligible s).pending = s.pending := by
  unfold eligible; (repeat' split) <;> simp [*]

@[simp] theorem pend_twinIsolate (s : State)  : (twinIsolate s).pending = s.pending := by
  simp [twinIsolate]

@[simp] theorem pend_mirrorLost (s : State)  : (mirrorLost s).pending = s.pending := by
  simp [mirrorLost]

@[simp] theorem pend_joinRx (s : State) (pairId : Nat) (version : Nat)  : (joinRx s pairId version).pending = s.pending := by
  simp [joinRx]

@[simp] theorem pend_mirrorMsg (e : Env) (s : State) (k : State → State) (h_k : ∀ y0, (k y0).pending = y0.pending) : (mirrorMsg e s k).pending = s.pending := by
  unfold mirrorMsg; (repeat' split) <;> simp [*]

@[simp] theorem pend_twinServe (s : State)  : (twinServe s).pending = s.pending := by
  simp [twinServe]

@[simp] theorem pend_leavePair (s : State)  : (leavePair s).pending = s.pending := by
  simp [leavePair]

@[simp] theorem pend_twinLeave (s : State)  : (twinLeave s).pending = s.pending := by
  simp [twinLeave]

@[simp] theorem pend_putRegImage (s : State) (r : Nat) (l : List (Nat × Nat))  : (putRegImage s r l).pending = s.pending := by
  unfold putRegImage; (try dsimp only); (repeat' (first | (simp [*]; done) | split | (refine (pend_foldl _ _ _ (fun _ _ => ?_)).trans ?_) | dsimp only)) <;> simp_all

@[simp] theorem pend_ptrAdopt (s : State) (l : List (Nat × Nat))  : (ptrAdopt s l).pending = s.pending := by
  simp [ptrAdopt]

@[simp] theorem pend_applyEngine (s : State) (e : Nat) (l : List (Nat × Nat))  : (applyEngine s e l).pending = s.pending := by
  simp [applyEngine]

@[simp] theorem pend_applyPm (s : State) (r : Nat) (img : List (Nat × Nat)) (own : List (Nat × Nat))  : (applyPm s r img own).pending = s.pending := by
  simp [applyPm]

@[simp] theorem pend_applyImage (s : State) (r : Nat) (l : List (Nat × Nat))  : (applyImage s r l).pending = s.pending := by
  simp [applyImage]

@[simp] theorem pend_captureRegion (s : State) (r : Nat) (n : Nat)  : (captureRegion s r n).pending = s.pending := by
  simp [captureRegion]

@[simp] theorem pend_announceRegion (s : State) (n : Nat)  : (announceRegion s n).pending = s.pending := by
  unfold announceRegion; (try dsimp only); (repeat' (first | (simp [*]; done) | split | (refine (pend_foldl _ _ _ (fun _ _ => ?_)).trans ?_) | dsimp only)) <;> simp_all

@[simp] theorem pend_twinActiveTick (s : State) (n : Nat)  : (twinActiveTick s n).pending = s.pending := by
  unfold twinActiveTick; (repeat' split) <;> simp [*]

@[simp] theorem pend_copyRx (s : State) (region : Nat) (gen : Nat) (sfn : Nat) (offset : Nat) (data : List (Nat × Nat)) (last : Bool)  : (copyRx s region gen sfn offset data last).pending = s.pending := by
  simp [copyRx]

@[simp] theorem pend_twinStandbyTick (s : State) (n : Nat)  : (twinStandbyTick s n).pending = s.pending := by
  simp [twinStandbyTick]

@[simp] theorem pend_applyStaged (s : State) (r : Nat)  : (applyStaged s r).pending = s.pending := by
  simp [applyStaged]

@[simp] theorem pend_holdMsg (s : State) (r : Nat) (m : Msg)  : (holdMsg s r m).pending = s.pending := by
  simp [holdMsg]

@[simp] theorem pend_declareDiv (s : State) (c : Nat) (n : Nat)  : (declareDiv s c n).pending = s.pending := by
  simp [declareDiv]

@[simp] theorem pend_digestCompare (s : State) (n : Nat) (own peer : Digests) : (digestCompare s n own peer).pending = s.pending := by
  unfold digestCompare
  extract_lets pairs bad s1 hist s2 run s3 step div
  have h1 : s1.pending = s.pending := by simp only [s1]; split <;> simp
  have h3 : s3.pending = s.pending := by simp [s3, s2, h1]
  clear_value s3 div run
  by_cases hd : (!div.isEmpty) = true
  · rw [if_pos hd]
    rename_i s4
    have h4 : s4.pending = s.pending := by simp [s4, h3]
    clear_value s4
    split <;> simp [h4]
  · rw [if_neg hd]
    split <;> simp [h3]

@[simp] theorem pend_digestRx (s : State) (good : Bool) (first : Bool) (n : Nat) (d : Digests)  : (digestRx s good first n d).pending = s.pending := by
  unfold digestRx; (repeat' split) <;> simp [*]

@[simp] theorem pend_claimChange (s : State) (level : Bool)  : (claimChange s level).pending = s.pending := by
  unfold claimChange; (try dsimp only); (repeat' (first | (simp [*]; done) | split | (refine (pend_foldl _ _ _ (fun _ _ => ?_)).trans ?_) | dsimp only)) <;> simp_all

@[simp] theorem pend_twinDecide (s : State)  : (twinDecide s).pending = s.pending := by
  simp [twinDecide]

@[simp] theorem pend_twinForce (s : State)  : (twinForce s).pending = s.pending := by
  simp [twinForce]

@[simp] theorem pend_tvwStart (s : State)  : (tvwStart s).pending = s.pending := by
  simp [tvwStart]

@[simp] theorem pend_twinServeNow (s : State) (st : Nat)  : (twinServeNow s st).pending = s.pending := by
  simp [twinServeNow]

@[simp] theorem pend_eligibleTick (s : State) (n : Nat)  : (eligibleTick s n).pending = s.pending := by
  simp [eligibleTick]

@[simp] theorem pend_twinHandover (s : State)  : (twinHandover s).pending = s.pending := by
  simp [twinHandover]

@[simp] theorem pend_claimConflict (s : State)  : (claimConflict s).pending = s.pending := by
  simp [claimConflict]

@[simp] theorem pend_tvwFrame (s : State)  : (tvwFrame s).pending = s.pending := by
  simp [tvwFrame]

@[simp] theorem pend_tvwEnd (s : State) (swing : Nat)  : (tvwEnd s swing).pending = s.pending := by
  simp [tvwEnd]

@[simp] theorem pend_grpShow (s : State)  : (grpShow s).pending = s.pending := by
  unfold grpShow; (repeat' split) <;> simp [*]

@[simp] theorem pend_portFall (s : State) (p : Nat) (to_ : Nat)  : (portFall s p to_).pending = s.pending := by
  simp [portFall]

@[simp] theorem pend_gpLand (s : State) (p : Nat)  : (gpLand s p).pending = s.pending := by
  simp [gpLand]

@[simp] theorem pend_memberHello (s : State) (p : Nat) (i : Nat) (h : Hello)  : (memberHello s p i h).pending = s.pending := by
  unfold memberHello; (repeat' split) <;> simp [*]

@[simp] theorem pend_followAlt (s : State) (i : Nat)  : (followAlt s i).pending = s.pending := by
  simp [followAlt]

@[simp] theorem pend_helloRx (s : State) (p : Nat) (h : Hello)  : (helloRx s p h).pending = s.pending := by
  simp [helloRx]

@[simp] theorem pend_proxPump (s : State)  : (proxPump s).pending = s.pending := by
  simp [proxPump]

@[simp] theorem pend_proxReply (s : State) (x : Prox) (ok : Bool) (data : List Word)  : (proxReply s x ok data).pending = s.pending := by
  simp [proxReply]

@[simp] theorem pend_proxFail (s : State) (x : Prox)  : (proxFail s x).pending = s.pending := by
  simp [proxFail]

@[simp] theorem pend_proxAccess (s : State) (m : Nat) (off : Nat) (write : Bool) (be : Nat) (data : Word) (more : List Nat) (got : List Word)  : (proxAccess s m off write be data more got).pending = s.pending := by
  simp [proxAccess]

@[simp] theorem pend_proxTake (s : State) (tag : Nat)  : (proxTake s tag).pending = s.pending := by
  simp [proxTake]

@[simp] theorem pend_rraRsp (s : State) (tag : Nat) (status : Nat) (data : Word)  : (rraRsp s tag status data).pending = s.pending := by
  unfold rraRsp; (repeat' split) <;> simp [*]

@[simp] theorem pend_memberDepart (s : State) (i : Nat)  : (memberDepart s i).pending = s.pending := by
  simp [memberDepart]

@[simp] theorem pend_cancelRx (s : State) (port : Nat) (origin : Nat)  : (cancelRx s port origin).pending = s.pending := by
  unfold cancelRx; (try dsimp only); (repeat' (first | (simp [*]; done) | split | (refine (pend_foldl _ _ _ (fun _ _ => ?_)).trans ?_) | dsimp only)) <;> simp_all

@[simp] theorem pend_grpReset (s : State)  : (grpReset s).pending = s.pending := by
  simp [grpReset]

@[simp] theorem pend_slotsRx (s : State) (p : Nat) (o : SuperObs) (good : Bool)  : (slotsRx s p o good).pending = s.pending := by
  simp [slotsRx]

@[simp] theorem pend_superRx (s : State) (p : Nat) (o : SuperObs)  : (superRx s p o).pending = s.pending := by
  simp [superRx]

@[simp] theorem pend_retryTimeout (s : State) (p : Nat) (bulk : Bool)  : (retryTimeout s p bulk).pending = s.pending := by
  simp [retryTimeout]

@[simp] theorem pend_gaugeWrite (s : State) (m : Nat) (v : Word)  : (gaugeWrite s m v).pending = s.pending := by
  simp [gaugeWrite]

@[simp] theorem pend_gaugeLand (s : State) (g : Nat)  : (gaugeLand s g).pending = s.pending := by
  simp [gaugeLand]

@[simp] theorem pend_onPrf (s : State) (f : Prf → Prf)  : (State.onPrf s f).pending = s.pending := by
  simp [State.onPrf]

@[simp] theorem pend_traceStart (s : State)  : (traceStart s).pending = s.pending := by
  simp [traceStart]

@[simp] theorem pend_traceStop (s : State)  : (traceStop s).pending = s.pending := by
  simp [traceStop]

@[simp] theorem pend_traceReset (s : State)  : (traceReset s).pending = s.pending := by
  simp [traceReset]

@[simp] theorem pend_traceLatch (s : State) (m : Nat) (n : Nat)  : (traceLatch s m n).pending = s.pending := by
  simp [traceLatch]

@[simp] theorem pend_traceRecord (s : State) (m : Nat) (tgt : Nat) (addr : Nat) (write : Bool) (res : Nat) (len : Nat)  : (traceRecord s m tgt addr write res len).pending = s.pending := by
  simp [traceRecord]

@[simp] theorem pend_tagShow (s : State)  : (tagShow s).pending = s.pending := by
  simp [tagShow]

@[simp] theorem pend_tagEnable (s : State) (was : Bool)  : (tagEnable s was).pending = s.pending := by
  simp [tagEnable]

@[simp] theorem pend_tagRecord (s : State) (e : Nat) (pc : Nat) (instr : Word) (cycle : Word) (stall : Nat) (causes : Nat) (complete : Nat) (fault : Bool)  : (tagRecord s e pc instr cycle stall causes complete fault).pending = s.pending := by
  simp [tagRecord]

@[simp] theorem pend_tagPop (s : State)  : (tagPop s).pending = s.pending := by
  simp [tagPop]

@[simp] theorem pend_monSrst (s : State)  : (monSrst s).pending = s.pending := by
  simp [monSrst]

@[simp] theorem pend_prfReset (s : State)  : (prfReset s).pending = s.pending := by
  simp [prfReset]

@[simp] theorem pend_onHst (s : State) (f : Hst → Hst)  : (State.onHst s f).pending = s.pending := by
  simp [State.onHst]

@[simp] theorem pend_setFlash (s : State) (w : Nat) (v : Word)  : (State.setFlash s w v).pending = s.pending := by
  simp [State.setFlash]

@[simp] theorem pend_genShow (s : State)  : (genShow s).pending = s.pending := by
  simp [genShow]

@[simp] theorem pend_restartDone (s : State) (code : Nat)  : (restartDone s code).pending = s.pending := by
  simp [restartDone]

@[simp] theorem pend_bootImage (s : State) (i : Nat) (fallback : Bool)  : (bootImage s i fallback).pending = s.pending := by
  simp [bootImage]

@[simp] theorem pend_bootNone (s : State)  : (bootNone s).pending = s.pending := by
  simp [bootNone]

@[simp] theorem pend_hatterRestart (s : State) (st : Nat)  : (hatterRestart s st).pending = s.pending := by
  simp [hatterRestart]

@[simp] theorem pend_cmdRestart (s : State)  : (cmdRestart s).pending = s.pending := by
  simp [cmdRestart]

@[simp] theorem pend_h2cDb (s : State) (v : Nat)  : (h2cDb s v).pending = s.pending := by
  simp [h2cDb]

@[simp] theorem pend_c2hAck (s : State) (v : Nat)  : (c2hAck s v).pending = s.pending := by
  simp [c2hAck]

@[simp] theorem pend_hatterReply (s : State) (status : Nat) (more : List Word)  : (hatterReply s status more).pending = s.pending := by
  simp [hatterReply]

@[simp] theorem pend_failStatus (s : State) (more : List Word)  : (failStatus s more).pending = s.pending := by
  simp [failStatus]

@[simp] theorem pend_remapTake (s : State) (v : Nat)  : (remapTake s v).pending = s.pending := by
  simp [remapTake]

@[simp] theorem pend_unmaskVec (s : State) (v : Nat)  : (unmaskVec s v).pending = s.pending := by
  simp [unmaskVec]

@[simp] theorem pend_dmaReset (s : State)  : (dmaReset s).pending = s.pending := by
  simp [dmaReset]

@[simp] theorem pend_pncReset (s : State)  : (pncReset s).pending = s.pending := by
  simp [pncReset]

@[simp] theorem pend_lgcReset (s : State) (lg : Nat)  : (lgcReset s lg).pending = s.pending := by
  simp [lgcReset]

@[simp] theorem pend_chReset (s : State) (c : Nat)  : (chReset s c).pending = s.pending := by
  simp [chReset]

@[simp] theorem pend_lgsReset (s : State) (lg : Nat)  : (lgsReset s lg).pending = s.pending := by
  simp [lgsReset]

@[simp] theorem pend_lgmReset (s : State) (lg : Nat)  : (lgmReset s lg).pending = s.pending := by
  simp [lgmReset]

@[simp] theorem pend_pageSrst (s : State) (pg : Nat)  : (pageSrst s pg).pending = s.pending := by
  unfold pageSrst; (try dsimp only); (repeat' (first | (simp [*]; done) | split | (refine (pend_foldl _ _ _ (fun _ _ => ?_)).trans ?_) | dsimp only)) <;> simp_all

@[simp] theorem pend_regRead (s : State) (m : Nat) (b : Nat) (a : Nat)  : (regRead s m b a).2.pending = s.pending := by
  unfold regRead; (repeat' split) <;> simp [*]

@[simp] theorem pend_defaultTarget (s : State) (m : Nat) (addr : Nat) (write : Bool)  : (defaultTarget s m addr write).pending = s.pending := by
  simp [defaultTarget]

@[simp] theorem pend_busRead (s : State) (m b a cls : Nat) : (busRead s m b a cls).pending = s.pending := by
  unfold busRead
  split
  · rfl
  split
  · split
    · simp
    · have h : (regRead s m b a).2.pending = s.pending := by simp
      split <;> rename_i e <;> rw [e] at h <;> simpa using h
  (repeat' split) <;> simp

@[simp] theorem pend_pageRefusal (s : State) (p : PostW) (k : Nat) (a : Nat) (d : RegDesc)  : (pageRefusal s p k a d).1.pending = s.pending := by
  unfold pageRefusal; (repeat' split) <;> simp [*]

@[simp] theorem pend_judgeWord (s : State) (p : PostW)  : (judgeWord s p).1.pending = s.pending := by
  unfold judgeWord; (repeat' split) <;> simp [*]

@[simp] theorem pend_snapAsk (s : State) (late : Bool)  : (snapAsk s late).pending = s.pending := by
  simp [snapAsk]

@[simp] theorem pend_runCmd (s : State) (m : Nat) (b : Nat) (late : Bool) (a : Nat) (i : Nat)  : (runCmd s m b late a i).pending = s.pending := by
  unfold runCmd; (repeat' split) <;> simp [*]

@[simp] theorem pend_landCmds (late : Bool) (s : State) (p : PostW) (k : Nat) (a : Nat) (d : RegDesc)  : (landCmds late s p k a d).pending = s.pending := by
  simp [landCmds]

@[simp] theorem pend_pmPreset (s : State) (k : Nat) (v : Nat) (n : Nat)  : (pmPreset s k v n).pending = s.pending := by
  simp [pmPreset]

@[simp] theorem pend_perfPreset (s : State) (k : Nat) (low : Bool) (soft : Bool) (v : Nat) (n : Nat)  : (perfPreset s k low soft v n).pending = s.pending := by
  simp [perfPreset]

@[simp] theorem pend_storeWord (late : Bool) (s : State) (p : PostW) (k : Nat) (a : Nat) (d : RegDesc)  : (storeWord late s p k a d).pending = s.pending := by
  simp [storeWord]

@[simp] theorem pend_landReg (late : Bool) (s : State) (p : PostW) (k a : Nat) (d : RegDesc) : (landReg late s p k a d).pending = s.pending := by
  unfold landReg
  dsimp only
  by_cases c1 : isPerfLow a = true
  · rw [if_pos c1]; split <;> simp
  rw [if_neg c1]
  by_cases c2 : 4 ≤ a ∧ isPerfLow (a - 4) = true
  · rw [if_pos c2]; split <;> simp
  rw [if_neg c2]
  by_cases c3 : (d.held && d.rws != 0) = true
  · rw [if_pos c3]; split <;> simp
  rw [if_neg c3]
  by_cases c4 : (occDesc k).isSome = true
  · rw [if_pos c4]; split <;> simp
  rw [if_neg c4]
  by_cases c5 : a % 4096 = 0x14
  · rw [if_pos c5]; split <;> simp
  rw [if_neg c5]
  by_cases c6 : a % 4096 = 0x18
  · rw [if_pos c6]; split <;> simp
  rw [if_neg c6]
  generalize pageKind a = pk
  clear c1 c2 c3 c4 c5 c6
  cases pk with
  | none => simp
  | some x => cases x <;> dsimp only <;> (repeat' split) <;> simp

@[simp] theorem pend_landCore (late : Bool) (s : State) (p : PostW) : (landCore late s p).pending = s.pending := by
  unfold landCore
  dsimp only
  (repeat' split) <;> simp

@[simp] theorem pend_landWord (late : Bool) (s : State) (p : PostW) : (landWord late s p).pending = s.pending := by
  unfold landWord
  dsimp only
  (repeat' split) <;> simp

@[simp] theorem pend_writeNow (late : Bool) (s : State) (p : PostW) : (writeNow late s p).1.pending = s.pending := by
  unfold writeNow
  dsimp only
  (repeat' split) <;> simp

@[simp] theorem pend_lgLand (s : State) (lg : Nat) (late : Bool) : (lgLand s lg late).pending = s.pending := by
  unfold lgLand
  exact (pend_foldl _ _ _ (fun _ _ => pend_landWord ..)).trans rfl

@[simp] theorem pend_lgEnter (s : State) (lg : Nat) (p : PostW)  : (lgEnter s lg p).1.pending = s.pending := by
  simp [lgEnter]

@[simp] theorem pend_windowWord (s : State) (m : Nat) (a : Nat)  : (windowWord s m a).2.pending = s.pending := by
  simp [windowWord]

@[simp] theorem pend_windowTake (s : State) (m : Nat) (a : Nat) (v : Word)  : (windowTake s m a v).pending = s.pending := by
  simp [windowTake]

@[simp] theorem pend_windowWrite (s : State) (m : Nat) (a : Nat) (v : Word) (be : Nat)  : (windowWrite s m a v be).1.pending = s.pending := by
  unfold windowWrite; (try dsimp only); (repeat' (first | (simp [*]; done) | split | (refine (pend_foldl _ _ _ (fun _ _ => ?_)).trans ?_) | dsimp only)) <;> simp_all

@[simp] theorem pend_granted (s : State) (m : Nat) (tgt : Nat) (addr : Nat) (write : Bool) (ok : Bool) (len : Nat)  : (granted s m tgt addr write ok len).pending = s.pending := by
  simp [granted]

@[simp] theorem pend_busWord (m b : Nat) (late : Bool) (hw : Option HwWrite) (busy : List Nat) (r : State × Bool × List Nat) (w : BusWord) :
    (busWord m b late hw busy r w).1.pending = r.1.pending := by
  unfold busWord
  dsimp only
  (repeat' split) <;> simp

@[simp] theorem pend_busWrite (s : State) (m b : Nat) (late : Bool) (hw : Option HwWrite) (l : List BusWord) :
    (busWrite s m b late hw l).1.pending = s.pending := by
  unfold busWrite
  split
  · rfl
  · extract_lets s1 busy r a to0 t
    have h1 : s1.pending = s.pending := by
      simp only [s1]; split
      · exact pend_foldl _ _ _ (fun _ _ => by split <;> simp)
      · rfl
    have h2 : r.1.pending = s.pending := (pend_foldl1 _ _ _ (fun _ _ => pend_busWord ..)).trans h1
    simp only [t, pend_reply]
    split <;> simp [h2]

@[simp] theorem pend_copyLanded (s : State) (p : PostW)  : (copyLanded s p).pending = s.pending := by
  unfold copyLanded; (repeat' split) <;> simp [*]

@[simp] theorem pend_waitRead (s : State) (m : Nat) (b : Nat) (a : Nat) (late : Bool) (cls : Nat)  : (waitRead s m b a late cls).pending = s.pending := by
  unfold waitRead
  (try dsimp only)
  (repeat' split) <;> simp

@[simp] theorem pend_pageWrite (s : State) (m : Nat) (late : Bool) (a : Nat) (v : Word) (hw : Option HwWrite)  : (pageWrite s m late a v hw).pending = s.pending := by
  unfold pageWrite
  (try dsimp only)
  (repeat' split) <;> simp

@[simp] theorem pend_sclkRefresh (s : State)  : (sclkRefresh s).pending = s.pending := by
  simp [sclkRefresh]

@[simp] theorem pend_fwdApply (s : State) (a : Nat) (v : Word) (mask : Word) (m : Nat)  : (fwdApply s a v mask m).pending = s.pending := by
  unfold fwdApply
  (try dsimp only)
  (repeat' split) <;> simp

@[simp] theorem pend_rraReq (s : State) (p : Nat) (tag : Nat) (off : Nat) (write : Bool) (be : Nat) (data : Word)  : (rraReq s p tag off write be data).pending = s.pending := by
  unfold rraReq
  (try dsimp only)
  (repeat' split) <;> simp

@[simp] theorem pend_enginePort (s : State) (e : Nat) (op : BusOp)  : (enginePort s e op).1.pending = s.pending := by
  unfold enginePort
  (try dsimp only)
  (repeat' split) <;> simp

@[simp] theorem pend_busOpDone (s : State) (e : Nat)  : (busOpDone s e).pending = s.pending := by
  unfold busOpDone
  (try dsimp only)
  (repeat' split) <;> simp

@[simp] theorem pend_discardUnit (s : State) (m : Nat) (p : Option Partial)  : (discardUnit s m p).pending = s.pending := by
  unfold discardUnit; (repeat' split) <;> simp [*]

@[simp] theorem pend_bar4Write (s : State) (a : Nat) (v : Word) (mask : Word)  : (bar4Write s a v mask).pending = s.pending := by
  simp [bar4Write]

@[simp] theorem pend_msixControl (s : State) (v : Word) (mask : Word)  : (msixControl s v mask).pending = s.pending := by
  simp [msixControl]

@[simp] theorem pend_configWrite (s : State) (w : Nat) (v : Word) (mask : Word)  : (configWrite s w v mask).pending = s.pending := by
  simp [configWrite]

@[simp] theorem pend_werr (s : State) (ok : Bool)  : (werr s ok).pending = s.pending := by
  simp [werr]

@[simp] theorem pend_pcieWrite (s : State) (sp : PcieSpace) (addr : Nat) (l : List (Word × Nat)) (late : Bool)  : (pcieWrite s sp addr l late).pending = s.pending := by
  unfold pcieWrite
  (try dsimp only)
  (repeat' split) <;> simp

@[simp] theorem pend_pcieRead0 (s : State) (l : List Nat) (late : Bool) (cls : Nat)  : (pcieRead0 s l late cls).1.pending = s.pending := by
  unfold pcieRead0
  (try dsimp only)
  (repeat' split) <;> simp

@[simp] theorem pend_pcieComplete (s : State) (ok : Bool) (data : List Word)  : (pcieComplete s ok data).pending = s.pending := by
  simp [pcieComplete]

@[simp] theorem pend_pcieRead (s : State) (sp : PcieSpace) (addr : Nat) (n : Nat) (late : Bool) (cls : Nat)  : (pcieRead s sp addr n late cls).pending = s.pending := by
  unfold pcieRead
  (try dsimp only)
  (repeat' split) <;> simp

@[simp] theorem pend_descDone (s : State) (c : Nat) (len : Nat) (err : Bool)  : (descDone s c len err).pending = s.pending := by
  simp [descDone]

@[simp] theorem pend_dmaStop (s : State) (c : Nat)  : (dmaStop s c).pending = s.pending := by
  simp [dmaStop]

@[simp] theorem pend_dmaTx (s : State) (p : Nat) (len : Nat) (ctrl : Word) (frame : List Byte) (raw : Nat)  : (dmaTx s p len ctrl frame raw).pending = s.pending := by
  simp [dmaTx]

@[simp] theorem pend_dmaRx (s : State) (p : Nat) (addr : Nat) (len : Nat)  : (dmaRx s p addr len).pending = s.pending := by
  unfold dmaRx; (repeat' split) <;> simp [*]

@[simp] theorem pend_smbCommand (s : State) (pecOk : Bool) (count : Nat) (want : Nat) (k : State → State) (h_k : ∀ y0, (k y0).pending = y0.pending) : (smbCommand s pecOk count want k).pending = s.pending := by
  unfold smbCommand; (repeat' split) <;> simp [*]

@[simp] theorem pend_smbDone (s : State) (st : Nat) (data : List Word)  : (smbDone s st data).pending = s.pending := by
  simp [smbDone]

@[simp] theorem pend_smbRead (s : State) (a : Nat)  : (smbRead s a).2.pending = s.pending := by
  simp [smbRead]

@[simp] theorem pend_smbFail (s : State) (st : Nat)  : (smbFail s st).pending = s.pending := by
  simp [smbFail]

@[simp] theorem pend_smbNext (s : State)  : (smbNext s).pending = s.pending := by
  simp [smbNext]

@[simp] theorem pend_smbEnd (s : State) (slow : Bool) (k : State → State) (h_k : ∀ y0, (k y0).pending = y0.pending) : (smbEnd s slow k).pending = s.pending := by
  unfold smbEnd; (repeat' split) <;> simp [*]

@[simp] theorem pend_plainTarget (s : State) (m : Nat) (tgt : Nat) (a : Nat) (write : Bool) (data : List Word)  : (plainTarget s m tgt a write data).pending = s.pending := by
  simp [plainTarget]

@[simp] theorem pend_jtagAccess (s : State) (a : Nat) (write : Bool) (be : Nat) (v : Word) (late : Bool) (cls : Nat)  : (jtagAccess s a write be v late cls).pending = s.pending := by
  unfold jtagAccess
  (try dsimp only)
  (repeat' split) <;> simp

@[simp] theorem pend_jtagUnaligned (s : State) (a : Nat) (write : Bool)  : (jtagUnaligned s a write).pending = s.pending := by
  simp [jtagUnaligned]

@[simp] theorem pend_landHook (before : State) (s : State) (k : Nat)  : (landHook before s k).pending = s.pending := by
  unfold landHook; (try dsimp only); (repeat' (first | (simp [*]; done) | split | (refine (pend_foldl _ _ _ (fun _ _ => ?_)).trans ?_) | dsimp only)) <;> simp_all

@[simp] theorem pend_landKeys (before : State) (s : State) (l : List Nat)  : (landKeys before s l).pending = s.pending := by
  simp [landKeys]

@[simp] theorem pend_landSet (due : PendW → Bool) (s : State)  : (landSet due s).pending = s.pending := by
  simp [landSet]

@[simp] theorem pend_passPend (at_ : PendW → Bool) (s : State)  : (passPend at_ s).pending = s.pending := by
  simp [passPend]

@[simp] theorem pend_schedBits (s : State) (k : Nat) (off : Nat) (mask : Word) (v : Word) (line : Option Nat)  : (schedBits s k off mask v line).pending = s.pending := by
  simp [schedBits]

@[simp] theorem pend_cfgStore (s : State) (due : List PendW) (a : Nat) (v : Word)  : (cfgStore s due a v).1.pending = s.pending := by
  unfold cfgStore; (repeat' split) <;> simp [*]

@[simp] theorem pend_regStore (s : State) (a : Nat) (v : Word)  : (regStore s a v).1.pending = s.pending := by
  unfold regStore
  (try dsimp only)
  (repeat' split) <;> simp

@[simp] theorem pend_ppsQueue (s : State) (a : Action) (i : Item)  : (ppsQueue s a i).pending = s.pending := by
  simp [ppsQueue]

@[simp] theorem pend_itemSend (a : Action) (s : State) (i : Item)  : (itemSend a s i).pending = s.pending := by
  unfold itemSend; (repeat' split) <;> simp [*]

@[simp] theorem pend_admitFailed (s : State) (a : Action) (i : Item) (left : Bool)  : (admitFailed s a i left).pending = s.pending := by
  simp [admitFailed]

@[simp] theorem pend_dispatchOne (refused : List (Nat × Nat × Nat)) (s : State) (a : Action)  : (dispatchOne refused s a).pending = s.pending := by
  unfold dispatchOne; (try dsimp only); (repeat' (first | (simp [*]; done) | split | (refine (pend_foldl _ _ _ (fun _ _ => ?_)).trans ?_) | dsimp only)) <;> simp_all

@[simp] theorem pend_dispatchAt (s : State) (bns : Nat) (refused : List (Nat × Nat × Nat))  : (dispatchAt s bns refused).pending = s.pending := by
  simp [dispatchAt]

@[simp] theorem pend_applyItem (s : State) (due : List PendW) (a : Action) (i : Item)  : (applyItem s due a i).1.pending = s.pending := by
  unfold applyItem
  (try dsimp only)
  (repeat' split) <;> simp

@[simp] theorem pend_itemFailed (s : State) (i : Item)  : (itemFailed s i).pending = s.pending := by
  unfold itemFailed; (repeat' split) <;> simp [*]

@[simp] theorem pend_applyItems (a : Action) (l : List Item) (x : State × List PendW) (r : List Bool) :
    (applyItems a l x r).1.1.pending = x.1.pending := by
  induction l generalizing x r with
  | nil => rfl
  | cons i l ih =>
    unfold applyItems
    rw [ih]
    split <;> simp

@[simp] theorem pend_applyAction (x : State × List PendW) (a : Action)  : (applyAction x a).1.pending = x.1.pending := by
  unfold applyAction
  (try dsimp only)
  (repeat' split) <;> simp

@[simp] theorem pend_missAction (s : State) (a : Action)  : (missAction s a).pending = s.pending := by
  simp [missAction]

@[simp] theorem pend_applyAt (s : State) (bns : Nat) (due : List PendW)  : (applyAt s bns due).pending = s.pending := by
  unfold applyAt
  (try dsimp only)
  (repeat' split) <;> simp

@[simp] theorem pend_lineLand (s : State) (c : Nat)  : (lineLand s c).pending = s.pending := by
  simp [lineLand]

@[simp] theorem pend_arrStamp (s : State) (c : Nat) (at_ : Nat)  : (arrStamp s c at_).pending = s.pending := by
  simp [arrStamp]

@[simp] theorem pend_frameIn (s : State) (c : Nat) (o : LineObs)  : (frameIn s c o).pending = s.pending := by
  unfold frameIn; (repeat' split) <;> simp [*]

@[simp] theorem pend_framePeriod (s : State) (c : Nat) (o : LineObs)  : (framePeriod s c o).pending = s.pending := by
  unfold framePeriod; (repeat' split) <;> simp [*]

@[simp] theorem pend_ethPeriod (s : State) (c : Nat) (o : LineObs)  : (ethPeriod s c o).pending = s.pending := by
  simp [ethPeriod]

@[simp] theorem pend_lineFrame (s : State) (c : Nat) (o : LineObs)  : (lineFrame s c o).pending = s.pending := by
  simp [lineFrame]

@[simp] theorem pend_reach (s : State) (t : Nat)  : (reach s t).pending = s.pending := by
  simp [reach]

@[simp] theorem pend_passDue (s : State) (p : Nat × Due)  : (passDue s p).pending = s.pending := by
  unfold passDue
  (try dsimp only)
  (repeat' split) <;> simp

@[simp] theorem pend_catchUp (s : State) (limit n : Nat) : (catchUp s limit n).pending = s.pending := by
  induction n generalizing s with
  | zero => rfl
  | succ n ih =>
    unfold catchUp
    split
    · rfl
    · split <;> simp [ih]

@[simp] theorem pend_plankDispatch (s : State) (sfn : Nat) (tick : Nat) (refused : List (Nat × Nat × Nat))  : (plankDispatch s sfn tick refused).pending = s.pending := by
  unfold plankDispatch
  (try dsimp only)
  (repeat' split) <;> simp

@[simp] theorem pend_usTick (s : State)  : (usTick s).pending = s.pending := by
  unfold usTick
  (try dsimp only)
  (repeat' split) <;> simp

@[simp] theorem pend_putSlots (s : State) (g : Nat) (l : List SlotData)  : (State.putSlots s g l).pending = s.pending := by
  simp [State.putSlots]

@[simp] theorem pend_tagOf (s : State) (c : Nat) (e : Nat)  : (tagOf s c e).2.pending = s.pending := by
  simp [tagOf]

@[simp] theorem pend_speIn (s : State) (o : SpeObs)  : (speIn s o).pending = s.pending := by
  unfold speIn; (repeat' split) <;> simp [*]

@[simp] theorem pend_oduIn (s : State) (o : OduArr)  : (oduIn s o).pending = s.pending := by
  simp [oduIn]

@[simp] theorem pend_pathSlots (r : Bool × State) (c : Nat) (e : Nat)  : (pathSlots r c e).2.pending = r.2.pending := by
  simp [pathSlots]

@[simp] theorem pend_oduSlots (n : Nat) (r : Bool × State) (x : Nat × Nat × Nat × Nat × Nat) (c : Nat)  : (oduSlots n r x c).2.pending = r.2.pending := by
  simp [oduSlots]

@[simp] theorem pend_chReplace (s : State) (c : Nat)  : (chReplace s c).pending = s.pending := by
  simp [chReplace]

@[simp] theorem pend_groupSlots (n : Nat) (was : Tab SlotData) (vs : List VcatObs) (s : State) (c : Nat) :
    (groupSlots n was vs s c).pending = s.pending := by
  unfold groupSlots
  dsimp only
  split
  · rfl
  · exact (pend_foldl _ _ _ (fun t i => by simp)).trans (pend_gfpTake s c)

@[simp] theorem pend_channelSlots (n : Nat) (was : Tab SlotData) (vs : List VcatObs) (r : List Nat × State) (c : Nat) :
    (channelSlots n was vs r c).2.pending = r.2.pending := by
  unfold channelSlots
  dsimp only
  (repeat' split) <;> simp

@[simp] theorem pend_storesKeep (s : State)  : (storesKeep s).pending = s.pending := by
  simp [storesKeep]

@[simp] theorem pend_slotFrame (s : State) (n : Nat) (ups : List Nat) (vs : List VcatObs) : (slotFrame s n ups vs).2.pending = s.pending := by
  unfold slotFrame
  dsimp only
  refine (pend_foldl _ _ _ (fun _ _ => by simp)).trans ?_
  simp

@[simp] theorem pend_hitlessFrame (s : State) (n : Nat)  : (hitlessFrame s n).pending = s.pending := by
  simp [hitlessFrame]

@[simp] theorem pend_lowerFrame (s : State) (n : Nat)  : (lowerFrame s n).pending = s.pending := by
  simp [lowerFrame]

@[simp] theorem pend_xingEvent (s : State) (xid : Nat) (index : Nat)  : (xingEvent s xid index).pending = s.pending := by
  simp [xingEvent]

@[simp] theorem pend_xingInject (s : State)  : (xingInject s).pending = s.pending := by
  simp [xingInject]

@[simp] theorem pend_setEg (s : State) (c : Nat) (x : EgLine)  : (State.setEg s c x).pending = s.pending := by
  simp [State.setEg]

@[simp] theorem pend_injFrames (s : State) (c : Nat) (p : Nat) (f : Nat → List Byte → List Byte) (l : List (List Byte))  : (injFrames s c p f l).2.pending = s.pending := by
  simp [injFrames]

@[simp] theorem pend_sdhInject (s : State) (c sts : Nat) (l : List (List Byte)) : (sdhInject s c sts l).2.pending = s.pending := by
  unfold sdhInject
  dsimp only
  split
  · rfl
  · refine (pend_foldl2 _ _ _ (fun r i => ?_)).trans ?_
    · split <;> simp
    · simp

@[simp] theorem pend_carRun (s : State) (c : Nat) (e : Nat)  : (carRun s c e).2.pending = s.pending := by
  simp [carRun]

@[simp] theorem pend_otuInject (s : State) (c : Nat) (l : List (List Byte))  : (otuInject s c l).2.pending = s.pending := by
  simp [otuInject]

@[simp] theorem pend_otnFrames (s : State) (c : Nat) (n : Nat)  : (otnFrames s c n).2.pending = s.pending := by
  simp [otnFrames]

@[simp] theorem pend_ethFrames (s : State) (c : Nat)  : (ethFrames s c).2.pending = s.pending := by
  unfold ethFrames; (repeat' split) <;> simp [*]

@[simp] theorem pend_egressChannel (n : Nat) (s : State) (c : Nat) : (egressChannel n s c).pending = s.pending := by
  unfold egressChannel
  dsimp only
  split
  · simp
  · refine (pend_ite _ _ _).trans ?_
    split <;> simp only [pend_send, pend_setEg] <;> (repeat' split) <;> simp

@[simp] theorem pend_depStamp (s : State) (p : Nat × Nat)  : (depStamp s p).pending = s.pending := by
  unfold depStamp; (try dsimp only); (repeat' (first | (simp [*]; done) | split | (refine (pend_foldl _ _ _ (fun _ _ => ?_)).trans ?_) | dsimp only)) <;> simp_all

@[simp] theorem pend_egressUnits (s : State) (o : EgObs)  : (egressUnits s o).pending = s.pending := by
  simp [egressUnits]

@[simp] theorem pend_streamOver (s : State) (c : Nat)  : (streamOver s c).pending = s.pending := by
  simp [streamOver]

@[simp] theorem pend_ethCount (s : State) (c : Nat)  : (ethCount s c).pending = s.pending := by
  simp [ethCount]

@[simp] theorem pend_digestInject (s : State)  : (digestInject s).2.pending = s.pending := by
  simp [digestInject]

@[simp] theorem pend_spoilSent (s : State)  : (spoilSent s).pending = s.pending := by
  unfold spoilSent; (repeat' split) <;> simp [*]

@[simp] theorem pend_digestFrame (s : State) (eg : List EgObs) (n : Nat)  : (digestFrame s eg n).pending = s.pending := by
  simp [digestFrame]

@[simp] theorem pend_frameEnd (s : State) (n : Nat) (o : FrameObs) : (frameEnd s n o).pending = s.pending := by
  simp [frameEnd]

@[simp] theorem pend_frameCyc (s : State) (cyc : Nat)  : (frameCyc s cyc).pending = s.pending := by
  simp [frameCyc]

@[simp] theorem pend_force (s : State) (k : Nat) (i : Nat)  : (force s k i).pending = s.pending := by
  simp [force]

@[simp] theorem pend_forceFrame (s : State)  : (forceFrame s).pending = s.pending := by
  unfold forceFrame; (try dsimp only); (repeat' (first | (simp [*]; done) | split | (refine (pend_foldl _ _ _ (fun _ _ => ?_)).trans ?_) | dsimp only)) <;> simp_all

@[simp] theorem pend_replay (from_ : Nat) (s : State) (m : Msg)  : (replay from_ s m).pending = s.pending := by
  unfold replay
  (try dsimp only)
  (repeat' split) <;> simp

@[simp] theorem pend_applyRegion (s : State) (r : Nat)  : (applyRegion s r).pending = s.pending := by
  unfold applyRegion
  (try dsimp only)
  (repeat' split) <;> simp

@[simp] theorem pend_applyRegions (s : State)  : (applyRegions s).pending = s.pending := by
  unfold applyRegions
  (try dsimp only)
  (repeat' split) <;> simp

@[simp] theorem pend_boundaryWrites (s : State) (n : Nat) (b : Nat)  : (boundaryWrites s n b).pending = s.pending := by
  unfold boundaryWrites
  (try dsimp only)
  (repeat' split) <;> simp

@[simp] theorem pend_holdReturns (s : State)  : (holdReturns s).pending = s.pending := by
  simp [holdReturns]

@[simp] theorem pend_caFrame (s : State)  : (caFrame s).pending = s.pending := by
  unfold caFrame; (try dsimp only); (repeat' (first | (simp [*]; done) | split | (refine (pend_foldl _ _ _ (fun _ _ => ?_)).trans ?_) | dsimp only)) <;> simp_all

@[simp] theorem pend_bpathShow (s : State)  : (bpathShow s).pending = s.pending := by
  simp [bpathShow]

@[simp] theorem pend_entryUncov (s : State) (n : Nat)  : (entryUncov s n).pending = s.pending := by
  simp [entryUncov]

@[simp] theorem pend_superSend (n : Nat) (lm : List (Nat × Nat)) (s : State) (p : Nat)  : (superSend n lm s p).pending = s.pending := by
  unfold superSend; (try dsimp only); (repeat' (first | (simp [*]; done) | split | (refine (pend_foldl _ _ _ (fun _ _ => ?_)).trans ?_) | dsimp only)) <;> simp_all

@[simp] theorem pend_latencies (s : State) (l : List (Nat × Nat))  : (latencies s l).pending = s.pending := by
  unfold latencies; (try dsimp only); (repeat' (first | (simp [*]; done) | split | (refine (pend_foldl _ _ _ (fun _ _ => ?_)).trans ?_) | dsimp only)) <;> simp_all

@[simp] theorem pend_snapFrame (s : State) (n : Nat)  : (snapFrame s n).pending = s.pending := by
  unfold snapFrame; (repeat' split) <;> simp [*]

@[simp] theorem pend_slotsBegin (s : State) (n : Nat) (o : FrameObs) : (slotsBegin s n o).pending = s.pending := by
  simp [slotsBegin]

@[simp] theorem pend_selsRest (s : State)  : (selsRest s).pending = s.pending := by
  simp [selsRest]

@[simp] theorem pend_frameBegin (s : State) (n b : Nat) (o : FrameObs) : (frameBegin s n b o).pending = s.pending := by
  simp [frameBegin]

@[simp] theorem pend_frameTick (s : State) (o : FrameObs) : (frameTick s o).pending = s.pending := by
  unfold frameTick
  split
  · rfl
  · simp

@[simp] theorem pend_withFetchWord (s : State) (nbits : Nat) (w : Nat)  : (State.withFetchWord s nbits w).pending = s.pending := by
  rfl

@[simp] theorem pend_settle2 (s : State) : s.settle.pending = s.pending := by simp

def Quiet (s : State) (o : Host.Outcome State Fault Refusal) : Prop := ∃ t, o = .next t ∧ t.pending = s.pending

@[simp] theorem quiet_done (s t : State) : Quiet s (done t) ↔ t.pending = s.pending := by simp [Quiet, done]

theorem q_execPowerOn (bothDown : Bool) (s : State) : Quiet s (execPowerOn bothDown s) := by
  unfold execPowerOn
  (try dsimp only)
  (repeat' split) <;> simp

theorem q_execResetNAssert (ns : Nat) (s : State) : Quiet s (execResetNAssert ns s) := by
  unfold execResetNAssert
  (try dsimp only)
  (repeat' split) <;> simp

theorem q_execBrownOut  (s : State) : Quiet s (execBrownOut s) := by
  unfold execBrownOut
  (try dsimp only)
  (repeat' split) <;> simp

theorem q_execSeqViolation (kind : Fin 5) (inService : Bool) (s : State) : Quiet s (execSeqViolation kind inService s) := by
  unfold execSeqViolation
  (try dsimp only)
  (repeat' split) <;> simp

theorem q_execInternalResetEnd (s1 s2 s3 : BitVec 9) (refs : BitVec 5) (s : State) : Quiet s (execInternalResetEnd s1 s2 s3 refs s) := by
  unfold execInternalResetEnd
  (try dsimp only)
  (repeat' split) <;> simp

theorem q_execFuseReadComplete (crcOk : Bool) (fact : List (Nat × Int)) (s : State) : Quiet s (execFuseReadComplete crcOk fact s) := by
  unfold execFuseReadComplete
  (try dsimp only)
  (repeat' split) <;> simp

theorem q_execCoreCfgWrite (m : Fin 8) (v : Word) (s : State) : Quiet s (execCoreCfgWrite m v s) := by
  unfold execCoreCfgWrite
  (try dsimp only)
  (repeat' split) <;> simp

theorem q_execCorePllRelock  (s : State) : Quiet s (execCorePllRelock s) := by
  unfold execCorePllRelock
  (try dsimp only)
  (repeat' split) <;> simp

theorem q_execCoreClockLockLoss (cclk eclk sclk : Bool) (s : State) : Quiet s (execCoreClockLockLoss cclk eclk sclk s) := by
  unfold execCoreClockLockLoss
  (try dsimp only)
  (repeat' split) <;> simp

theorem q_execMclkLockLoss  (s : State) : Quiet s (execMclkLockLoss s) := by
  unfold execMclkLockLoss
  (try dsimp only)
  (repeat' split) <;> simp

theorem q_execRefLoss (input : Fin 5) (s : State) : Quiet s (execRefLoss input s) := by
  unfold execRefLoss
  (try dsimp only)
  (repeat' split) <;> simp

theorem q_execMemPllLockLoss  (s : State) : Quiet s (execMemPllLockLoss s) := by
  unfold execMemPllLockLoss
  (try dsimp only)
  (repeat' split) <;> simp

theorem q_execCrossingOverflow (xid : Fin 32) (index : Fin 256) (s : State) : Quiet s (execCrossingOverflow xid index s) := by
  unfold execCrossingOverflow
  (try dsimp only)
  (repeat' split) <;> simp

theorem q_execFrameTick (o : FrameObs) (s : State) : Quiet s (execFrameTick o s) := by
  unfold execFrameTick
  (try dsimp only)
  (repeat' split) <;> simp

theorem q_execUsTick  (s : State) : Quiet s (execUsTick s) := by
  unfold execUsTick
  (try dsimp only)
  (repeat' split) <;> simp

theorem q_execRegisterWrite (m : Fin 8) (a : Nat) (v : Word) (be : Fin 16) (late : Bool) (hw : Option HwWrite) (s : State) : Quiet s (execRegisterWrite m a v be late hw s) := by
  unfold execRegisterWrite
  (try dsimp only)
  (repeat' split) <;> simp

theorem q_execLgPostedWrite (m : Fin 8) (lg : Fin 16) (l : List (Nat × Word × Nat)) (s : State) : Quiet s (execLgPostedWrite m lg l s) := by
  unfold execLgPostedWrite
  (try dsimp only)
  (repeat' split) <;> simp

theorem q_execPostedWriteLand (lg : Fin 16) (late : Bool) (s : State) : Quiet s (execPostedWriteLand lg late s) := by
  unfold execPostedWriteLand
  (try dsimp only)
  (repeat' split) <;> simp

theorem q_execLgReadComplete (m : Fin 8) (lg : Fin 16) (off : Fin 0x10000) (late : Bool) (s : State) : Quiet s (execLgReadComplete m lg off late s) := by
  unfold execLgReadComplete
  (try dsimp only)
  (repeat' split) <;> simp

theorem q_execPageLock (m : Fin 8) (page : Fin 576) (s : State) : Quiet s (execPageLock m page s) := by
  unfold execPageLock
  (try dsimp only)
  (repeat' split) <;> simp

theorem q_execParActWrite (m : Fin 8) (page : Fin 576) (v : Word) (s : State) : Quiet s (execParActWrite m page v s) := by
  unfold execParActWrite
  (try dsimp only)
  (repeat' split) <;> simp

theorem q_execParityScanPass (us : Nat) (bad : List Nat) (s : State) : Quiet s (execParityScanPass us bad s) := by
  unfold execParityScanPass
  (try dsimp only)
  (repeat' split) <;> simp

theorem q_execPageSrst (m : Fin 8) (page : Fin 576) (s : State) : Quiet s (execPageSrst m page s) := by
  unfold execPageSrst
  (try dsimp only)
  (repeat' split) <;> simp

theorem q_execCntClr (m : Fin 8) (page : Fin 576) (s : State) : Quiet s (execCntClr m page s) := by
  unfold execCntClr
  (try dsimp only)
  (repeat' split) <;> simp

theorem q_execCounterPreset (m : Fin 8) (a : Nat) (v : Word) (n : Word) (s : State) : Quiet s (execCounterPreset m a v n s) := by
  unfold execCounterPreset
  (try dsimp only)
  (repeat' split) <;> simp

theorem q_execOccAckWrite (m : Fin 8) (a : Nat) (ack : Fin 0x10000) (s : State) : Quiet s (execOccAckWrite m a ack s) := by
  unfold execOccAckWrite
  (try dsimp only)
  (repeat' split) <;> simp

theorem q_execCounterLowRead (m : Fin 8) (a : Nat) (s : State) : Quiet s (execCounterLowRead m a s) := by
  unfold execCounterLowRead
  (try dsimp only)
  (repeat' split) <;> simp

theorem q_execSnapTake (m : Fin 8) (late : Bool) (s : State) : Quiet s (execSnapTake m late s) := by
  unfold execSnapTake
  (try dsimp only)
  (repeat' split) <;> simp

theorem q_execStItemBWrite (m : Fin 8) (arg : Word) (s : State) : Quiet s (execStItemBWrite m arg s) := by
  unfold execStItemBWrite
  (try dsimp only)
  (repeat' split) <;> simp

theorem q_execAdmitCmd (m : Fin 8) (s : State) : Quiet s (execAdmitCmd m s) := by
  unfold execAdmitCmd
  (try dsimp only)
  (repeat' split) <;> simp

theorem q_execCancel (m : Fin 8) (s : State) : Quiet s (execCancel m s) := by
  unfold execCancel
  (try dsimp only)
  (repeat' split) <;> simp

theorem q_execClear (m : Fin 8) (s : State) : Quiet s (execClear m s) := by
  unfold execClear
  (try dsimp only)
  (repeat' split) <;> simp

theorem q_execPlankDispatch (sfn tick : Nat) (refused : List (Nat × Nat × Nat)) (s : State) : Quiet s (execPlankDispatch sfn tick refused s) := by
  unfold execPlankDispatch
  (try dsimp only)
  (repeat' split) <;> simp

theorem q_execRdIdxWrite (m : Fin 8) (idx : Word) (s : State) : Quiet s (execRdIdxWrite m idx s) := by
  unfold execRdIdxWrite
  (try dsimp only)
  (repeat' split) <;> simp

theorem q_execFind (m : Fin 8) (s : State) : Quiet s (execFind m s) := by
  unfold execFind
  (try dsimp only)
  (repeat' split) <;> simp

theorem q_execFindComplete (m : Fin 8) (s : State) : Quiet s (execFindComplete m s) := by
  unfold execFindComplete
  (try dsimp only)
  (repeat' split) <;> simp

theorem q_execActionMessageRx (e : Env) (a : ActMsg) (check : List Nat) (s : State) : Quiet s (execActionMessageRx e a check s) := by
  unfold execActionMessageRx
  (try dsimp only)
  (repeat' split) <;> simp

theorem quiet_lanes (s : State) (c : Nat) (k : State → State) (h : ∀ t, (k t).pending = t.pending) : Quiet s (lanes s c k) := by
  simp [lanes, h]

theorem q_execSignalDetect (c : Fin 192) (s : State) : Quiet s (execSignalDetect c s) := by
  unfold execSignalDetect
  exact quiet_lanes _ _ _ (fun t => by
    (try dsimp only)
    (repeat' split) <;> simp)

theorem q_execSignalDetectLoss (c : Fin 192) (held : Bool) (s : State) : Quiet s (execSignalDetectLoss c held s) := by
  unfold execSignalDetectLoss
  exact quiet_lanes _ _ _ (fun t => by
    (try dsimp only)
    (repeat' split) <;> simp)

theorem q_execRateDwellExpiry (c : Fin 192) (s : State) : Quiet s (execRateDwellExpiry c s) := by
  unfold execRateDwellExpiry
  exact quiet_lanes _ _ _ (fun t => by
    (try dsimp only)
    (repeat' split) <;> simp)

theorem q_execCdrLock (c : Fin 192) (s : State) : Quiet s (execCdrLock c s) := by
  unfold execCdrLock
  exact quiet_lanes _ _ _ (fun t => by
    (try dsimp only)
    (repeat' split) <;> simp)

theorem q_execFrameHuntTimeout (c : Fin 192) (s : State) : Quiet s (execFrameHuntTimeout c s) := by
  unfold execFrameHuntTimeout
  exact quiet_lanes _ _ _ (fun t => by
    (try dsimp only)
    (repeat' split) <;> simp)

theorem q_execTraceWaitExpiry (c : Fin 192) (s : State) : Quiet s (execTraceWaitExpiry c s) := by
  unfold execTraceWaitExpiry
  exact quiet_lanes _ _ _ (fun t => by
    (try dsimp only)
    (repeat' split) <;> simp)

theorem q_execAdmitGo (m : Fin 8) (c : Fin 192) (late : Bool) (s : State) : Quiet s (execAdmitGo m c late s) := by
  unfold execAdmitGo
  (try dsimp only)
  (repeat' split) <;> simp

theorem q_execAdmittedExpiry (c : Fin 192) (s : State) : Quiet s (execAdmittedExpiry c s) := by
  unfold execAdmittedExpiry
  exact quiet_lanes _ _ _ (fun t => by
    (try dsimp only)
    (repeat' split) <;> simp)

theorem q_execRehuntExpiry (c : Fin 192) (s : State) : Quiet s (execRehuntExpiry c s) := by
  unfold execRehuntExpiry
  exact quiet_lanes _ _ _ (fun t => by
    (try dsimp only)
    (repeat' split) <;> simp)

theorem q_execHoldOffExpiry (c : Fin 192) (s : State) : Quiet s (execHoldOffExpiry c s) := by
  unfold execHoldOffExpiry
  exact quiet_lanes _ _ _ (fun t => by
    (try dsimp only)
    (repeat' split) <;> simp)

theorem q_execStart (m : Fin 8) (lg : Fin 16) (s : State) : Quiet s (execStart m lg s) := by
  unfold execStart
  (try dsimp only)
  (repeat' split) <;> simp

theorem q_execEyeMeasureDone (lg : Fin 16) (free : Bool) (width height : Nat) (s : State) : Quiet s (execEyeMeasureDone lg free width height s) := by
  unfold execEyeMeasureDone
  (try dsimp only)
  (repeat' split) <;> simp

theorem q_execLineFrame (c : Fin 192) (o : LineObs) (s : State) : Quiet s (execLineFrame c o s) := by
  unfold execLineFrame
  (try dsimp only)
  (repeat' split) <;> simp

theorem q_execTieWindowClose (c : Fin 192) (s : State) : Quiet s (execTieWindowClose c s) := by
  unfold execTieWindowClose
  exact quiet_lanes _ _ _ (fun t => by
    (try dsimp only)
    (repeat' split) <;> simp)

theorem q_execLofDeclare (c : Fin 192) (s : State) : Quiet s (execLofDeclare c s) := by
  unfold execLofDeclare
  exact quiet_lanes _ _ _ (fun t => by
    (try dsimp only)
    (repeat' split) <;> simp)

theorem q_execLofClear (c : Fin 192) (s : State) : Quiet s (execLofClear c s) := by
  unfold execLofClear
  exact quiet_lanes _ _ _ (fun t => by
    (try dsimp only)
    (repeat' split) <;> simp)

theorem q_execLomDeclare (c : Fin 192) (s : State) : Quiet s (execLomDeclare c s) := by
  unfold execLomDeclare
  exact quiet_lanes _ _ _ (fun t => by
    (try dsimp only)
    (repeat' split) <;> simp)

theorem q_execLomClear (c : Fin 192) (s : State) : Quiet s (execLomClear c s) := by
  unfold execLomClear
  exact quiet_lanes _ _ _ (fun t => by
    (try dsimp only)
    (repeat' split) <;> simp)

theorem q_execLolDeclare (c : Fin 192) (s : State) : Quiet s (execLolDeclare c s) := by
  unfold execLolDeclare
  exact quiet_lanes _ _ _ (fun t => by
    (try dsimp only)
    (repeat' split) <;> simp)

theorem q_execLolClear (c : Fin 192) (s : State) : Quiet s (execLolClear c s) := by
  unfold execLolClear
  exact quiet_lanes _ _ _ (fun t => by
    (try dsimp only)
    (repeat' split) <;> simp)

theorem q_execBlockLockChange (c : Fin 192) (lock : Bool) (s : State) : Quiet s (execBlockLockChange c lock s) := by
  unfold execBlockLockChange
  exact quiet_lanes _ _ _ (fun t => by
    (try dsimp only)
    (repeat' split) <;> simp)

theorem q_execLosDeclare (lane : Fin 192) (energyOnly : Bool) (s : State) : Quiet s (execLosDeclare lane energyOnly s) := by
  unfold execLosDeclare
  (try dsimp only)
  (repeat' split) <;> simp

theorem q_execLosClear (lane : Fin 192) (s : State) : Quiet s (execLosClear lane s) := by
  unfold execLosClear
  (try dsimp only)
  (repeat' split) <;> simp

theorem q_execDefectDeclare (e : Ent) (d : Defect) (s : State) : Quiet s (execDefectDeclare e d s) := by
  unfold execDefectDeclare
  rw [quiet_done]
  exact pend_onEntity _ _ _ _ (fun t => by
    (try dsimp only)
    (repeat' split) <;> simp)

theorem q_execDefectClear (e : Ent) (d : Defect) (s : State) : Quiet s (execDefectClear e d s) := by
  unfold execDefectClear
  (try dsimp only)
  (repeat' split) <;> simp

theorem q_execOtnDefectDeclare (e : Ent) (d : Defect) (s : State) : Quiet s (execOtnDefectDeclare e d s) := by
  unfold execOtnDefectDeclare
  (try dsimp only)
  (repeat' split) <;> simp

theorem q_execOtnDefectClear (e : Ent) (d : Defect) (s : State) : Quiet s (execOtnDefectClear e d s) := by
  unfold execOtnDefectClear
  (try dsimp only)
  (repeat' split) <;> simp

theorem q_execEthDefectChange (c : Fin 192) (d : Fin 3) (on : Bool) (s : State) : Quiet s (execEthDefectChange c d on s) := by
  unfold execEthDefectChange
  (try dsimp only)
  (repeat' split) <;> simp

theorem q_execTribDefectDeclare (lg : Fin 16) (kind : Fin 2) (num : Fin 252) (d : Fin 4) (on : Bool) (s : State) : Quiet s (execTribDefectDeclare lg kind num d on s) := by
  unfold execTribDefectDeclare
  (try dsimp only)
  (repeat' split) <;> simp

theorem q_execPwRead (m : Fin 8) (lg : Fin 16) (s : State) : Quiet s (execPwRead m lg s) := by
  unfold execPwRead
  (try dsimp only)
  (repeat' split) <;> simp

theorem q_execPwWrite (m : Fin 8) (lg : Fin 16) (late : Bool) (s : State) : Quiet s (execPwWrite m lg late s) := by
  unfold execPwWrite
  (try dsimp only)
  (repeat' split) <;> simp

theorem q_execTmRead (m : Fin 8) (lg : Fin 16) (s : State) : Quiet s (execTmRead m lg s) := by
  unfold execTmRead
  (try dsimp only)
  (repeat' split) <;> simp

theorem q_execTmWrite (m : Fin 8) (lg : Fin 16) (late : Bool) (s : State) : Quiet s (execTmWrite m lg late s) := by
  unfold execTmWrite
  (try dsimp only)
  (repeat' split) <;> simp

theorem q_execTsiWindowWrite (m : Fin 8) (off : Fin 0x80000) (v : Word) (s : State) : Quiet s (execTsiWindowWrite m off v s) := by
  unfold execTsiWindowWrite
  (try dsimp only)
  (repeat' split) <;> simp

theorem q_execSeal (m : Fin 8) (s : State) : Quiet s (execSeal m s) := by
  unfold execSeal
  (try dsimp only)
  (repeat' split) <;> simp

theorem q_execSealDone  (s : State) : Quiet s (execSealDone s) := by
  unfold execSealDone
  (try dsimp only)
  (repeat' split) <;> simp

theorem q_execAbandon (m : Fin 8) (copied : Fin 0x100000) (s : State) : Quiet s (execAbandon m copied s) := by
  unfold execAbandon
  (try dsimp only)
  (repeat' split) <;> simp

theorem q_execCopyActive (m : Fin 8) (s : State) : Quiet s (execCopyActive m s) := by
  unfold execCopyActive
  (try dsimp only)
  (repeat' split) <;> simp

theorem q_execCopyActiveDone  (s : State) : Quiet s (execCopyActiveDone s) := by
  unfold execCopyActiveDone
  (try dsimp only)
  (repeat' split) <;> simp

theorem q_execLoxWindowWrite (m : Fin 8) (off : Fin 0x40000) (v : Word) (s : State) : Quiet s (execLoxWindowWrite m off v s) := by
  unfold execLoxWindowWrite
  (try dsimp only)
  (repeat' split) <;> simp

theorem q_execLoxSeal (m : Fin 8) (s : State) : Quiet s (execLoxSeal m s) := by
  unfold execLoxSeal
  (try dsimp only)
  (repeat' split) <;> simp

theorem q_execLoxSealDone  (s : State) : Quiet s (execLoxSealDone s) := by
  unfold execLoxSealDone
  (try dsimp only)
  (repeat' split) <;> simp

theorem q_execLoxAbandon (m : Fin 8) (copied : Fin 0x100000) (s : State) : Quiet s (execLoxAbandon m copied s) := by
  unfold execLoxAbandon
  (try dsimp only)
  (repeat' split) <;> simp

theorem q_execLoxCopyActive (m : Fin 8) (s : State) : Quiet s (execLoxCopyActive m s) := by
  unfold execLoxCopyActive
  (try dsimp only)
  (repeat' split) <;> simp

theorem q_execLoxCopyActiveDone  (s : State) : Quiet s (execLoxCopyActiveDone s) := by
  unfold execLoxCopyActiveDone
  (try dsimp only)
  (repeat' split) <;> simp

theorem q_execMwRead (m : Fin 8) (lg : Fin 16) (s : State) : Quiet s (execMwRead m lg s) := by
  unfold execMwRead
  (try dsimp only)
  (repeat' split) <;> simp

theorem q_execMwWrite (m : Fin 8) (lg : Fin 16) (s : State) : Quiet s (execMwWrite m lg s) := by
  unfold execMwWrite
  (try dsimp only)
  (repeat' split) <;> simp

theorem q_execCheck (m : Fin 8) (lg : Fin 16) (s : State) : Quiet s (execCheck m lg s) := by
  unfold execCheck
  (try dsimp only)
  (repeat' split) <;> simp

theorem q_execCheckDone (lg : Fin 16) (s : State) : Quiet s (execCheckDone lg s) := by
  unfold execCheckDone
  (try dsimp only)
  (repeat' split) <;> simp

theorem q_execVgRead (m : Fin 8) (lg : Fin 16) (s : State) : Quiet s (execVgRead m lg s) := by
  unfold execVgRead
  (try dsimp only)
  (repeat' split) <;> simp

theorem q_execVgWrite (m : Fin 8) (lg : Fin 16) (late : Bool) (s : State) : Quiet s (execVgWrite m lg late s) := by
  unfold execVgWrite
  (try dsimp only)
  (repeat' split) <;> simp

theorem q_execContainerAcquired (c : Fin 192) (e : Fin 255) (tx : Bool) (s : State) : Quiet s (execContainerAcquired c e tx s) := by
  unfold execContainerAcquired
  (try dsimp only)
  (repeat' split) <;> simp

theorem q_execClientFrameMap (c : Fin 192) (frame : List Byte) (raw : Nat) (s : State) : Quiet s (execClientFrameMap c frame raw s) := by
  unfold execClientFrameMap
  (try dsimp only)
  (repeat' split) <;> simp

theorem q_execGfpFrameRx (c : Fin 192) (o : GfpObs) (raw : Nat) (s : State) : Quiet s (execGfpFrameRx c o raw s) := by
  unfold execGfpFrameRx
  (try dsimp only)
  (repeat' split) <;> simp

theorem q_execCsfSend (c : Fin 192) (s : State) : Quiet s (execCsfSend c s) := by
  unfold execCsfSend
  (try dsimp only)
  (repeat' split) <;> simp

theorem q_execLcasMemberFail (lg : Fin 16) (g : Fin 16) (mem : Fin 64) (s : State) : Quiet s (execLcasMemberFail lg g mem s) := by
  unfold execLcasMemberFail
  (try dsimp only)
  (repeat' split) <;> simp

theorem q_execLcasMemberRestore (lg : Fin 16) (g : Fin 16) (mem : Fin 64) (s : State) : Quiet s (execLcasMemberRestore lg g mem s) := by
  unfold execLcasMemberRestore
  (try dsimp only)
  (repeat' split) <;> simp

theorem q_execSelectorAdmit (n : Fin 4096) (s : State) : Quiet s (execSelectorAdmit n s) := by
  unfold execSelectorAdmit
  (try dsimp only)
  (repeat' split) <;> simp

theorem q_execSelectorAdmitRetry (n : Fin 4096) (s : State) : Quiet s (execSelectorAdmitRetry n s) := by
  unfold execSelectorAdmitRetry
  (try dsimp only)
  (repeat' split) <;> simp

theorem q_execWtrExpiry (n : Fin 4096) (s : State) : Quiet s (execWtrExpiry n s) := by
  unfold execWtrExpiry
  (try dsimp only)
  (repeat' split) <;> simp

theorem q_execSwRead (m : Fin 8) (lg : Fin 16) (s : State) : Quiet s (execSwRead m lg s) := by
  unfold execSwRead
  (try dsimp only)
  (repeat' split) <;> simp

theorem q_execSwWrite (m : Fin 8) (lg : Fin 16) (late : Bool) (s : State) : Quiet s (execSwWrite m lg late s) := by
  unfold execSwWrite
  (try dsimp only)
  (repeat' split) <;> simp

theorem q_execHitlessAcquired (n : Fin 4096) (diffs : List Int) (period : Nat) (s : State) : Quiet s (execHitlessAcquired n diffs period s) := by
  unfold execHitlessAcquired
  (try dsimp only)
  (repeat' split) <;> simp

theorem q_execHitlessFrameDue (n : Fin 4096) (o : HlObs) (s : State) : Quiet s (execHitlessFrameDue n o s) := by
  unfold execHitlessFrameDue
  (try dsimp only)
  (repeat' split) <;> simp

theorem q_execDelayStep (n : Fin 4096) (copyP : Bool) (slacks : List Int) (s : State) : Quiet s (execDelayStep n copyP slacks s) := by
  unfold execDelayStep
  (try dsimp only)
  (repeat' split) <;> simp

theorem q_execRealignAuto (n : Fin 4096) (s : State) : Quiet s (execRealignAuto n s) := by
  unfold execRealignAuto
  (try dsimp only)
  (repeat' split) <;> simp

theorem q_execLoad (m : Fin 8) (s : State) : Quiet s (execLoad m s) := by
  unfold execLoad
  (try dsimp only)
  (repeat' split) <;> simp

theorem q_execNowNsRead (m : Fin 8) (s : State) : Quiet s (execNowNsRead m s) := by
  unfold execNowNsRead
  (try dsimp only)
  (repeat' split) <;> simp

theorem q_execTbIncWrite (m : Fin 8) (v : Word) (s : State) : Quiet s (execTbIncWrite m v s) := by
  unfold execTbIncWrite
  (try dsimp only)
  (repeat' split) <;> simp

theorem q_execSlewStep  (s : State) : Quiet s (execSlewStep s) := by
  unfold execSlewStep
  (try dsimp only)
  (repeat' split) <;> simp

theorem q_execHoldover  (s : State) : Quiet s (execHoldover s) := by
  unfold execHoldover
  (try dsimp only)
  (repeat' split) <;> simp

theorem q_execPortTimestamp (port : Fin 1024) (tx : Bool) (id kind raw deskew : Nat) (s : State) : Quiet s (execPortTimestamp port tx id kind raw deskew s) := by
  unfold execPortTimestamp
  (try dsimp only)
  (repeat' split) <;> simp

theorem q_execRxPop (m : Fin 8) (s : State) : Quiet s (execRxPop m s) := by
  unfold execRxPop
  (try dsimp only)
  (repeat' split) <;> simp

theorem q_execTxPop (m : Fin 8) (s : State) : Quiet s (execTxPop m s) := by
  unfold execTxPop
  (try dsimp only)
  (repeat' split) <;> simp

theorem q_execTimingPortFrameTx (p : Fin 4) (ctrl : Word) (frame : List Byte) (raw : Nat) (s : State) : Quiet s (execTimingPortFrameTx p ctrl frame raw s) := by
  unfold execTimingPortFrameTx
  (try dsimp only)
  (repeat' split) <;> simp

theorem q_execTimingPortFrameRx (p : Fin 4) (frame : List Byte) (raw : Nat) (s : State) : Quiet s (execTimingPortFrameRx p frame raw s) := by
  unfold execTimingPortFrameRx
  (try dsimp only)
  (repeat' split) <;> simp

theorem q_execTtStampRx (e : Env) (k departure arrival : Nat) (valid : Bool) (ownDeparture ownArrival : Nat) (s : State) : Quiet s (execTtStampRx e k departure arrival valid ownDeparture ownArrival s) := by
  unfold execTtStampRx
  (try dsimp only)
  (repeat' split) <;> simp

theorem q_execTtResult (p : Fin 8) (s : State) : Quiet s (execTtResult p s) := by
  unfold execTtResult
  (try dsimp only)
  (repeat' split) <;> simp

theorem q_execPpsInEdge (falling : Bool) (raw : Nat) (s : State) : Quiet s (execPpsInEdge falling raw s) := by
  unfold execPpsInEdge
  (try dsimp only)
  (repeat' split) <;> simp

theorem q_execPpsPulseStart  (s : State) : Quiet s (execPpsPulseStart s) := by
  unfold execPpsPulseStart
  (try dsimp only)
  (repeat' split) <;> simp

theorem q_execPpsPulseEnd  (s : State) : Quiet s (execPpsPulseEnd s) := by
  unfold execPpsPulseEnd
  (try dsimp only)
  (repeat' split) <;> simp

theorem q_execArm (m : Fin 8) (s : State) : Quiet s (execArm m s) := by
  unfold execArm
  (try dsimp only)
  (repeat' split) <;> simp

theorem q_execTodSendStart  (s : State) : Quiet s (execTodSendStart s) := by
  unfold execTodSendStart
  (try dsimp only)
  (repeat' split) <;> simp

theorem q_execTodSendDone  (s : State) : Quiet s (execTodSendDone s) := by
  unfold execTodSendDone
  (try dsimp only)
  (repeat' split) <;> simp

theorem q_execTxAbandon  (s : State) : Quiet s (execTxAbandon s) := by
  unfold execTxAbandon
  (try dsimp only)
  (repeat' split) <;> simp

theorem q_execTodRxMessage (bytes : List Byte) (raw : Nat) (s : State) : Quiet s (execTodRxMessage bytes raw s) := by
  unfold execTodRxMessage
  (try dsimp only)
  (repeat' split) <;> simp

theorem q_execFeAdd (e : Fin 64) (s : State) : Quiet s (execFeAdd e s) := by
  unfold execFeAdd
  (try dsimp only)
  (repeat' split) <;> simp

theorem q_execFeSub (e : Fin 64) (s : State) : Quiet s (execFeSub e s) := by
  unfold execFeSub
  (try dsimp only)
  (repeat' split) <;> simp

theorem q_execFeAnd (e : Fin 64) (s : State) : Quiet s (execFeAnd e s) := by
  unfold execFeAnd
  (try dsimp only)
  (repeat' split) <;> simp

theorem q_execFeOr (e : Fin 64) (s : State) : Quiet s (execFeOr e s) := by
  unfold execFeOr
  (try dsimp only)
  (repeat' split) <;> simp

theorem q_execFeXor (e : Fin 64) (s : State) : Quiet s (execFeXor e s) := by
  unfold execFeXor
  (try dsimp only)
  (repeat' split) <;> simp

theorem q_execFeShl (e : Fin 64) (s : State) : Quiet s (execFeShl e s) := by
  unfold execFeShl
  (try dsimp only)
  (repeat' split) <;> simp

theorem q_execFeShr (e : Fin 64) (s : State) : Quiet s (execFeShr e s) := by
  unfold execFeShr
  (try dsimp only)
  (repeat' split) <;> simp

theorem q_execFeSha (e : Fin 64) (s : State) : Quiet s (execFeSha e s) := by
  unfold execFeSha
  (try dsimp only)
  (repeat' split) <;> simp

theorem q_execFeClt (e : Fin 64) (s : State) : Quiet s (execFeClt e s) := by
  unfold execFeClt
  (try dsimp only)
  (repeat' split) <;> simp

theorem q_execFeCltu (e : Fin 64) (s : State) : Quiet s (execFeCltu e s) := by
  unfold execFeCltu
  (try dsimp only)
  (repeat' split) <;> simp

theorem q_execFeMul (e : Fin 64) (s : State) : Quiet s (execFeMul e s) := by
  unfold execFeMul
  (try dsimp only)
  (repeat' split) <;> simp

theorem q_execFeMulhi (e : Fin 64) (s : State) : Quiet s (execFeMulhi e s) := by
  unfold execFeMulhi
  (try dsimp only)
  (repeat' split) <;> simp

theorem q_execFeAddk (e : Fin 64) (s : State) : Quiet s (execFeAddk e s) := by
  unfold execFeAddk
  (try dsimp only)
  (repeat' split) <;> simp

theorem q_execFeAndk (e : Fin 64) (s : State) : Quiet s (execFeAndk e s) := by
  unfold execFeAndk
  (try dsimp only)
  (repeat' split) <;> simp

theorem q_execFeOrk (e : Fin 64) (s : State) : Quiet s (execFeOrk e s) := by
  unfold execFeOrk
  (try dsimp only)
  (repeat' split) <;> simp

theorem q_execFeXork (e : Fin 64) (s : State) : Quiet s (execFeXork e s) := by
  unfold execFeXork
  (try dsimp only)
  (repeat' split) <;> simp

theorem q_execFeCltk (e : Fin 64) (s : State) : Quiet s (execFeCltk e s) := by
  unfold execFeCltk
  (try dsimp only)
  (repeat' split) <;> simp

theorem q_execFeKhi (e : Fin 64) (s : State) : Quiet s (execFeKhi e s) := by
  unfold execFeKhi
  (try dsimp only)
  (repeat' split) <;> simp

theorem q_execFeShlk (e : Fin 64) (s : State) : Quiet s (execFeShlk e s) := by
  unfold execFeShlk
  (try dsimp only)
  (repeat' split) <;> simp

theorem q_execFeShrk (e : Fin 64) (s : State) : Quiet s (execFeShrk e s) := by
  unfold execFeShrk
  (try dsimp only)
  (repeat' split) <;> simp

theorem q_execFeShak (e : Fin 64) (s : State) : Quiet s (execFeShak e s) := by
  unfold execFeShak
  (try dsimp only)
  (repeat' split) <;> simp

theorem q_execFeLdw (e : Fin 64) (s : State) : Quiet s (execFeLdw e s) := by
  unfold execFeLdw
  (try dsimp only)
  (repeat' split) <;> simp

theorem q_execFeLdh (e : Fin 64) (s : State) : Quiet s (execFeLdh e s) := by
  unfold execFeLdh
  (try dsimp only)
  (repeat' split) <;> simp

theorem q_execFeLdhu (e : Fin 64) (s : State) : Quiet s (execFeLdhu e s) := by
  unfold execFeLdhu
  (try dsimp only)
  (repeat' split) <;> simp

theorem q_execFeLdb (e : Fin 64) (s : State) : Quiet s (execFeLdb e s) := by
  unfold execFeLdb
  (try dsimp only)
  (repeat' split) <;> simp

theorem q_execFeLdbu (e : Fin 64) (s : State) : Quiet s (execFeLdbu e s) := by
  unfold execFeLdbu
  (try dsimp only)
  (repeat' split) <;> simp

theorem q_execFeStw (e : Fin 64) (s : State) : Quiet s (execFeStw e s) := by
  unfold execFeStw
  (try dsimp only)
  (repeat' split) <;> simp

theorem q_execFeSth (e : Fin 64) (s : State) : Quiet s (execFeSth e s) := by
  unfold execFeSth
  (try dsimp only)
  (repeat' split) <;> simp

theorem q_execFeStb (e : Fin 64) (s : State) : Quiet s (execFeStb e s) := by
  unfold execFeStb
  (try dsimp only)
  (repeat' split) <;> simp

theorem q_execFeOldw (e : Fin 64) (s : State) : Quiet s (execFeOldw e s) := by
  unfold execFeOldw
  (try dsimp only)
  (repeat' split) <;> simp

theorem q_execFeOldbu (e : Fin 64) (s : State) : Quiet s (execFeOldbu e s) := by
  unfold execFeOldbu
  (try dsimp only)
  (repeat' split) <;> simp

theorem q_execFeOstw (e : Fin 64) (s : State) : Quiet s (execFeOstw e s) := by
  unfold execFeOstw
  (try dsimp only)
  (repeat' split) <;> simp

theorem q_execFeOstb (e : Fin 64) (s : State) : Quiet s (execFeOstb e s) := by
  unfold execFeOstb
  (try dsimp only)
  (repeat' split) <;> simp

theorem q_execFeBld (e : Fin 64) (s : State) : Quiet s (execFeBld e s) := by
  unfold execFeBld
  (try dsimp only)
  (repeat' split) <;> simp

theorem q_execFeBst (e : Fin 64) (s : State) : Quiet s (execFeBst e s) := by
  unfold execFeBst
  (try dsimp only)
  (repeat' split) <;> simp

theorem q_execBusOpComplete (e : Fin 64) (s : State) : Quiet s (execBusOpComplete e s) := by
  unfold execBusOpComplete
  (try dsimp only)
  (repeat' split) <;> simp

theorem q_execFeBsync (e : Fin 64) (s : State) : Quiet s (execFeBsync e s) := by
  unfold execFeBsync
  (try dsimp only)
  (repeat' split) <;> simp

theorem q_execFeBreq (e : Fin 64) (s : State) : Quiet s (execFeBreq e s) := by
  unfold execFeBreq
  (try dsimp only)
  (repeat' split) <;> simp

theorem q_execFeBrne (e : Fin 64) (s : State) : Quiet s (execFeBrne e s) := by
  unfold execFeBrne
  (try dsimp only)
  (repeat' split) <;> simp

theorem q_execFeBrlt (e : Fin 64) (s : State) : Quiet s (execFeBrlt e s) := by
  unfold execFeBrlt
  (try dsimp only)
  (repeat' split) <;> simp

theorem q_execFeBrge (e : Fin 64) (s : State) : Quiet s (execFeBrge e s) := by
  unfold execFeBrge
  (try dsimp only)
  (repeat' split) <;> simp

theorem q_execFeBrlo (e : Fin 64) (s : State) : Quiet s (execFeBrlo e s) := by
  unfold execFeBrlo
  (try dsimp only)
  (repeat' split) <;> simp

theorem q_execFeBrhs (e : Fin 64) (s : State) : Quiet s (execFeBrhs e s) := by
  unfold execFeBrhs
  (try dsimp only)
  (repeat' split) <;> simp

theorem q_execFeCall (e : Fin 64) (s : State) : Quiet s (execFeCall e s) := by
  unfold execFeCall
  (try dsimp only)
  (repeat' split) <;> simp

theorem q_execFeJmp (e : Fin 64) (s : State) : Quiet s (execFeJmp e s) := by
  unfold execFeJmp
  (try dsimp only)
  (repeat' split) <;> simp

theorem q_execFeWait (e : Fin 64) (s : State) : Quiet s (execFeWait e s) := by
  unfold execFeWait
  (try dsimp only)
  (repeat' split) <;> simp

theorem q_execFeRdc (e : Fin 64) (s : State) : Quiet s (execFeRdc e s) := by
  unfold execFeRdc
  (try dsimp only)
  (repeat' split) <;> simp

theorem q_execFeWrc (e : Fin 64) (s : State) : Quiet s (execFeWrc e s) := by
  unfold execFeWrc
  (try dsimp only)
  (repeat' split) <;> simp

theorem q_execFeCrcb (e : Fin 64) (s : State) : Quiet s (execFeCrcb e s) := by
  unfold execFeCrcb
  (try dsimp only)
  (repeat' split) <;> simp

theorem q_execFeCrcw (e : Fin 64) (s : State) : Quiet s (execFeCrcw e s) := by
  unfold execFeCrcw
  (try dsimp only)
  (repeat' split) <;> simp

theorem q_execFeHalt (e : Fin 64) (s : State) : Quiet s (execFeHalt e s) := by
  unfold execFeHalt
  (try dsimp only)
  (repeat' split) <;> simp

theorem q_execFeWatchdog (e : Fin 64) (s : State) : Quiet s (execFeWatchdog e s) := by
  unfold execFeWatchdog
  (try dsimp only)
  (repeat' split) <;> simp

theorem q_execFeTimerExpiry (e : Fin 64) (s : State) : Quiet s (execFeTimerExpiry e s) := by
  unfold execFeTimerExpiry
  (try dsimp only)
  (repeat' split) <;> simp

theorem q_execHdlcRxPass (e : Fin 64) (s : State) : Quiet s (execHdlcRxPass e s) := by
  unfold execHdlcRxPass
  (try dsimp only)
  (repeat' split) <;> simp

theorem q_execHdlcTxPass (e : Fin 64) (caps : List Nat) (stamps : List Nat) (s : State) : Quiet s (execHdlcTxPass e caps stamps s) := by
  unfold execHdlcTxPass
  (try dsimp only)
  (repeat' split) <;> simp

theorem q_execHInDbWrite (m : Fin 8) (e : Fin 64) (v : Word) (core : Bool) (s : State) : Quiet s (execHInDbWrite m e v core s) := by
  unfold execHInDbWrite
  (try dsimp only)
  (repeat' split) <;> simp

theorem q_execHOutAckWrite (m : Fin 8) (e : Fin 64) (v : Word) (core : Bool) (s : State) : Quiet s (execHOutAckWrite m e v core s) := by
  unfold execHOutAckWrite
  (try dsimp only)
  (repeat' split) <;> simp

theorem q_execHInDWrite (m : Fin 8) (e : Fin 64) (d : Fin 16) (v : Word) (core : Bool) (s : State) : Quiet s (execHInDWrite m e d v core s) := by
  unfold execHInDWrite
  (try dsimp only)
  (repeat' split) <;> simp

theorem q_execFeStart (m : Fin 8) (e : Fin 64) (s : State) : Quiet s (execFeStart m e s) := by
  unfold execFeStart
  (try dsimp only)
  (repeat' split) <;> simp

theorem q_execFeStop (m : Fin 8) (e : Fin 64) (s : State) : Quiet s (execFeStop m e s) := by
  unfold execFeStop
  (try dsimp only)
  (repeat' split) <;> simp

theorem q_execFeStopDone (e : Fin 64) (s : State) : Quiet s (execFeStopDone e s) := by
  unfold execFeStopDone
  (try dsimp only)
  (repeat' split) <;> simp

theorem q_execFeCheck (m : Fin 8) (e : Fin 64) (s : State) : Quiet s (execFeCheck m e s) := by
  unfold execFeCheck
  (try dsimp only)
  (repeat' split) <;> simp

theorem q_execFeCheckDone (e : Fin 64) (s : State) : Quiet s (execFeCheckDone e s) := by
  unfold execFeCheckDone
  (try dsimp only)
  (repeat' split) <;> simp

theorem q_execFeWindowWrite (m : Fin 8) (e : Fin 64) (off : Fin 0x10000) (v : Word) (s : State) : Quiet s (execFeWindowWrite m e off v s) := by
  unfold execFeWindowWrite
  (try dsimp only)
  (repeat' split) <;> simp

theorem q_execFeScrub (e : Fin 64) (w : Fin 24576) (s : State) : Quiet s (execFeScrub e w s) := by
  unfold execFeScrub
  (try dsimp only)
  (repeat' split) <;> simp

theorem q_execBattReadReturn (p : Fin 4096) (n : Fin 2048) (o : BattObs) (s : State) : Quiet s (execBattReadReturn p n o s) := by
  unfold execBattReadReturn
  (try dsimp only)
  (repeat' split) <;> simp

theorem q_execBattScrubRead (ch : Fin 16) (cw : Fin 14913080) (cls : Fin 4) (passMs : Option Nat) (s : State) : Quiet s (execBattScrubRead ch cw cls passMs s) := by
  unfold execBattScrubRead
  (try dsimp only)
  (repeat' split) <;> simp

theorem q_execPathRead (m : Fin 8) (s : State) : Quiet s (execPathRead m s) := by
  unfold execPathRead
  (try dsimp only)
  (repeat' split) <;> simp

theorem q_execPathWrite (m : Fin 8) (late : Bool) (s : State) : Quiet s (execPathWrite m late s) := by
  unfold execPathWrite
  (try dsimp only)
  (repeat' split) <;> simp

theorem q_execBattWindowAccess (m : Fin 8) (off : Fin 0x1000000) (w : Option Word) (cls : Fin 4) (s : State) : Quiet s (execBattWindowAccess m off w cls s) := by
  unfold execBattWindowAccess
  (try dsimp only)
  (repeat' split) <;> simp

theorem q_execMemChannelTrained (ch : Fin 16) (ok : Bool) (s : State) : Quiet s (execMemChannelTrained ch ok s) := by
  unfold execMemChannelTrained
  (try dsimp only)
  (repeat' split) <;> simp

theorem q_execPounceUnitComplete (u : Fin 32) (bytes : List Byte) (carried : Word) (fcs32 : Bool) (s : State) : Quiet s (execPounceUnitComplete u bytes carried fcs32 s) := by
  unfold execPounceUnitComplete
  (try dsimp only)
  (repeat' split) <;> simp

theorem q_execGo (m : Fin 8) (late : Bool) (s : State) : Quiet s (execGo m late s) := by
  unfold execGo
  (try dsimp only)
  (repeat' split) <;> simp

theorem q_execStop (m : Fin 8) (late : Bool) (s : State) : Quiet s (execStop m late s) := by
  unfold execStop
  (try dsimp only)
  (repeat' split) <;> simp

theorem q_execHeartbeatSend  (s : State) : Quiet s (execHeartbeatSend s) := by
  unfold execHeartbeatSend
  (try dsimp only)
  (repeat' split) <;> simp

theorem q_execHeartbeat (e : Env) (b : Beat) (s : State) : Quiet s (execHeartbeat e b s) := by
  unfold execHeartbeat
  (try dsimp only)
  (repeat' split) <;> simp

theorem q_execMirrorLinkLoss  (s : State) : Quiet s (execMirrorLinkLoss s) := by
  unfold execMirrorLinkLoss
  (try dsimp only)
  (repeat' split) <;> simp

theorem q_execFwdWrite (e : Env) (addr : Nat) (val mask : Word) (master sfn : Nat) (s : State) : Quiet s (execFwdWrite e addr val mask master sfn s) := by
  unfold execFwdWrite
  (try dsimp only)
  (repeat' split) <;> simp

theorem q_execDigest (e : Env) (first : Bool) (n : Nat) (d : Digests) (s : State) : Quiet s (execDigest e first n d s) := by
  unfold execDigest
  (try dsimp only)
  (repeat' split) <;> simp

theorem q_execCopy (e : Env) (region gen sfn offset : Nat) (data : List (Nat × Nat)) (last : Bool) (s : State) : Quiet s (execCopy e region gen sfn offset data last s) := by
  unfold execCopy
  (try dsimp only)
  (repeat' split) <;> simp

theorem q_execCopyAck (e : Env) (region gen : Nat) (s : State) : Quiet s (execCopyAck e region gen s) := by
  unfold execCopyAck
  (try dsimp only)
  (repeat' split) <;> simp

theorem q_execJoin (m : Fin 8) (s : State) : Quiet s (execJoin m s) := by
  unfold execJoin
  (try dsimp only)
  (repeat' split) <;> simp

theorem q_execJoinRx (e : Env) (pairId version : Nat) (s : State) : Quiet s (execJoinRx e pairId version s) := by
  unfold execJoinRx
  (try dsimp only)
  (repeat' split) <;> simp

theorem q_execAccept (e : Env) (c : Nat) (s : State) : Quiet s (execAccept e c s) := by
  unfold execAccept
  (try dsimp only)
  (repeat' split) <;> simp

theorem q_execRefuse (e : Env) (code : Nat) (s : State) : Quiet s (execRefuse e code s) := by
  unfold execRefuse
  (try dsimp only)
  (repeat' split) <;> simp

theorem q_execJoinTimeout  (s : State) : Quiet s (execJoinTimeout s) := by
  unfold execJoinTimeout
  (try dsimp only)
  (repeat' split) <;> simp

theorem q_execServe (m : Fin 8) (s : State) : Quiet s (execServe m s) := by
  unfold execServe
  (try dsimp only)
  (repeat' split) <;> simp

theorem q_execLeave (m : Fin 8) (s : State) : Quiet s (execLeave m s) := by
  unfold execLeave
  (try dsimp only)
  (repeat' split) <;> simp

theorem q_execForceTakeover (m : Fin 8) (s : State) : Quiet s (execForceTakeover m s) := by
  unfold execForceTakeover
  (try dsimp only)
  (repeat' split) <;> simp

theorem q_execClaimInChange (level : Bool) (s : State) : Quiet s (execClaimInChange level s) := by
  unfold execClaimInChange
  (try dsimp only)
  (repeat' split) <;> simp

theorem q_execTakeoverDecision  (s : State) : Quiet s (execTakeoverDecision s) := by
  unfold execTakeoverDecision
  (try dsimp only)
  (repeat' split) <;> simp

theorem q_execTakeover  (s : State) : Quiet s (execTakeover s) := by
  unfold execTakeover
  (try dsimp only)
  (repeat' split) <;> simp

theorem q_execClaimConflict  (s : State) : Quiet s (execClaimConflict s) := by
  unfold execClaimConflict
  (try dsimp only)
  (repeat' split) <;> simp

theorem q_execTvwEnd (swing : Nat) (s : State) : Quiet s (execTvwEnd swing s) := by
  unfold execTvwEnd
  (try dsimp only)
  (repeat' split) <;> simp

theorem q_execConvTimeout  (s : State) : Quiet s (execConvTimeout s) := by
  unfold execConvTimeout
  (try dsimp only)
  (repeat' split) <;> simp

theorem q_execHelloSend (p : Fin 8) (s : State) : Quiet s (execHelloSend p s) := by
  unfold execHelloSend
  (try dsimp only)
  (repeat' split) <;> simp

theorem q_execHello (e : Env) (h : Hello) (s : State) : Quiet s (execHello e h s) := by
  unfold execHello
  (try dsimp only)
  (repeat' split) <;> simp

theorem q_execMemberDepart (n : Fin 8) (s : State) : Quiet s (execMemberDepart n s) := by
  unfold execMemberDepart
  (try dsimp only)
  (repeat' split) <;> simp

theorem q_execResult (e : Env) (origin status reason applied index : Nat) (s : State) : Quiet s (execResult e origin status reason applied index s) := by
  unfold execResult
  (try dsimp only)
  (repeat' split) <;> simp

theorem q_execGroupCancelRx (e : Env) (origin : Nat) (s : State) : Quiet s (execGroupCancelRx e origin s) := by
  unfold execGroupCancelRx
  (try dsimp only)
  (repeat' split) <;> simp

theorem q_execProxyAccess (m : Fin 8) (off : Fin 0x4000000) (write : Bool) (be : Fin 16) (data : Word) (s : State) : Quiet s (execProxyAccess m off write be data s) := by
  unfold execProxyAccess
  (try dsimp only)
  (repeat' split) <;> simp

theorem q_execRraReq (e : Env) (tag off : Nat) (write : Bool) (be : Fin 16) (data : Word) (s : State) : Quiet s (execRraReq e tag off write be data s) := by
  unfold execRraReq
  (try dsimp only)
  (repeat' split) <;> simp

theorem q_execRraRsp (e : Env) (tag status : Nat) (data : Word) (s : State) : Quiet s (execRraRsp e tag status data s) := by
  unfold execRraRsp
  (try dsimp only)
  (repeat' split) <;> simp

theorem q_execProxyTimeout (tag : Nat) (s : State) : Quiet s (execProxyTimeout tag s) := by
  unfold execProxyTimeout
  (try dsimp only)
  (repeat' split) <;> simp

theorem q_execSuperframeRx (p : Fin 8) (o : SuperObs) (s : State) : Quiet s (execSuperframeRx p o s) := by
  unfold execSuperframeRx
  (try dsimp only)
  (repeat' split) <;> simp

theorem q_execRetryTimeout (p : Fin 8) (bulk : Bool) (s : State) : Quiet s (execRetryTimeout p bulk s) := by
  unfold execRetryTimeout
  (try dsimp only)
  (repeat' split) <;> simp

theorem q_execPtpMessageRx (e : Env) (ctrl : Nat) (frame : List Byte) (s : State) : Quiet s (execPtpMessageRx e ctrl frame s) := by
  unfold execPtpMessageRx
  (try dsimp only)
  (repeat' split) <;> simp

theorem q_execGelvyLaneLos (p : Fin 8) (s : State) : Quiet s (execGelvyLaneLos p s) := by
  unfold execGelvyLaneLos
  (try dsimp only)
  (repeat' split) <;> simp

theorem q_execGelvyTrained (p : Fin 8) (s : State) : Quiet s (execGelvyTrained p s) := by
  unfold execGelvyTrained
  (try dsimp only)
  (repeat' split) <;> simp

theorem q_execPcieWriteTlp (sp : PcieSpace) (addr : Nat) (l : List (Word × Nat)) (late : Bool) (s : State) : Quiet s (execPcieWriteTlp sp addr l late s) := by
  unfold execPcieWriteTlp
  (try dsimp only)
  (repeat' split) <;> simp

theorem q_execPcieReadTlp (sp : PcieSpace) (addr n : Nat) (late : Bool) (cls : Fin 4) (s : State) : Quiet s (execPcieReadTlp sp addr n late cls s) := by
  unfold execPcieReadTlp
  (try dsimp only)
  (repeat' split) <;> simp

theorem q_execPcieReset (kind : PcieResetKind) (p d : Option Partial) (s : State) : Quiet s (execPcieReset kind p d s) := by
  unfold execPcieReset
  (try dsimp only)
  (repeat' split) <;> simp

theorem q_execDmaTailWrite (m : Fin 8) (c : Fin 8) (tail : Fin 4096) (s : State) : Quiet s (execDmaTailWrite m c tail s) := by
  unfold execDmaTailWrite
  (try dsimp only)
  (repeat' split) <;> simp

theorem q_execDmaDescriptorDone (c : Fin 8) (addr : Nat) (len : Fin 0x10000) (ctrl : Word) (frame : List Byte) (raw : Nat) (err : Bool) (s : State) : Quiet s (execDmaDescriptorDone c addr len ctrl frame raw err s) := by
  unfold execDmaDescriptorDone
  (try dsimp only)
  (repeat' split) <;> simp

theorem q_execWrDirect (code : Fin 256) (off : Fin 0x10000) (v : Word) (pecOk : Bool) (count : Fin 256) (late : Bool) (s : State) : Quiet s (execWrDirect code off v pecOk count late s) := by
  unfold execWrDirect
  rw [quiet_done]
  exact pend_smbCommand _ _ _ _ _ (fun t => by
    (try dsimp only)
    (repeat' split) <;> simp)

theorem q_execRdDirect (code : Fin 256) (off : Fin 0x10000) (count : Fin 256) (s : State) :
    Quiet s (execRdDirect code off count s) := by
  unfold execRdDirect
  rw [quiet_done]
  refine pend_smbCommand _ _ _ _ _ (fun t => ?_)
  split
  · simp
  · next a _ =>
    have h : (smbRead t a).2.pending = t.pending := pend_smbRead t a
    split <;> (next e => rw [e] at h; simpa using h)

theorem q_execSetAddr (a : Word) (pecOk : Bool) (count : Fin 256) (s : State) : Quiet s (execSetAddr a pecOk count s) := by
  unfold execSetAddr
  (try dsimp only)
  (repeat' split) <;> simp

theorem q_execWrInd (v : Word) (pecOk : Bool) (count : Fin 256) (late slow : Bool) (s : State) : Quiet s (execWrInd v pecOk count late slow s) := by
  unfold execWrInd
  (try dsimp only)
  (repeat' split) <;> simp

theorem q_execRdInd (late slow : Bool) (cls : Fin 4) (s : State) : Quiet s (execRdInd late slow cls s) := by
  unfold execRdInd
  (try dsimp only)
  (repeat' split) <;> simp

theorem q_execStatus  (s : State) : Quiet s (execStatus s) := by
  unfold execStatus
  (try dsimp only)
  (repeat' split) <;> simp

theorem q_execSmbusStretchLimit  (s : State) : Quiet s (execSmbusStretchLimit s) := by
  unfold execSmbusStretchLimit
  (try dsimp only)
  (repeat' split) <;> simp

theorem q_execSmbusTimeout (p : Option Partial) (s : State) : Quiet s (execSmbusTimeout p s) := by
  unfold execSmbusTimeout
  (try dsimp only)
  (repeat' split) <;> simp

theorem q_execMasterReset (m : Fin 8) (p : Option Partial) (s : State) : Quiet s (execMasterReset m p s) := by
  unfold execMasterReset
  (try dsimp only)
  (repeat' split) <;> simp

theorem q_execJtagBusAccess (a : Word) (write : Bool) (be : Fin 16) (v : Word) (late : Bool) (cls : Fin 4) (s : State) : Quiet s (execJtagBusAccess a write be v late cls s) := by
  unfold execJtagBusAccess
  (try dsimp only)
  (repeat' split) <;> simp

theorem q_execExtest (on : Bool) (s : State) : Quiet s (execExtest on s) := by
  unfold execExtest
  (try dsimp only)
  (repeat' split) <;> simp

theorem q_execHatterBoot  (s : State) : Quiet s (execHatterBoot s) := by
  unfold execHatterBoot
  (try dsimp only)
  (repeat' split) <;> simp

theorem q_execHatterBootTimeout  (s : State) : Quiet s (execHatterBootTimeout s) := by
  unfold execHatterBootTimeout
  (try dsimp only)
  (repeat' split) <;> simp

theorem q_execHatterWatchdog (older : Bool) (s : State) : Quiet s (execHatterWatchdog older s) := by
  unfold execHatterWatchdog
  (try dsimp only)
  (repeat' split) <;> simp

theorem q_execRestart (m : Fin 8) (s : State) : Quiet s (execRestart m s) := by
  unfold execRestart
  (try dsimp only)
  (repeat' split) <;> simp

theorem q_execH2cDbWrite (m : Fin 8) (v : Word) (s : State) : Quiet s (execH2cDbWrite m v s) := by
  unfold execH2cDbWrite
  (try dsimp only)
  (repeat' split) <;> simp

theorem q_execGetInfo  (s : State) : Quiet s (execGetInfo s) := by
  unfold execGetInfo
  (try dsimp only)
  (repeat' split) <;> simp

theorem q_execImgWrite (ok : Bool) (upto : Nat) (s : State) : Quiet s (execImgWrite ok upto s) := by
  unfold execImgWrite
  (try dsimp only)
  (repeat' split) <;> simp

theorem q_execImgErase (ok : Bool) (upto : Nat) (s : State) : Quiet s (execImgErase ok upto s) := by
  unfold execImgErase
  (try dsimp only)
  (repeat' split) <;> simp

theorem q_execImgCommit (ok : Bool) (s : State) : Quiet s (execImgCommit ok s) := by
  unfold execImgCommit
  (try dsimp only)
  (repeat' split) <;> simp

theorem q_execFeLoad  (s : State) : Quiet s (execFeLoad s) := by
  unfold execFeLoad
  (try dsimp only)
  (repeat' split) <;> simp

theorem q_execC2hAckWrite (m : Fin 8) (v : Word) (s : State) : Quiet s (execC2hAckWrite m v s) := by
  unfold execC2hAckWrite
  (try dsimp only)
  (repeat' split) <;> simp

theorem q_execRemapSwap (m : Fin 8) (v : Word) (s : State) : Quiet s (execRemapSwap m v s) := by
  unfold execRemapSwap
  (try dsimp only)
  (repeat' split) <;> simp

theorem q_execEoi (m : Fin 8) (v : Word) (s : State) : Quiet s (execEoi m v s) := by
  unfold execEoi
  (try dsimp only)
  (repeat' split) <;> simp

theorem q_execMsixUnmask (v : Fin 32) (s : State) : Quiet s (execMsixUnmask v s) := by
  unfold execMsixUnmask
  (try dsimp only)
  (repeat' split) <;> simp

theorem q_execBringup (m : Fin 8) (s : State) : Quiet s (execBringup m s) := by
  unfold execBringup
  (try dsimp only)
  (repeat' split) <;> simp

theorem q_execSolo (m : Fin 8) (late : Bool) (s : State) : Quiet s (execSolo m late s) := by
  unfold execSolo
  (try dsimp only)
  (repeat' split) <;> simp

theorem q_execQuarantine (m : Fin 8) (late : Bool) (s : State) : Quiet s (execQuarantine m late s) := by
  unfold execQuarantine
  (try dsimp only)
  (repeat' split) <;> simp

theorem q_execRelease (m : Fin 8) (late : Bool) (s : State) : Quiet s (execRelease m late s) := by
  unfold execRelease
  (try dsimp only)
  (repeat' split) <;> simp

theorem q_execPageReady (page : Fin 576) (ok : Bool) (s : State) : Quiet s (execPageReady page ok s) := by
  unfold execPageReady
  (try dsimp only)
  (repeat' split) <;> simp

theorem q_execFatalCause (bit : Fin 3) (s : State) : Quiet s (execFatalCause bit s) := by
  unfold execFatalCause
  (try dsimp only)
  (repeat' split) <;> simp

theorem q_execRegionMeasure (temps : List Int) (volts : List Nat) (s : State) : Quiet s (execRegionMeasure temps volts s) := by
  unfold execRegionMeasure
  (try dsimp only)
  (repeat' split) <;> simp

theorem q_execLcalRun (m : Fin 8) (lg : Fin 16) (s : State) : Quiet s (execLcalRun m lg s) := by
  unfold execLcalRun
  (try dsimp only)
  (repeat' split) <;> simp

theorem q_execTcalRun (m : Fin 8) (s : State) : Quiet s (execTcalRun m s) := by
  unfold execTcalRun
  (try dsimp only)
  (repeat' split) <;> simp

theorem q_execMcalRun (m : Fin 8) (s : State) : Quiet s (execMcalRun m s) := by
  unfold execMcalRun
  (try dsimp only)
  (repeat' split) <;> simp

theorem q_execCalPeriodExpiry (kind : Fin 5) (target : Fin 1024) (s : State) : Quiet s (execCalPeriodExpiry kind target s) := by
  unfold execCalPeriodExpiry
  (try dsimp only)
  (repeat' split) <;> simp

theorem q_execBlockingRunStart (kind : Fin 5) (target : Fin 1024) (s : State) : Quiet s (execBlockingRunStart kind target s) := by
  unfold execBlockingRunStart
  (try dsimp only)
  (repeat' split) <;> simp

theorem q_execBlockingRunComplete (kind : Fin 5) (target : Fin 1024) (rx tx : Int) (dq : List Nat) (fig0 fig1 : Nat) (s : State) : Quiet s (execBlockingRunComplete kind target rx tx dq fig0 fig1 s) := by
  unfold execBlockingRunComplete
  (try dsimp only)
  (repeat' split) <;> simp

theorem q_execBlockingRunAbort (kind : Fin 5) (target : Fin 1024) (code : Fin 10) (s : State) : Quiet s (execBlockingRunAbort kind target code s) := by
  unfold execBlockingRunAbort
  (try dsimp only)
  (repeat' split) <;> simp

theorem q_execMismatch (lane : Fin 192) (s : State) : Quiet s (execMismatch lane s) := by
  unfold execMismatch
  (try dsimp only)
  (repeat' split) <;> simp

theorem q_execProg (m : Fin 8) (low : Bool) (s : State) : Quiet s (execProg m low s) := by
  unfold execProg
  (try dsimp only)
  (repeat' split) <;> simp

theorem q_execFuseProgDone (ok : Bool) (s : State) : Quiet s (execFuseProgDone ok s) := by
  unfold execFuseProgDone
  (try dsimp only)
  (repeat' split) <;> simp

theorem q_execFuseProgAbort (n : Fin 16) (part : Word) (s : State) : Quiet s (execFuseProgAbort n part s) := by
  unfold execFuseProgAbort
  (try dsimp only)
  (repeat' split) <;> simp

theorem q_execGaugeClear (m : Fin 8) (s : State) : Quiet s (execGaugeClear m s) := by
  unfold execGaugeClear
  (try dsimp only)
  (repeat' split) <;> simp

theorem q_execGWr (m : Fin 8) (v : Word) (s : State) : Quiet s (execGWr m v s) := by
  unfold execGWr
  (try dsimp only)
  (repeat' split) <;> simp

theorem q_execTraceStart (m : Fin 8) (s : State) : Quiet s (execTraceStart m s) := by
  unfold execTraceStart
  (try dsimp only)
  (repeat' split) <;> simp

theorem q_execTraceStop (m : Fin 8) (s : State) : Quiet s (execTraceStop m s) := by
  unfold execTraceStop
  (try dsimp only)
  (repeat' split) <;> simp

theorem q_execTraceReset (m : Fin 8) (s : State) : Quiet s (execTraceReset m s) := by
  unfold execTraceReset
  (try dsimp only)
  (repeat' split) <;> simp

theorem q_execTRdIdxWrite (m : Fin 8) (idx : Word) (s : State) : Quiet s (execTRdIdxWrite m idx s) := by
  unfold execTRdIdxWrite
  (try dsimp only)
  (repeat' split) <;> simp

theorem q_execInstrTagRecord (e : Fin 64) (pc : Nat) (instr cycle : Word) (stall causes complete : Nat) (fault : Bool) (s : State) : Quiet s (execInstrTagRecord e pc instr cycle stall causes complete fault s) := by
  unfold execInstrTagRecord
  (try dsimp only)
  (repeat' split) <;> simp

theorem q_execPop (m : Fin 8) (s : State) : Quiet s (execPop m s) := by
  unfold execPop
  (try dsimp only)
  (repeat' split) <;> simp

theorem q_execSclkRefresh  (s : State) : Quiet s (execSclkRefresh s) := by
  unfold execSclkRefresh
  (try dsimp only)
  (repeat' split) <;> simp

theorem q_execRailToleranceChange (w : Supply) (l : Level) (s : State) : Quiet s (execRailToleranceChange w l s) := by
  unfold execRailToleranceChange
  (try dsimp only)
  (repeat' split) <;> simp

theorem q_execPllRelock (p : Pll) (s : State) : Quiet s (execPllRelock p s) := by
  unfold execPllRelock
  (try dsimp only)
  (repeat' split) <;> simp

theorem q_execTxPllLockLoss (p : Pll) (s : State) : Quiet s (execTxPllLockLoss p s) := by
  unfold execTxPllLockLoss
  (try dsimp only)
  (repeat' split) <;> simp

theorem q_execRefReturn (input : Fin 5) (s : State) : Quiet s (execRefReturn input s) := by
  unfold execRefReturn
  (try dsimp only)
  (repeat' split) <;> simp

theorem q_execRefOorChange (input : Fin 5) (oor : Bool) (s : State) : Quiet s (execRefOorChange input oor s) := by
  unfold execRefOorChange
  (try dsimp only)
  (repeat' split) <;> simp

theorem q_execGelvySignalDetect (p : Fin 8) (s : State) : Quiet s (execGelvySignalDetect p s) := by
  unfold execGelvySignalDetect
  (try dsimp only)
  (repeat' split) <;> simp

theorem q_execHelloTimeout (p : Fin 8) (s : State) : Quiet s (execHelloTimeout p s) := by
  unfold execHelloTimeout
  (try dsimp only)
  (repeat' split) <;> simp

theorem q_execTimingPortLinkChange (p : Fin 4) (link lf rf : Bool) (s : State) : Quiet s (execTimingPortLinkChange p link lf rf s) := by
  unfold execTimingPortLinkChange
  (try dsimp only)
  (repeat' split) <;> simp

theorem q_execHatterRun  (s : State) : Quiet s (execHatterRun s) := by
  unfold execHatterRun
  (try dsimp only)
  (repeat' split) <;> simp

theorem q_execMemChannelFail (ch : Fin 16) (s : State) : Quiet s (execMemChannelFail ch s) := by
  unfold execMemChannelFail
  (try dsimp only)
  (repeat' split) <;> simp

/-- Every command answers a next state and leaves the queue as it is. -/
theorem exec_quiet : ∀ (c : Instr) (s : State), Quiet s (exec c s)
  | .powerOn bothDown, s => q_execPowerOn bothDown s
  | .resetNAssert ns, s => q_execResetNAssert ns s
  | .brownOut, s => q_execBrownOut s
  | .seqViolation kind inService, s => q_execSeqViolation kind inService s
  | .internalResetEnd s1 s2 s3 refs, s => q_execInternalResetEnd s1 s2 s3 refs s
  | .fuseReadComplete crcOk fact, s => q_execFuseReadComplete crcOk fact s
  | .coreCfgWrite m v, s => q_execCoreCfgWrite m v s
  | .corePllRelock, s => q_execCorePllRelock s
  | .coreClockLockLoss cclk eclk sclk, s => q_execCoreClockLockLoss cclk eclk sclk s
  | .mclkLockLoss, s => q_execMclkLockLoss s
  | .refLoss input, s => q_execRefLoss input s
  | .memPllLockLoss, s => q_execMemPllLockLoss s
  | .crossingOverflow xid index, s => q_execCrossingOverflow xid index s
  | .frameTick o, s => q_execFrameTick o s
  | .usTick, s => q_execUsTick s
  | .registerWrite m a v be late hw, s => q_execRegisterWrite m a v be late hw s
  | .lgPostedWrite m lg l, s => q_execLgPostedWrite m lg l s
  | .postedWriteLand lg late, s => q_execPostedWriteLand lg late s
  | .lgReadComplete m lg off late, s => q_execLgReadComplete m lg off late s
  | .pageLock m page, s => q_execPageLock m page s
  | .parActWrite m page v, s => q_execParActWrite m page v s
  | .parityScanPass us bad, s => q_execParityScanPass us bad s
  | .pageSrst m page, s => q_execPageSrst m page s
  | .cntClr m page, s => q_execCntClr m page s
  | .counterPreset m a v n, s => q_execCounterPreset m a v n s
  | .occAckWrite m a ack, s => q_execOccAckWrite m a ack s
  | .counterLowRead m a, s => q_execCounterLowRead m a s
  | .snapTake m late, s => q_execSnapTake m late s
  | .stItemBWrite m arg, s => q_execStItemBWrite m arg s
  | .admitCmd m, s => q_execAdmitCmd m s
  | .cancel m, s => q_execCancel m s
  | .clear m, s => q_execClear m s
  | .plankDispatch sfn tick refused, s => q_execPlankDispatch sfn tick refused s
  | .rdIdxWrite m idx, s => q_execRdIdxWrite m idx s
  | .find m, s => q_execFind m s
  | .findComplete m, s => q_execFindComplete m s
  | .actionMessageRx e a check, s => q_execActionMessageRx e a check s
  | .signalDetect c, s => q_execSignalDetect c s
  | .signalDetectLoss c held, s => q_execSignalDetectLoss c held s
  | .rateDwellExpiry c, s => q_execRateDwellExpiry c s
  | .cdrLock c, s => q_execCdrLock c s
  | .frameHuntTimeout c, s => q_execFrameHuntTimeout c s
  | .traceWaitExpiry c, s => q_execTraceWaitExpiry c s
  | .admitGo m c late, s => q_execAdmitGo m c late s
  | .admittedExpiry c, s => q_execAdmittedExpiry c s
  | .rehuntExpiry c, s => q_execRehuntExpiry c s
  | .holdOffExpiry c, s => q_execHoldOffExpiry c s
  | .start m lg, s => q_execStart m lg s
  | .eyeMeasureDone lg free width height, s => q_execEyeMeasureDone lg free width height s
  | .lineFrame c o, s => q_execLineFrame c o s
  | .tieWindowClose c, s => q_execTieWindowClose c s
  | .lofDeclare c, s => q_execLofDeclare c s
  | .lofClear c, s => q_execLofClear c s
  | .lomDeclare c, s => q_execLomDeclare c s
  | .lomClear c, s => q_execLomClear c s
  | .lolDeclare c, s => q_execLolDeclare c s
  | .lolClear c, s => q_execLolClear c s
  | .blockLockChange c lock, s => q_execBlockLockChange c lock s
  | .losDeclare lane energyOnly, s => q_execLosDeclare lane energyOnly s
  | .losClear lane, s => q_execLosClear lane s
  | .defectDeclare e d, s => q_execDefectDeclare e d s
  | .defectClear e d, s => q_execDefectClear e d s
  | .otnDefectDeclare e d, s => q_execOtnDefectDeclare e d s
  | .otnDefectClear e d, s => q_execOtnDefectClear e d s
  | .ethDefectChange c d on, s => q_execEthDefectChange c d on s
  | .tribDefectDeclare lg kind num d on, s => q_execTribDefectDeclare lg kind num d on s
  | .pwRead m lg, s => q_execPwRead m lg s
  | .pwWrite m lg late, s => q_execPwWrite m lg late s
  | .tmRead m lg, s => q_execTmRead m lg s
  | .tmWrite m lg late, s => q_execTmWrite m lg late s
  | .tsiWindowWrite m off v, s => q_execTsiWindowWrite m off v s
  | .seal m, s => q_execSeal m s
  | .sealDone, s => q_execSealDone s
  | .abandon m copied, s => q_execAbandon m copied s
  | .copyActive m, s => q_execCopyActive m s
  | .copyActiveDone, s => q_execCopyActiveDone s
  | .loxWindowWrite m off v, s => q_execLoxWindowWrite m off v s
  | .loxSeal m, s => q_execLoxSeal m s
  | .loxSealDone, s => q_execLoxSealDone s
  | .loxAbandon m copied, s => q_execLoxAbandon m copied s
  | .loxCopyActive m, s => q_execLoxCopyActive m s
  | .loxCopyActiveDone, s => q_execLoxCopyActiveDone s
  | .mwRead m lg, s => q_execMwRead m lg s
  | .mwWrite m lg, s => q_execMwWrite m lg s
  | .check m lg, s => q_execCheck m lg s
  | .checkDone lg, s => q_execCheckDone lg s
  | .vgRead m lg, s => q_execVgRead m lg s
  | .vgWrite m lg late, s => q_execVgWrite m lg late s
  | .containerAcquired c e tx, s => q_execContainerAcquired c e tx s
  | .clientFrameMap c frame raw, s => q_execClientFrameMap c frame raw s
  | .gfpFrameRx c o raw, s => q_execGfpFrameRx c o raw s
  | .csfSend c, s => q_execCsfSend c s
  | .lcasMemberFail lg g mem, s => q_execLcasMemberFail lg g mem s
  | .lcasMemberRestore lg g mem, s => q_execLcasMemberRestore lg g mem s
  | .selectorAdmit n, s => q_execSelectorAdmit n s
  | .selectorAdmitRetry n, s => q_execSelectorAdmitRetry n s
  | .wtrExpiry n, s => q_execWtrExpiry n s
  | .swRead m lg, s => q_execSwRead m lg s
  | .swWrite m lg late, s => q_execSwWrite m lg late s
  | .hitlessAcquired n diffs period, s => q_execHitlessAcquired n diffs period s
  | .hitlessFrameDue n o, s => q_execHitlessFrameDue n o s
  | .delayStep n copyP slacks, s => q_execDelayStep n copyP slacks s
  | .realignAuto n, s => q_execRealignAuto n s
  | .load m, s => q_execLoad m s
  | .nowNsRead m, s => q_execNowNsRead m s
  | .tbIncWrite m v, s => q_execTbIncWrite m v s
  | .slewStep, s => q_execSlewStep s
  | .holdover, s => q_execHoldover s
  | .portTimestamp port tx id kind raw deskew, s => q_execPortTimestamp port tx id kind raw deskew s
  | .rxPop m, s => q_execRxPop m s
  | .txPop m, s => q_execTxPop m s
  | .timingPortFrameTx p ctrl frame raw, s => q_execTimingPortFrameTx p ctrl frame raw s
  | .timingPortFrameRx p frame raw, s => q_execTimingPortFrameRx p frame raw s
  | .ttStampRx e k departure arrival valid ownDeparture ownArrival, s => q_execTtStampRx e k departure arrival valid ownDeparture ownArrival s
  | .ttResult p, s => q_execTtResult p s
  | .ppsInEdge falling raw, s => q_execPpsInEdge falling raw s
  | .ppsPulseStart, s => q_execPpsPulseStart s
  | .ppsPulseEnd, s => q_execPpsPulseEnd s
  | .arm m, s => q_execArm m s
  | .todSendStart, s => q_execTodSendStart s
  | .todSendDone, s => q_execTodSendDone s
  | .txAbandon, s => q_execTxAbandon s
  | .todRxMessage bytes raw, s => q_execTodRxMessage bytes raw s
  | .feAdd e, s => q_execFeAdd e s
  | .feSub e, s => q_execFeSub e s
  | .feAnd e, s => q_execFeAnd e s
  | .feOr e, s => q_execFeOr e s
  | .feXor e, s => q_execFeXor e s
  | .feShl e, s => q_execFeShl e s
  | .feShr e, s => q_execFeShr e s
  | .feSha e, s => q_execFeSha e s
  | .feClt e, s => q_execFeClt e s
  | .feCltu e, s => q_execFeCltu e s
  | .feMul e, s => q_execFeMul e s
  | .feMulhi e, s => q_execFeMulhi e s
  | .feAddk e, s => q_execFeAddk e s
  | .feAndk e, s => q_execFeAndk e s
  | .feOrk e, s => q_execFeOrk e s
  | .feXork e, s => q_execFeXork e s
  | .feCltk e, s => q_execFeCltk e s
  | .feKhi e, s => q_execFeKhi e s
  | .feShlk e, s => q_execFeShlk e s
  | .feShrk e, s => q_execFeShrk e s
  | .feShak e, s => q_execFeShak e s
  | .feLdw e, s => q_execFeLdw e s
  | .feLdh e, s => q_execFeLdh e s
  | .feLdhu e, s => q_execFeLdhu e s
  | .feLdb e, s => q_execFeLdb e s
  | .feLdbu e, s => q_execFeLdbu e s
  | .feStw e, s => q_execFeStw e s
  | .feSth e, s => q_execFeSth e s
  | .feStb e, s => q_execFeStb e s
  | .feOldw e, s => q_execFeOldw e s
  | .feOldbu e, s => q_execFeOldbu e s
  | .feOstw e, s => q_execFeOstw e s
  | .feOstb e, s => q_execFeOstb e s
  | .feBld e, s => q_execFeBld e s
  | .feBst e, s => q_execFeBst e s
  | .busOpComplete e, s => q_execBusOpComplete e s
  | .feBsync e, s => q_execFeBsync e s
  | .feBreq e, s => q_execFeBreq e s
  | .feBrne e, s => q_execFeBrne e s
  | .feBrlt e, s => q_execFeBrlt e s
  | .feBrge e, s => q_execFeBrge e s
  | .feBrlo e, s => q_execFeBrlo e s
  | .feBrhs e, s => q_execFeBrhs e s
  | .feCall e, s => q_execFeCall e s
  | .feJmp e, s => q_execFeJmp e s
  | .feWait e, s => q_execFeWait e s
  | .feRdc e, s => q_execFeRdc e s
  | .feWrc e, s => q_execFeWrc e s
  | .feCrcb e, s => q_execFeCrcb e s
  | .feCrcw e, s => q_execFeCrcw e s
  | .feHalt e, s => q_execFeHalt e s
  | .feWatchdog e, s => q_execFeWatchdog e s
  | .feTimerExpiry e, s => q_execFeTimerExpiry e s
  | .hdlcRxPass e, s => q_execHdlcRxPass e s
  | .hdlcTxPass e caps stamps, s => q_execHdlcTxPass e caps stamps s
  | .hInDbWrite m e v core, s => q_execHInDbWrite m e v core s
  | .hOutAckWrite m e v core, s => q_execHOutAckWrite m e v core s
  | .hInDWrite m e d v core, s => q_execHInDWrite m e d v core s
  | .feStart m e, s => q_execFeStart m e s
  | .feStop m e, s => q_execFeStop m e s
  | .feStopDone e, s => q_execFeStopDone e s
  | .feCheck m e, s => q_execFeCheck m e s
  | .feCheckDone e, s => q_execFeCheckDone e s
  | .feWindowWrite m e off v, s => q_execFeWindowWrite m e off v s
  | .feScrub e w, s => q_execFeScrub e w s
  | .battReadReturn p n o, s => q_execBattReadReturn p n o s
  | .battScrubRead ch cw cls passMs, s => q_execBattScrubRead ch cw cls passMs s
  | .pathRead m, s => q_execPathRead m s
  | .pathWrite m late, s => q_execPathWrite m late s
  | .battWindowAccess m off w cls, s => q_execBattWindowAccess m off w cls s
  | .memChannelTrained ch ok, s => q_execMemChannelTrained ch ok s
  | .pounceUnitComplete u bytes carried fcs32, s => q_execPounceUnitComplete u bytes carried fcs32 s
  | .go m late, s => q_execGo m late s
  | .stop m late, s => q_execStop m late s
  | .heartbeatSend, s => q_execHeartbeatSend s
  | .heartbeat e b, s => q_execHeartbeat e b s
  | .mirrorLinkLoss, s => q_execMirrorLinkLoss s
  | .fwdWrite e addr val mask master sfn, s => q_execFwdWrite e addr val mask master sfn s
  | .digest e first n d, s => q_execDigest e first n d s
  | .copy e region gen sfn offset data last, s => q_execCopy e region gen sfn offset data last s
  | .copyAck e region gen, s => q_execCopyAck e region gen s
  | .join m, s => q_execJoin m s
  | .joinRx e pairId version, s => q_execJoinRx e pairId version s
  | .accept e c, s => q_execAccept e c s
  | .refuse e code, s => q_execRefuse e code s
  | .joinTimeout, s => q_execJoinTimeout s
  | .serve m, s => q_execServe m s
  | .leave m, s => q_execLeave m s
  | .forceTakeover m, s => q_execForceTakeover m s
  | .claimInChange level, s => q_execClaimInChange level s
  | .takeoverDecision, s => q_execTakeoverDecision s
  | .takeover, s => q_execTakeover s
  | .claimConflict, s => q_execClaimConflict s
  | .tvwEnd swing, s => q_execTvwEnd swing s
  | .convTimeout, s => q_execConvTimeout s
  | .helloSend p, s => q_execHelloSend p s
  | .hello e h, s => q_execHello e h s
  | .memberDepart n, s => q_execMemberDepart n s
  | .result e origin status reason applied index, s => q_execResult e origin status reason applied index s
  | .groupCancelRx e origin, s => q_execGroupCancelRx e origin s
  | .proxyAccess m off write be data, s => q_execProxyAccess m off write be data s
  | .rraReq e tag off write be data, s => q_execRraReq e tag off write be data s
  | .rraRsp e tag status data, s => q_execRraRsp e tag status data s
  | .proxyTimeout tag, s => q_execProxyTimeout tag s
  | .superframeRx p o, s => q_execSuperframeRx p o s
  | .retryTimeout p bulk, s => q_execRetryTimeout p bulk s
  | .ptpMessageRx e ctrl frame, s => q_execPtpMessageRx e ctrl frame s
  | .gelvyLaneLos p, s => q_execGelvyLaneLos p s
  | .gelvyTrained p, s => q_execGelvyTrained p s
  | .pcieWriteTlp sp addr l late, s => q_execPcieWriteTlp sp addr l late s
  | .pcieReadTlp sp addr n late cls, s => q_execPcieReadTlp sp addr n late cls s
  | .pcieReset kind p d, s => q_execPcieReset kind p d s
  | .dmaTailWrite m c tail, s => q_execDmaTailWrite m c tail s
  | .dmaDescriptorDone c addr len ctrl frame raw err, s => q_execDmaDescriptorDone c addr len ctrl frame raw err s
  | .wrDirect code off v pecOk count late, s => q_execWrDirect code off v pecOk count late s
  | .rdDirect code off count, s => q_execRdDirect code off count s
  | .setAddr a pecOk count, s => q_execSetAddr a pecOk count s
  | .wrInd v pecOk count late slow, s => q_execWrInd v pecOk count late slow s
  | .rdInd late slow cls, s => q_execRdInd late slow cls s
  | .status, s => q_execStatus s
  | .smbusStretchLimit, s => q_execSmbusStretchLimit s
  | .smbusTimeout p, s => q_execSmbusTimeout p s
  | .masterReset m p, s => q_execMasterReset m p s
  | .jtagBusAccess a write be v late cls, s => q_execJtagBusAccess a write be v late cls s
  | .extest on, s => q_execExtest on s
  | .hatterBoot, s => q_execHatterBoot s
  | .hatterBootTimeout, s => q_execHatterBootTimeout s
  | .hatterWatchdog older, s => q_execHatterWatchdog older s
  | .restart m, s => q_execRestart m s
  | .h2cDbWrite m v, s => q_execH2cDbWrite m v s
  | .getInfo, s => q_execGetInfo s
  | .imgWrite ok upto, s => q_execImgWrite ok upto s
  | .imgErase ok upto, s => q_execImgErase ok upto s
  | .imgCommit ok, s => q_execImgCommit ok s
  | .feLoad, s => q_execFeLoad s
  | .c2hAckWrite m v, s => q_execC2hAckWrite m v s
  | .remapSwap m v, s => q_execRemapSwap m v s
  | .eoi m v, s => q_execEoi m v s
  | .msixUnmask v, s => q_execMsixUnmask v s
  | .bringup m, s => q_execBringup m s
  | .solo m late, s => q_execSolo m late s
  | .quarantine m late, s => q_execQuarantine m late s
  | .release m late, s => q_execRelease m late s
  | .pageReady page ok, s => q_execPageReady page ok s
  | .fatalCause bit, s => q_execFatalCause bit s
  | .regionMeasure temps volts, s => q_execRegionMeasure temps volts s
  | .lcalRun m lg, s => q_execLcalRun m lg s
  | .tcalRun m, s => q_execTcalRun m s
  | .mcalRun m, s => q_execMcalRun m s
  | .calPeriodExpiry kind target, s => q_execCalPeriodExpiry kind target s
  | .blockingRunStart kind target, s => q_execBlockingRunStart kind target s
  | .blockingRunComplete kind target rx tx dq fig0 fig1, s => q_execBlockingRunComplete kind target rx tx dq fig0 fig1 s
  | .blockingRunAbort kind target code, s => q_execBlockingRunAbort kind target code s
  | .mismatch lane, s => q_execMismatch lane s
  | .prog m low, s => q_execProg m low s
  | .fuseProgDone ok, s => q_execFuseProgDone ok s
  | .fuseProgAbort n part, s => q_execFuseProgAbort n part s
  | .gaugeClear m, s => q_execGaugeClear m s
  | .gWr m v, s => q_execGWr m v s
  | .traceStart m, s => q_execTraceStart m s
  | .traceStop m, s => q_execTraceStop m s
  | .traceReset m, s => q_execTraceReset m s
  | .tRdIdxWrite m idx, s => q_execTRdIdxWrite m idx s
  | .instrTagRecord e pc instr cycle stall causes complete fault, s => q_execInstrTagRecord e pc instr cycle stall causes complete fault s
  | .pop m, s => q_execPop m s
  | .sclkRefresh, s => q_execSclkRefresh s
  | .railToleranceChange w l, s => q_execRailToleranceChange w l s
  | .pllRelock p, s => q_execPllRelock p s
  | .txPllLockLoss p, s => q_execTxPllLockLoss p s
  | .refReturn input, s => q_execRefReturn input s
  | .refOorChange input oor, s => q_execRefOorChange input oor s
  | .gelvySignalDetect p, s => q_execGelvySignalDetect p s
  | .helloTimeout p, s => q_execHelloTimeout p s
  | .timingPortLinkChange p link lf rf, s => q_execTimingPortLinkChange p link lf rf s
  | .hatterRun, s => q_execHatterRun s
  | .memChannelFail ch, s => q_execMemChannelFail ch s

end Sys2Proof.Machine
end

