-- ==== Sys2Proof/Laws/State.lean ====
section
/-!
SUPPORT. The updates of State, field by field: what each leaves as it is, and what it writes. A proof rewrites with these and unfolds no
record update; that no operation touches the queue stands in Pending.lean.
-/

namespace Sys2Proof.Machine

open Sys2Proof

@[simp] theorem u_regs (s : State) (l : List (Fld × Nat)) : (s.u l).regs = setFlds l s.regs := rfl
@[simp] theorem u_pend (s : State) (l : List (Fld × Nat)) : (s.u l).pend = s.pend := rfl
@[simp] theorem u_latch (s : State) (l : List (Fld × Nat)) : (s.u l).latch = s.latch := rfl
@[simp] theorem u_copy (s : State) (l : List (Fld × Nat)) : (s.u l).copy = s.copy := rfl
@[simp] theorem u_parBad (s : State) (l : List (Fld × Nat)) : (s.u l).parBad = s.parBad := rfl
@[simp] theorem u_parSeen (s : State) (l : List (Fld × Nat)) : (s.u l).parSeen = s.parSeen := rfl
@[simp] theorem u_safe (s : State) (l : List (Fld × Nat)) : (s.u l).safe = s.safe := rfl
@[simp] theorem u_lgBuf (s : State) (l : List (Fld × Nat)) : (s.u l).lgBuf = s.lgBuf := rfl
@[simp] theorem u_sclk (s : State) (l : List (Fld × Nat)) : (s.u l).sclk = s.sclk := rfl
@[simp] theorem u_snap (s : State) (l : List (Fld × Nat)) : (s.u l).snap = s.snap := rfl
@[simp] theorem u_resp (s : State) (l : List (Fld × Nat)) : (s.u l).resp = s.resp := rfl
@[simp] theorem u_wire (s : State) (l : List (Fld × Nat)) : (s.u l).wire = s.wire := rfl
@[simp] theorem u_free (s : State) (l : List (Fld × Nat)) : (s.u l).free = s.free := rfl
@[simp] theorem u_plk (s : State) (l : List (Fld × Nat)) : (s.u l).plk = s.plk := rfl
@[simp] theorem u_tb (s : State) (l : List (Fld × Nat)) : (s.u l).tb = s.tb := rfl
@[simp] theorem u_pwr (s : State) (l : List (Fld × Nat)) : (s.u l).pwr = s.pwr := rfl
@[simp] theorem u_hst (s : State) (l : List (Fld × Nat)) : (s.u l).hst = s.hst := rfl
@[simp] theorem u_xingAis (s : State) (l : List (Fld × Nat)) : (s.u l).xingAis = s.xingAis := rfl
@[simp] theorem u_fuses (s : State) (l : List (Fld × Nat)) : (s.u l).fuses = s.fuses := rfl
@[simp] theorem u_cal (s : State) (l : List (Fld × Nat)) : (s.u l).cal = s.cal := rfl
@[simp] theorem u_prf (s : State) (l : List (Fld × Nat)) : (s.u l).prf = s.prf := rfl
@[simp] theorem u_tvwFail (s : State) (l : List (Fld × Nat)) : (s.u l).tvwFail = s.tvwFail := rfl
@[simp] theorem u_gp (s : State) (l : List (Fld × Nat)) : (s.u l).gp = s.gp := rfl
@[simp] theorem u_twn (s : State) (l : List (Fld × Nat)) : (s.u l).twn = s.twn := rfl
@[simp] theorem u_pt (s : State) (l : List (Fld × Nat)) : (s.u l).pt = s.pt := rfl
@[simp] theorem u_pin (s : State) (l : List (Fld × Nat)) : (s.u l).pin = s.pin := rfl
@[simp] theorem u_calTs (s : State) (l : List (Fld × Nat)) : (s.u l).calTs = s.calTs := rfl
@[simp] theorem u_ln (s : State) (l : List (Fld × Nat)) : (s.u l).ln = s.ln := rfl
@[simp] theorem u_mon (s : State) (l : List (Fld × Nat)) : (s.u l).mon = s.mon := rfl
@[simp] theorem u_eye (s : State) (l : List (Fld × Nat)) : (s.u l).eye = s.eye := rfl
@[simp] theorem u_seen (s : State) (l : List (Fld × Nat)) : (s.u l).seen = s.seen := rfl
@[simp] theorem u_ca (s : State) (l : List (Fld × Nat)) : (s.u l).ca = s.ca := rfl
@[simp] theorem u_edge (s : State) (l : List (Fld × Nat)) : (s.u l).edge = s.edge := rfl
@[simp] theorem u_ohb (s : State) (l : List (Fld × Nat)) : (s.u l).ohb = s.ohb := rfl
@[simp] theorem u_ohbStale (s : State) (l : List (Fld × Nat)) : (s.u l).ohbStale = s.ohbStale := rfl
@[simp] theorem u_ohbLine (s : State) (l : List (Fld × Nat)) : (s.u l).ohbLine = s.ohbLine := rfl
@[simp] theorem u_tsi (s : State) (l : List (Fld × Nat)) : (s.u l).tsi = s.tsi := rfl
@[simp] theorem u_lox (s : State) (l : List (Fld × Nat)) : (s.u l).lox = s.lox := rfl
@[simp] theorem u_inj (s : State) (l : List (Fld × Nat)) : (s.u l).inj = s.inj := rfl
@[simp] theorem u_forced (s : State) (l : List (Fld × Nat)) : (s.u l).forced = s.forced := rfl
@[simp] theorem u_slotIn (s : State) (l : List (Fld × Nat)) : (s.u l).slotIn = s.slotIn := rfl
@[simp] theorem u_spe (s : State) (l : List (Fld × Nat)) : (s.u l).spe = s.spe := rfl
@[simp] theorem u_odu (s : State) (l : List (Fld × Nat)) : (s.u l).odu = s.odu := rfl
@[simp] theorem u_trib (s : State) (l : List (Fld × Nat)) : (s.u l).trib = s.trib := rfl
@[simp] theorem u_loOut (s : State) (l : List (Fld × Nat)) : (s.u l).loOut = s.loOut := rfl
@[simp] theorem u_eg (s : State) (l : List (Fld × Nat)) : (s.u l).eg = s.eg := rfl
@[simp] theorem u_rings (s : State) (l : List (Fld × Nat)) : (s.u l).rings = s.rings := rfl
@[simp] theorem u_cells (s : State) (l : List (Fld × Nat)) : (s.u l).cells = s.cells := rfl
@[simp] theorem u_chk (s : State) (l : List (Fld × Nat)) : (s.u l).chk = s.chk := rfl
@[simp] theorem u_car (s : State) (l : List (Fld × Nat)) : (s.u l).car = s.car := rfl
@[simp] theorem u_gfp (s : State) (l : List (Fld × Nat)) : (s.u l).gfp = s.gfp := rfl
@[simp] theorem u_sel (s : State) (l : List (Fld × Nat)) : (s.u l).sel = s.sel := rfl
@[simp] theorem u_gaug (s : State) (l : List (Fld × Nat)) : (s.u l).gaug = s.gaug := rfl
@[simp] theorem u_uncov (s : State) (l : List (Fld × Nat)) : (s.u l).uncov = s.uncov := rfl
@[simp] theorem u_excl (s : State) (l : List (Fld × Nat)) : (s.u l).excl = s.excl := rfl
@[simp] theorem u_eng (s : State) (l : List (Fld × Nat)) : (s.u l).eng = s.eng := rfl
@[simp] theorem u_scopy (s : State) (l : List (Fld × Nat)) : (s.u l).scopy = s.scopy := rfl
@[simp] theorem u_battLate (s : State) (l : List (Fld × Nat)) : (s.u l).battLate = s.battLate := rfl
@[simp] theorem u_prox (s : State) (l : List (Fld × Nat)) : (s.u l).prox = s.prox := rfl
@[simp] theorem u_proxTag (s : State) (l : List (Fld × Nat)) : (s.u l).proxTag = s.proxTag := rfl

@[simp] theorem setWord_regs (s : State) (k : Nat) (w : Word) : (s.setWord k w).regs = tset resetWordOf s.regs k w := rfl
@[simp] theorem setWord_pend (s : State) (k : Nat) (w : Word) : (s.setWord k w).pend = s.pend := rfl
@[simp] theorem setWord_latch (s : State) (k : Nat) (w : Word) : (s.setWord k w).latch = s.latch := rfl
@[simp] theorem setWord_copy (s : State) (k : Nat) (w : Word) : (s.setWord k w).copy = s.copy := rfl
@[simp] theorem setWord_parBad (s : State) (k : Nat) (w : Word) : (s.setWord k w).parBad = s.parBad := rfl
@[simp] theorem setWord_parSeen (s : State) (k : Nat) (w : Word) : (s.setWord k w).parSeen = s.parSeen := rfl
@[simp] theorem setWord_safe (s : State) (k : Nat) (w : Word) : (s.setWord k w).safe = s.safe := rfl
@[simp] theorem setWord_lgBuf (s : State) (k : Nat) (w : Word) : (s.setWord k w).lgBuf = s.lgBuf := rfl
@[simp] theorem setWord_sclk (s : State) (k : Nat) (w : Word) : (s.setWord k w).sclk = s.sclk := rfl
@[simp] theorem setWord_snap (s : State) (k : Nat) (w : Word) : (s.setWord k w).snap = s.snap := rfl
@[simp] theorem setWord_resp (s : State) (k : Nat) (w : Word) : (s.setWord k w).resp = s.resp := rfl
@[simp] theorem setWord_wire (s : State) (k : Nat) (w : Word) : (s.setWord k w).wire = s.wire := rfl
@[simp] theorem setWord_free (s : State) (k : Nat) (w : Word) : (s.setWord k w).free = s.free := rfl
@[simp] theorem setWord_plk (s : State) (k : Nat) (w : Word) : (s.setWord k w).plk = s.plk := rfl
@[simp] theorem setWord_tb (s : State) (k : Nat) (w : Word) : (s.setWord k w).tb = s.tb := rfl
@[simp] theorem setWord_pwr (s : State) (k : Nat) (w : Word) : (s.setWord k w).pwr = s.pwr := rfl
@[simp] theorem setWord_hst (s : State) (k : Nat) (w : Word) : (s.setWord k w).hst = s.hst := rfl
@[simp] theorem setWord_xingAis (s : State) (k : Nat) (w : Word) : (s.setWord k w).xingAis = s.xingAis := rfl
@[simp] theorem setWord_fuses (s : State) (k : Nat) (w : Word) : (s.setWord k w).fuses = s.fuses := rfl
@[simp] theorem setWord_cal (s : State) (k : Nat) (w : Word) : (s.setWord k w).cal = s.cal := rfl
@[simp] theorem setWord_prf (s : State) (k : Nat) (w : Word) : (s.setWord k w).prf = s.prf := rfl
@[simp] theorem setWord_tvwFail (s : State) (k : Nat) (w : Word) : (s.setWord k w).tvwFail = s.tvwFail := rfl
@[simp] theorem setWord_gp (s : State) (k : Nat) (w : Word) : (s.setWord k w).gp = s.gp := rfl
@[simp] theorem setWord_twn (s : State) (k : Nat) (w : Word) : (s.setWord k w).twn = s.twn := rfl
@[simp] theorem setWord_pt (s : State) (k : Nat) (w : Word) : (s.setWord k w).pt = s.pt := rfl
@[simp] theorem setWord_pin (s : State) (k : Nat) (w : Word) : (s.setWord k w).pin = s.pin := rfl
@[simp] theorem setWord_calTs (s : State) (k : Nat) (w : Word) : (s.setWord k w).calTs = s.calTs := rfl
@[simp] theorem setWord_ln (s : State) (k : Nat) (w : Word) : (s.setWord k w).ln = s.ln := rfl
@[simp] theorem setWord_mon (s : State) (k : Nat) (w : Word) : (s.setWord k w).mon = s.mon := rfl
@[simp] theorem setWord_eye (s : State) (k : Nat) (w : Word) : (s.setWord k w).eye = s.eye := rfl
@[simp] theorem setWord_seen (s : State) (k : Nat) (w : Word) : (s.setWord k w).seen = s.seen := rfl
@[simp] theorem setWord_ca (s : State) (k : Nat) (w : Word) : (s.setWord k w).ca = s.ca := rfl
@[simp] theorem setWord_edge (s : State) (k : Nat) (w : Word) : (s.setWord k w).edge = s.edge := rfl
@[simp] theorem setWord_ohb (s : State) (k : Nat) (w : Word) : (s.setWord k w).ohb = s.ohb := rfl
@[simp] theorem setWord_ohbStale (s : State) (k : Nat) (w : Word) : (s.setWord k w).ohbStale = s.ohbStale := rfl
@[simp] theorem setWord_ohbLine (s : State) (k : Nat) (w : Word) : (s.setWord k w).ohbLine = s.ohbLine := rfl
@[simp] theorem setWord_tsi (s : State) (k : Nat) (w : Word) : (s.setWord k w).tsi = s.tsi := rfl
@[simp] theorem setWord_lox (s : State) (k : Nat) (w : Word) : (s.setWord k w).lox = s.lox := rfl
@[simp] theorem setWord_inj (s : State) (k : Nat) (w : Word) : (s.setWord k w).inj = s.inj := rfl
@[simp] theorem setWord_forced (s : State) (k : Nat) (w : Word) : (s.setWord k w).forced = s.forced := rfl
@[simp] theorem setWord_slotIn (s : State) (k : Nat) (w : Word) : (s.setWord k w).slotIn = s.slotIn := rfl
@[simp] theorem setWord_spe (s : State) (k : Nat) (w : Word) : (s.setWord k w).spe = s.spe := rfl
@[simp] theorem setWord_odu (s : State) (k : Nat) (w : Word) : (s.setWord k w).odu = s.odu := rfl
@[simp] theorem setWord_trib (s : State) (k : Nat) (w : Word) : (s.setWord k w).trib = s.trib := rfl
@[simp] theorem setWord_loOut (s : State) (k : Nat) (w : Word) : (s.setWord k w).loOut = s.loOut := rfl
@[simp] theorem setWord_eg (s : State) (k : Nat) (w : Word) : (s.setWord k w).eg = s.eg := rfl
@[simp] theorem setWord_rings (s : State) (k : Nat) (w : Word) : (s.setWord k w).rings = s.rings := rfl
@[simp] theorem setWord_cells (s : State) (k : Nat) (w : Word) : (s.setWord k w).cells = s.cells := rfl
@[simp] theorem setWord_chk (s : State) (k : Nat) (w : Word) : (s.setWord k w).chk = s.chk := rfl
@[simp] theorem setWord_car (s : State) (k : Nat) (w : Word) : (s.setWord k w).car = s.car := rfl
@[simp] theorem setWord_gfp (s : State) (k : Nat) (w : Word) : (s.setWord k w).gfp = s.gfp := rfl
@[simp] theorem setWord_sel (s : State) (k : Nat) (w : Word) : (s.setWord k w).sel = s.sel := rfl
@[simp] theorem setWord_gaug (s : State) (k : Nat) (w : Word) : (s.setWord k w).gaug = s.gaug := rfl
@[simp] theorem setWord_uncov (s : State) (k : Nat) (w : Word) : (s.setWord k w).uncov = s.uncov := rfl
@[simp] theorem setWord_excl (s : State) (k : Nat) (w : Word) : (s.setWord k w).excl = s.excl := rfl
@[simp] theorem setWord_eng (s : State) (k : Nat) (w : Word) : (s.setWord k w).eng = s.eng := rfl
@[simp] theorem setWord_scopy (s : State) (k : Nat) (w : Word) : (s.setWord k w).scopy = s.scopy := rfl
@[simp] theorem setWord_battLate (s : State) (k : Nat) (w : Word) : (s.setWord k w).battLate = s.battLate := rfl
@[simp] theorem setWord_prox (s : State) (k : Nat) (w : Word) : (s.setWord k w).prox = s.prox := rfl
@[simp] theorem setWord_proxTag (s : State) (k : Nat) (w : Word) : (s.setWord k w).proxTag = s.proxTag := rfl

@[simp] theorem draw_regs (s : State) : (s.draw).regs = s.regs := rfl
@[simp] theorem draw_pend (s : State) : (s.draw).pend = s.pend := rfl
@[simp] theorem draw_latch (s : State) : (s.draw).latch = s.latch := rfl
@[simp] theorem draw_copy (s : State) : (s.draw).copy = s.copy := rfl
@[simp] theorem draw_parBad (s : State) : (s.draw).parBad = s.parBad := rfl
@[simp] theorem draw_parSeen (s : State) : (s.draw).parSeen = s.parSeen := rfl
@[simp] theorem draw_safe (s : State) : (s.draw).safe = s.safe := rfl
@[simp] theorem draw_lgBuf (s : State) : (s.draw).lgBuf = s.lgBuf := rfl
@[simp] theorem draw_sclk (s : State) : (s.draw).sclk = s.sclk := rfl
@[simp] theorem draw_snap (s : State) : (s.draw).snap = s.snap := rfl
@[simp] theorem draw_resp (s : State) : (s.draw).resp = s.resp := rfl
@[simp] theorem draw_wire (s : State) : (s.draw).wire = s.wire := rfl
@[simp] theorem draw_free (s : State) : (s.draw).free = s.free + 1 := rfl
@[simp] theorem draw_plk (s : State) : (s.draw).plk = s.plk := rfl
@[simp] theorem draw_tb (s : State) : (s.draw).tb = s.tb := rfl
@[simp] theorem draw_pwr (s : State) : (s.draw).pwr = s.pwr := rfl
@[simp] theorem draw_hst (s : State) : (s.draw).hst = s.hst := rfl
@[simp] theorem draw_xingAis (s : State) : (s.draw).xingAis = s.xingAis := rfl
@[simp] theorem draw_fuses (s : State) : (s.draw).fuses = s.fuses := rfl
@[simp] theorem draw_cal (s : State) : (s.draw).cal = s.cal := rfl
@[simp] theorem draw_prf (s : State) : (s.draw).prf = s.prf := rfl
@[simp] theorem draw_tvwFail (s : State) : (s.draw).tvwFail = s.tvwFail := rfl
@[simp] theorem draw_gp (s : State) : (s.draw).gp = s.gp := rfl
@[simp] theorem draw_twn (s : State) : (s.draw).twn = s.twn := rfl
@[simp] theorem draw_pt (s : State) : (s.draw).pt = s.pt := rfl
@[simp] theorem draw_pin (s : State) : (s.draw).pin = s.pin := rfl
@[simp] theorem draw_calTs (s : State) : (s.draw).calTs = s.calTs := rfl
@[simp] theorem draw_ln (s : State) : (s.draw).ln = s.ln := rfl
@[simp] theorem draw_mon (s : State) : (s.draw).mon = s.mon := rfl
@[simp] theorem draw_eye (s : State) : (s.draw).eye = s.eye := rfl
@[simp] theorem draw_seen (s : State) : (s.draw).seen = s.seen := rfl
@[simp] theorem draw_ca (s : State) : (s.draw).ca = s.ca := rfl
@[simp] theorem draw_edge (s : State) : (s.draw).edge = s.edge := rfl
@[simp] theorem draw_ohb (s : State) : (s.draw).ohb = s.ohb := rfl
@[simp] theorem draw_ohbStale (s : State) : (s.draw).ohbStale = s.ohbStale := rfl
@[simp] theorem draw_ohbLine (s : State) : (s.draw).ohbLine = s.ohbLine := rfl
@[simp] theorem draw_tsi (s : State) : (s.draw).tsi = s.tsi := rfl
@[simp] theorem draw_lox (s : State) : (s.draw).lox = s.lox := rfl
@[simp] theorem draw_inj (s : State) : (s.draw).inj = s.inj := rfl
@[simp] theorem draw_forced (s : State) : (s.draw).forced = s.forced := rfl
@[simp] theorem draw_slotIn (s : State) : (s.draw).slotIn = s.slotIn := rfl
@[simp] theorem draw_spe (s : State) : (s.draw).spe = s.spe := rfl
@[simp] theorem draw_odu (s : State) : (s.draw).odu = s.odu := rfl
@[simp] theorem draw_trib (s : State) : (s.draw).trib = s.trib := rfl
@[simp] theorem draw_loOut (s : State) : (s.draw).loOut = s.loOut := rfl
@[simp] theorem draw_eg (s : State) : (s.draw).eg = s.eg := rfl
@[simp] theorem draw_rings (s : State) : (s.draw).rings = s.rings := rfl
@[simp] theorem draw_cells (s : State) : (s.draw).cells = s.cells := rfl
@[simp] theorem draw_chk (s : State) : (s.draw).chk = s.chk := rfl
@[simp] theorem draw_car (s : State) : (s.draw).car = s.car := rfl
@[simp] theorem draw_gfp (s : State) : (s.draw).gfp = s.gfp := rfl
@[simp] theorem draw_sel (s : State) : (s.draw).sel = s.sel := rfl
@[simp] theorem draw_gaug (s : State) : (s.draw).gaug = s.gaug := rfl
@[simp] theorem draw_uncov (s : State) : (s.draw).uncov = s.uncov := rfl
@[simp] theorem draw_excl (s : State) : (s.draw).excl = s.excl := rfl
@[simp] theorem draw_eng (s : State) : (s.draw).eng = s.eng := rfl
@[simp] theorem draw_scopy (s : State) : (s.draw).scopy = s.scopy := rfl
@[simp] theorem draw_battLate (s : State) : (s.draw).battLate = s.battLate := rfl
@[simp] theorem draw_prox (s : State) : (s.draw).prox = s.prox := rfl
@[simp] theorem draw_proxTag (s : State) : (s.draw).proxTag = s.proxTag := rfl

@[simp] theorem send_regs (s : State) (w : Wire) : (s.send w).regs = s.regs := rfl
@[simp] theorem send_pend (s : State) (w : Wire) : (s.send w).pend = s.pend := rfl
@[simp] theorem send_latch (s : State) (w : Wire) : (s.send w).latch = s.latch := rfl
@[simp] theorem send_copy (s : State) (w : Wire) : (s.send w).copy = s.copy := rfl
@[simp] theorem send_parBad (s : State) (w : Wire) : (s.send w).parBad = s.parBad := rfl
@[simp] theorem send_parSeen (s : State) (w : Wire) : (s.send w).parSeen = s.parSeen := rfl
@[simp] theorem send_safe (s : State) (w : Wire) : (s.send w).safe = s.safe := rfl
@[simp] theorem send_lgBuf (s : State) (w : Wire) : (s.send w).lgBuf = s.lgBuf := rfl
@[simp] theorem send_sclk (s : State) (w : Wire) : (s.send w).sclk = s.sclk := rfl
@[simp] theorem send_snap (s : State) (w : Wire) : (s.send w).snap = s.snap := rfl
@[simp] theorem send_resp (s : State) (w : Wire) : (s.send w).resp = s.resp := rfl
@[simp] theorem send_wire (s : State) (w : Wire) : (s.send w).wire = w :: s.wire := rfl
@[simp] theorem send_free (s : State) (w : Wire) : (s.send w).free = s.free := rfl
@[simp] theorem send_plk (s : State) (w : Wire) : (s.send w).plk = s.plk := rfl
@[simp] theorem send_tb (s : State) (w : Wire) : (s.send w).tb = s.tb := rfl
@[simp] theorem send_pwr (s : State) (w : Wire) : (s.send w).pwr = s.pwr := rfl
@[simp] theorem send_hst (s : State) (w : Wire) : (s.send w).hst = s.hst := rfl
@[simp] theorem send_xingAis (s : State) (w : Wire) : (s.send w).xingAis = s.xingAis := rfl
@[simp] theorem send_fuses (s : State) (w : Wire) : (s.send w).fuses = s.fuses := rfl
@[simp] theorem send_cal (s : State) (w : Wire) : (s.send w).cal = s.cal := rfl
@[simp] theorem send_prf (s : State) (w : Wire) : (s.send w).prf = s.prf := rfl
@[simp] theorem send_tvwFail (s : State) (w : Wire) : (s.send w).tvwFail = s.tvwFail := rfl
@[simp] theorem send_gp (s : State) (w : Wire) : (s.send w).gp = s.gp := rfl
@[simp] theorem send_twn (s : State) (w : Wire) : (s.send w).twn = s.twn := rfl
@[simp] theorem send_pt (s : State) (w : Wire) : (s.send w).pt = s.pt := rfl
@[simp] theorem send_pin (s : State) (w : Wire) : (s.send w).pin = s.pin := rfl
@[simp] theorem send_calTs (s : State) (w : Wire) : (s.send w).calTs = s.calTs := rfl
@[simp] theorem send_ln (s : State) (w : Wire) : (s.send w).ln = s.ln := rfl
@[simp] theorem send_mon (s : State) (w : Wire) : (s.send w).mon = s.mon := rfl
@[simp] theorem send_eye (s : State) (w : Wire) : (s.send w).eye = s.eye := rfl
@[simp] theorem send_seen (s : State) (w : Wire) : (s.send w).seen = s.seen := rfl
@[simp] theorem send_ca (s : State) (w : Wire) : (s.send w).ca = s.ca := rfl
@[simp] theorem send_edge (s : State) (w : Wire) : (s.send w).edge = s.edge := rfl
@[simp] theorem send_ohb (s : State) (w : Wire) : (s.send w).ohb = s.ohb := rfl
@[simp] theorem send_ohbStale (s : State) (w : Wire) : (s.send w).ohbStale = s.ohbStale := rfl
@[simp] theorem send_ohbLine (s : State) (w : Wire) : (s.send w).ohbLine = s.ohbLine := rfl
@[simp] theorem send_tsi (s : State) (w : Wire) : (s.send w).tsi = s.tsi := rfl
@[simp] theorem send_lox (s : State) (w : Wire) : (s.send w).lox = s.lox := rfl
@[simp] theorem send_inj (s : State) (w : Wire) : (s.send w).inj = s.inj := rfl
@[simp] theorem send_forced (s : State) (w : Wire) : (s.send w).forced = s.forced := rfl
@[simp] theorem send_slotIn (s : State) (w : Wire) : (s.send w).slotIn = s.slotIn := rfl
@[simp] theorem send_spe (s : State) (w : Wire) : (s.send w).spe = s.spe := rfl
@[simp] theorem send_odu (s : State) (w : Wire) : (s.send w).odu = s.odu := rfl
@[simp] theorem send_trib (s : State) (w : Wire) : (s.send w).trib = s.trib := rfl
@[simp] theorem send_loOut (s : State) (w : Wire) : (s.send w).loOut = s.loOut := rfl
@[simp] theorem send_eg (s : State) (w : Wire) : (s.send w).eg = s.eg := rfl
@[simp] theorem send_rings (s : State) (w : Wire) : (s.send w).rings = s.rings := rfl
@[simp] theorem send_cells (s : State) (w : Wire) : (s.send w).cells = s.cells := rfl
@[simp] theorem send_chk (s : State) (w : Wire) : (s.send w).chk = s.chk := rfl
@[simp] theorem send_car (s : State) (w : Wire) : (s.send w).car = s.car := rfl
@[simp] theorem send_gfp (s : State) (w : Wire) : (s.send w).gfp = s.gfp := rfl
@[simp] theorem send_sel (s : State) (w : Wire) : (s.send w).sel = s.sel := rfl
@[simp] theorem send_gaug (s : State) (w : Wire) : (s.send w).gaug = s.gaug := rfl
@[simp] theorem send_uncov (s : State) (w : Wire) : (s.send w).uncov = s.uncov := rfl
@[simp] theorem send_excl (s : State) (w : Wire) : (s.send w).excl = s.excl := rfl
@[simp] theorem send_eng (s : State) (w : Wire) : (s.send w).eng = s.eng := rfl
@[simp] theorem send_scopy (s : State) (w : Wire) : (s.send w).scopy = s.scopy := rfl
@[simp] theorem send_battLate (s : State) (w : Wire) : (s.send w).battLate = s.battLate := rfl
@[simp] theorem send_prox (s : State) (w : Wire) : (s.send w).prox = s.prox := rfl
@[simp] theorem send_proxTag (s : State) (w : Wire) : (s.send w).proxTag = s.proxTag := rfl

@[simp] theorem onPlk_regs (s : State) (f : Plk → Plk) : (s.onPlk f).regs = s.regs := rfl
@[simp] theorem onPlk_pend (s : State) (f : Plk → Plk) : (s.onPlk f).pend = s.pend := rfl
@[simp] theorem onPlk_latch (s : State) (f : Plk → Plk) : (s.onPlk f).latch = s.latch := rfl
@[simp] theorem onPlk_copy (s : State) (f : Plk → Plk) : (s.onPlk f).copy = s.copy := rfl
@[simp] theorem onPlk_parBad (s : State) (f : Plk → Plk) : (s.onPlk f).parBad = s.parBad := rfl
@[simp] theorem onPlk_parSeen (s : State) (f : Plk → Plk) : (s.onPlk f).parSeen = s.parSeen := rfl
@[simp] theorem onPlk_safe (s : State) (f : Plk → Plk) : (s.onPlk f).safe = s.safe := rfl
@[simp] theorem onPlk_lgBuf (s : State) (f : Plk → Plk) : (s.onPlk f).lgBuf = s.lgBuf := rfl
@[simp] theorem onPlk_sclk (s : State) (f : Plk → Plk) : (s.onPlk f).sclk = s.sclk := rfl
@[simp] theorem onPlk_snap (s : State) (f : Plk → Plk) : (s.onPlk f).snap = s.snap := rfl
@[simp] theorem onPlk_resp (s : State) (f : Plk → Plk) : (s.onPlk f).resp = s.resp := rfl
@[simp] theorem onPlk_wire (s : State) (f : Plk → Plk) : (s.onPlk f).wire = s.wire := rfl
@[simp] theorem onPlk_free (s : State) (f : Plk → Plk) : (s.onPlk f).free = s.free := rfl
@[simp] theorem onPlk_plk (s : State) (f : Plk → Plk) : (s.onPlk f).plk = f s.plk := rfl
@[simp] theorem onPlk_tb (s : State) (f : Plk → Plk) : (s.onPlk f).tb = s.tb := rfl
@[simp] theorem onPlk_pwr (s : State) (f : Plk → Plk) : (s.onPlk f).pwr = s.pwr := rfl
@[simp] theorem onPlk_hst (s : State) (f : Plk → Plk) : (s.onPlk f).hst = s.hst := rfl
@[simp] theorem onPlk_xingAis (s : State) (f : Plk → Plk) : (s.onPlk f).xingAis = s.xingAis := rfl
@[simp] theorem onPlk_fuses (s : State) (f : Plk → Plk) : (s.onPlk f).fuses = s.fuses := rfl
@[simp] theorem onPlk_cal (s : State) (f : Plk → Plk) : (s.onPlk f).cal = s.cal := rfl
@[simp] theorem onPlk_prf (s : State) (f : Plk → Plk) : (s.onPlk f).prf = s.prf := rfl
@[simp] theorem onPlk_tvwFail (s : State) (f : Plk → Plk) : (s.onPlk f).tvwFail = s.tvwFail := rfl
@[simp] theorem onPlk_gp (s : State) (f : Plk → Plk) : (s.onPlk f).gp = s.gp := rfl
@[simp] theorem onPlk_twn (s : State) (f : Plk → Plk) : (s.onPlk f).twn = s.twn := rfl
@[simp] theorem onPlk_pt (s : State) (f : Plk → Plk) : (s.onPlk f).pt = s.pt := rfl
@[simp] theorem onPlk_pin (s : State) (f : Plk → Plk) : (s.onPlk f).pin = s.pin := rfl
@[simp] theorem onPlk_calTs (s : State) (f : Plk → Plk) : (s.onPlk f).calTs = s.calTs := rfl
@[simp] theorem onPlk_ln (s : State) (f : Plk → Plk) : (s.onPlk f).ln = s.ln := rfl
@[simp] theorem onPlk_mon (s : State) (f : Plk → Plk) : (s.onPlk f).mon = s.mon := rfl
@[simp] theorem onPlk_eye (s : State) (f : Plk → Plk) : (s.onPlk f).eye = s.eye := rfl
@[simp] theorem onPlk_seen (s : State) (f : Plk → Plk) : (s.onPlk f).seen = s.seen := rfl
@[simp] theorem onPlk_ca (s : State) (f : Plk → Plk) : (s.onPlk f).ca = s.ca := rfl
@[simp] theorem onPlk_edge (s : State) (f : Plk → Plk) : (s.onPlk f).edge = s.edge := rfl
@[simp] theorem onPlk_ohb (s : State) (f : Plk → Plk) : (s.onPlk f).ohb = s.ohb := rfl
@[simp] theorem onPlk_ohbStale (s : State) (f : Plk → Plk) : (s.onPlk f).ohbStale = s.ohbStale := rfl
@[simp] theorem onPlk_ohbLine (s : State) (f : Plk → Plk) : (s.onPlk f).ohbLine = s.ohbLine := rfl
@[simp] theorem onPlk_tsi (s : State) (f : Plk → Plk) : (s.onPlk f).tsi = s.tsi := rfl
@[simp] theorem onPlk_lox (s : State) (f : Plk → Plk) : (s.onPlk f).lox = s.lox := rfl
@[simp] theorem onPlk_inj (s : State) (f : Plk → Plk) : (s.onPlk f).inj = s.inj := rfl
@[simp] theorem onPlk_forced (s : State) (f : Plk → Plk) : (s.onPlk f).forced = s.forced := rfl
@[simp] theorem onPlk_slotIn (s : State) (f : Plk → Plk) : (s.onPlk f).slotIn = s.slotIn := rfl
@[simp] theorem onPlk_spe (s : State) (f : Plk → Plk) : (s.onPlk f).spe = s.spe := rfl
@[simp] theorem onPlk_odu (s : State) (f : Plk → Plk) : (s.onPlk f).odu = s.odu := rfl
@[simp] theorem onPlk_trib (s : State) (f : Plk → Plk) : (s.onPlk f).trib = s.trib := rfl
@[simp] theorem onPlk_loOut (s : State) (f : Plk → Plk) : (s.onPlk f).loOut = s.loOut := rfl
@[simp] theorem onPlk_eg (s : State) (f : Plk → Plk) : (s.onPlk f).eg = s.eg := rfl
@[simp] theorem onPlk_rings (s : State) (f : Plk → Plk) : (s.onPlk f).rings = s.rings := rfl
@[simp] theorem onPlk_cells (s : State) (f : Plk → Plk) : (s.onPlk f).cells = s.cells := rfl
@[simp] theorem onPlk_chk (s : State) (f : Plk → Plk) : (s.onPlk f).chk = s.chk := rfl
@[simp] theorem onPlk_car (s : State) (f : Plk → Plk) : (s.onPlk f).car = s.car := rfl
@[simp] theorem onPlk_gfp (s : State) (f : Plk → Plk) : (s.onPlk f).gfp = s.gfp := rfl
@[simp] theorem onPlk_sel (s : State) (f : Plk → Plk) : (s.onPlk f).sel = s.sel := rfl
@[simp] theorem onPlk_gaug (s : State) (f : Plk → Plk) : (s.onPlk f).gaug = s.gaug := rfl
@[simp] theorem onPlk_uncov (s : State) (f : Plk → Plk) : (s.onPlk f).uncov = s.uncov := rfl
@[simp] theorem onPlk_excl (s : State) (f : Plk → Plk) : (s.onPlk f).excl = s.excl := rfl
@[simp] theorem onPlk_eng (s : State) (f : Plk → Plk) : (s.onPlk f).eng = s.eng := rfl
@[simp] theorem onPlk_scopy (s : State) (f : Plk → Plk) : (s.onPlk f).scopy = s.scopy := rfl
@[simp] theorem onPlk_battLate (s : State) (f : Plk → Plk) : (s.onPlk f).battLate = s.battLate := rfl
@[simp] theorem onPlk_prox (s : State) (f : Plk → Plk) : (s.onPlk f).prox = s.prox := rfl
@[simp] theorem onPlk_proxTag (s : State) (f : Plk → Plk) : (s.onPlk f).proxTag = s.proxTag := rfl

@[simp] theorem onTwn_regs (s : State) (f : Twn → Twn) : (s.onTwn f).regs = s.regs := rfl
@[simp] theorem onTwn_pend (s : State) (f : Twn → Twn) : (s.onTwn f).pend = s.pend := rfl
@[simp] theorem onTwn_latch (s : State) (f : Twn → Twn) : (s.onTwn f).latch = s.latch := rfl
@[simp] theorem onTwn_copy (s : State) (f : Twn → Twn) : (s.onTwn f).copy = s.copy := rfl
@[simp] theorem onTwn_parBad (s : State) (f : Twn → Twn) : (s.onTwn f).parBad = s.parBad := rfl
@[simp] theorem onTwn_parSeen (s : State) (f : Twn → Twn) : (s.onTwn f).parSeen = s.parSeen := rfl
@[simp] theorem onTwn_safe (s : State) (f : Twn → Twn) : (s.onTwn f).safe = s.safe := rfl
@[simp] theorem onTwn_lgBuf (s : State) (f : Twn → Twn) : (s.onTwn f).lgBuf = s.lgBuf := rfl
@[simp] theorem onTwn_sclk (s : State) (f : Twn → Twn) : (s.onTwn f).sclk = s.sclk := rfl
@[simp] theorem onTwn_snap (s : State) (f : Twn → Twn) : (s.onTwn f).snap = s.snap := rfl
@[simp] theorem onTwn_resp (s : State) (f : Twn → Twn) : (s.onTwn f).resp = s.resp := rfl
@[simp] theorem onTwn_wire (s : State) (f : Twn → Twn) : (s.onTwn f).wire = s.wire := rfl
@[simp] theorem onTwn_free (s : State) (f : Twn → Twn) : (s.onTwn f).free = s.free := rfl
@[simp] theorem onTwn_plk (s : State) (f : Twn → Twn) : (s.onTwn f).plk = s.plk := rfl
@[simp] theorem onTwn_tb (s : State) (f : Twn → Twn) : (s.onTwn f).tb = s.tb := rfl
@[simp] theorem onTwn_pwr (s : State) (f : Twn → Twn) : (s.onTwn f).pwr = s.pwr := rfl
@[simp] theorem onTwn_hst (s : State) (f : Twn → Twn) : (s.onTwn f).hst = s.hst := rfl
@[simp] theorem onTwn_xingAis (s : State) (f : Twn → Twn) : (s.onTwn f).xingAis = s.xingAis := rfl
@[simp] theorem onTwn_fuses (s : State) (f : Twn → Twn) : (s.onTwn f).fuses = s.fuses := rfl
@[simp] theorem onTwn_cal (s : State) (f : Twn → Twn) : (s.onTwn f).cal = s.cal := rfl
@[simp] theorem onTwn_prf (s : State) (f : Twn → Twn) : (s.onTwn f).prf = s.prf := rfl
@[simp] theorem onTwn_tvwFail (s : State) (f : Twn → Twn) : (s.onTwn f).tvwFail = s.tvwFail := rfl
@[simp] theorem onTwn_gp (s : State) (f : Twn → Twn) : (s.onTwn f).gp = s.gp := rfl
@[simp] theorem onTwn_twn (s : State) (f : Twn → Twn) : (s.onTwn f).twn = f s.twn := rfl
@[simp] theorem onTwn_pt (s : State) (f : Twn → Twn) : (s.onTwn f).pt = s.pt := rfl
@[simp] theorem onTwn_pin (s : State) (f : Twn → Twn) : (s.onTwn f).pin = s.pin := rfl
@[simp] theorem onTwn_calTs (s : State) (f : Twn → Twn) : (s.onTwn f).calTs = s.calTs := rfl
@[simp] theorem onTwn_ln (s : State) (f : Twn → Twn) : (s.onTwn f).ln = s.ln := rfl
@[simp] theorem onTwn_mon (s : State) (f : Twn → Twn) : (s.onTwn f).mon = s.mon := rfl
@[simp] theorem onTwn_eye (s : State) (f : Twn → Twn) : (s.onTwn f).eye = s.eye := rfl
@[simp] theorem onTwn_seen (s : State) (f : Twn → Twn) : (s.onTwn f).seen = s.seen := rfl
@[simp] theorem onTwn_ca (s : State) (f : Twn → Twn) : (s.onTwn f).ca = s.ca := rfl
@[simp] theorem onTwn_edge (s : State) (f : Twn → Twn) : (s.onTwn f).edge = s.edge := rfl
@[simp] theorem onTwn_ohb (s : State) (f : Twn → Twn) : (s.onTwn f).ohb = s.ohb := rfl
@[simp] theorem onTwn_ohbStale (s : State) (f : Twn → Twn) : (s.onTwn f).ohbStale = s.ohbStale := rfl
@[simp] theorem onTwn_ohbLine (s : State) (f : Twn → Twn) : (s.onTwn f).ohbLine = s.ohbLine := rfl
@[simp] theorem onTwn_tsi (s : State) (f : Twn → Twn) : (s.onTwn f).tsi = s.tsi := rfl
@[simp] theorem onTwn_lox (s : State) (f : Twn → Twn) : (s.onTwn f).lox = s.lox := rfl
@[simp] theorem onTwn_inj (s : State) (f : Twn → Twn) : (s.onTwn f).inj = s.inj := rfl
@[simp] theorem onTwn_forced (s : State) (f : Twn → Twn) : (s.onTwn f).forced = s.forced := rfl
@[simp] theorem onTwn_slotIn (s : State) (f : Twn → Twn) : (s.onTwn f).slotIn = s.slotIn := rfl
@[simp] theorem onTwn_spe (s : State) (f : Twn → Twn) : (s.onTwn f).spe = s.spe := rfl
@[simp] theorem onTwn_odu (s : State) (f : Twn → Twn) : (s.onTwn f).odu = s.odu := rfl
@[simp] theorem onTwn_trib (s : State) (f : Twn → Twn) : (s.onTwn f).trib = s.trib := rfl
@[simp] theorem onTwn_loOut (s : State) (f : Twn → Twn) : (s.onTwn f).loOut = s.loOut := rfl
@[simp] theorem onTwn_eg (s : State) (f : Twn → Twn) : (s.onTwn f).eg = s.eg := rfl
@[simp] theorem onTwn_rings (s : State) (f : Twn → Twn) : (s.onTwn f).rings = s.rings := rfl
@[simp] theorem onTwn_cells (s : State) (f : Twn → Twn) : (s.onTwn f).cells = s.cells := rfl
@[simp] theorem onTwn_chk (s : State) (f : Twn → Twn) : (s.onTwn f).chk = s.chk := rfl
@[simp] theorem onTwn_car (s : State) (f : Twn → Twn) : (s.onTwn f).car = s.car := rfl
@[simp] theorem onTwn_gfp (s : State) (f : Twn → Twn) : (s.onTwn f).gfp = s.gfp := rfl
@[simp] theorem onTwn_sel (s : State) (f : Twn → Twn) : (s.onTwn f).sel = s.sel := rfl
@[simp] theorem onTwn_gaug (s : State) (f : Twn → Twn) : (s.onTwn f).gaug = s.gaug := rfl
@[simp] theorem onTwn_uncov (s : State) (f : Twn → Twn) : (s.onTwn f).uncov = s.uncov := rfl
@[simp] theorem onTwn_excl (s : State) (f : Twn → Twn) : (s.onTwn f).excl = s.excl := rfl
@[simp] theorem onTwn_eng (s : State) (f : Twn → Twn) : (s.onTwn f).eng = s.eng := rfl
@[simp] theorem onTwn_scopy (s : State) (f : Twn → Twn) : (s.onTwn f).scopy = s.scopy := rfl
@[simp] theorem onTwn_battLate (s : State) (f : Twn → Twn) : (s.onTwn f).battLate = s.battLate := rfl
@[simp] theorem onTwn_prox (s : State) (f : Twn → Twn) : (s.onTwn f).prox = s.prox := rfl
@[simp] theorem onTwn_proxTag (s : State) (f : Twn → Twn) : (s.onTwn f).proxTag = s.proxTag := rfl

@[simp] theorem onHst_regs (s : State) (f : Hst → Hst) : (s.onHst f).regs = s.regs := rfl
@[simp] theorem onHst_pend (s : State) (f : Hst → Hst) : (s.onHst f).pend = s.pend := rfl
@[simp] theorem onHst_latch (s : State) (f : Hst → Hst) : (s.onHst f).latch = s.latch := rfl
@[simp] theorem onHst_copy (s : State) (f : Hst → Hst) : (s.onHst f).copy = s.copy := rfl
@[simp] theorem onHst_parBad (s : State) (f : Hst → Hst) : (s.onHst f).parBad = s.parBad := rfl
@[simp] theorem onHst_parSeen (s : State) (f : Hst → Hst) : (s.onHst f).parSeen = s.parSeen := rfl
@[simp] theorem onHst_safe (s : State) (f : Hst → Hst) : (s.onHst f).safe = s.safe := rfl
@[simp] theorem onHst_lgBuf (s : State) (f : Hst → Hst) : (s.onHst f).lgBuf = s.lgBuf := rfl
@[simp] theorem onHst_sclk (s : State) (f : Hst → Hst) : (s.onHst f).sclk = s.sclk := rfl
@[simp] theorem onHst_snap (s : State) (f : Hst → Hst) : (s.onHst f).snap = s.snap := rfl
@[simp] theorem onHst_resp (s : State) (f : Hst → Hst) : (s.onHst f).resp = s.resp := rfl
@[simp] theorem onHst_wire (s : State) (f : Hst → Hst) : (s.onHst f).wire = s.wire := rfl
@[simp] theorem onHst_free (s : State) (f : Hst → Hst) : (s.onHst f).free = s.free := rfl
@[simp] theorem onHst_plk (s : State) (f : Hst → Hst) : (s.onHst f).plk = s.plk := rfl
@[simp] theorem onHst_tb (s : State) (f : Hst → Hst) : (s.onHst f).tb = s.tb := rfl
@[simp] theorem onHst_pwr (s : State) (f : Hst → Hst) : (s.onHst f).pwr = s.pwr := rfl
@[simp] theorem onHst_hst (s : State) (f : Hst → Hst) : (s.onHst f).hst = f s.hst := rfl
@[simp] theorem onHst_xingAis (s : State) (f : Hst → Hst) : (s.onHst f).xingAis = s.xingAis := rfl
@[simp] theorem onHst_fuses (s : State) (f : Hst → Hst) : (s.onHst f).fuses = s.fuses := rfl
@[simp] theorem onHst_cal (s : State) (f : Hst → Hst) : (s.onHst f).cal = s.cal := rfl
@[simp] theorem onHst_prf (s : State) (f : Hst → Hst) : (s.onHst f).prf = s.prf := rfl
@[simp] theorem onHst_tvwFail (s : State) (f : Hst → Hst) : (s.onHst f).tvwFail = s.tvwFail := rfl
@[simp] theorem onHst_gp (s : State) (f : Hst → Hst) : (s.onHst f).gp = s.gp := rfl
@[simp] theorem onHst_twn (s : State) (f : Hst → Hst) : (s.onHst f).twn = s.twn := rfl
@[simp] theorem onHst_pt (s : State) (f : Hst → Hst) : (s.onHst f).pt = s.pt := rfl
@[simp] theorem onHst_pin (s : State) (f : Hst → Hst) : (s.onHst f).pin = s.pin := rfl
@[simp] theorem onHst_calTs (s : State) (f : Hst → Hst) : (s.onHst f).calTs = s.calTs := rfl
@[simp] theorem onHst_ln (s : State) (f : Hst → Hst) : (s.onHst f).ln = s.ln := rfl
@[simp] theorem onHst_mon (s : State) (f : Hst → Hst) : (s.onHst f).mon = s.mon := rfl
@[simp] theorem onHst_eye (s : State) (f : Hst → Hst) : (s.onHst f).eye = s.eye := rfl
@[simp] theorem onHst_seen (s : State) (f : Hst → Hst) : (s.onHst f).seen = s.seen := rfl
@[simp] theorem onHst_ca (s : State) (f : Hst → Hst) : (s.onHst f).ca = s.ca := rfl
@[simp] theorem onHst_edge (s : State) (f : Hst → Hst) : (s.onHst f).edge = s.edge := rfl
@[simp] theorem onHst_ohb (s : State) (f : Hst → Hst) : (s.onHst f).ohb = s.ohb := rfl
@[simp] theorem onHst_ohbStale (s : State) (f : Hst → Hst) : (s.onHst f).ohbStale = s.ohbStale := rfl
@[simp] theorem onHst_ohbLine (s : State) (f : Hst → Hst) : (s.onHst f).ohbLine = s.ohbLine := rfl
@[simp] theorem onHst_tsi (s : State) (f : Hst → Hst) : (s.onHst f).tsi = s.tsi := rfl
@[simp] theorem onHst_lox (s : State) (f : Hst → Hst) : (s.onHst f).lox = s.lox := rfl
@[simp] theorem onHst_inj (s : State) (f : Hst → Hst) : (s.onHst f).inj = s.inj := rfl
@[simp] theorem onHst_forced (s : State) (f : Hst → Hst) : (s.onHst f).forced = s.forced := rfl
@[simp] theorem onHst_slotIn (s : State) (f : Hst → Hst) : (s.onHst f).slotIn = s.slotIn := rfl
@[simp] theorem onHst_spe (s : State) (f : Hst → Hst) : (s.onHst f).spe = s.spe := rfl
@[simp] theorem onHst_odu (s : State) (f : Hst → Hst) : (s.onHst f).odu = s.odu := rfl
@[simp] theorem onHst_trib (s : State) (f : Hst → Hst) : (s.onHst f).trib = s.trib := rfl
@[simp] theorem onHst_loOut (s : State) (f : Hst → Hst) : (s.onHst f).loOut = s.loOut := rfl
@[simp] theorem onHst_eg (s : State) (f : Hst → Hst) : (s.onHst f).eg = s.eg := rfl
@[simp] theorem onHst_rings (s : State) (f : Hst → Hst) : (s.onHst f).rings = s.rings := rfl
@[simp] theorem onHst_cells (s : State) (f : Hst → Hst) : (s.onHst f).cells = s.cells := rfl
@[simp] theorem onHst_chk (s : State) (f : Hst → Hst) : (s.onHst f).chk = s.chk := rfl
@[simp] theorem onHst_car (s : State) (f : Hst → Hst) : (s.onHst f).car = s.car := rfl
@[simp] theorem onHst_gfp (s : State) (f : Hst → Hst) : (s.onHst f).gfp = s.gfp := rfl
@[simp] theorem onHst_sel (s : State) (f : Hst → Hst) : (s.onHst f).sel = s.sel := rfl
@[simp] theorem onHst_gaug (s : State) (f : Hst → Hst) : (s.onHst f).gaug = s.gaug := rfl
@[simp] theorem onHst_uncov (s : State) (f : Hst → Hst) : (s.onHst f).uncov = s.uncov := rfl
@[simp] theorem onHst_excl (s : State) (f : Hst → Hst) : (s.onHst f).excl = s.excl := rfl
@[simp] theorem onHst_eng (s : State) (f : Hst → Hst) : (s.onHst f).eng = s.eng := rfl
@[simp] theorem onHst_scopy (s : State) (f : Hst → Hst) : (s.onHst f).scopy = s.scopy := rfl
@[simp] theorem onHst_battLate (s : State) (f : Hst → Hst) : (s.onHst f).battLate = s.battLate := rfl
@[simp] theorem onHst_prox (s : State) (f : Hst → Hst) : (s.onHst f).prox = s.prox := rfl
@[simp] theorem onHst_proxTag (s : State) (f : Hst → Hst) : (s.onHst f).proxTag = s.proxTag := rfl

@[simp] theorem onCal_regs (s : State) (f : CalSt → CalSt) : (s.onCal f).regs = s.regs := rfl
@[simp] theorem onCal_pend (s : State) (f : CalSt → CalSt) : (s.onCal f).pend = s.pend := rfl
@[simp] theorem onCal_latch (s : State) (f : CalSt → CalSt) : (s.onCal f).latch = s.latch := rfl
@[simp] theorem onCal_copy (s : State) (f : CalSt → CalSt) : (s.onCal f).copy = s.copy := rfl
@[simp] theorem onCal_parBad (s : State) (f : CalSt → CalSt) : (s.onCal f).parBad = s.parBad := rfl
@[simp] theorem onCal_parSeen (s : State) (f : CalSt → CalSt) : (s.onCal f).parSeen = s.parSeen := rfl
@[simp] theorem onCal_safe (s : State) (f : CalSt → CalSt) : (s.onCal f).safe = s.safe := rfl
@[simp] theorem onCal_lgBuf (s : State) (f : CalSt → CalSt) : (s.onCal f).lgBuf = s.lgBuf := rfl
@[simp] theorem onCal_sclk (s : State) (f : CalSt → CalSt) : (s.onCal f).sclk = s.sclk := rfl
@[simp] theorem onCal_snap (s : State) (f : CalSt → CalSt) : (s.onCal f).snap = s.snap := rfl
@[simp] theorem onCal_resp (s : State) (f : CalSt → CalSt) : (s.onCal f).resp = s.resp := rfl
@[simp] theorem onCal_wire (s : State) (f : CalSt → CalSt) : (s.onCal f).wire = s.wire := rfl
@[simp] theorem onCal_free (s : State) (f : CalSt → CalSt) : (s.onCal f).free = s.free := rfl
@[simp] theorem onCal_plk (s : State) (f : CalSt → CalSt) : (s.onCal f).plk = s.plk := rfl
@[simp] theorem onCal_tb (s : State) (f : CalSt → CalSt) : (s.onCal f).tb = s.tb := rfl
@[simp] theorem onCal_pwr (s : State) (f : CalSt → CalSt) : (s.onCal f).pwr = s.pwr := rfl
@[simp] theorem onCal_hst (s : State) (f : CalSt → CalSt) : (s.onCal f).hst = s.hst := rfl
@[simp] theorem onCal_xingAis (s : State) (f : CalSt → CalSt) : (s.onCal f).xingAis = s.xingAis := rfl
@[simp] theorem onCal_fuses (s : State) (f : CalSt → CalSt) : (s.onCal f).fuses = s.fuses := rfl
@[simp] theorem onCal_cal (s : State) (f : CalSt → CalSt) : (s.onCal f).cal = f s.cal := rfl
@[simp] theorem onCal_prf (s : State) (f : CalSt → CalSt) : (s.onCal f).prf = s.prf := rfl
@[simp] theorem onCal_tvwFail (s : State) (f : CalSt → CalSt) : (s.onCal f).tvwFail = s.tvwFail := rfl
@[simp] theorem onCal_gp (s : State) (f : CalSt → CalSt) : (s.onCal f).gp = s.gp := rfl
@[simp] theorem onCal_twn (s : State) (f : CalSt → CalSt) : (s.onCal f).twn = s.twn := rfl
@[simp] theorem onCal_pt (s : State) (f : CalSt → CalSt) : (s.onCal f).pt = s.pt := rfl
@[simp] theorem onCal_pin (s : State) (f : CalSt → CalSt) : (s.onCal f).pin = s.pin := rfl
@[simp] theorem onCal_calTs (s : State) (f : CalSt → CalSt) : (s.onCal f).calTs = s.calTs := rfl
@[simp] theorem onCal_ln (s : State) (f : CalSt → CalSt) : (s.onCal f).ln = s.ln := rfl
@[simp] theorem onCal_mon (s : State) (f : CalSt → CalSt) : (s.onCal f).mon = s.mon := rfl
@[simp] theorem onCal_eye (s : State) (f : CalSt → CalSt) : (s.onCal f).eye = s.eye := rfl
@[simp] theorem onCal_seen (s : State) (f : CalSt → CalSt) : (s.onCal f).seen = s.seen := rfl
@[simp] theorem onCal_ca (s : State) (f : CalSt → CalSt) : (s.onCal f).ca = s.ca := rfl
@[simp] theorem onCal_edge (s : State) (f : CalSt → CalSt) : (s.onCal f).edge = s.edge := rfl
@[simp] theorem onCal_ohb (s : State) (f : CalSt → CalSt) : (s.onCal f).ohb = s.ohb := rfl
@[simp] theorem onCal_ohbStale (s : State) (f : CalSt → CalSt) : (s.onCal f).ohbStale = s.ohbStale := rfl
@[simp] theorem onCal_ohbLine (s : State) (f : CalSt → CalSt) : (s.onCal f).ohbLine = s.ohbLine := rfl
@[simp] theorem onCal_tsi (s : State) (f : CalSt → CalSt) : (s.onCal f).tsi = s.tsi := rfl
@[simp] theorem onCal_lox (s : State) (f : CalSt → CalSt) : (s.onCal f).lox = s.lox := rfl
@[simp] theorem onCal_inj (s : State) (f : CalSt → CalSt) : (s.onCal f).inj = s.inj := rfl
@[simp] theorem onCal_forced (s : State) (f : CalSt → CalSt) : (s.onCal f).forced = s.forced := rfl
@[simp] theorem onCal_slotIn (s : State) (f : CalSt → CalSt) : (s.onCal f).slotIn = s.slotIn := rfl
@[simp] theorem onCal_spe (s : State) (f : CalSt → CalSt) : (s.onCal f).spe = s.spe := rfl
@[simp] theorem onCal_odu (s : State) (f : CalSt → CalSt) : (s.onCal f).odu = s.odu := rfl
@[simp] theorem onCal_trib (s : State) (f : CalSt → CalSt) : (s.onCal f).trib = s.trib := rfl
@[simp] theorem onCal_loOut (s : State) (f : CalSt → CalSt) : (s.onCal f).loOut = s.loOut := rfl
@[simp] theorem onCal_eg (s : State) (f : CalSt → CalSt) : (s.onCal f).eg = s.eg := rfl
@[simp] theorem onCal_rings (s : State) (f : CalSt → CalSt) : (s.onCal f).rings = s.rings := rfl
@[simp] theorem onCal_cells (s : State) (f : CalSt → CalSt) : (s.onCal f).cells = s.cells := rfl
@[simp] theorem onCal_chk (s : State) (f : CalSt → CalSt) : (s.onCal f).chk = s.chk := rfl
@[simp] theorem onCal_car (s : State) (f : CalSt → CalSt) : (s.onCal f).car = s.car := rfl
@[simp] theorem onCal_gfp (s : State) (f : CalSt → CalSt) : (s.onCal f).gfp = s.gfp := rfl
@[simp] theorem onCal_sel (s : State) (f : CalSt → CalSt) : (s.onCal f).sel = s.sel := rfl
@[simp] theorem onCal_gaug (s : State) (f : CalSt → CalSt) : (s.onCal f).gaug = s.gaug := rfl
@[simp] theorem onCal_uncov (s : State) (f : CalSt → CalSt) : (s.onCal f).uncov = s.uncov := rfl
@[simp] theorem onCal_excl (s : State) (f : CalSt → CalSt) : (s.onCal f).excl = s.excl := rfl
@[simp] theorem onCal_eng (s : State) (f : CalSt → CalSt) : (s.onCal f).eng = s.eng := rfl
@[simp] theorem onCal_scopy (s : State) (f : CalSt → CalSt) : (s.onCal f).scopy = s.scopy := rfl
@[simp] theorem onCal_battLate (s : State) (f : CalSt → CalSt) : (s.onCal f).battLate = s.battLate := rfl
@[simp] theorem onCal_prox (s : State) (f : CalSt → CalSt) : (s.onCal f).prox = s.prox := rfl
@[simp] theorem onCal_proxTag (s : State) (f : CalSt → CalSt) : (s.onCal f).proxTag = s.proxTag := rfl

@[simp] theorem onPrf_regs (s : State) (f : Prf → Prf) : (s.onPrf f).regs = s.regs := rfl
@[simp] theorem onPrf_pend (s : State) (f : Prf → Prf) : (s.onPrf f).pend = s.pend := rfl
@[simp] theorem onPrf_latch (s : State) (f : Prf → Prf) : (s.onPrf f).latch = s.latch := rfl
@[simp] theorem onPrf_copy (s : State) (f : Prf → Prf) : (s.onPrf f).copy = s.copy := rfl
@[simp] theorem onPrf_parBad (s : State) (f : Prf → Prf) : (s.onPrf f).parBad = s.parBad := rfl
@[simp] theorem onPrf_parSeen (s : State) (f : Prf → Prf) : (s.onPrf f).parSeen = s.parSeen := rfl
@[simp] theorem onPrf_safe (s : State) (f : Prf → Prf) : (s.onPrf f).safe = s.safe := rfl
@[simp] theorem onPrf_lgBuf (s : State) (f : Prf → Prf) : (s.onPrf f).lgBuf = s.lgBuf := rfl
@[simp] theorem onPrf_sclk (s : State) (f : Prf → Prf) : (s.onPrf f).sclk = s.sclk := rfl
@[simp] theorem onPrf_snap (s : State) (f : Prf → Prf) : (s.onPrf f).snap = s.snap := rfl
@[simp] theorem onPrf_resp (s : State) (f : Prf → Prf) : (s.onPrf f).resp = s.resp := rfl
@[simp] theorem onPrf_wire (s : State) (f : Prf → Prf) : (s.onPrf f).wire = s.wire := rfl
@[simp] theorem onPrf_free (s : State) (f : Prf → Prf) : (s.onPrf f).free = s.free := rfl
@[simp] theorem onPrf_plk (s : State) (f : Prf → Prf) : (s.onPrf f).plk = s.plk := rfl
@[simp] theorem onPrf_tb (s : State) (f : Prf → Prf) : (s.onPrf f).tb = s.tb := rfl
@[simp] theorem onPrf_pwr (s : State) (f : Prf → Prf) : (s.onPrf f).pwr = s.pwr := rfl
@[simp] theorem onPrf_hst (s : State) (f : Prf → Prf) : (s.onPrf f).hst = s.hst := rfl
@[simp] theorem onPrf_xingAis (s : State) (f : Prf → Prf) : (s.onPrf f).xingAis = s.xingAis := rfl
@[simp] theorem onPrf_fuses (s : State) (f : Prf → Prf) : (s.onPrf f).fuses = s.fuses := rfl
@[simp] theorem onPrf_cal (s : State) (f : Prf → Prf) : (s.onPrf f).cal = s.cal := rfl
@[simp] theorem onPrf_prf (s : State) (f : Prf → Prf) : (s.onPrf f).prf = f s.prf := rfl
@[simp] theorem onPrf_tvwFail (s : State) (f : Prf → Prf) : (s.onPrf f).tvwFail = s.tvwFail := rfl
@[simp] theorem onPrf_gp (s : State) (f : Prf → Prf) : (s.onPrf f).gp = s.gp := rfl
@[simp] theorem onPrf_twn (s : State) (f : Prf → Prf) : (s.onPrf f).twn = s.twn := rfl
@[simp] theorem onPrf_pt (s : State) (f : Prf → Prf) : (s.onPrf f).pt = s.pt := rfl
@[simp] theorem onPrf_pin (s : State) (f : Prf → Prf) : (s.onPrf f).pin = s.pin := rfl
@[simp] theorem onPrf_calTs (s : State) (f : Prf → Prf) : (s.onPrf f).calTs = s.calTs := rfl
@[simp] theorem onPrf_ln (s : State) (f : Prf → Prf) : (s.onPrf f).ln = s.ln := rfl
@[simp] theorem onPrf_mon (s : State) (f : Prf → Prf) : (s.onPrf f).mon = s.mon := rfl
@[simp] theorem onPrf_eye (s : State) (f : Prf → Prf) : (s.onPrf f).eye = s.eye := rfl
@[simp] theorem onPrf_seen (s : State) (f : Prf → Prf) : (s.onPrf f).seen = s.seen := rfl
@[simp] theorem onPrf_ca (s : State) (f : Prf → Prf) : (s.onPrf f).ca = s.ca := rfl
@[simp] theorem onPrf_edge (s : State) (f : Prf → Prf) : (s.onPrf f).edge = s.edge := rfl
@[simp] theorem onPrf_ohb (s : State) (f : Prf → Prf) : (s.onPrf f).ohb = s.ohb := rfl
@[simp] theorem onPrf_ohbStale (s : State) (f : Prf → Prf) : (s.onPrf f).ohbStale = s.ohbStale := rfl
@[simp] theorem onPrf_ohbLine (s : State) (f : Prf → Prf) : (s.onPrf f).ohbLine = s.ohbLine := rfl
@[simp] theorem onPrf_tsi (s : State) (f : Prf → Prf) : (s.onPrf f).tsi = s.tsi := rfl
@[simp] theorem onPrf_lox (s : State) (f : Prf → Prf) : (s.onPrf f).lox = s.lox := rfl
@[simp] theorem onPrf_inj (s : State) (f : Prf → Prf) : (s.onPrf f).inj = s.inj := rfl
@[simp] theorem onPrf_forced (s : State) (f : Prf → Prf) : (s.onPrf f).forced = s.forced := rfl
@[simp] theorem onPrf_slotIn (s : State) (f : Prf → Prf) : (s.onPrf f).slotIn = s.slotIn := rfl
@[simp] theorem onPrf_spe (s : State) (f : Prf → Prf) : (s.onPrf f).spe = s.spe := rfl
@[simp] theorem onPrf_odu (s : State) (f : Prf → Prf) : (s.onPrf f).odu = s.odu := rfl
@[simp] theorem onPrf_trib (s : State) (f : Prf → Prf) : (s.onPrf f).trib = s.trib := rfl
@[simp] theorem onPrf_loOut (s : State) (f : Prf → Prf) : (s.onPrf f).loOut = s.loOut := rfl
@[simp] theorem onPrf_eg (s : State) (f : Prf → Prf) : (s.onPrf f).eg = s.eg := rfl
@[simp] theorem onPrf_rings (s : State) (f : Prf → Prf) : (s.onPrf f).rings = s.rings := rfl
@[simp] theorem onPrf_cells (s : State) (f : Prf → Prf) : (s.onPrf f).cells = s.cells := rfl
@[simp] theorem onPrf_chk (s : State) (f : Prf → Prf) : (s.onPrf f).chk = s.chk := rfl
@[simp] theorem onPrf_car (s : State) (f : Prf → Prf) : (s.onPrf f).car = s.car := rfl
@[simp] theorem onPrf_gfp (s : State) (f : Prf → Prf) : (s.onPrf f).gfp = s.gfp := rfl
@[simp] theorem onPrf_sel (s : State) (f : Prf → Prf) : (s.onPrf f).sel = s.sel := rfl
@[simp] theorem onPrf_gaug (s : State) (f : Prf → Prf) : (s.onPrf f).gaug = s.gaug := rfl
@[simp] theorem onPrf_uncov (s : State) (f : Prf → Prf) : (s.onPrf f).uncov = s.uncov := rfl
@[simp] theorem onPrf_excl (s : State) (f : Prf → Prf) : (s.onPrf f).excl = s.excl := rfl
@[simp] theorem onPrf_eng (s : State) (f : Prf → Prf) : (s.onPrf f).eng = s.eng := rfl
@[simp] theorem onPrf_scopy (s : State) (f : Prf → Prf) : (s.onPrf f).scopy = s.scopy := rfl
@[simp] theorem onPrf_battLate (s : State) (f : Prf → Prf) : (s.onPrf f).battLate = s.battLate := rfl
@[simp] theorem onPrf_prox (s : State) (f : Prf → Prf) : (s.onPrf f).prox = s.prox := rfl
@[simp] theorem onPrf_proxTag (s : State) (f : Prf → Prf) : (s.onPrf f).proxTag = s.proxTag := rfl

@[simp] theorem setLane_regs (s : State) (c : Nat) (l : LaneSt) : (s.setLane c l).regs = s.regs := rfl
@[simp] theorem setLane_pend (s : State) (c : Nat) (l : LaneSt) : (s.setLane c l).pend = s.pend := rfl
@[simp] theorem setLane_latch (s : State) (c : Nat) (l : LaneSt) : (s.setLane c l).latch = s.latch := rfl
@[simp] theorem setLane_copy (s : State) (c : Nat) (l : LaneSt) : (s.setLane c l).copy = s.copy := rfl
@[simp] theorem setLane_parBad (s : State) (c : Nat) (l : LaneSt) : (s.setLane c l).parBad = s.parBad := rfl
@[simp] theorem setLane_parSeen (s : State) (c : Nat) (l : LaneSt) : (s.setLane c l).parSeen = s.parSeen := rfl
@[simp] theorem setLane_safe (s : State) (c : Nat) (l : LaneSt) : (s.setLane c l).safe = s.safe := rfl
@[simp] theorem setLane_lgBuf (s : State) (c : Nat) (l : LaneSt) : (s.setLane c l).lgBuf = s.lgBuf := rfl
@[simp] theorem setLane_sclk (s : State) (c : Nat) (l : LaneSt) : (s.setLane c l).sclk = s.sclk := rfl
@[simp] theorem setLane_snap (s : State) (c : Nat) (l : LaneSt) : (s.setLane c l).snap = s.snap := rfl
@[simp] theorem setLane_resp (s : State) (c : Nat) (l : LaneSt) : (s.setLane c l).resp = s.resp := rfl
@[simp] theorem setLane_wire (s : State) (c : Nat) (l : LaneSt) : (s.setLane c l).wire = s.wire := rfl
@[simp] theorem setLane_free (s : State) (c : Nat) (l : LaneSt) : (s.setLane c l).free = s.free := rfl
@[simp] theorem setLane_plk (s : State) (c : Nat) (l : LaneSt) : (s.setLane c l).plk = s.plk := rfl
@[simp] theorem setLane_tb (s : State) (c : Nat) (l : LaneSt) : (s.setLane c l).tb = s.tb := rfl
@[simp] theorem setLane_pwr (s : State) (c : Nat) (l : LaneSt) : (s.setLane c l).pwr = s.pwr := rfl
@[simp] theorem setLane_hst (s : State) (c : Nat) (l : LaneSt) : (s.setLane c l).hst = s.hst := rfl
@[simp] theorem setLane_xingAis (s : State) (c : Nat) (l : LaneSt) : (s.setLane c l).xingAis = s.xingAis := rfl
@[simp] theorem setLane_fuses (s : State) (c : Nat) (l : LaneSt) : (s.setLane c l).fuses = s.fuses := rfl
@[simp] theorem setLane_cal (s : State) (c : Nat) (l : LaneSt) : (s.setLane c l).cal = s.cal := rfl
@[simp] theorem setLane_prf (s : State) (c : Nat) (l : LaneSt) : (s.setLane c l).prf = s.prf := rfl
@[simp] theorem setLane_tvwFail (s : State) (c : Nat) (l : LaneSt) : (s.setLane c l).tvwFail = s.tvwFail := rfl
@[simp] theorem setLane_gp (s : State) (c : Nat) (l : LaneSt) : (s.setLane c l).gp = s.gp := rfl
@[simp] theorem setLane_twn (s : State) (c : Nat) (l : LaneSt) : (s.setLane c l).twn = s.twn := rfl
@[simp] theorem setLane_pt (s : State) (c : Nat) (l : LaneSt) : (s.setLane c l).pt = s.pt := rfl
@[simp] theorem setLane_pin (s : State) (c : Nat) (l : LaneSt) : (s.setLane c l).pin = s.pin := rfl
@[simp] theorem setLane_calTs (s : State) (c : Nat) (l : LaneSt) : (s.setLane c l).calTs = s.calTs := rfl
@[simp] theorem setLane_ln (s : State) (c : Nat) (l : LaneSt) : (s.setLane c l).ln = tset (fun _ => laneReset) s.ln c l := rfl
@[simp] theorem setLane_mon (s : State) (c : Nat) (l : LaneSt) : (s.setLane c l).mon = s.mon := rfl
@[simp] theorem setLane_eye (s : State) (c : Nat) (l : LaneSt) : (s.setLane c l).eye = s.eye := rfl
@[simp] theorem setLane_seen (s : State) (c : Nat) (l : LaneSt) : (s.setLane c l).seen = s.seen := rfl
@[simp] theorem setLane_ca (s : State) (c : Nat) (l : LaneSt) : (s.setLane c l).ca = s.ca := rfl
@[simp] theorem setLane_edge (s : State) (c : Nat) (l : LaneSt) : (s.setLane c l).edge = s.edge := rfl
@[simp] theorem setLane_ohb (s : State) (c : Nat) (l : LaneSt) : (s.setLane c l).ohb = s.ohb := rfl
@[simp] theorem setLane_ohbStale (s : State) (c : Nat) (l : LaneSt) : (s.setLane c l).ohbStale = s.ohbStale := rfl
@[simp] theorem setLane_ohbLine (s : State) (c : Nat) (l : LaneSt) : (s.setLane c l).ohbLine = s.ohbLine := rfl
@[simp] theorem setLane_tsi (s : State) (c : Nat) (l : LaneSt) : (s.setLane c l).tsi = s.tsi := rfl
@[simp] theorem setLane_lox (s : State) (c : Nat) (l : LaneSt) : (s.setLane c l).lox = s.lox := rfl
@[simp] theorem setLane_inj (s : State) (c : Nat) (l : LaneSt) : (s.setLane c l).inj = s.inj := rfl
@[simp] theorem setLane_forced (s : State) (c : Nat) (l : LaneSt) : (s.setLane c l).forced = s.forced := rfl
@[simp] theorem setLane_slotIn (s : State) (c : Nat) (l : LaneSt) : (s.setLane c l).slotIn = s.slotIn := rfl
@[simp] theorem setLane_spe (s : State) (c : Nat) (l : LaneSt) : (s.setLane c l).spe = s.spe := rfl
@[simp] theorem setLane_odu (s : State) (c : Nat) (l : LaneSt) : (s.setLane c l).odu = s.odu := rfl
@[simp] theorem setLane_trib (s : State) (c : Nat) (l : LaneSt) : (s.setLane c l).trib = s.trib := rfl
@[simp] theorem setLane_loOut (s : State) (c : Nat) (l : LaneSt) : (s.setLane c l).loOut = s.loOut := rfl
@[simp] theorem setLane_eg (s : State) (c : Nat) (l : LaneSt) : (s.setLane c l).eg = s.eg := rfl
@[simp] theorem setLane_rings (s : State) (c : Nat) (l : LaneSt) : (s.setLane c l).rings = s.rings := rfl
@[simp] theorem setLane_cells (s : State) (c : Nat) (l : LaneSt) : (s.setLane c l).cells = s.cells := rfl
@[simp] theorem setLane_chk (s : State) (c : Nat) (l : LaneSt) : (s.setLane c l).chk = s.chk := rfl
@[simp] theorem setLane_car (s : State) (c : Nat) (l : LaneSt) : (s.setLane c l).car = s.car := rfl
@[simp] theorem setLane_gfp (s : State) (c : Nat) (l : LaneSt) : (s.setLane c l).gfp = s.gfp := rfl
@[simp] theorem setLane_sel (s : State) (c : Nat) (l : LaneSt) : (s.setLane c l).sel = s.sel := rfl
@[simp] theorem setLane_gaug (s : State) (c : Nat) (l : LaneSt) : (s.setLane c l).gaug = s.gaug := rfl
@[simp] theorem setLane_uncov (s : State) (c : Nat) (l : LaneSt) : (s.setLane c l).uncov = s.uncov := rfl
@[simp] theorem setLane_excl (s : State) (c : Nat) (l : LaneSt) : (s.setLane c l).excl = s.excl := rfl
@[simp] theorem setLane_eng (s : State) (c : Nat) (l : LaneSt) : (s.setLane c l).eng = s.eng := rfl
@[simp] theorem setLane_scopy (s : State) (c : Nat) (l : LaneSt) : (s.setLane c l).scopy = s.scopy := rfl
@[simp] theorem setLane_battLate (s : State) (c : Nat) (l : LaneSt) : (s.setLane c l).battLate = s.battLate := rfl
@[simp] theorem setLane_prox (s : State) (c : Nat) (l : LaneSt) : (s.setLane c l).prox = s.prox := rfl
@[simp] theorem setLane_proxTag (s : State) (c : Nat) (l : LaneSt) : (s.setLane c l).proxTag = s.proxTag := rfl

@[simp] theorem setMn_regs (s : State) (k : Nat) (x : Mon) : (s.setMn k x).regs = s.regs := rfl
@[simp] theorem setMn_pend (s : State) (k : Nat) (x : Mon) : (s.setMn k x).pend = s.pend := rfl
@[simp] theorem setMn_latch (s : State) (k : Nat) (x : Mon) : (s.setMn k x).latch = s.latch := rfl
@[simp] theorem setMn_copy (s : State) (k : Nat) (x : Mon) : (s.setMn k x).copy = s.copy := rfl
@[simp] theorem setMn_parBad (s : State) (k : Nat) (x : Mon) : (s.setMn k x).parBad = s.parBad := rfl
@[simp] theorem setMn_parSeen (s : State) (k : Nat) (x : Mon) : (s.setMn k x).parSeen = s.parSeen := rfl
@[simp] theorem setMn_safe (s : State) (k : Nat) (x : Mon) : (s.setMn k x).safe = s.safe := rfl
@[simp] theorem setMn_lgBuf (s : State) (k : Nat) (x : Mon) : (s.setMn k x).lgBuf = s.lgBuf := rfl
@[simp] theorem setMn_sclk (s : State) (k : Nat) (x : Mon) : (s.setMn k x).sclk = s.sclk := rfl
@[simp] theorem setMn_snap (s : State) (k : Nat) (x : Mon) : (s.setMn k x).snap = s.snap := rfl
@[simp] theorem setMn_resp (s : State) (k : Nat) (x : Mon) : (s.setMn k x).resp = s.resp := rfl
@[simp] theorem setMn_wire (s : State) (k : Nat) (x : Mon) : (s.setMn k x).wire = s.wire := rfl
@[simp] theorem setMn_free (s : State) (k : Nat) (x : Mon) : (s.setMn k x).free = s.free := rfl
@[simp] theorem setMn_plk (s : State) (k : Nat) (x : Mon) : (s.setMn k x).plk = s.plk := rfl
@[simp] theorem setMn_tb (s : State) (k : Nat) (x : Mon) : (s.setMn k x).tb = s.tb := rfl
@[simp] theorem setMn_pwr (s : State) (k : Nat) (x : Mon) : (s.setMn k x).pwr = s.pwr := rfl
@[simp] theorem setMn_hst (s : State) (k : Nat) (x : Mon) : (s.setMn k x).hst = s.hst := rfl
@[simp] theorem setMn_xingAis (s : State) (k : Nat) (x : Mon) : (s.setMn k x).xingAis = s.xingAis := rfl
@[simp] theorem setMn_fuses (s : State) (k : Nat) (x : Mon) : (s.setMn k x).fuses = s.fuses := rfl
@[simp] theorem setMn_cal (s : State) (k : Nat) (x : Mon) : (s.setMn k x).cal = s.cal := rfl
@[simp] theorem setMn_prf (s : State) (k : Nat) (x : Mon) : (s.setMn k x).prf = s.prf := rfl
@[simp] theorem setMn_tvwFail (s : State) (k : Nat) (x : Mon) : (s.setMn k x).tvwFail = s.tvwFail := rfl
@[simp] theorem setMn_gp (s : State) (k : Nat) (x : Mon) : (s.setMn k x).gp = s.gp := rfl
@[simp] theorem setMn_twn (s : State) (k : Nat) (x : Mon) : (s.setMn k x).twn = s.twn := rfl
@[simp] theorem setMn_pt (s : State) (k : Nat) (x : Mon) : (s.setMn k x).pt = s.pt := rfl
@[simp] theorem setMn_pin (s : State) (k : Nat) (x : Mon) : (s.setMn k x).pin = s.pin := rfl
@[simp] theorem setMn_calTs (s : State) (k : Nat) (x : Mon) : (s.setMn k x).calTs = s.calTs := rfl
@[simp] theorem setMn_ln (s : State) (k : Nat) (x : Mon) : (s.setMn k x).ln = s.ln := rfl
@[simp] theorem setMn_mon (s : State) (k : Nat) (x : Mon) : (s.setMn k x).mon = tset (fun _ => monReset) s.mon k x := rfl
@[simp] theorem setMn_eye (s : State) (k : Nat) (x : Mon) : (s.setMn k x).eye = s.eye := rfl
@[simp] theorem setMn_seen (s : State) (k : Nat) (x : Mon) : (s.setMn k x).seen = s.seen := rfl
@[simp] theorem setMn_ca (s : State) (k : Nat) (x : Mon) : (s.setMn k x).ca = s.ca := rfl
@[simp] theorem setMn_edge (s : State) (k : Nat) (x : Mon) : (s.setMn k x).edge = s.edge := rfl
@[simp] theorem setMn_ohb (s : State) (k : Nat) (x : Mon) : (s.setMn k x).ohb = s.ohb := rfl
@[simp] theorem setMn_ohbStale (s : State) (k : Nat) (x : Mon) : (s.setMn k x).ohbStale = s.ohbStale := rfl
@[simp] theorem setMn_ohbLine (s : State) (k : Nat) (x : Mon) : (s.setMn k x).ohbLine = s.ohbLine := rfl
@[simp] theorem setMn_tsi (s : State) (k : Nat) (x : Mon) : (s.setMn k x).tsi = s.tsi := rfl
@[simp] theorem setMn_lox (s : State) (k : Nat) (x : Mon) : (s.setMn k x).lox = s.lox := rfl
@[simp] theorem setMn_inj (s : State) (k : Nat) (x : Mon) : (s.setMn k x).inj = s.inj := rfl
@[simp] theorem setMn_forced (s : State) (k : Nat) (x : Mon) : (s.setMn k x).forced = s.forced := rfl
@[simp] theorem setMn_slotIn (s : State) (k : Nat) (x : Mon) : (s.setMn k x).slotIn = s.slotIn := rfl
@[simp] theorem setMn_spe (s : State) (k : Nat) (x : Mon) : (s.setMn k x).spe = s.spe := rfl
@[simp] theorem setMn_odu (s : State) (k : Nat) (x : Mon) : (s.setMn k x).odu = s.odu := rfl
@[simp] theorem setMn_trib (s : State) (k : Nat) (x : Mon) : (s.setMn k x).trib = s.trib := rfl
@[simp] theorem setMn_loOut (s : State) (k : Nat) (x : Mon) : (s.setMn k x).loOut = s.loOut := rfl
@[simp] theorem setMn_eg (s : State) (k : Nat) (x : Mon) : (s.setMn k x).eg = s.eg := rfl
@[simp] theorem setMn_rings (s : State) (k : Nat) (x : Mon) : (s.setMn k x).rings = s.rings := rfl
@[simp] theorem setMn_cells (s : State) (k : Nat) (x : Mon) : (s.setMn k x).cells = s.cells := rfl
@[simp] theorem setMn_chk (s : State) (k : Nat) (x : Mon) : (s.setMn k x).chk = s.chk := rfl
@[simp] theorem setMn_car (s : State) (k : Nat) (x : Mon) : (s.setMn k x).car = s.car := rfl
@[simp] theorem setMn_gfp (s : State) (k : Nat) (x : Mon) : (s.setMn k x).gfp = s.gfp := rfl
@[simp] theorem setMn_sel (s : State) (k : Nat) (x : Mon) : (s.setMn k x).sel = s.sel := rfl
@[simp] theorem setMn_gaug (s : State) (k : Nat) (x : Mon) : (s.setMn k x).gaug = s.gaug := rfl
@[simp] theorem setMn_uncov (s : State) (k : Nat) (x : Mon) : (s.setMn k x).uncov = s.uncov := rfl
@[simp] theorem setMn_excl (s : State) (k : Nat) (x : Mon) : (s.setMn k x).excl = s.excl := rfl
@[simp] theorem setMn_eng (s : State) (k : Nat) (x : Mon) : (s.setMn k x).eng = s.eng := rfl
@[simp] theorem setMn_scopy (s : State) (k : Nat) (x : Mon) : (s.setMn k x).scopy = s.scopy := rfl
@[simp] theorem setMn_battLate (s : State) (k : Nat) (x : Mon) : (s.setMn k x).battLate = s.battLate := rfl
@[simp] theorem setMn_prox (s : State) (k : Nat) (x : Mon) : (s.setMn k x).prox = s.prox := rfl
@[simp] theorem setMn_proxTag (s : State) (k : Nat) (x : Mon) : (s.setMn k x).proxTag = s.proxTag := rfl

@[simp] theorem setEng_regs (s : State) (e : Nat) (x : Eng) : (s.setEng e x).regs = s.regs := rfl
@[simp] theorem setEng_pend (s : State) (e : Nat) (x : Eng) : (s.setEng e x).pend = s.pend := rfl
@[simp] theorem setEng_latch (s : State) (e : Nat) (x : Eng) : (s.setEng e x).latch = s.latch := rfl
@[simp] theorem setEng_copy (s : State) (e : Nat) (x : Eng) : (s.setEng e x).copy = s.copy := rfl
@[simp] theorem setEng_parBad (s : State) (e : Nat) (x : Eng) : (s.setEng e x).parBad = s.parBad := rfl
@[simp] theorem setEng_parSeen (s : State) (e : Nat) (x : Eng) : (s.setEng e x).parSeen = s.parSeen := rfl
@[simp] theorem setEng_safe (s : State) (e : Nat) (x : Eng) : (s.setEng e x).safe = s.safe := rfl
@[simp] theorem setEng_lgBuf (s : State) (e : Nat) (x : Eng) : (s.setEng e x).lgBuf = s.lgBuf := rfl
@[simp] theorem setEng_sclk (s : State) (e : Nat) (x : Eng) : (s.setEng e x).sclk = s.sclk := rfl
@[simp] theorem setEng_snap (s : State) (e : Nat) (x : Eng) : (s.setEng e x).snap = s.snap := rfl
@[simp] theorem setEng_resp (s : State) (e : Nat) (x : Eng) : (s.setEng e x).resp = s.resp := rfl
@[simp] theorem setEng_wire (s : State) (e : Nat) (x : Eng) : (s.setEng e x).wire = s.wire := rfl
@[simp] theorem setEng_free (s : State) (e : Nat) (x : Eng) : (s.setEng e x).free = s.free := rfl
@[simp] theorem setEng_plk (s : State) (e : Nat) (x : Eng) : (s.setEng e x).plk = s.plk := rfl
@[simp] theorem setEng_tb (s : State) (e : Nat) (x : Eng) : (s.setEng e x).tb = s.tb := rfl
@[simp] theorem setEng_pwr (s : State) (e : Nat) (x : Eng) : (s.setEng e x).pwr = s.pwr := rfl
@[simp] theorem setEng_hst (s : State) (e : Nat) (x : Eng) : (s.setEng e x).hst = s.hst := rfl
@[simp] theorem setEng_xingAis (s : State) (e : Nat) (x : Eng) : (s.setEng e x).xingAis = s.xingAis := rfl
@[simp] theorem setEng_fuses (s : State) (e : Nat) (x : Eng) : (s.setEng e x).fuses = s.fuses := rfl
@[simp] theorem setEng_cal (s : State) (e : Nat) (x : Eng) : (s.setEng e x).cal = s.cal := rfl
@[simp] theorem setEng_prf (s : State) (e : Nat) (x : Eng) : (s.setEng e x).prf = s.prf := rfl
@[simp] theorem setEng_tvwFail (s : State) (e : Nat) (x : Eng) : (s.setEng e x).tvwFail = s.tvwFail := rfl
@[simp] theorem setEng_gp (s : State) (e : Nat) (x : Eng) : (s.setEng e x).gp = s.gp := rfl
@[simp] theorem setEng_twn (s : State) (e : Nat) (x : Eng) : (s.setEng e x).twn = s.twn := rfl
@[simp] theorem setEng_pt (s : State) (e : Nat) (x : Eng) : (s.setEng e x).pt = s.pt := rfl
@[simp] theorem setEng_pin (s : State) (e : Nat) (x : Eng) : (s.setEng e x).pin = s.pin := rfl
@[simp] theorem setEng_calTs (s : State) (e : Nat) (x : Eng) : (s.setEng e x).calTs = s.calTs := rfl
@[simp] theorem setEng_ln (s : State) (e : Nat) (x : Eng) : (s.setEng e x).ln = s.ln := rfl
@[simp] theorem setEng_mon (s : State) (e : Nat) (x : Eng) : (s.setEng e x).mon = s.mon := rfl
@[simp] theorem setEng_eye (s : State) (e : Nat) (x : Eng) : (s.setEng e x).eye = s.eye := rfl
@[simp] theorem setEng_seen (s : State) (e : Nat) (x : Eng) : (s.setEng e x).seen = s.seen := rfl
@[simp] theorem setEng_ca (s : State) (e : Nat) (x : Eng) : (s.setEng e x).ca = s.ca := rfl
@[simp] theorem setEng_edge (s : State) (e : Nat) (x : Eng) : (s.setEng e x).edge = s.edge := rfl
@[simp] theorem setEng_ohb (s : State) (e : Nat) (x : Eng) : (s.setEng e x).ohb = s.ohb := rfl
@[simp] theorem setEng_ohbStale (s : State) (e : Nat) (x : Eng) : (s.setEng e x).ohbStale = s.ohbStale := rfl
@[simp] theorem setEng_ohbLine (s : State) (e : Nat) (x : Eng) : (s.setEng e x).ohbLine = s.ohbLine := rfl
@[simp] theorem setEng_tsi (s : State) (e : Nat) (x : Eng) : (s.setEng e x).tsi = s.tsi := rfl
@[simp] theorem setEng_lox (s : State) (e : Nat) (x : Eng) : (s.setEng e x).lox = s.lox := rfl
@[simp] theorem setEng_inj (s : State) (e : Nat) (x : Eng) : (s.setEng e x).inj = s.inj := rfl
@[simp] theorem setEng_forced (s : State) (e : Nat) (x : Eng) : (s.setEng e x).forced = s.forced := rfl
@[simp] theorem setEng_slotIn (s : State) (e : Nat) (x : Eng) : (s.setEng e x).slotIn = s.slotIn := rfl
@[simp] theorem setEng_spe (s : State) (e : Nat) (x : Eng) : (s.setEng e x).spe = s.spe := rfl
@[simp] theorem setEng_odu (s : State) (e : Nat) (x : Eng) : (s.setEng e x).odu = s.odu := rfl
@[simp] theorem setEng_trib (s : State) (e : Nat) (x : Eng) : (s.setEng e x).trib = s.trib := rfl
@[simp] theorem setEng_loOut (s : State) (e : Nat) (x : Eng) : (s.setEng e x).loOut = s.loOut := rfl
@[simp] theorem setEng_eg (s : State) (e : Nat) (x : Eng) : (s.setEng e x).eg = s.eg := rfl
@[simp] theorem setEng_rings (s : State) (e : Nat) (x : Eng) : (s.setEng e x).rings = s.rings := rfl
@[simp] theorem setEng_cells (s : State) (e : Nat) (x : Eng) : (s.setEng e x).cells = s.cells := rfl
@[simp] theorem setEng_chk (s : State) (e : Nat) (x : Eng) : (s.setEng e x).chk = s.chk := rfl
@[simp] theorem setEng_car (s : State) (e : Nat) (x : Eng) : (s.setEng e x).car = s.car := rfl
@[simp] theorem setEng_gfp (s : State) (e : Nat) (x : Eng) : (s.setEng e x).gfp = s.gfp := rfl
@[simp] theorem setEng_sel (s : State) (e : Nat) (x : Eng) : (s.setEng e x).sel = s.sel := rfl
@[simp] theorem setEng_gaug (s : State) (e : Nat) (x : Eng) : (s.setEng e x).gaug = s.gaug := rfl
@[simp] theorem setEng_uncov (s : State) (e : Nat) (x : Eng) : (s.setEng e x).uncov = s.uncov := rfl
@[simp] theorem setEng_excl (s : State) (e : Nat) (x : Eng) : (s.setEng e x).excl = s.excl := rfl
@[simp] theorem setEng_eng (s : State) (e : Nat) (x : Eng) : (s.setEng e x).eng = tset (fun _ => engReset) s.eng e x := rfl
@[simp] theorem setEng_scopy (s : State) (e : Nat) (x : Eng) : (s.setEng e x).scopy = s.scopy := rfl
@[simp] theorem setEng_battLate (s : State) (e : Nat) (x : Eng) : (s.setEng e x).battLate = s.battLate := rfl
@[simp] theorem setEng_prox (s : State) (e : Nat) (x : Eng) : (s.setEng e x).prox = s.prox := rfl
@[simp] theorem setEng_proxTag (s : State) (e : Nat) (x : Eng) : (s.setEng e x).proxTag = s.proxTag := rfl

@[simp] theorem setGp_regs (s : State) (p : Nat) (g : GpSt) : (s.setGp p g).regs = s.regs := rfl
@[simp] theorem setGp_pend (s : State) (p : Nat) (g : GpSt) : (s.setGp p g).pend = s.pend := rfl
@[simp] theorem setGp_latch (s : State) (p : Nat) (g : GpSt) : (s.setGp p g).latch = s.latch := rfl
@[simp] theorem setGp_copy (s : State) (p : Nat) (g : GpSt) : (s.setGp p g).copy = s.copy := rfl
@[simp] theorem setGp_parBad (s : State) (p : Nat) (g : GpSt) : (s.setGp p g).parBad = s.parBad := rfl
@[simp] theorem setGp_parSeen (s : State) (p : Nat) (g : GpSt) : (s.setGp p g).parSeen = s.parSeen := rfl
@[simp] theorem setGp_safe (s : State) (p : Nat) (g : GpSt) : (s.setGp p g).safe = s.safe := rfl
@[simp] theorem setGp_lgBuf (s : State) (p : Nat) (g : GpSt) : (s.setGp p g).lgBuf = s.lgBuf := rfl
@[simp] theorem setGp_sclk (s : State) (p : Nat) (g : GpSt) : (s.setGp p g).sclk = s.sclk := rfl
@[simp] theorem setGp_snap (s : State) (p : Nat) (g : GpSt) : (s.setGp p g).snap = s.snap := rfl
@[simp] theorem setGp_resp (s : State) (p : Nat) (g : GpSt) : (s.setGp p g).resp = s.resp := rfl
@[simp] theorem setGp_wire (s : State) (p : Nat) (g : GpSt) : (s.setGp p g).wire = s.wire := rfl
@[simp] theorem setGp_free (s : State) (p : Nat) (g : GpSt) : (s.setGp p g).free = s.free := rfl
@[simp] theorem setGp_plk (s : State) (p : Nat) (g : GpSt) : (s.setGp p g).plk = s.plk := rfl
@[simp] theorem setGp_tb (s : State) (p : Nat) (g : GpSt) : (s.setGp p g).tb = s.tb := rfl
@[simp] theorem setGp_pwr (s : State) (p : Nat) (g : GpSt) : (s.setGp p g).pwr = s.pwr := rfl
@[simp] theorem setGp_hst (s : State) (p : Nat) (g : GpSt) : (s.setGp p g).hst = s.hst := rfl
@[simp] theorem setGp_xingAis (s : State) (p : Nat) (g : GpSt) : (s.setGp p g).xingAis = s.xingAis := rfl
@[simp] theorem setGp_fuses (s : State) (p : Nat) (g : GpSt) : (s.setGp p g).fuses = s.fuses := rfl
@[simp] theorem setGp_cal (s : State) (p : Nat) (g : GpSt) : (s.setGp p g).cal = s.cal := rfl
@[simp] theorem setGp_prf (s : State) (p : Nat) (g : GpSt) : (s.setGp p g).prf = s.prf := rfl
@[simp] theorem setGp_tvwFail (s : State) (p : Nat) (g : GpSt) : (s.setGp p g).tvwFail = s.tvwFail := rfl
@[simp] theorem setGp_gp (s : State) (p : Nat) (g : GpSt) : (s.setGp p g).gp = tset (fun _ => gpReset) s.gp p g := rfl
@[simp] theorem setGp_twn (s : State) (p : Nat) (g : GpSt) : (s.setGp p g).twn = s.twn := rfl
@[simp] theorem setGp_pt (s : State) (p : Nat) (g : GpSt) : (s.setGp p g).pt = s.pt := rfl
@[simp] theorem setGp_pin (s : State) (p : Nat) (g : GpSt) : (s.setGp p g).pin = s.pin := rfl
@[simp] theorem setGp_calTs (s : State) (p : Nat) (g : GpSt) : (s.setGp p g).calTs = s.calTs := rfl
@[simp] theorem setGp_ln (s : State) (p : Nat) (g : GpSt) : (s.setGp p g).ln = s.ln := rfl
@[simp] theorem setGp_mon (s : State) (p : Nat) (g : GpSt) : (s.setGp p g).mon = s.mon := rfl
@[simp] theorem setGp_eye (s : State) (p : Nat) (g : GpSt) : (s.setGp p g).eye = s.eye := rfl
@[simp] theorem setGp_seen (s : State) (p : Nat) (g : GpSt) : (s.setGp p g).seen = s.seen := rfl
@[simp] theorem setGp_ca (s : State) (p : Nat) (g : GpSt) : (s.setGp p g).ca = s.ca := rfl
@[simp] theorem setGp_edge (s : State) (p : Nat) (g : GpSt) : (s.setGp p g).edge = s.edge := rfl
@[simp] theorem setGp_ohb (s : State) (p : Nat) (g : GpSt) : (s.setGp p g).ohb = s.ohb := rfl
@[simp] theorem setGp_ohbStale (s : State) (p : Nat) (g : GpSt) : (s.setGp p g).ohbStale = s.ohbStale := rfl
@[simp] theorem setGp_ohbLine (s : State) (p : Nat) (g : GpSt) : (s.setGp p g).ohbLine = s.ohbLine := rfl
@[simp] theorem setGp_tsi (s : State) (p : Nat) (g : GpSt) : (s.setGp p g).tsi = s.tsi := rfl
@[simp] theorem setGp_lox (s : State) (p : Nat) (g : GpSt) : (s.setGp p g).lox = s.lox := rfl
@[simp] theorem setGp_inj (s : State) (p : Nat) (g : GpSt) : (s.setGp p g).inj = s.inj := rfl
@[simp] theorem setGp_forced (s : State) (p : Nat) (g : GpSt) : (s.setGp p g).forced = s.forced := rfl
@[simp] theorem setGp_slotIn (s : State) (p : Nat) (g : GpSt) : (s.setGp p g).slotIn = s.slotIn := rfl
@[simp] theorem setGp_spe (s : State) (p : Nat) (g : GpSt) : (s.setGp p g).spe = s.spe := rfl
@[simp] theorem setGp_odu (s : State) (p : Nat) (g : GpSt) : (s.setGp p g).odu = s.odu := rfl
@[simp] theorem setGp_trib (s : State) (p : Nat) (g : GpSt) : (s.setGp p g).trib = s.trib := rfl
@[simp] theorem setGp_loOut (s : State) (p : Nat) (g : GpSt) : (s.setGp p g).loOut = s.loOut := rfl
@[simp] theorem setGp_eg (s : State) (p : Nat) (g : GpSt) : (s.setGp p g).eg = s.eg := rfl
@[simp] theorem setGp_rings (s : State) (p : Nat) (g : GpSt) : (s.setGp p g).rings = s.rings := rfl
@[simp] theorem setGp_cells (s : State) (p : Nat) (g : GpSt) : (s.setGp p g).cells = s.cells := rfl
@[simp] theorem setGp_chk (s : State) (p : Nat) (g : GpSt) : (s.setGp p g).chk = s.chk := rfl
@[simp] theorem setGp_car (s : State) (p : Nat) (g : GpSt) : (s.setGp p g).car = s.car := rfl
@[simp] theorem setGp_gfp (s : State) (p : Nat) (g : GpSt) : (s.setGp p g).gfp = s.gfp := rfl
@[simp] theorem setGp_sel (s : State) (p : Nat) (g : GpSt) : (s.setGp p g).sel = s.sel := rfl
@[simp] theorem setGp_gaug (s : State) (p : Nat) (g : GpSt) : (s.setGp p g).gaug = s.gaug := rfl
@[simp] theorem setGp_uncov (s : State) (p : Nat) (g : GpSt) : (s.setGp p g).uncov = s.uncov := rfl
@[simp] theorem setGp_excl (s : State) (p : Nat) (g : GpSt) : (s.setGp p g).excl = s.excl := rfl
@[simp] theorem setGp_eng (s : State) (p : Nat) (g : GpSt) : (s.setGp p g).eng = s.eng := rfl
@[simp] theorem setGp_scopy (s : State) (p : Nat) (g : GpSt) : (s.setGp p g).scopy = s.scopy := rfl
@[simp] theorem setGp_battLate (s : State) (p : Nat) (g : GpSt) : (s.setGp p g).battLate = s.battLate := rfl
@[simp] theorem setGp_prox (s : State) (p : Nat) (g : GpSt) : (s.setGp p g).prox = s.prox := rfl
@[simp] theorem setGp_proxTag (s : State) (p : Nat) (g : GpSt) : (s.setGp p g).proxTag = s.proxTag := rfl

@[simp] theorem setGfp_regs (s : State) (c : Nat) (g : Gfp) : (s.setGfp c g).regs = s.regs := rfl
@[simp] theorem setGfp_pend (s : State) (c : Nat) (g : Gfp) : (s.setGfp c g).pend = s.pend := rfl
@[simp] theorem setGfp_latch (s : State) (c : Nat) (g : Gfp) : (s.setGfp c g).latch = s.latch := rfl
@[simp] theorem setGfp_copy (s : State) (c : Nat) (g : Gfp) : (s.setGfp c g).copy = s.copy := rfl
@[simp] theorem setGfp_parBad (s : State) (c : Nat) (g : Gfp) : (s.setGfp c g).parBad = s.parBad := rfl
@[simp] theorem setGfp_parSeen (s : State) (c : Nat) (g : Gfp) : (s.setGfp c g).parSeen = s.parSeen := rfl
@[simp] theorem setGfp_safe (s : State) (c : Nat) (g : Gfp) : (s.setGfp c g).safe = s.safe := rfl
@[simp] theorem setGfp_lgBuf (s : State) (c : Nat) (g : Gfp) : (s.setGfp c g).lgBuf = s.lgBuf := rfl
@[simp] theorem setGfp_sclk (s : State) (c : Nat) (g : Gfp) : (s.setGfp c g).sclk = s.sclk := rfl
@[simp] theorem setGfp_snap (s : State) (c : Nat) (g : Gfp) : (s.setGfp c g).snap = s.snap := rfl
@[simp] theorem setGfp_resp (s : State) (c : Nat) (g : Gfp) : (s.setGfp c g).resp = s.resp := rfl
@[simp] theorem setGfp_wire (s : State) (c : Nat) (g : Gfp) : (s.setGfp c g).wire = s.wire := rfl
@[simp] theorem setGfp_free (s : State) (c : Nat) (g : Gfp) : (s.setGfp c g).free = s.free := rfl
@[simp] theorem setGfp_plk (s : State) (c : Nat) (g : Gfp) : (s.setGfp c g).plk = s.plk := rfl
@[simp] theorem setGfp_tb (s : State) (c : Nat) (g : Gfp) : (s.setGfp c g).tb = s.tb := rfl
@[simp] theorem setGfp_pwr (s : State) (c : Nat) (g : Gfp) : (s.setGfp c g).pwr = s.pwr := rfl
@[simp] theorem setGfp_hst (s : State) (c : Nat) (g : Gfp) : (s.setGfp c g).hst = s.hst := rfl
@[simp] theorem setGfp_xingAis (s : State) (c : Nat) (g : Gfp) : (s.setGfp c g).xingAis = s.xingAis := rfl
@[simp] theorem setGfp_fuses (s : State) (c : Nat) (g : Gfp) : (s.setGfp c g).fuses = s.fuses := rfl
@[simp] theorem setGfp_cal (s : State) (c : Nat) (g : Gfp) : (s.setGfp c g).cal = s.cal := rfl
@[simp] theorem setGfp_prf (s : State) (c : Nat) (g : Gfp) : (s.setGfp c g).prf = s.prf := rfl
@[simp] theorem setGfp_tvwFail (s : State) (c : Nat) (g : Gfp) : (s.setGfp c g).tvwFail = s.tvwFail := rfl
@[simp] theorem setGfp_gp (s : State) (c : Nat) (g : Gfp) : (s.setGfp c g).gp = s.gp := rfl
@[simp] theorem setGfp_twn (s : State) (c : Nat) (g : Gfp) : (s.setGfp c g).twn = s.twn := rfl
@[simp] theorem setGfp_pt (s : State) (c : Nat) (g : Gfp) : (s.setGfp c g).pt = s.pt := rfl
@[simp] theorem setGfp_pin (s : State) (c : Nat) (g : Gfp) : (s.setGfp c g).pin = s.pin := rfl
@[simp] theorem setGfp_calTs (s : State) (c : Nat) (g : Gfp) : (s.setGfp c g).calTs = s.calTs := rfl
@[simp] theorem setGfp_ln (s : State) (c : Nat) (g : Gfp) : (s.setGfp c g).ln = s.ln := rfl
@[simp] theorem setGfp_mon (s : State) (c : Nat) (g : Gfp) : (s.setGfp c g).mon = s.mon := rfl
@[simp] theorem setGfp_eye (s : State) (c : Nat) (g : Gfp) : (s.setGfp c g).eye = s.eye := rfl
@[simp] theorem setGfp_seen (s : State) (c : Nat) (g : Gfp) : (s.setGfp c g).seen = s.seen := rfl
@[simp] theorem setGfp_ca (s : State) (c : Nat) (g : Gfp) : (s.setGfp c g).ca = s.ca := rfl
@[simp] theorem setGfp_edge (s : State) (c : Nat) (g : Gfp) : (s.setGfp c g).edge = s.edge := rfl
@[simp] theorem setGfp_ohb (s : State) (c : Nat) (g : Gfp) : (s.setGfp c g).ohb = s.ohb := rfl
@[simp] theorem setGfp_ohbStale (s : State) (c : Nat) (g : Gfp) : (s.setGfp c g).ohbStale = s.ohbStale := rfl
@[simp] theorem setGfp_ohbLine (s : State) (c : Nat) (g : Gfp) : (s.setGfp c g).ohbLine = s.ohbLine := rfl
@[simp] theorem setGfp_tsi (s : State) (c : Nat) (g : Gfp) : (s.setGfp c g).tsi = s.tsi := rfl
@[simp] theorem setGfp_lox (s : State) (c : Nat) (g : Gfp) : (s.setGfp c g).lox = s.lox := rfl
@[simp] theorem setGfp_inj (s : State) (c : Nat) (g : Gfp) : (s.setGfp c g).inj = s.inj := rfl
@[simp] theorem setGfp_forced (s : State) (c : Nat) (g : Gfp) : (s.setGfp c g).forced = s.forced := rfl
@[simp] theorem setGfp_slotIn (s : State) (c : Nat) (g : Gfp) : (s.setGfp c g).slotIn = s.slotIn := rfl
@[simp] theorem setGfp_spe (s : State) (c : Nat) (g : Gfp) : (s.setGfp c g).spe = s.spe := rfl
@[simp] theorem setGfp_odu (s : State) (c : Nat) (g : Gfp) : (s.setGfp c g).odu = s.odu := rfl
@[simp] theorem setGfp_trib (s : State) (c : Nat) (g : Gfp) : (s.setGfp c g).trib = s.trib := rfl
@[simp] theorem setGfp_loOut (s : State) (c : Nat) (g : Gfp) : (s.setGfp c g).loOut = s.loOut := rfl
@[simp] theorem setGfp_eg (s : State) (c : Nat) (g : Gfp) : (s.setGfp c g).eg = s.eg := rfl
@[simp] theorem setGfp_rings (s : State) (c : Nat) (g : Gfp) : (s.setGfp c g).rings = s.rings := rfl
@[simp] theorem setGfp_cells (s : State) (c : Nat) (g : Gfp) : (s.setGfp c g).cells = s.cells := rfl
@[simp] theorem setGfp_chk (s : State) (c : Nat) (g : Gfp) : (s.setGfp c g).chk = s.chk := rfl
@[simp] theorem setGfp_car (s : State) (c : Nat) (g : Gfp) : (s.setGfp c g).car = s.car := rfl
@[simp] theorem setGfp_gfp (s : State) (c : Nat) (g : Gfp) : (s.setGfp c g).gfp = tset (fun _ => gfpReset) s.gfp c g := rfl
@[simp] theorem setGfp_sel (s : State) (c : Nat) (g : Gfp) : (s.setGfp c g).sel = s.sel := rfl
@[simp] theorem setGfp_gaug (s : State) (c : Nat) (g : Gfp) : (s.setGfp c g).gaug = s.gaug := rfl
@[simp] theorem setGfp_uncov (s : State) (c : Nat) (g : Gfp) : (s.setGfp c g).uncov = s.uncov := rfl
@[simp] theorem setGfp_excl (s : State) (c : Nat) (g : Gfp) : (s.setGfp c g).excl = s.excl := rfl
@[simp] theorem setGfp_eng (s : State) (c : Nat) (g : Gfp) : (s.setGfp c g).eng = s.eng := rfl
@[simp] theorem setGfp_scopy (s : State) (c : Nat) (g : Gfp) : (s.setGfp c g).scopy = s.scopy := rfl
@[simp] theorem setGfp_battLate (s : State) (c : Nat) (g : Gfp) : (s.setGfp c g).battLate = s.battLate := rfl
@[simp] theorem setGfp_prox (s : State) (c : Nat) (g : Gfp) : (s.setGfp c g).prox = s.prox := rfl
@[simp] theorem setGfp_proxTag (s : State) (c : Nat) (g : Gfp) : (s.setGfp c g).proxTag = s.proxTag := rfl

@[simp] theorem setSel_regs (s : State) (n : Nat) (x : SelSt) : (s.setSel n x).regs = s.regs := rfl
@[simp] theorem setSel_pend (s : State) (n : Nat) (x : SelSt) : (s.setSel n x).pend = s.pend := rfl
@[simp] theorem setSel_latch (s : State) (n : Nat) (x : SelSt) : (s.setSel n x).latch = s.latch := rfl
@[simp] theorem setSel_copy (s : State) (n : Nat) (x : SelSt) : (s.setSel n x).copy = s.copy := rfl
@[simp] theorem setSel_parBad (s : State) (n : Nat) (x : SelSt) : (s.setSel n x).parBad = s.parBad := rfl
@[simp] theorem setSel_parSeen (s : State) (n : Nat) (x : SelSt) : (s.setSel n x).parSeen = s.parSeen := rfl
@[simp] theorem setSel_safe (s : State) (n : Nat) (x : SelSt) : (s.setSel n x).safe = s.safe := rfl
@[simp] theorem setSel_lgBuf (s : State) (n : Nat) (x : SelSt) : (s.setSel n x).lgBuf = s.lgBuf := rfl
@[simp] theorem setSel_sclk (s : State) (n : Nat) (x : SelSt) : (s.setSel n x).sclk = s.sclk := rfl
@[simp] theorem setSel_snap (s : State) (n : Nat) (x : SelSt) : (s.setSel n x).snap = s.snap := rfl
@[simp] theorem setSel_resp (s : State) (n : Nat) (x : SelSt) : (s.setSel n x).resp = s.resp := rfl
@[simp] theorem setSel_wire (s : State) (n : Nat) (x : SelSt) : (s.setSel n x).wire = s.wire := rfl
@[simp] theorem setSel_free (s : State) (n : Nat) (x : SelSt) : (s.setSel n x).free = s.free := rfl
@[simp] theorem setSel_plk (s : State) (n : Nat) (x : SelSt) : (s.setSel n x).plk = s.plk := rfl
@[simp] theorem setSel_tb (s : State) (n : Nat) (x : SelSt) : (s.setSel n x).tb = s.tb := rfl
@[simp] theorem setSel_pwr (s : State) (n : Nat) (x : SelSt) : (s.setSel n x).pwr = s.pwr := rfl
@[simp] theorem setSel_hst (s : State) (n : Nat) (x : SelSt) : (s.setSel n x).hst = s.hst := rfl
@[simp] theorem setSel_xingAis (s : State) (n : Nat) (x : SelSt) : (s.setSel n x).xingAis = s.xingAis := rfl
@[simp] theorem setSel_fuses (s : State) (n : Nat) (x : SelSt) : (s.setSel n x).fuses = s.fuses := rfl
@[simp] theorem setSel_cal (s : State) (n : Nat) (x : SelSt) : (s.setSel n x).cal = s.cal := rfl
@[simp] theorem setSel_prf (s : State) (n : Nat) (x : SelSt) : (s.setSel n x).prf = s.prf := rfl
@[simp] theorem setSel_tvwFail (s : State) (n : Nat) (x : SelSt) : (s.setSel n x).tvwFail = s.tvwFail := rfl
@[simp] theorem setSel_gp (s : State) (n : Nat) (x : SelSt) : (s.setSel n x).gp = s.gp := rfl
@[simp] theorem setSel_twn (s : State) (n : Nat) (x : SelSt) : (s.setSel n x).twn = s.twn := rfl
@[simp] theorem setSel_pt (s : State) (n : Nat) (x : SelSt) : (s.setSel n x).pt = s.pt := rfl
@[simp] theorem setSel_pin (s : State) (n : Nat) (x : SelSt) : (s.setSel n x).pin = s.pin := rfl
@[simp] theorem setSel_calTs (s : State) (n : Nat) (x : SelSt) : (s.setSel n x).calTs = s.calTs := rfl
@[simp] theorem setSel_ln (s : State) (n : Nat) (x : SelSt) : (s.setSel n x).ln = s.ln := rfl
@[simp] theorem setSel_mon (s : State) (n : Nat) (x : SelSt) : (s.setSel n x).mon = s.mon := rfl
@[simp] theorem setSel_eye (s : State) (n : Nat) (x : SelSt) : (s.setSel n x).eye = s.eye := rfl
@[simp] theorem setSel_seen (s : State) (n : Nat) (x : SelSt) : (s.setSel n x).seen = s.seen := rfl
@[simp] theorem setSel_ca (s : State) (n : Nat) (x : SelSt) : (s.setSel n x).ca = s.ca := rfl
@[simp] theorem setSel_edge (s : State) (n : Nat) (x : SelSt) : (s.setSel n x).edge = s.edge := rfl
@[simp] theorem setSel_ohb (s : State) (n : Nat) (x : SelSt) : (s.setSel n x).ohb = s.ohb := rfl
@[simp] theorem setSel_ohbStale (s : State) (n : Nat) (x : SelSt) : (s.setSel n x).ohbStale = s.ohbStale := rfl
@[simp] theorem setSel_ohbLine (s : State) (n : Nat) (x : SelSt) : (s.setSel n x).ohbLine = s.ohbLine := rfl
@[simp] theorem setSel_tsi (s : State) (n : Nat) (x : SelSt) : (s.setSel n x).tsi = s.tsi := rfl
@[simp] theorem setSel_lox (s : State) (n : Nat) (x : SelSt) : (s.setSel n x).lox = s.lox := rfl
@[simp] theorem setSel_inj (s : State) (n : Nat) (x : SelSt) : (s.setSel n x).inj = s.inj := rfl
@[simp] theorem setSel_forced (s : State) (n : Nat) (x : SelSt) : (s.setSel n x).forced = s.forced := rfl
@[simp] theorem setSel_slotIn (s : State) (n : Nat) (x : SelSt) : (s.setSel n x).slotIn = s.slotIn := rfl
@[simp] theorem setSel_spe (s : State) (n : Nat) (x : SelSt) : (s.setSel n x).spe = s.spe := rfl
@[simp] theorem setSel_odu (s : State) (n : Nat) (x : SelSt) : (s.setSel n x).odu = s.odu := rfl
@[simp] theorem setSel_trib (s : State) (n : Nat) (x : SelSt) : (s.setSel n x).trib = s.trib := rfl
@[simp] theorem setSel_loOut (s : State) (n : Nat) (x : SelSt) : (s.setSel n x).loOut = s.loOut := rfl
@[simp] theorem setSel_eg (s : State) (n : Nat) (x : SelSt) : (s.setSel n x).eg = s.eg := rfl
@[simp] theorem setSel_rings (s : State) (n : Nat) (x : SelSt) : (s.setSel n x).rings = s.rings := rfl
@[simp] theorem setSel_cells (s : State) (n : Nat) (x : SelSt) : (s.setSel n x).cells = s.cells := rfl
@[simp] theorem setSel_chk (s : State) (n : Nat) (x : SelSt) : (s.setSel n x).chk = s.chk := rfl
@[simp] theorem setSel_car (s : State) (n : Nat) (x : SelSt) : (s.setSel n x).car = s.car := rfl
@[simp] theorem setSel_gfp (s : State) (n : Nat) (x : SelSt) : (s.setSel n x).gfp = s.gfp := rfl
@[simp] theorem setSel_sel (s : State) (n : Nat) (x : SelSt) : (s.setSel n x).sel = tset (fun _ => selReset) s.sel n x := rfl
@[simp] theorem setSel_gaug (s : State) (n : Nat) (x : SelSt) : (s.setSel n x).gaug = s.gaug := rfl
@[simp] theorem setSel_uncov (s : State) (n : Nat) (x : SelSt) : (s.setSel n x).uncov = s.uncov := rfl
@[simp] theorem setSel_excl (s : State) (n : Nat) (x : SelSt) : (s.setSel n x).excl = s.excl := rfl
@[simp] theorem setSel_eng (s : State) (n : Nat) (x : SelSt) : (s.setSel n x).eng = s.eng := rfl
@[simp] theorem setSel_scopy (s : State) (n : Nat) (x : SelSt) : (s.setSel n x).scopy = s.scopy := rfl
@[simp] theorem setSel_battLate (s : State) (n : Nat) (x : SelSt) : (s.setSel n x).battLate = s.battLate := rfl
@[simp] theorem setSel_prox (s : State) (n : Nat) (x : SelSt) : (s.setSel n x).prox = s.prox := rfl
@[simp] theorem setSel_proxTag (s : State) (n : Nat) (x : SelSt) : (s.setSel n x).proxTag = s.proxTag := rfl

@[simp] theorem setPt_regs (s : State) (p : Nat) (x : PtSt) : (s.setPt p x).regs = s.regs := rfl
@[simp] theorem setPt_pend (s : State) (p : Nat) (x : PtSt) : (s.setPt p x).pend = s.pend := rfl
@[simp] theorem setPt_latch (s : State) (p : Nat) (x : PtSt) : (s.setPt p x).latch = s.latch := rfl
@[simp] theorem setPt_copy (s : State) (p : Nat) (x : PtSt) : (s.setPt p x).copy = s.copy := rfl
@[simp] theorem setPt_parBad (s : State) (p : Nat) (x : PtSt) : (s.setPt p x).parBad = s.parBad := rfl
@[simp] theorem setPt_parSeen (s : State) (p : Nat) (x : PtSt) : (s.setPt p x).parSeen = s.parSeen := rfl
@[simp] theorem setPt_safe (s : State) (p : Nat) (x : PtSt) : (s.setPt p x).safe = s.safe := rfl
@[simp] theorem setPt_lgBuf (s : State) (p : Nat) (x : PtSt) : (s.setPt p x).lgBuf = s.lgBuf := rfl
@[simp] theorem setPt_sclk (s : State) (p : Nat) (x : PtSt) : (s.setPt p x).sclk = s.sclk := rfl
@[simp] theorem setPt_snap (s : State) (p : Nat) (x : PtSt) : (s.setPt p x).snap = s.snap := rfl
@[simp] theorem setPt_resp (s : State) (p : Nat) (x : PtSt) : (s.setPt p x).resp = s.resp := rfl
@[simp] theorem setPt_wire (s : State) (p : Nat) (x : PtSt) : (s.setPt p x).wire = s.wire := rfl
@[simp] theorem setPt_free (s : State) (p : Nat) (x : PtSt) : (s.setPt p x).free = s.free := rfl
@[simp] theorem setPt_plk (s : State) (p : Nat) (x : PtSt) : (s.setPt p x).plk = s.plk := rfl
@[simp] theorem setPt_tb (s : State) (p : Nat) (x : PtSt) : (s.setPt p x).tb = s.tb := rfl
@[simp] theorem setPt_pwr (s : State) (p : Nat) (x : PtSt) : (s.setPt p x).pwr = s.pwr := rfl
@[simp] theorem setPt_hst (s : State) (p : Nat) (x : PtSt) : (s.setPt p x).hst = s.hst := rfl
@[simp] theorem setPt_xingAis (s : State) (p : Nat) (x : PtSt) : (s.setPt p x).xingAis = s.xingAis := rfl
@[simp] theorem setPt_fuses (s : State) (p : Nat) (x : PtSt) : (s.setPt p x).fuses = s.fuses := rfl
@[simp] theorem setPt_cal (s : State) (p : Nat) (x : PtSt) : (s.setPt p x).cal = s.cal := rfl
@[simp] theorem setPt_prf (s : State) (p : Nat) (x : PtSt) : (s.setPt p x).prf = s.prf := rfl
@[simp] theorem setPt_tvwFail (s : State) (p : Nat) (x : PtSt) : (s.setPt p x).tvwFail = s.tvwFail := rfl
@[simp] theorem setPt_gp (s : State) (p : Nat) (x : PtSt) : (s.setPt p x).gp = s.gp := rfl
@[simp] theorem setPt_twn (s : State) (p : Nat) (x : PtSt) : (s.setPt p x).twn = s.twn := rfl
@[simp] theorem setPt_pt (s : State) (p : Nat) (x : PtSt) : (s.setPt p x).pt = tset (fun _ => ptReset) s.pt p x := rfl
@[simp] theorem setPt_pin (s : State) (p : Nat) (x : PtSt) : (s.setPt p x).pin = s.pin := rfl
@[simp] theorem setPt_calTs (s : State) (p : Nat) (x : PtSt) : (s.setPt p x).calTs = s.calTs := rfl
@[simp] theorem setPt_ln (s : State) (p : Nat) (x : PtSt) : (s.setPt p x).ln = s.ln := rfl
@[simp] theorem setPt_mon (s : State) (p : Nat) (x : PtSt) : (s.setPt p x).mon = s.mon := rfl
@[simp] theorem setPt_eye (s : State) (p : Nat) (x : PtSt) : (s.setPt p x).eye = s.eye := rfl
@[simp] theorem setPt_seen (s : State) (p : Nat) (x : PtSt) : (s.setPt p x).seen = s.seen := rfl
@[simp] theorem setPt_ca (s : State) (p : Nat) (x : PtSt) : (s.setPt p x).ca = s.ca := rfl
@[simp] theorem setPt_edge (s : State) (p : Nat) (x : PtSt) : (s.setPt p x).edge = s.edge := rfl
@[simp] theorem setPt_ohb (s : State) (p : Nat) (x : PtSt) : (s.setPt p x).ohb = s.ohb := rfl
@[simp] theorem setPt_ohbStale (s : State) (p : Nat) (x : PtSt) : (s.setPt p x).ohbStale = s.ohbStale := rfl
@[simp] theorem setPt_ohbLine (s : State) (p : Nat) (x : PtSt) : (s.setPt p x).ohbLine = s.ohbLine := rfl
@[simp] theorem setPt_tsi (s : State) (p : Nat) (x : PtSt) : (s.setPt p x).tsi = s.tsi := rfl
@[simp] theorem setPt_lox (s : State) (p : Nat) (x : PtSt) : (s.setPt p x).lox = s.lox := rfl
@[simp] theorem setPt_inj (s : State) (p : Nat) (x : PtSt) : (s.setPt p x).inj = s.inj := rfl
@[simp] theorem setPt_forced (s : State) (p : Nat) (x : PtSt) : (s.setPt p x).forced = s.forced := rfl
@[simp] theorem setPt_slotIn (s : State) (p : Nat) (x : PtSt) : (s.setPt p x).slotIn = s.slotIn := rfl
@[simp] theorem setPt_spe (s : State) (p : Nat) (x : PtSt) : (s.setPt p x).spe = s.spe := rfl
@[simp] theorem setPt_odu (s : State) (p : Nat) (x : PtSt) : (s.setPt p x).odu = s.odu := rfl
@[simp] theorem setPt_trib (s : State) (p : Nat) (x : PtSt) : (s.setPt p x).trib = s.trib := rfl
@[simp] theorem setPt_loOut (s : State) (p : Nat) (x : PtSt) : (s.setPt p x).loOut = s.loOut := rfl
@[simp] theorem setPt_eg (s : State) (p : Nat) (x : PtSt) : (s.setPt p x).eg = s.eg := rfl
@[simp] theorem setPt_rings (s : State) (p : Nat) (x : PtSt) : (s.setPt p x).rings = s.rings := rfl
@[simp] theorem setPt_cells (s : State) (p : Nat) (x : PtSt) : (s.setPt p x).cells = s.cells := rfl
@[simp] theorem setPt_chk (s : State) (p : Nat) (x : PtSt) : (s.setPt p x).chk = s.chk := rfl
@[simp] theorem setPt_car (s : State) (p : Nat) (x : PtSt) : (s.setPt p x).car = s.car := rfl
@[simp] theorem setPt_gfp (s : State) (p : Nat) (x : PtSt) : (s.setPt p x).gfp = s.gfp := rfl
@[simp] theorem setPt_sel (s : State) (p : Nat) (x : PtSt) : (s.setPt p x).sel = s.sel := rfl
@[simp] theorem setPt_gaug (s : State) (p : Nat) (x : PtSt) : (s.setPt p x).gaug = s.gaug := rfl
@[simp] theorem setPt_uncov (s : State) (p : Nat) (x : PtSt) : (s.setPt p x).uncov = s.uncov := rfl
@[simp] theorem setPt_excl (s : State) (p : Nat) (x : PtSt) : (s.setPt p x).excl = s.excl := rfl
@[simp] theorem setPt_eng (s : State) (p : Nat) (x : PtSt) : (s.setPt p x).eng = s.eng := rfl
@[simp] theorem setPt_scopy (s : State) (p : Nat) (x : PtSt) : (s.setPt p x).scopy = s.scopy := rfl
@[simp] theorem setPt_battLate (s : State) (p : Nat) (x : PtSt) : (s.setPt p x).battLate = s.battLate := rfl
@[simp] theorem setPt_prox (s : State) (p : Nat) (x : PtSt) : (s.setPt p x).prox = s.prox := rfl
@[simp] theorem setPt_proxTag (s : State) (p : Nat) (x : PtSt) : (s.setPt p x).proxTag = s.proxTag := rfl

/-! ### One record per key -/

@[simp] theorem lane_setLane (s : State) (c : Nat) (l : LaneSt) : (s.setLane c l).lane c = l := tget_tset_same _ _ _ _
@[simp] theorem mn_setMn (s : State) (k : Nat) (x : Mon) : (s.setMn k x).mn k = x := tget_tset_same _ _ _ _
@[simp] theorem engOf_setEng (s : State) (e : Nat) (x : Eng) : (s.setEng e x).engOf e = x := tget_tset_same _ _ _ _
@[simp] theorem gpOf_setGp (s : State) (p : Nat) (g : GpSt) : (s.setGp p g).gpOf p = g := tget_tset_same _ _ _ _

theorem lane_setLane_ne (s : State) (c d : Nat) (l : LaneSt) (h : d ≠ c) : (s.setLane c l).lane d = s.lane d := tget_tset_ne _ _ _ _ _ h
theorem mn_setMn_ne (s : State) (k d : Nat) (x : Mon) (h : d ≠ k) : (s.setMn k x).mn d = s.mn d := tget_tset_ne _ _ _ _ _ h
theorem engOf_setEng_ne (s : State) (e d : Nat) (x : Eng) (h : d ≠ e) : (s.setEng e x).engOf d = s.engOf d := tget_tset_ne _ _ _ _ _ h
theorem gpOf_setGp_ne (s : State) (p d : Nat) (g : GpSt) (h : d ≠ p) : (s.setGp p g).gpOf d = s.gpOf d := tget_tset_ne _ _ _ _ _ h

end Sys2Proof.Machine
end

