-- ==== Sys2Proof/Laws/Ops.lean ====
section
/-!
SUPPORT. What the shared operations can do, once each: a command of a page, an access's completion, a result set, an occurrence; the canonical form of
the block's tables under every operation that writes one.
-/

namespace Sys2Proof.Machine

open Sys2Proof

/-! ### Commands of a page -/

/-- A write of 1 to a CMD field runs it, loses against the one that runs, or ends with a bus error, by the page and the field alone. -/
theorem command_cases (s : State) (m : Nat) (c : Fld) (k : State → State) :
    (s.usable (pageOf c.addr) = true ∧ s.on c = false ∧ s.command m c k = (k s).answer m true []) ∨
    (s.usable (pageOf c.addr) = true ∧ s.on c = true ∧ s.command m c k = (s.wlost m (c.addr % 0x100000000)).answer m true []) ∨
    (s.usable (pageOf c.addr) = false ∧ s.command m c k = s.answer m false []) := by
  unfold State.command
  cases hu : s.usable (pageOf c.addr) <;> cases hc : s.on c <;> simp

/-- A completion leaves all but the register file and the masters' completions. -/
theorem answer_frame (s : State) (m : Nat) (ok : Bool) (data : List Word) :
    s.answer m ok data = { s with regs := (s.answer m ok data).regs, resp := (s.answer m ok data).resp } := by
  unfold State.answer State.park State.reply
  (repeat' split) <;> rfl

/-- On a bus that has stopped nothing completes (R20). -/
theorem answer_stopped (s : State) (m : Nat) (ok : Bool) (data : List Word) (h : s.busRuns = false) : s.answer m ok data = s := by
  simp [State.answer, State.reply, State.park, h]

/-! ### Results and occurrences -/

/-- A completed result shows VALID, is not BUSY, has the next sequence number, and holds what the command gives it. -/
theorem result_eq (s : State) (k : Nat) (failed : Bool) (l : List (Fld × Nat)) :
    s.result k failed l = s.u ([(resValid k, 1), (resBusy k, 0), (resFailed k, bit failed), (resSeq k, s.g (resSeq k) + 1)] ++ l) := rfl

/-- An occurrence writes its counter and the counter's OCC_LOST, nothing else. -/
theorem occ_keeps (s : State) (k : Nat) : RegsKeep [lostFld k, occCount k] s (s.occ k) :=
  keep_u s [(lostFld k, bit (s.on (lostFld k) || s.occTally k == 65535)), (occCount k, s.g (occCount k) + 1)]

theorem occ_frame (s : State) (k : Nat) : s.occ k = { s with regs := (s.occ k).regs } := rfl

/-- A PM counter that has saturated stays. -/
theorem pmAdd_max (s : State) (f : Fld) (n : Nat) (hf : f.lo + f.w ≤ 32) (hw : f.w = 32) (h : s.g f = 0xFFFFFFFF) :
    (s.pmAdd f n).g f = 0xFFFFFFFF := by
  unfold State.pmAdd
  rw [g_u_same _ _ _ hf, h, hw]
  omega

/-! ### Canonical tables -/

theorem twf_setFld (t : Tab Word) (f : Fld) (v : Nat) (h : twf resetWordOf t = true) : twf resetWordOf (setFld t f v) = true :=
  twf_tset _ _ _ _ h

theorem twf_setFlds (l : List (Fld × Nat)) (t : Tab Word) (h : twf resetWordOf t = true) : twf resetWordOf (setFlds l t) = true := by
  induction l generalizing t with
  | nil => exact h
  | cons p l ih => exact ih _ (twf_setFld _ _ _ h)

/-- The parts of the canonical form. -/
theorem tablesWf_iff (s : State) : s.tablesWf = true ↔
    twf resetWordOf s.regs = true ∧ twf (fun _ => 0) s.fuses = true ∧ twf (fun _ => 0xFFFFFFFF) s.hst.flash = true ∧
      twf (fun _ => 0) s.hst.sram = true ∧ twf (fun _ => 0) s.ohb = true ∧ twf (fun _ => 0) s.scopy = true := by
  simp [State.tablesWf, and_assoc]

/-- A state with the same tables is as canonical. -/
theorem tablesWf_congr (s t : State) (h1 : t.regs = s.regs) (h2 : t.fuses = s.fuses) (h3 : t.hst.flash = s.hst.flash)
    (h4 : t.hst.sram = s.hst.sram) (h5 : t.ohb = s.ohb) (h6 : t.scopy = s.scopy) : t.tablesWf = s.tablesWf := by
  simp [State.tablesWf, h1, h2, h3, h4, h5, h6]

theorem tablesWf_u (s : State) (l : List (Fld × Nat)) (h : s.tablesWf = true) : (s.u l).tablesWf = true := by
  rw [tablesWf_iff] at h ⊢
  exact ⟨twf_setFlds l _ h.1, h.2⟩

theorem tablesWf_setWord (s : State) (k : Nat) (w : Word) (h : s.tablesWf = true) : (s.setWord k w).tablesWf = true := by
  rw [tablesWf_iff] at h ⊢
  exact ⟨twf_tset _ _ _ _ h.1, h.2⟩

theorem tablesWf_setFlash (s : State) (w : Nat) (v : Word) (h : s.tablesWf = true) : (s.setFlash w v).tablesWf = true := by
  rw [tablesWf_iff] at h ⊢
  exact ⟨h.1, h.2.1, twf_tset _ _ _ _ h.2.2.1, h.2.2.2⟩

theorem tablesWf_ohbPut (s : State) (k v : Nat) (h : s.tablesWf = true) : (ohbPut s k v).tablesWf = true := by
  rw [tablesWf_iff] at h ⊢
  exact ⟨h.1, h.2.1, h.2.2.1, h.2.2.2.1, twf_tset _ _ _ _ h.2.2.2.2.1, h.2.2.2.2.2⟩

theorem tablesWf_answer (s : State) (m : Nat) (ok : Bool) (data : List Word) (h : s.tablesWf = true) : (s.answer m ok data).tablesWf = true := by
  unfold State.answer State.park State.reply
  (repeat' split) <;> first | exact h | exact tablesWf_u _ _ h

/-- A byte or word of a table after a write, there and elsewhere. -/
theorem flashWord_setFlash (s : State) (w q : Nat) (v : Word) : (s.setFlash w v).flashWord q = if q = w then v else s.flashWord q := by
  unfold State.setFlash State.flashWord State.onHst
  split
  · next h => subst h; exact tget_tset_same _ _ _ _
  · next h => exact tget_tset_ne _ _ _ _ _ h

end Sys2Proof.Machine
end

