-- ==== Sys2Proof/WellFormed.lean ====
section
/-!
DEFINITION. Well-formed commands: the operands that the outside of the block can bring. Operands with a fixed range are Fin or bit vectors
in Syntax.lean; the rest is checked here. The meanings are total: they take a command that is not well formed too.
-/

namespace Sys2Proof

/-- A number fits in `w` bits. -/
def fits (v w : Nat) : Bool := decide (v < 2 ^ w)

/-- Control-channel header (R341): 32-bit SEQ and ACK. -/
def Env.wf (e : Env) : Bool := fits e.seq 32 && fits e.ack 32

/-- An item (Table 3-1): kind and target as ST_ITEM_A holds them, a 32-bit argument. -/
def Item.wf (i : Item) : Bool := fits i.kind 8 && fits i.target 24 && fits i.arg 32

/-- An ACTION message (R52, R56): 1 to 256 items; a tick of the frame class is 0, one of the 1 µs class at most 124. -/
def ActMsg.wf (a : ActMsg) : Bool :=
  decide (1 ≤ a.items.length) && decide (a.items.length ≤ 256) && a.items.all Item.wf && decide (a.tick < 125) && (a.us || a.tick == 0) &&
    fits a.hdr.gmask 8 && fits a.hdr.tag 16

/-- A HELLO (Table 15-5): role 0 to 2, a member number below 8, a mode below 6. -/
def Hello.wf (h : Hello) : Bool := decide (h.role ≤ 2) && decide (h.id < 8) && decide (h.mode < 6) && fits h.groupTag 16 && fits h.pairId 16

/-- A HEARTBEAT (Table 14-1): mode below 6, a twin state below 8, completeness of 100 regions. -/
def Beat.wf (b : Beat) : Bool := decide (b.mode < 6) && decide (b.twin < 8) && fits b.complete 100 && fits b.pairId 16

/-- Overhead of an OTN layer (R103): BIP-8 errors, a 4-bit BEI, a 3-bit STAT, a TTI of 64 bytes, a PT of one byte. -/
def OduObs.wf (o : OduObs) : Bool :=
  fits o.bip 8 && fits o.bei 4 && fits o.stat 3 && o.tti.all (fun t => decide (t.length = 64)) && o.pt.all (fun p => fits p 8)

/-- A pointer value has 10 bits (Table 6-3). -/
def PtrObs.wf (p : PtrObs) : Bool :=
  match p with
  | .valid v _ => fits v 10
  | .ones => true
  | .invalid => true

/-- A path's frame (R103, R126). -/
def PathObs.wf (p : PathObs) : Bool :=
  decide (p.idx < 2048) && decide (p.trib ≤ 28) && fits p.bip 8 && fits p.rei 4 && p.ptr.wf && fits p.label 8 && !(p.pj && p.nj) && p.odu.wf &&
    decide (p.tcm.length ≤ 6) && p.tcm.all OduObs.wf && p.trace.all (fun t => decide (t.length ≤ 64))

/-- A tributary monitor's counts and readings (Table 6-9). -/
def TribObs.wf (t : TribObs) : Bool := decide (t.kind < 2) && decide (t.num < (if t.kind = 0 then 252 else 24))

/-- A line frame period (R88 to R119). -/
def LineObs.wf (o : LineObs) : Bool :=
  decide (o.lo ≤ o.hi) && o.ms.all (fun m => decide (o.lo ≤ m.pos) && decide (m.pos < o.hi) && fits m.mfas 8 && fits m.bits 48) && fits o.fas 48 && fits o.mfas 8 && o.lls.all (fun x => decide (x.1 < 20) && decide (x.2.1 < 4)) &&
    o.b1s.all (fun x => fits x.2.1 8 && fits x.2.2 8) && fits o.ss 2 &&
    fits o.k1 8 && fits o.k2 8 && fits o.s1 8 && fits o.b1 8 && fits o.b2 1536 && fits o.rei 16 && o.trace.all (fun t => decide (t.length ≤ 64)) &&
    o.sm.wf && o.odu.wf && decide (o.tcm.length ≤ 6) && o.tcm.all OduObs.wf && o.msi.all (fun l => decide (l.length ≤ 80)) &&
    o.ext.all (fun x => fits x 16) && o.paths.all PathObs.wf && o.tribs.all TribObs.wf && decide (o.blocks ≤ o.nblk) &&
    o.oh.all (fun b => decide (b.1 < 0x100)) && decide (o.stream.length ≤ 768) && decide (o.at_ < 8192000000)

/-- A slot of a frame (R10, Table 7-2): its number, a fill mark, 810 bytes or none. -/
def slotWf (n : Nat) (x : Nat × Nat × List Byte) : Bool :=
  decide (x.1 < n) && decide (x.2.1 < 4) && (decide (x.2.2.length = 810) || (x.2.1 != 0 && x.2.2.isEmpty))

/-- What a frame tick brings. -/
def FrameObs.wf (o : FrameObs) : Bool :=
  o.stores.all (fun x => decide (x.c < 192) && decide (x.idx < 2048) && x.j1.all (fun j => decide (j < x.bytes.length))) &&
    o.odus.all (fun x => decide (x.c < 192) && decide (x.e < 255)) &&
    o.vcats.all (fun x => decide (x.lg < 16) && decide (x.g < 16)) &&
    o.eg.all (fun x => decide (x.c < 192) && x.skip.all (fun i => decide (i < x.bytes.length))) &&
    o.lat.all (fun x => decide (x.1 < 98304)) && fits o.cyc 18 && o.det.all (fun c => decide (c < 192)) &&
    o.dep.all (fun x => decide (x.1 < 192) && decide (x.2 < 8192000000)) && o.lm.all (fun x => decide (x.1 < 8) && decide (x.2 < 8192000000))

/-- A superframe as received (R334 to R336). -/
def SuperObs.wf (o : SuperObs) : Bool := o.slots.all (slotWf 3744) && o.ucwSlots.all (fun k => decide (k < 3744)) && decide (o.at_ < 8192000000)

/-- A read of a cell: 16 codewords (R271). -/
def BattObs.wf (o : BattObs) : Bool := decide (o.chk + o.corr ≤ 16) && o.ue.all (fun u => decide (u < 16))

/-- A command's operands lie in the ranges that the rules give them. -/
def Instr.wf (i : Instr) : Bool :=
  match i with
  | .frameTick o => o.wf
  | .registerWrite _ a _ _ _ _ => fits a 26
  | .lgPostedWrite _ _ l => l.all (fun x => decide (x.1 < 0x10000) && fits x.2.2 4)
  | .parityScanPass _ bad => bad.all (fun k => fits k 40)
  | .counterPreset _ a _ _ => fits a 25
  | .occAckWrite _ a _ => fits a 25
  | .counterLowRead _ a => fits a 25
  | .plankDispatch _ tick r => decide (tick < 125) && r.all (fun x => decide (x.2.1 < 256) && [1, 2, 3, 4, 9].contains x.2.2)
  | .actionMessageRx e a _ => e.wf && a.wf
  | .eyeMeasureDone _ _ w h => fits w 16 && fits h 16
  | .lineFrame _ o => o.wf
  | .hitlessAcquired _ d p => decide (d.length = 8) && decide (0 < p)
  | .delayStep _ _ l => decide (l.length = 8)
  | .portTimestamp _ _ id kind _ _ => fits id 16 && fits kind 4
  | .ttStampRx e _ _ _ _ _ _ => e.wf
  | .todRxMessage b _ => !b.isEmpty
  | .battReadReturn _ _ o => o.wf
  | .heartbeat e b => e.wf && b.wf
  | .fwdWrite e a _ _ m _ => e.wf && fits a 25 && decide (m < 8)
  | .digest e _ _ d => e.wf && decide (d.length = 192) && d.all (fun x => fits x.2 4)
  | .copy e r g _ _ _ _ => e.wf && decide (r < 100) && fits g 16
  | .copyAck e r g => e.wf && decide (r < 100) && fits g 16
  | .joinRx e p _ => e.wf && fits p 16
  | .accept e _ => e.wf
  | .refuse e c => e.wf && [1, 2, 3, 4, 5, 6].contains c
  | .tvwEnd w => fits w 192
  | .hello e h => e.wf && h.wf
  | .result e _ st _ ap ix => e.wf && decide (st < 7) && decide (ap ≤ 256) && decide (ix < 256)
  | .groupCancelRx e _ => e.wf
  | .rraReq e _ off _ _ _ => e.wf && fits off 26
  | .rraRsp e _ st _ => e.wf && decide (st ≤ 1)
  | .superframeRx _ o => o.wf
  | .ptpMessageRx e _ _ => e.wf
  | .pcieWriteTlp _ a l _ => decide (a % 4 = 0) && !l.isEmpty && l.all (fun x => fits x.2 4)
  | .pcieReadTlp _ a n _ _ => decide (a % 4 = 0) && decide (0 < n) && decide (n ≤ 1024)
  | .regionMeasure t v => decide (t.length = 16) && decide (v.length = 16)
  | .instrTagRecord _ pc _ _ st ca co _ => decide (pc % 4 = 0) && fits pc 15 && fits st 16 && fits ca 16 && fits co 16
  | .powerOn .. | .resetNAssert .. | .brownOut | .seqViolation .. | .internalResetEnd .. | .fuseReadComplete ..
  | .coreCfgWrite .. | .corePllRelock | .coreClockLockLoss .. | .mclkLockLoss | .refLoss .. | .memPllLockLoss
  | .crossingOverflow .. | .usTick | .postedWriteLand .. | .lgReadComplete .. | .pageLock .. | .parActWrite .. | .pageSrst ..
  | .cntClr .. | .snapTake .. | .stItemBWrite .. | .admitCmd .. | .cancel .. | .clear .. | .rdIdxWrite .. | .find ..
  | .findComplete .. | .signalDetect .. | .signalDetectLoss .. | .rateDwellExpiry .. | .cdrLock .. | .frameHuntTimeout ..
  | .traceWaitExpiry .. | .admitGo .. | .admittedExpiry .. | .rehuntExpiry .. | .holdOffExpiry .. | .start ..
  | .tieWindowClose .. | .lofDeclare .. | .lofClear .. | .lomDeclare .. | .lomClear .. | .lolDeclare .. | .lolClear ..
  | .blockLockChange .. | .losDeclare .. | .losClear .. | .defectDeclare .. | .defectClear .. | .otnDefectDeclare ..
  | .otnDefectClear .. | .ethDefectChange .. | .tribDefectDeclare .. | .pwRead .. | .pwWrite .. | .tmRead .. | .tmWrite ..
  | .tsiWindowWrite .. | .seal .. | .sealDone | .abandon .. | .copyActive .. | .copyActiveDone | .loxWindowWrite .. | .loxSeal ..
  | .loxSealDone | .loxAbandon .. | .loxCopyActive .. | .loxCopyActiveDone | .mwRead .. | .mwWrite .. | .check .. | .checkDone ..
  | .vgRead .. | .vgWrite .. | .containerAcquired .. | .clientFrameMap .. | .gfpFrameRx .. | .csfSend .. | .lcasMemberFail ..
  | .lcasMemberRestore .. | .selectorAdmit .. | .selectorAdmitRetry .. | .wtrExpiry .. | .swRead .. | .swWrite ..
  | .hitlessFrameDue .. | .realignAuto .. | .load .. | .nowNsRead .. | .tbIncWrite .. | .slewStep | .holdover | .rxPop ..
  | .txPop .. | .timingPortFrameTx .. | .timingPortFrameRx .. | .ttResult .. | .ppsInEdge .. | .ppsPulseStart | .ppsPulseEnd
  | .arm .. | .todSendStart | .todSendDone | .txAbandon | .feAdd .. | .feSub .. | .feAnd .. | .feOr .. | .feXor .. | .feShl ..
  | .feShr .. | .feSha .. | .feClt .. | .feCltu .. | .feMul .. | .feMulhi .. | .feAddk .. | .feAndk .. | .feOrk .. | .feXork ..
  | .feCltk .. | .feKhi .. | .feShlk .. | .feShrk .. | .feShak .. | .feLdw .. | .feLdh .. | .feLdhu .. | .feLdb .. | .feLdbu ..
  | .feStw .. | .feSth .. | .feStb .. | .feOldw .. | .feOldbu .. | .feOstw .. | .feOstb .. | .feBld .. | .feBst ..
  | .busOpComplete .. | .feBsync .. | .feBreq .. | .feBrne .. | .feBrlt .. | .feBrge .. | .feBrlo .. | .feBrhs .. | .feCall ..
  | .feJmp .. | .feWait .. | .feRdc .. | .feWrc .. | .feCrcb .. | .feCrcw .. | .feHalt .. | .feWatchdog .. | .feTimerExpiry ..
  | .hdlcRxPass .. | .hdlcTxPass .. | .hInDbWrite .. | .hOutAckWrite .. | .hInDWrite .. | .feStart .. | .feStop ..
  | .feStopDone .. | .feCheck .. | .feCheckDone .. | .feWindowWrite .. | .feScrub .. | .battScrubRead .. | .pathRead ..
  | .pathWrite .. | .battWindowAccess .. | .memChannelTrained .. | .pounceUnitComplete .. | .go .. | .stop .. | .heartbeatSend
  | .mirrorLinkLoss | .join .. | .joinTimeout | .serve .. | .leave .. | .forceTakeover .. | .claimInChange .. | .takeoverDecision
  | .takeover | .claimConflict | .convTimeout | .helloSend .. | .memberDepart .. | .proxyAccess .. | .proxyTimeout ..
  | .retryTimeout .. | .gelvyLaneLos .. | .gelvyTrained .. | .pcieReset .. | .dmaTailWrite .. | .dmaDescriptorDone ..
  | .wrDirect .. | .rdDirect .. | .setAddr .. | .wrInd .. | .rdInd .. | .status | .smbusStretchLimit | .smbusTimeout ..
  | .masterReset .. | .jtagBusAccess .. | .extest .. | .hatterBoot | .hatterBootTimeout | .hatterWatchdog .. | .restart ..
  | .h2cDbWrite .. | .getInfo | .imgWrite .. | .imgErase .. | .imgCommit .. | .feLoad | .c2hAckWrite .. | .remapSwap .. | .eoi ..
  | .msixUnmask .. | .bringup .. | .solo .. | .quarantine .. | .release .. | .pageReady .. | .fatalCause .. | .lcalRun ..
  | .tcalRun .. | .mcalRun .. | .calPeriodExpiry .. | .blockingRunStart .. | .blockingRunComplete .. | .blockingRunAbort ..
  | .mismatch .. | .prog .. | .fuseProgDone .. | .fuseProgAbort .. | .gaugeClear .. | .gWr .. | .traceStart .. | .traceStop ..
  | .traceReset .. | .tRdIdxWrite .. | .pop .. | .sclkRefresh | .railToleranceChange .. | .pllRelock .. | .txPllLockLoss ..
  | .refReturn .. | .refOorChange .. | .gelvySignalDetect .. | .helloTimeout .. | .timingPortLinkChange .. | .hatterRun
  | .memChannelFail .. => true

end Sys2Proof
end

