-- ==== Sys2Proof/Laws/PerInstr.lean ====
section
/-!
SUPPORT. The families of statements made per command. `NoWord`: the table gives no row any bits, so that no word spells the command.
-/

namespace Sys2Proof.Laws.NoWord

open Sys2Proof

/-- No word, of whatever length, spells the command. -/
def Statement (i : Instr) : Prop := ∀ nbits w : Nat, decodeTableWord nbits w ≠ some i

theorem of_any (i : Instr) : Statement i := fun _ _ h => nomatch h

end Sys2Proof.Laws.NoWord

open Sys2Proof

theorem Sys2Proof.Laws.NoWord.powerOn (bothDown : Bool) : Sys2Proof.Laws.NoWord.Statement (.powerOn bothDown) := Sys2Proof.Laws.NoWord.of_any _
theorem Sys2Proof.Laws.NoWord.resetNAssert (ns : Nat) : Sys2Proof.Laws.NoWord.Statement (.resetNAssert ns) := Sys2Proof.Laws.NoWord.of_any _
theorem Sys2Proof.Laws.NoWord.brownOut : Sys2Proof.Laws.NoWord.Statement (.brownOut) := Sys2Proof.Laws.NoWord.of_any _
theorem Sys2Proof.Laws.NoWord.seqViolation (kind : Fin 5) (inService : Bool) : Sys2Proof.Laws.NoWord.Statement (.seqViolation kind inService) := Sys2Proof.Laws.NoWord.of_any _
theorem Sys2Proof.Laws.NoWord.internalResetEnd (s1 s2 s3 : BitVec 9) (refs : BitVec 5) : Sys2Proof.Laws.NoWord.Statement (.internalResetEnd s1 s2 s3 refs) := Sys2Proof.Laws.NoWord.of_any _
theorem Sys2Proof.Laws.NoWord.fuseReadComplete (crcOk : Bool) (fact : List (Nat × Int)) : Sys2Proof.Laws.NoWord.Statement (.fuseReadComplete crcOk fact) := Sys2Proof.Laws.NoWord.of_any _
theorem Sys2Proof.Laws.NoWord.coreCfgWrite (m : Fin 8) (v : Word) : Sys2Proof.Laws.NoWord.Statement (.coreCfgWrite m v) := Sys2Proof.Laws.NoWord.of_any _
theorem Sys2Proof.Laws.NoWord.corePllRelock : Sys2Proof.Laws.NoWord.Statement (.corePllRelock) := Sys2Proof.Laws.NoWord.of_any _
theorem Sys2Proof.Laws.NoWord.coreClockLockLoss (cclk eclk sclk : Bool) : Sys2Proof.Laws.NoWord.Statement (.coreClockLockLoss cclk eclk sclk) := Sys2Proof.Laws.NoWord.of_any _
theorem Sys2Proof.Laws.NoWord.mclkLockLoss : Sys2Proof.Laws.NoWord.Statement (.mclkLockLoss) := Sys2Proof.Laws.NoWord.of_any _
theorem Sys2Proof.Laws.NoWord.refLoss (input : Fin 5) : Sys2Proof.Laws.NoWord.Statement (.refLoss input) := Sys2Proof.Laws.NoWord.of_any _
theorem Sys2Proof.Laws.NoWord.memPllLockLoss : Sys2Proof.Laws.NoWord.Statement (.memPllLockLoss) := Sys2Proof.Laws.NoWord.of_any _
theorem Sys2Proof.Laws.NoWord.crossingOverflow (xid : Fin 32) (index : Fin 256) : Sys2Proof.Laws.NoWord.Statement (.crossingOverflow xid index) := Sys2Proof.Laws.NoWord.of_any _
theorem Sys2Proof.Laws.NoWord.frameTick (o : FrameObs) : Sys2Proof.Laws.NoWord.Statement (.frameTick o) := Sys2Proof.Laws.NoWord.of_any _
theorem Sys2Proof.Laws.NoWord.usTick : Sys2Proof.Laws.NoWord.Statement (.usTick) := Sys2Proof.Laws.NoWord.of_any _
theorem Sys2Proof.Laws.NoWord.registerWrite (m : Fin 8) (a : Nat) (v : Word) (be : Fin 16) (late : Bool) (hw : Option HwWrite) : Sys2Proof.Laws.NoWord.Statement (.registerWrite m a v be late hw) := Sys2Proof.Laws.NoWord.of_any _
theorem Sys2Proof.Laws.NoWord.lgPostedWrite (m : Fin 8) (lg : Fin 16) (l : List (Nat × Word × Nat)) : Sys2Proof.Laws.NoWord.Statement (.lgPostedWrite m lg l) := Sys2Proof.Laws.NoWord.of_any _
theorem Sys2Proof.Laws.NoWord.postedWriteLand (lg : Fin 16) (late : Bool) : Sys2Proof.Laws.NoWord.Statement (.postedWriteLand lg late) := Sys2Proof.Laws.NoWord.of_any _
theorem Sys2Proof.Laws.NoWord.lgReadComplete (m : Fin 8) (lg : Fin 16) (off : Fin 0x10000) (late : Bool) : Sys2Proof.Laws.NoWord.Statement (.lgReadComplete m lg off late) := Sys2Proof.Laws.NoWord.of_any _
theorem Sys2Proof.Laws.NoWord.pageLock (m : Fin 8) (page : Fin 576) : Sys2Proof.Laws.NoWord.Statement (.pageLock m page) := Sys2Proof.Laws.NoWord.of_any _
theorem Sys2Proof.Laws.NoWord.parActWrite (m : Fin 8) (page : Fin 576) (v : Word) : Sys2Proof.Laws.NoWord.Statement (.parActWrite m page v) := Sys2Proof.Laws.NoWord.of_any _
theorem Sys2Proof.Laws.NoWord.parityScanPass (us : Nat) (bad : List Nat) : Sys2Proof.Laws.NoWord.Statement (.parityScanPass us bad) := Sys2Proof.Laws.NoWord.of_any _
theorem Sys2Proof.Laws.NoWord.pageSrst (m : Fin 8) (page : Fin 576) : Sys2Proof.Laws.NoWord.Statement (.pageSrst m page) := Sys2Proof.Laws.NoWord.of_any _
theorem Sys2Proof.Laws.NoWord.cntClr (m : Fin 8) (page : Fin 576) : Sys2Proof.Laws.NoWord.Statement (.cntClr m page) := Sys2Proof.Laws.NoWord.of_any _
theorem Sys2Proof.Laws.NoWord.counterPreset (m : Fin 8) (a : Nat) (v : Word) (n : Word) : Sys2Proof.Laws.NoWord.Statement (.counterPreset m a v n) := Sys2Proof.Laws.NoWord.of_any _
theorem Sys2Proof.Laws.NoWord.occAckWrite (m : Fin 8) (a : Nat) (ack : Fin 0x10000) : Sys2Proof.Laws.NoWord.Statement (.occAckWrite m a ack) := Sys2Proof.Laws.NoWord.of_any _
theorem Sys2Proof.Laws.NoWord.counterLowRead (m : Fin 8) (a : Nat) : Sys2Proof.Laws.NoWord.Statement (.counterLowRead m a) := Sys2Proof.Laws.NoWord.of_any _
theorem Sys2Proof.Laws.NoWord.snapTake (m : Fin 8) (late : Bool) : Sys2Proof.Laws.NoWord.Statement (.snapTake m late) := Sys2Proof.Laws.NoWord.of_any _
theorem Sys2Proof.Laws.NoWord.stItemBWrite (m : Fin 8) (arg : Word) : Sys2Proof.Laws.NoWord.Statement (.stItemBWrite m arg) := Sys2Proof.Laws.NoWord.of_any _
theorem Sys2Proof.Laws.NoWord.admitCmd (m : Fin 8) : Sys2Proof.Laws.NoWord.Statement (.admitCmd m) := Sys2Proof.Laws.NoWord.of_any _
theorem Sys2Proof.Laws.NoWord.cancel (m : Fin 8) : Sys2Proof.Laws.NoWord.Statement (.cancel m) := Sys2Proof.Laws.NoWord.of_any _
theorem Sys2Proof.Laws.NoWord.clear (m : Fin 8) : Sys2Proof.Laws.NoWord.Statement (.clear m) := Sys2Proof.Laws.NoWord.of_any _
theorem Sys2Proof.Laws.NoWord.plankDispatch (sfn tick : Nat) (refused : List (Nat × Nat × Nat)) : Sys2Proof.Laws.NoWord.Statement (.plankDispatch sfn tick refused) := Sys2Proof.Laws.NoWord.of_any _
theorem Sys2Proof.Laws.NoWord.rdIdxWrite (m : Fin 8) (idx : Word) : Sys2Proof.Laws.NoWord.Statement (.rdIdxWrite m idx) := Sys2Proof.Laws.NoWord.of_any _
theorem Sys2Proof.Laws.NoWord.find (m : Fin 8) : Sys2Proof.Laws.NoWord.Statement (.find m) := Sys2Proof.Laws.NoWord.of_any _
theorem Sys2Proof.Laws.NoWord.findComplete (m : Fin 8) : Sys2Proof.Laws.NoWord.Statement (.findComplete m) := Sys2Proof.Laws.NoWord.of_any _
theorem Sys2Proof.Laws.NoWord.actionMessageRx (e : Env) (a : ActMsg) (check : List Nat) : Sys2Proof.Laws.NoWord.Statement (.actionMessageRx e a check) := Sys2Proof.Laws.NoWord.of_any _
theorem Sys2Proof.Laws.NoWord.signalDetect (c : Fin 192) : Sys2Proof.Laws.NoWord.Statement (.signalDetect c) := Sys2Proof.Laws.NoWord.of_any _
theorem Sys2Proof.Laws.NoWord.signalDetectLoss (c : Fin 192) (held : Bool) : Sys2Proof.Laws.NoWord.Statement (.signalDetectLoss c held) := Sys2Proof.Laws.NoWord.of_any _
theorem Sys2Proof.Laws.NoWord.rateDwellExpiry (c : Fin 192) : Sys2Proof.Laws.NoWord.Statement (.rateDwellExpiry c) := Sys2Proof.Laws.NoWord.of_any _
theorem Sys2Proof.Laws.NoWord.cdrLock (c : Fin 192) : Sys2Proof.Laws.NoWord.Statement (.cdrLock c) := Sys2Proof.Laws.NoWord.of_any _
theorem Sys2Proof.Laws.NoWord.frameHuntTimeout (c : Fin 192) : Sys2Proof.Laws.NoWord.Statement (.frameHuntTimeout c) := Sys2Proof.Laws.NoWord.of_any _
theorem Sys2Proof.Laws.NoWord.traceWaitExpiry (c : Fin 192) : Sys2Proof.Laws.NoWord.Statement (.traceWaitExpiry c) := Sys2Proof.Laws.NoWord.of_any _
theorem Sys2Proof.Laws.NoWord.admitGo (m : Fin 8) (c : Fin 192) (late : Bool) : Sys2Proof.Laws.NoWord.Statement (.admitGo m c late) := Sys2Proof.Laws.NoWord.of_any _
theorem Sys2Proof.Laws.NoWord.admittedExpiry (c : Fin 192) : Sys2Proof.Laws.NoWord.Statement (.admittedExpiry c) := Sys2Proof.Laws.NoWord.of_any _
theorem Sys2Proof.Laws.NoWord.rehuntExpiry (c : Fin 192) : Sys2Proof.Laws.NoWord.Statement (.rehuntExpiry c) := Sys2Proof.Laws.NoWord.of_any _
theorem Sys2Proof.Laws.NoWord.holdOffExpiry (c : Fin 192) : Sys2Proof.Laws.NoWord.Statement (.holdOffExpiry c) := Sys2Proof.Laws.NoWord.of_any _
theorem Sys2Proof.Laws.NoWord.start (m : Fin 8) (lg : Fin 16) : Sys2Proof.Laws.NoWord.Statement (.start m lg) := Sys2Proof.Laws.NoWord.of_any _
theorem Sys2Proof.Laws.NoWord.eyeMeasureDone (lg : Fin 16) (free : Bool) (width height : Nat) : Sys2Proof.Laws.NoWord.Statement (.eyeMeasureDone lg free width height) := Sys2Proof.Laws.NoWord.of_any _
theorem Sys2Proof.Laws.NoWord.lineFrame (c : Fin 192) (o : LineObs) : Sys2Proof.Laws.NoWord.Statement (.lineFrame c o) := Sys2Proof.Laws.NoWord.of_any _
theorem Sys2Proof.Laws.NoWord.tieWindowClose (c : Fin 192) : Sys2Proof.Laws.NoWord.Statement (.tieWindowClose c) := Sys2Proof.Laws.NoWord.of_any _
theorem Sys2Proof.Laws.NoWord.lofDeclare (c : Fin 192) : Sys2Proof.Laws.NoWord.Statement (.lofDeclare c) := Sys2Proof.Laws.NoWord.of_any _
theorem Sys2Proof.Laws.NoWord.lofClear (c : Fin 192) : Sys2Proof.Laws.NoWord.Statement (.lofClear c) := Sys2Proof.Laws.NoWord.of_any _
theorem Sys2Proof.Laws.NoWord.lomDeclare (c : Fin 192) : Sys2Proof.Laws.NoWord.Statement (.lomDeclare c) := Sys2Proof.Laws.NoWord.of_any _
theorem Sys2Proof.Laws.NoWord.lomClear (c : Fin 192) : Sys2Proof.Laws.NoWord.Statement (.lomClear c) := Sys2Proof.Laws.NoWord.of_any _
theorem Sys2Proof.Laws.NoWord.lolDeclare (c : Fin 192) : Sys2Proof.Laws.NoWord.Statement (.lolDeclare c) := Sys2Proof.Laws.NoWord.of_any _
theorem Sys2Proof.Laws.NoWord.lolClear (c : Fin 192) : Sys2Proof.Laws.NoWord.Statement (.lolClear c) := Sys2Proof.Laws.NoWord.of_any _
theorem Sys2Proof.Laws.NoWord.blockLockChange (c : Fin 192) (lock : Bool) : Sys2Proof.Laws.NoWord.Statement (.blockLockChange c lock) := Sys2Proof.Laws.NoWord.of_any _
theorem Sys2Proof.Laws.NoWord.losDeclare (lane : Fin 192) (energyOnly : Bool) : Sys2Proof.Laws.NoWord.Statement (.losDeclare lane energyOnly) := Sys2Proof.Laws.NoWord.of_any _
theorem Sys2Proof.Laws.NoWord.losClear (lane : Fin 192) : Sys2Proof.Laws.NoWord.Statement (.losClear lane) := Sys2Proof.Laws.NoWord.of_any _
theorem Sys2Proof.Laws.NoWord.defectDeclare (e : Ent) (d : Defect) : Sys2Proof.Laws.NoWord.Statement (.defectDeclare e d) := Sys2Proof.Laws.NoWord.of_any _
theorem Sys2Proof.Laws.NoWord.defectClear (e : Ent) (d : Defect) : Sys2Proof.Laws.NoWord.Statement (.defectClear e d) := Sys2Proof.Laws.NoWord.of_any _
theorem Sys2Proof.Laws.NoWord.otnDefectDeclare (e : Ent) (d : Defect) : Sys2Proof.Laws.NoWord.Statement (.otnDefectDeclare e d) := Sys2Proof.Laws.NoWord.of_any _
theorem Sys2Proof.Laws.NoWord.otnDefectClear (e : Ent) (d : Defect) : Sys2Proof.Laws.NoWord.Statement (.otnDefectClear e d) := Sys2Proof.Laws.NoWord.of_any _
theorem Sys2Proof.Laws.NoWord.ethDefectChange (c : Fin 192) (d : Fin 3) (on : Bool) : Sys2Proof.Laws.NoWord.Statement (.ethDefectChange c d on) := Sys2Proof.Laws.NoWord.of_any _
theorem Sys2Proof.Laws.NoWord.tribDefectDeclare (lg : Fin 16) (kind : Fin 2) (num : Fin 252) (d : Fin 4) (on : Bool) : Sys2Proof.Laws.NoWord.Statement (.tribDefectDeclare lg kind num d on) := Sys2Proof.Laws.NoWord.of_any _
theorem Sys2Proof.Laws.NoWord.pwRead (m : Fin 8) (lg : Fin 16) : Sys2Proof.Laws.NoWord.Statement (.pwRead m lg) := Sys2Proof.Laws.NoWord.of_any _
theorem Sys2Proof.Laws.NoWord.pwWrite (m : Fin 8) (lg : Fin 16) (late : Bool) : Sys2Proof.Laws.NoWord.Statement (.pwWrite m lg late) := Sys2Proof.Laws.NoWord.of_any _
theorem Sys2Proof.Laws.NoWord.tmRead (m : Fin 8) (lg : Fin 16) : Sys2Proof.Laws.NoWord.Statement (.tmRead m lg) := Sys2Proof.Laws.NoWord.of_any _
theorem Sys2Proof.Laws.NoWord.tmWrite (m : Fin 8) (lg : Fin 16) (late : Bool) : Sys2Proof.Laws.NoWord.Statement (.tmWrite m lg late) := Sys2Proof.Laws.NoWord.of_any _
theorem Sys2Proof.Laws.NoWord.tsiWindowWrite (m : Fin 8) (off : Fin 0x80000) (v : Word) : Sys2Proof.Laws.NoWord.Statement (.tsiWindowWrite m off v) := Sys2Proof.Laws.NoWord.of_any _
theorem Sys2Proof.Laws.NoWord.seal (m : Fin 8) : Sys2Proof.Laws.NoWord.Statement (.seal m) := Sys2Proof.Laws.NoWord.of_any _
theorem Sys2Proof.Laws.NoWord.sealDone : Sys2Proof.Laws.NoWord.Statement (.sealDone) := Sys2Proof.Laws.NoWord.of_any _
theorem Sys2Proof.Laws.NoWord.abandon (m : Fin 8) (copied : Fin 0x100000) : Sys2Proof.Laws.NoWord.Statement (.abandon m copied) := Sys2Proof.Laws.NoWord.of_any _
theorem Sys2Proof.Laws.NoWord.copyActive (m : Fin 8) : Sys2Proof.Laws.NoWord.Statement (.copyActive m) := Sys2Proof.Laws.NoWord.of_any _
theorem Sys2Proof.Laws.NoWord.copyActiveDone : Sys2Proof.Laws.NoWord.Statement (.copyActiveDone) := Sys2Proof.Laws.NoWord.of_any _
theorem Sys2Proof.Laws.NoWord.loxWindowWrite (m : Fin 8) (off : Fin 0x40000) (v : Word) : Sys2Proof.Laws.NoWord.Statement (.loxWindowWrite m off v) := Sys2Proof.Laws.NoWord.of_any _
theorem Sys2Proof.Laws.NoWord.loxSeal (m : Fin 8) : Sys2Proof.Laws.NoWord.Statement (.loxSeal m) := Sys2Proof.Laws.NoWord.of_any _
theorem Sys2Proof.Laws.NoWord.loxSealDone : Sys2Proof.Laws.NoWord.Statement (.loxSealDone) := Sys2Proof.Laws.NoWord.of_any _
theorem Sys2Proof.Laws.NoWord.loxAbandon (m : Fin 8) (copied : Fin 0x100000) : Sys2Proof.Laws.NoWord.Statement (.loxAbandon m copied) := Sys2Proof.Laws.NoWord.of_any _
theorem Sys2Proof.Laws.NoWord.loxCopyActive (m : Fin 8) : Sys2Proof.Laws.NoWord.Statement (.loxCopyActive m) := Sys2Proof.Laws.NoWord.of_any _
theorem Sys2Proof.Laws.NoWord.loxCopyActiveDone : Sys2Proof.Laws.NoWord.Statement (.loxCopyActiveDone) := Sys2Proof.Laws.NoWord.of_any _
theorem Sys2Proof.Laws.NoWord.mwRead (m : Fin 8) (lg : Fin 16) : Sys2Proof.Laws.NoWord.Statement (.mwRead m lg) := Sys2Proof.Laws.NoWord.of_any _
theorem Sys2Proof.Laws.NoWord.mwWrite (m : Fin 8) (lg : Fin 16) : Sys2Proof.Laws.NoWord.Statement (.mwWrite m lg) := Sys2Proof.Laws.NoWord.of_any _
theorem Sys2Proof.Laws.NoWord.check (m : Fin 8) (lg : Fin 16) : Sys2Proof.Laws.NoWord.Statement (.check m lg) := Sys2Proof.Laws.NoWord.of_any _
theorem Sys2Proof.Laws.NoWord.checkDone (lg : Fin 16) : Sys2Proof.Laws.NoWord.Statement (.checkDone lg) := Sys2Proof.Laws.NoWord.of_any _
theorem Sys2Proof.Laws.NoWord.vgRead (m : Fin 8) (lg : Fin 16) : Sys2Proof.Laws.NoWord.Statement (.vgRead m lg) := Sys2Proof.Laws.NoWord.of_any _
theorem Sys2Proof.Laws.NoWord.vgWrite (m : Fin 8) (lg : Fin 16) (late : Bool) : Sys2Proof.Laws.NoWord.Statement (.vgWrite m lg late) := Sys2Proof.Laws.NoWord.of_any _
theorem Sys2Proof.Laws.NoWord.containerAcquired (c : Fin 192) (e : Fin 255) (tx : Bool) : Sys2Proof.Laws.NoWord.Statement (.containerAcquired c e tx) := Sys2Proof.Laws.NoWord.of_any _
theorem Sys2Proof.Laws.NoWord.clientFrameMap (c : Fin 192) (frame : List Byte) (raw : Nat) : Sys2Proof.Laws.NoWord.Statement (.clientFrameMap c frame raw) := Sys2Proof.Laws.NoWord.of_any _
theorem Sys2Proof.Laws.NoWord.gfpFrameRx (c : Fin 192) (o : GfpObs) (raw : Nat) : Sys2Proof.Laws.NoWord.Statement (.gfpFrameRx c o raw) := Sys2Proof.Laws.NoWord.of_any _
theorem Sys2Proof.Laws.NoWord.csfSend (c : Fin 192) : Sys2Proof.Laws.NoWord.Statement (.csfSend c) := Sys2Proof.Laws.NoWord.of_any _
theorem Sys2Proof.Laws.NoWord.lcasMemberFail (lg : Fin 16) (g : Fin 16) (mem : Fin 64) : Sys2Proof.Laws.NoWord.Statement (.lcasMemberFail lg g mem) := Sys2Proof.Laws.NoWord.of_any _
theorem Sys2Proof.Laws.NoWord.lcasMemberRestore (lg : Fin 16) (g : Fin 16) (mem : Fin 64) : Sys2Proof.Laws.NoWord.Statement (.lcasMemberRestore lg g mem) := Sys2Proof.Laws.NoWord.of_any _
theorem Sys2Proof.Laws.NoWord.selectorAdmit (n : Fin 4096) : Sys2Proof.Laws.NoWord.Statement (.selectorAdmit n) := Sys2Proof.Laws.NoWord.of_any _
theorem Sys2Proof.Laws.NoWord.selectorAdmitRetry (n : Fin 4096) : Sys2Proof.Laws.NoWord.Statement (.selectorAdmitRetry n) := Sys2Proof.Laws.NoWord.of_any _
theorem Sys2Proof.Laws.NoWord.wtrExpiry (n : Fin 4096) : Sys2Proof.Laws.NoWord.Statement (.wtrExpiry n) := Sys2Proof.Laws.NoWord.of_any _
theorem Sys2Proof.Laws.NoWord.swRead (m : Fin 8) (lg : Fin 16) : Sys2Proof.Laws.NoWord.Statement (.swRead m lg) := Sys2Proof.Laws.NoWord.of_any _
theorem Sys2Proof.Laws.NoWord.swWrite (m : Fin 8) (lg : Fin 16) (late : Bool) : Sys2Proof.Laws.NoWord.Statement (.swWrite m lg late) := Sys2Proof.Laws.NoWord.of_any _
theorem Sys2Proof.Laws.NoWord.hitlessAcquired (n : Fin 4096) (diffs : List Int) (period : Nat) : Sys2Proof.Laws.NoWord.Statement (.hitlessAcquired n diffs period) := Sys2Proof.Laws.NoWord.of_any _
theorem Sys2Proof.Laws.NoWord.hitlessFrameDue (n : Fin 4096) (o : HlObs) : Sys2Proof.Laws.NoWord.Statement (.hitlessFrameDue n o) := Sys2Proof.Laws.NoWord.of_any _
theorem Sys2Proof.Laws.NoWord.delayStep (n : Fin 4096) (copyP : Bool) (slacks : List Int) : Sys2Proof.Laws.NoWord.Statement (.delayStep n copyP slacks) := Sys2Proof.Laws.NoWord.of_any _
theorem Sys2Proof.Laws.NoWord.realignAuto (n : Fin 4096) : Sys2Proof.Laws.NoWord.Statement (.realignAuto n) := Sys2Proof.Laws.NoWord.of_any _
theorem Sys2Proof.Laws.NoWord.load (m : Fin 8) : Sys2Proof.Laws.NoWord.Statement (.load m) := Sys2Proof.Laws.NoWord.of_any _
theorem Sys2Proof.Laws.NoWord.nowNsRead (m : Fin 8) : Sys2Proof.Laws.NoWord.Statement (.nowNsRead m) := Sys2Proof.Laws.NoWord.of_any _
theorem Sys2Proof.Laws.NoWord.tbIncWrite (m : Fin 8) (v : Word) : Sys2Proof.Laws.NoWord.Statement (.tbIncWrite m v) := Sys2Proof.Laws.NoWord.of_any _
theorem Sys2Proof.Laws.NoWord.slewStep : Sys2Proof.Laws.NoWord.Statement (.slewStep) := Sys2Proof.Laws.NoWord.of_any _
theorem Sys2Proof.Laws.NoWord.holdover : Sys2Proof.Laws.NoWord.Statement (.holdover) := Sys2Proof.Laws.NoWord.of_any _
theorem Sys2Proof.Laws.NoWord.portTimestamp (port : Fin 1024) (tx : Bool) (id kind raw deskew : Nat) : Sys2Proof.Laws.NoWord.Statement (.portTimestamp port tx id kind raw deskew) := Sys2Proof.Laws.NoWord.of_any _
theorem Sys2Proof.Laws.NoWord.rxPop (m : Fin 8) : Sys2Proof.Laws.NoWord.Statement (.rxPop m) := Sys2Proof.Laws.NoWord.of_any _
theorem Sys2Proof.Laws.NoWord.txPop (m : Fin 8) : Sys2Proof.Laws.NoWord.Statement (.txPop m) := Sys2Proof.Laws.NoWord.of_any _
theorem Sys2Proof.Laws.NoWord.timingPortFrameTx (p : Fin 4) (ctrl : Word) (frame : List Byte) (raw : Nat) : Sys2Proof.Laws.NoWord.Statement (.timingPortFrameTx p ctrl frame raw) := Sys2Proof.Laws.NoWord.of_any _
theorem Sys2Proof.Laws.NoWord.timingPortFrameRx (p : Fin 4) (frame : List Byte) (raw : Nat) : Sys2Proof.Laws.NoWord.Statement (.timingPortFrameRx p frame raw) := Sys2Proof.Laws.NoWord.of_any _
theorem Sys2Proof.Laws.NoWord.ttStampRx (e : Env) (k departure arrival : Nat) (valid : Bool) (ownDeparture ownArrival : Nat) : Sys2Proof.Laws.NoWord.Statement (.ttStampRx e k departure arrival valid ownDeparture ownArrival) := Sys2Proof.Laws.NoWord.of_any _
theorem Sys2Proof.Laws.NoWord.ttResult (p : Fin 8) : Sys2Proof.Laws.NoWord.Statement (.ttResult p) := Sys2Proof.Laws.NoWord.of_any _
theorem Sys2Proof.Laws.NoWord.ppsInEdge (falling : Bool) (raw : Nat) : Sys2Proof.Laws.NoWord.Statement (.ppsInEdge falling raw) := Sys2Proof.Laws.NoWord.of_any _
theorem Sys2Proof.Laws.NoWord.ppsPulseStart : Sys2Proof.Laws.NoWord.Statement (.ppsPulseStart) := Sys2Proof.Laws.NoWord.of_any _
theorem Sys2Proof.Laws.NoWord.ppsPulseEnd : Sys2Proof.Laws.NoWord.Statement (.ppsPulseEnd) := Sys2Proof.Laws.NoWord.of_any _
theorem Sys2Proof.Laws.NoWord.arm (m : Fin 8) : Sys2Proof.Laws.NoWord.Statement (.arm m) := Sys2Proof.Laws.NoWord.of_any _
theorem Sys2Proof.Laws.NoWord.todSendStart : Sys2Proof.Laws.NoWord.Statement (.todSendStart) := Sys2Proof.Laws.NoWord.of_any _
theorem Sys2Proof.Laws.NoWord.todSendDone : Sys2Proof.Laws.NoWord.Statement (.todSendDone) := Sys2Proof.Laws.NoWord.of_any _
theorem Sys2Proof.Laws.NoWord.txAbandon : Sys2Proof.Laws.NoWord.Statement (.txAbandon) := Sys2Proof.Laws.NoWord.of_any _
theorem Sys2Proof.Laws.NoWord.todRxMessage (bytes : List Byte) (raw : Nat) : Sys2Proof.Laws.NoWord.Statement (.todRxMessage bytes raw) := Sys2Proof.Laws.NoWord.of_any _
theorem Sys2Proof.Laws.NoWord.feAdd (e : Fin 64) : Sys2Proof.Laws.NoWord.Statement (.feAdd e) := Sys2Proof.Laws.NoWord.of_any _
theorem Sys2Proof.Laws.NoWord.feSub (e : Fin 64) : Sys2Proof.Laws.NoWord.Statement (.feSub e) := Sys2Proof.Laws.NoWord.of_any _
theorem Sys2Proof.Laws.NoWord.feAnd (e : Fin 64) : Sys2Proof.Laws.NoWord.Statement (.feAnd e) := Sys2Proof.Laws.NoWord.of_any _
theorem Sys2Proof.Laws.NoWord.feOr (e : Fin 64) : Sys2Proof.Laws.NoWord.Statement (.feOr e) := Sys2Proof.Laws.NoWord.of_any _
theorem Sys2Proof.Laws.NoWord.feXor (e : Fin 64) : Sys2Proof.Laws.NoWord.Statement (.feXor e) := Sys2Proof.Laws.NoWord.of_any _
theorem Sys2Proof.Laws.NoWord.feShl (e : Fin 64) : Sys2Proof.Laws.NoWord.Statement (.feShl e) := Sys2Proof.Laws.NoWord.of_any _
theorem Sys2Proof.Laws.NoWord.feShr (e : Fin 64) : Sys2Proof.Laws.NoWord.Statement (.feShr e) := Sys2Proof.Laws.NoWord.of_any _
theorem Sys2Proof.Laws.NoWord.feSha (e : Fin 64) : Sys2Proof.Laws.NoWord.Statement (.feSha e) := Sys2Proof.Laws.NoWord.of_any _
theorem Sys2Proof.Laws.NoWord.feClt (e : Fin 64) : Sys2Proof.Laws.NoWord.Statement (.feClt e) := Sys2Proof.Laws.NoWord.of_any _
theorem Sys2Proof.Laws.NoWord.feCltu (e : Fin 64) : Sys2Proof.Laws.NoWord.Statement (.feCltu e) := Sys2Proof.Laws.NoWord.of_any _
theorem Sys2Proof.Laws.NoWord.feMul (e : Fin 64) : Sys2Proof.Laws.NoWord.Statement (.feMul e) := Sys2Proof.Laws.NoWord.of_any _
theorem Sys2Proof.Laws.NoWord.feMulhi (e : Fin 64) : Sys2Proof.Laws.NoWord.Statement (.feMulhi e) := Sys2Proof.Laws.NoWord.of_any _
theorem Sys2Proof.Laws.NoWord.feAddk (e : Fin 64) : Sys2Proof.Laws.NoWord.Statement (.feAddk e) := Sys2Proof.Laws.NoWord.of_any _
theorem Sys2Proof.Laws.NoWord.feAndk (e : Fin 64) : Sys2Proof.Laws.NoWord.Statement (.feAndk e) := Sys2Proof.Laws.NoWord.of_any _
theorem Sys2Proof.Laws.NoWord.feOrk (e : Fin 64) : Sys2Proof.Laws.NoWord.Statement (.feOrk e) := Sys2Proof.Laws.NoWord.of_any _
theorem Sys2Proof.Laws.NoWord.feXork (e : Fin 64) : Sys2Proof.Laws.NoWord.Statement (.feXork e) := Sys2Proof.Laws.NoWord.of_any _
theorem Sys2Proof.Laws.NoWord.feCltk (e : Fin 64) : Sys2Proof.Laws.NoWord.Statement (.feCltk e) := Sys2Proof.Laws.NoWord.of_any _
theorem Sys2Proof.Laws.NoWord.feKhi (e : Fin 64) : Sys2Proof.Laws.NoWord.Statement (.feKhi e) := Sys2Proof.Laws.NoWord.of_any _
theorem Sys2Proof.Laws.NoWord.feShlk (e : Fin 64) : Sys2Proof.Laws.NoWord.Statement (.feShlk e) := Sys2Proof.Laws.NoWord.of_any _
theorem Sys2Proof.Laws.NoWord.feShrk (e : Fin 64) : Sys2Proof.Laws.NoWord.Statement (.feShrk e) := Sys2Proof.Laws.NoWord.of_any _
theorem Sys2Proof.Laws.NoWord.feShak (e : Fin 64) : Sys2Proof.Laws.NoWord.Statement (.feShak e) := Sys2Proof.Laws.NoWord.of_any _
theorem Sys2Proof.Laws.NoWord.feLdw (e : Fin 64) : Sys2Proof.Laws.NoWord.Statement (.feLdw e) := Sys2Proof.Laws.NoWord.of_any _
theorem Sys2Proof.Laws.NoWord.feLdh (e : Fin 64) : Sys2Proof.Laws.NoWord.Statement (.feLdh e) := Sys2Proof.Laws.NoWord.of_any _
theorem Sys2Proof.Laws.NoWord.feLdhu (e : Fin 64) : Sys2Proof.Laws.NoWord.Statement (.feLdhu e) := Sys2Proof.Laws.NoWord.of_any _
theorem Sys2Proof.Laws.NoWord.feLdb (e : Fin 64) : Sys2Proof.Laws.NoWord.Statement (.feLdb e) := Sys2Proof.Laws.NoWord.of_any _
theorem Sys2Proof.Laws.NoWord.feLdbu (e : Fin 64) : Sys2Proof.Laws.NoWord.Statement (.feLdbu e) := Sys2Proof.Laws.NoWord.of_any _
theorem Sys2Proof.Laws.NoWord.feStw (e : Fin 64) : Sys2Proof.Laws.NoWord.Statement (.feStw e) := Sys2Proof.Laws.NoWord.of_any _
theorem Sys2Proof.Laws.NoWord.feSth (e : Fin 64) : Sys2Proof.Laws.NoWord.Statement (.feSth e) := Sys2Proof.Laws.NoWord.of_any _
theorem Sys2Proof.Laws.NoWord.feStb (e : Fin 64) : Sys2Proof.Laws.NoWord.Statement (.feStb e) := Sys2Proof.Laws.NoWord.of_any _
theorem Sys2Proof.Laws.NoWord.feOldw (e : Fin 64) : Sys2Proof.Laws.NoWord.Statement (.feOldw e) := Sys2Proof.Laws.NoWord.of_any _
theorem Sys2Proof.Laws.NoWord.feOldbu (e : Fin 64) : Sys2Proof.Laws.NoWord.Statement (.feOldbu e) := Sys2Proof.Laws.NoWord.of_any _
theorem Sys2Proof.Laws.NoWord.feOstw (e : Fin 64) : Sys2Proof.Laws.NoWord.Statement (.feOstw e) := Sys2Proof.Laws.NoWord.of_any _
theorem Sys2Proof.Laws.NoWord.feOstb (e : Fin 64) : Sys2Proof.Laws.NoWord.Statement (.feOstb e) := Sys2Proof.Laws.NoWord.of_any _
theorem Sys2Proof.Laws.NoWord.feBld (e : Fin 64) : Sys2Proof.Laws.NoWord.Statement (.feBld e) := Sys2Proof.Laws.NoWord.of_any _
theorem Sys2Proof.Laws.NoWord.feBst (e : Fin 64) : Sys2Proof.Laws.NoWord.Statement (.feBst e) := Sys2Proof.Laws.NoWord.of_any _
theorem Sys2Proof.Laws.NoWord.busOpComplete (e : Fin 64) : Sys2Proof.Laws.NoWord.Statement (.busOpComplete e) := Sys2Proof.Laws.NoWord.of_any _
theorem Sys2Proof.Laws.NoWord.feBsync (e : Fin 64) : Sys2Proof.Laws.NoWord.Statement (.feBsync e) := Sys2Proof.Laws.NoWord.of_any _
theorem Sys2Proof.Laws.NoWord.feBreq (e : Fin 64) : Sys2Proof.Laws.NoWord.Statement (.feBreq e) := Sys2Proof.Laws.NoWord.of_any _
theorem Sys2Proof.Laws.NoWord.feBrne (e : Fin 64) : Sys2Proof.Laws.NoWord.Statement (.feBrne e) := Sys2Proof.Laws.NoWord.of_any _
theorem Sys2Proof.Laws.NoWord.feBrlt (e : Fin 64) : Sys2Proof.Laws.NoWord.Statement (.feBrlt e) := Sys2Proof.Laws.NoWord.of_any _
theorem Sys2Proof.Laws.NoWord.feBrge (e : Fin 64) : Sys2Proof.Laws.NoWord.Statement (.feBrge e) := Sys2Proof.Laws.NoWord.of_any _
theorem Sys2Proof.Laws.NoWord.feBrlo (e : Fin 64) : Sys2Proof.Laws.NoWord.Statement (.feBrlo e) := Sys2Proof.Laws.NoWord.of_any _
theorem Sys2Proof.Laws.NoWord.feBrhs (e : Fin 64) : Sys2Proof.Laws.NoWord.Statement (.feBrhs e) := Sys2Proof.Laws.NoWord.of_any _
theorem Sys2Proof.Laws.NoWord.feCall (e : Fin 64) : Sys2Proof.Laws.NoWord.Statement (.feCall e) := Sys2Proof.Laws.NoWord.of_any _
theorem Sys2Proof.Laws.NoWord.feJmp (e : Fin 64) : Sys2Proof.Laws.NoWord.Statement (.feJmp e) := Sys2Proof.Laws.NoWord.of_any _
theorem Sys2Proof.Laws.NoWord.feWait (e : Fin 64) : Sys2Proof.Laws.NoWord.Statement (.feWait e) := Sys2Proof.Laws.NoWord.of_any _
theorem Sys2Proof.Laws.NoWord.feRdc (e : Fin 64) : Sys2Proof.Laws.NoWord.Statement (.feRdc e) := Sys2Proof.Laws.NoWord.of_any _
theorem Sys2Proof.Laws.NoWord.feWrc (e : Fin 64) : Sys2Proof.Laws.NoWord.Statement (.feWrc e) := Sys2Proof.Laws.NoWord.of_any _
theorem Sys2Proof.Laws.NoWord.feCrcb (e : Fin 64) : Sys2Proof.Laws.NoWord.Statement (.feCrcb e) := Sys2Proof.Laws.NoWord.of_any _
theorem Sys2Proof.Laws.NoWord.feCrcw (e : Fin 64) : Sys2Proof.Laws.NoWord.Statement (.feCrcw e) := Sys2Proof.Laws.NoWord.of_any _
theorem Sys2Proof.Laws.NoWord.feHalt (e : Fin 64) : Sys2Proof.Laws.NoWord.Statement (.feHalt e) := Sys2Proof.Laws.NoWord.of_any _
theorem Sys2Proof.Laws.NoWord.feWatchdog (e : Fin 64) : Sys2Proof.Laws.NoWord.Statement (.feWatchdog e) := Sys2Proof.Laws.NoWord.of_any _
theorem Sys2Proof.Laws.NoWord.feTimerExpiry (e : Fin 64) : Sys2Proof.Laws.NoWord.Statement (.feTimerExpiry e) := Sys2Proof.Laws.NoWord.of_any _
theorem Sys2Proof.Laws.NoWord.hdlcRxPass (e : Fin 64) : Sys2Proof.Laws.NoWord.Statement (.hdlcRxPass e) := Sys2Proof.Laws.NoWord.of_any _
theorem Sys2Proof.Laws.NoWord.hdlcTxPass (e : Fin 64) (caps : List Nat) (stamps : List Nat) : Sys2Proof.Laws.NoWord.Statement (.hdlcTxPass e caps stamps) := Sys2Proof.Laws.NoWord.of_any _
theorem Sys2Proof.Laws.NoWord.hInDbWrite (m : Fin 8) (e : Fin 64) (v : Word) (core : Bool) : Sys2Proof.Laws.NoWord.Statement (.hInDbWrite m e v core) := Sys2Proof.Laws.NoWord.of_any _
theorem Sys2Proof.Laws.NoWord.hOutAckWrite (m : Fin 8) (e : Fin 64) (v : Word) (core : Bool) : Sys2Proof.Laws.NoWord.Statement (.hOutAckWrite m e v core) := Sys2Proof.Laws.NoWord.of_any _
theorem Sys2Proof.Laws.NoWord.hInDWrite (m : Fin 8) (e : Fin 64) (d : Fin 16) (v : Word) (core : Bool) : Sys2Proof.Laws.NoWord.Statement (.hInDWrite m e d v core) := Sys2Proof.Laws.NoWord.of_any _
theorem Sys2Proof.Laws.NoWord.feStart (m : Fin 8) (e : Fin 64) : Sys2Proof.Laws.NoWord.Statement (.feStart m e) := Sys2Proof.Laws.NoWord.of_any _
theorem Sys2Proof.Laws.NoWord.feStop (m : Fin 8) (e : Fin 64) : Sys2Proof.Laws.NoWord.Statement (.feStop m e) := Sys2Proof.Laws.NoWord.of_any _
theorem Sys2Proof.Laws.NoWord.feStopDone (e : Fin 64) : Sys2Proof.Laws.NoWord.Statement (.feStopDone e) := Sys2Proof.Laws.NoWord.of_any _
theorem Sys2Proof.Laws.NoWord.feCheck (m : Fin 8) (e : Fin 64) : Sys2Proof.Laws.NoWord.Statement (.feCheck m e) := Sys2Proof.Laws.NoWord.of_any _
theorem Sys2Proof.Laws.NoWord.feCheckDone (e : Fin 64) : Sys2Proof.Laws.NoWord.Statement (.feCheckDone e) := Sys2Proof.Laws.NoWord.of_any _
theorem Sys2Proof.Laws.NoWord.feWindowWrite (m : Fin 8) (e : Fin 64) (off : Fin 0x10000) (v : Word) : Sys2Proof.Laws.NoWord.Statement (.feWindowWrite m e off v) := Sys2Proof.Laws.NoWord.of_any _
theorem Sys2Proof.Laws.NoWord.feScrub (e : Fin 64) (w : Fin 24576) : Sys2Proof.Laws.NoWord.Statement (.feScrub e w) := Sys2Proof.Laws.NoWord.of_any _
theorem Sys2Proof.Laws.NoWord.battReadReturn (p : Fin 4096) (n : Fin 2048) (o : BattObs) : Sys2Proof.Laws.NoWord.Statement (.battReadReturn p n o) := Sys2Proof.Laws.NoWord.of_any _
theorem Sys2Proof.Laws.NoWord.battScrubRead (ch : Fin 16) (cw : Fin 14913080) (cls : Fin 4) (passMs : Option Nat) : Sys2Proof.Laws.NoWord.Statement (.battScrubRead ch cw cls passMs) := Sys2Proof.Laws.NoWord.of_any _
theorem Sys2Proof.Laws.NoWord.pathRead (m : Fin 8) : Sys2Proof.Laws.NoWord.Statement (.pathRead m) := Sys2Proof.Laws.NoWord.of_any _
theorem Sys2Proof.Laws.NoWord.pathWrite (m : Fin 8) (late : Bool) : Sys2Proof.Laws.NoWord.Statement (.pathWrite m late) := Sys2Proof.Laws.NoWord.of_any _
theorem Sys2Proof.Laws.NoWord.battWindowAccess (m : Fin 8) (off : Fin 0x1000000) (w : Option Word) (cls : Fin 4) : Sys2Proof.Laws.NoWord.Statement (.battWindowAccess m off w cls) := Sys2Proof.Laws.NoWord.of_any _
theorem Sys2Proof.Laws.NoWord.memChannelTrained (ch : Fin 16) (ok : Bool) : Sys2Proof.Laws.NoWord.Statement (.memChannelTrained ch ok) := Sys2Proof.Laws.NoWord.of_any _
theorem Sys2Proof.Laws.NoWord.pounceUnitComplete (u : Fin 32) (bytes : List Byte) (carried : Word) (fcs32 : Bool) : Sys2Proof.Laws.NoWord.Statement (.pounceUnitComplete u bytes carried fcs32) := Sys2Proof.Laws.NoWord.of_any _
theorem Sys2Proof.Laws.NoWord.go (m : Fin 8) (late : Bool) : Sys2Proof.Laws.NoWord.Statement (.go m late) := Sys2Proof.Laws.NoWord.of_any _
theorem Sys2Proof.Laws.NoWord.stop (m : Fin 8) (late : Bool) : Sys2Proof.Laws.NoWord.Statement (.stop m late) := Sys2Proof.Laws.NoWord.of_any _
theorem Sys2Proof.Laws.NoWord.heartbeatSend : Sys2Proof.Laws.NoWord.Statement (.heartbeatSend) := Sys2Proof.Laws.NoWord.of_any _
theorem Sys2Proof.Laws.NoWord.heartbeat (e : Env) (b : Beat) : Sys2Proof.Laws.NoWord.Statement (.heartbeat e b) := Sys2Proof.Laws.NoWord.of_any _
theorem Sys2Proof.Laws.NoWord.mirrorLinkLoss : Sys2Proof.Laws.NoWord.Statement (.mirrorLinkLoss) := Sys2Proof.Laws.NoWord.of_any _
theorem Sys2Proof.Laws.NoWord.fwdWrite (e : Env) (addr : Nat) (val mask : Word) (master sfn : Nat) : Sys2Proof.Laws.NoWord.Statement (.fwdWrite e addr val mask master sfn) := Sys2Proof.Laws.NoWord.of_any _
theorem Sys2Proof.Laws.NoWord.digest (e : Env) (first : Bool) (n : Nat) (d : Digests) : Sys2Proof.Laws.NoWord.Statement (.digest e first n d) := Sys2Proof.Laws.NoWord.of_any _
theorem Sys2Proof.Laws.NoWord.copy (e : Env) (region gen sfn offset : Nat) (data : List (Nat × Nat)) (last : Bool) : Sys2Proof.Laws.NoWord.Statement (.copy e region gen sfn offset data last) := Sys2Proof.Laws.NoWord.of_any _
theorem Sys2Proof.Laws.NoWord.copyAck (e : Env) (region gen : Nat) : Sys2Proof.Laws.NoWord.Statement (.copyAck e region gen) := Sys2Proof.Laws.NoWord.of_any _
theorem Sys2Proof.Laws.NoWord.join (m : Fin 8) : Sys2Proof.Laws.NoWord.Statement (.join m) := Sys2Proof.Laws.NoWord.of_any _
theorem Sys2Proof.Laws.NoWord.joinRx (e : Env) (pairId version : Nat) : Sys2Proof.Laws.NoWord.Statement (.joinRx e pairId version) := Sys2Proof.Laws.NoWord.of_any _
theorem Sys2Proof.Laws.NoWord.accept (e : Env) (c : Nat) : Sys2Proof.Laws.NoWord.Statement (.accept e c) := Sys2Proof.Laws.NoWord.of_any _
theorem Sys2Proof.Laws.NoWord.refuse (e : Env) (code : Nat) : Sys2Proof.Laws.NoWord.Statement (.refuse e code) := Sys2Proof.Laws.NoWord.of_any _
theorem Sys2Proof.Laws.NoWord.joinTimeout : Sys2Proof.Laws.NoWord.Statement (.joinTimeout) := Sys2Proof.Laws.NoWord.of_any _
theorem Sys2Proof.Laws.NoWord.serve (m : Fin 8) : Sys2Proof.Laws.NoWord.Statement (.serve m) := Sys2Proof.Laws.NoWord.of_any _
theorem Sys2Proof.Laws.NoWord.leave (m : Fin 8) : Sys2Proof.Laws.NoWord.Statement (.leave m) := Sys2Proof.Laws.NoWord.of_any _
theorem Sys2Proof.Laws.NoWord.forceTakeover (m : Fin 8) : Sys2Proof.Laws.NoWord.Statement (.forceTakeover m) := Sys2Proof.Laws.NoWord.of_any _
theorem Sys2Proof.Laws.NoWord.claimInChange (level : Bool) : Sys2Proof.Laws.NoWord.Statement (.claimInChange level) := Sys2Proof.Laws.NoWord.of_any _
theorem Sys2Proof.Laws.NoWord.takeoverDecision : Sys2Proof.Laws.NoWord.Statement (.takeoverDecision) := Sys2Proof.Laws.NoWord.of_any _
theorem Sys2Proof.Laws.NoWord.takeover : Sys2Proof.Laws.NoWord.Statement (.takeover) := Sys2Proof.Laws.NoWord.of_any _
theorem Sys2Proof.Laws.NoWord.claimConflict : Sys2Proof.Laws.NoWord.Statement (.claimConflict) := Sys2Proof.Laws.NoWord.of_any _
theorem Sys2Proof.Laws.NoWord.tvwEnd (swing : Nat) : Sys2Proof.Laws.NoWord.Statement (.tvwEnd swing) := Sys2Proof.Laws.NoWord.of_any _
theorem Sys2Proof.Laws.NoWord.convTimeout : Sys2Proof.Laws.NoWord.Statement (.convTimeout) := Sys2Proof.Laws.NoWord.of_any _
theorem Sys2Proof.Laws.NoWord.helloSend (p : Fin 8) : Sys2Proof.Laws.NoWord.Statement (.helloSend p) := Sys2Proof.Laws.NoWord.of_any _
theorem Sys2Proof.Laws.NoWord.hello (e : Env) (h : Hello) : Sys2Proof.Laws.NoWord.Statement (.hello e h) := Sys2Proof.Laws.NoWord.of_any _
theorem Sys2Proof.Laws.NoWord.memberDepart (n : Fin 8) : Sys2Proof.Laws.NoWord.Statement (.memberDepart n) := Sys2Proof.Laws.NoWord.of_any _
theorem Sys2Proof.Laws.NoWord.result (e : Env) (origin status reason applied index : Nat) : Sys2Proof.Laws.NoWord.Statement (.result e origin status reason applied index) := Sys2Proof.Laws.NoWord.of_any _
theorem Sys2Proof.Laws.NoWord.groupCancelRx (e : Env) (origin : Nat) : Sys2Proof.Laws.NoWord.Statement (.groupCancelRx e origin) := Sys2Proof.Laws.NoWord.of_any _
theorem Sys2Proof.Laws.NoWord.proxyAccess (m : Fin 8) (off : Fin 0x4000000) (write : Bool) (be : Fin 16) (data : Word) : Sys2Proof.Laws.NoWord.Statement (.proxyAccess m off write be data) := Sys2Proof.Laws.NoWord.of_any _
theorem Sys2Proof.Laws.NoWord.rraReq (e : Env) (tag off : Nat) (write : Bool) (be : Fin 16) (data : Word) : Sys2Proof.Laws.NoWord.Statement (.rraReq e tag off write be data) := Sys2Proof.Laws.NoWord.of_any _
theorem Sys2Proof.Laws.NoWord.rraRsp (e : Env) (tag status : Nat) (data : Word) : Sys2Proof.Laws.NoWord.Statement (.rraRsp e tag status data) := Sys2Proof.Laws.NoWord.of_any _
theorem Sys2Proof.Laws.NoWord.proxyTimeout (tag : Nat) : Sys2Proof.Laws.NoWord.Statement (.proxyTimeout tag) := Sys2Proof.Laws.NoWord.of_any _
theorem Sys2Proof.Laws.NoWord.superframeRx (p : Fin 8) (o : SuperObs) : Sys2Proof.Laws.NoWord.Statement (.superframeRx p o) := Sys2Proof.Laws.NoWord.of_any _
theorem Sys2Proof.Laws.NoWord.retryTimeout (p : Fin 8) (bulk : Bool) : Sys2Proof.Laws.NoWord.Statement (.retryTimeout p bulk) := Sys2Proof.Laws.NoWord.of_any _
theorem Sys2Proof.Laws.NoWord.ptpMessageRx (e : Env) (ctrl : Nat) (frame : List Byte) : Sys2Proof.Laws.NoWord.Statement (.ptpMessageRx e ctrl frame) := Sys2Proof.Laws.NoWord.of_any _
theorem Sys2Proof.Laws.NoWord.gelvyLaneLos (p : Fin 8) : Sys2Proof.Laws.NoWord.Statement (.gelvyLaneLos p) := Sys2Proof.Laws.NoWord.of_any _
theorem Sys2Proof.Laws.NoWord.gelvyTrained (p : Fin 8) : Sys2Proof.Laws.NoWord.Statement (.gelvyTrained p) := Sys2Proof.Laws.NoWord.of_any _
theorem Sys2Proof.Laws.NoWord.pcieWriteTlp (sp : PcieSpace) (addr : Nat) (l : List (Word × Nat)) (late : Bool) : Sys2Proof.Laws.NoWord.Statement (.pcieWriteTlp sp addr l late) := Sys2Proof.Laws.NoWord.of_any _
theorem Sys2Proof.Laws.NoWord.pcieReadTlp (sp : PcieSpace) (addr n : Nat) (late : Bool) (cls : Fin 4) : Sys2Proof.Laws.NoWord.Statement (.pcieReadTlp sp addr n late cls) := Sys2Proof.Laws.NoWord.of_any _
theorem Sys2Proof.Laws.NoWord.pcieReset (kind : PcieResetKind) (p d : Option Partial) : Sys2Proof.Laws.NoWord.Statement (.pcieReset kind p d) := Sys2Proof.Laws.NoWord.of_any _
theorem Sys2Proof.Laws.NoWord.dmaTailWrite (m : Fin 8) (c : Fin 8) (tail : Fin 4096) : Sys2Proof.Laws.NoWord.Statement (.dmaTailWrite m c tail) := Sys2Proof.Laws.NoWord.of_any _
theorem Sys2Proof.Laws.NoWord.dmaDescriptorDone (c : Fin 8) (addr : Nat) (len : Fin 0x10000) (ctrl : Word) (frame : List Byte) (raw : Nat) (err : Bool) : Sys2Proof.Laws.NoWord.Statement (.dmaDescriptorDone c addr len ctrl frame raw err) := Sys2Proof.Laws.NoWord.of_any _
theorem Sys2Proof.Laws.NoWord.wrDirect (code : Fin 256) (off : Fin 0x10000) (v : Word) (pecOk : Bool) (count : Fin 256) (late : Bool) : Sys2Proof.Laws.NoWord.Statement (.wrDirect code off v pecOk count late) := Sys2Proof.Laws.NoWord.of_any _
theorem Sys2Proof.Laws.NoWord.rdDirect (code : Fin 256) (off : Fin 0x10000) (count : Fin 256) : Sys2Proof.Laws.NoWord.Statement (.rdDirect code off count) := Sys2Proof.Laws.NoWord.of_any _
theorem Sys2Proof.Laws.NoWord.setAddr (a : Word) (pecOk : Bool) (count : Fin 256) : Sys2Proof.Laws.NoWord.Statement (.setAddr a pecOk count) := Sys2Proof.Laws.NoWord.of_any _
theorem Sys2Proof.Laws.NoWord.wrInd (v : Word) (pecOk : Bool) (count : Fin 256) (late slow : Bool) : Sys2Proof.Laws.NoWord.Statement (.wrInd v pecOk count late slow) := Sys2Proof.Laws.NoWord.of_any _
theorem Sys2Proof.Laws.NoWord.rdInd (late slow : Bool) (cls : Fin 4) : Sys2Proof.Laws.NoWord.Statement (.rdInd late slow cls) := Sys2Proof.Laws.NoWord.of_any _
theorem Sys2Proof.Laws.NoWord.status : Sys2Proof.Laws.NoWord.Statement (.status) := Sys2Proof.Laws.NoWord.of_any _
theorem Sys2Proof.Laws.NoWord.smbusStretchLimit : Sys2Proof.Laws.NoWord.Statement (.smbusStretchLimit) := Sys2Proof.Laws.NoWord.of_any _
theorem Sys2Proof.Laws.NoWord.smbusTimeout (p : Option Partial) : Sys2Proof.Laws.NoWord.Statement (.smbusTimeout p) := Sys2Proof.Laws.NoWord.of_any _
theorem Sys2Proof.Laws.NoWord.masterReset (m : Fin 8) (p : Option Partial) : Sys2Proof.Laws.NoWord.Statement (.masterReset m p) := Sys2Proof.Laws.NoWord.of_any _
theorem Sys2Proof.Laws.NoWord.jtagBusAccess (a : Word) (write : Bool) (be : Fin 16) (v : Word) (late : Bool) (cls : Fin 4) : Sys2Proof.Laws.NoWord.Statement (.jtagBusAccess a write be v late cls) := Sys2Proof.Laws.NoWord.of_any _
theorem Sys2Proof.Laws.NoWord.extest (on : Bool) : Sys2Proof.Laws.NoWord.Statement (.extest on) := Sys2Proof.Laws.NoWord.of_any _
theorem Sys2Proof.Laws.NoWord.hatterBoot : Sys2Proof.Laws.NoWord.Statement (.hatterBoot) := Sys2Proof.Laws.NoWord.of_any _
theorem Sys2Proof.Laws.NoWord.hatterBootTimeout : Sys2Proof.Laws.NoWord.Statement (.hatterBootTimeout) := Sys2Proof.Laws.NoWord.of_any _
theorem Sys2Proof.Laws.NoWord.hatterWatchdog (older : Bool) : Sys2Proof.Laws.NoWord.Statement (.hatterWatchdog older) := Sys2Proof.Laws.NoWord.of_any _
theorem Sys2Proof.Laws.NoWord.restart (m : Fin 8) : Sys2Proof.Laws.NoWord.Statement (.restart m) := Sys2Proof.Laws.NoWord.of_any _
theorem Sys2Proof.Laws.NoWord.h2cDbWrite (m : Fin 8) (v : Word) : Sys2Proof.Laws.NoWord.Statement (.h2cDbWrite m v) := Sys2Proof.Laws.NoWord.of_any _
theorem Sys2Proof.Laws.NoWord.getInfo : Sys2Proof.Laws.NoWord.Statement (.getInfo) := Sys2Proof.Laws.NoWord.of_any _
theorem Sys2Proof.Laws.NoWord.imgWrite (ok : Bool) (upto : Nat) : Sys2Proof.Laws.NoWord.Statement (.imgWrite ok upto) := Sys2Proof.Laws.NoWord.of_any _
theorem Sys2Proof.Laws.NoWord.imgErase (ok : Bool) (upto : Nat) : Sys2Proof.Laws.NoWord.Statement (.imgErase ok upto) := Sys2Proof.Laws.NoWord.of_any _
theorem Sys2Proof.Laws.NoWord.imgCommit (ok : Bool) : Sys2Proof.Laws.NoWord.Statement (.imgCommit ok) := Sys2Proof.Laws.NoWord.of_any _
theorem Sys2Proof.Laws.NoWord.feLoad : Sys2Proof.Laws.NoWord.Statement (.feLoad) := Sys2Proof.Laws.NoWord.of_any _
theorem Sys2Proof.Laws.NoWord.c2hAckWrite (m : Fin 8) (v : Word) : Sys2Proof.Laws.NoWord.Statement (.c2hAckWrite m v) := Sys2Proof.Laws.NoWord.of_any _
theorem Sys2Proof.Laws.NoWord.remapSwap (m : Fin 8) (v : Word) : Sys2Proof.Laws.NoWord.Statement (.remapSwap m v) := Sys2Proof.Laws.NoWord.of_any _
theorem Sys2Proof.Laws.NoWord.eoi (m : Fin 8) (v : Word) : Sys2Proof.Laws.NoWord.Statement (.eoi m v) := Sys2Proof.Laws.NoWord.of_any _
theorem Sys2Proof.Laws.NoWord.msixUnmask (v : Fin 32) : Sys2Proof.Laws.NoWord.Statement (.msixUnmask v) := Sys2Proof.Laws.NoWord.of_any _
theorem Sys2Proof.Laws.NoWord.bringup (m : Fin 8) : Sys2Proof.Laws.NoWord.Statement (.bringup m) := Sys2Proof.Laws.NoWord.of_any _
theorem Sys2Proof.Laws.NoWord.solo (m : Fin 8) (late : Bool) : Sys2Proof.Laws.NoWord.Statement (.solo m late) := Sys2Proof.Laws.NoWord.of_any _
theorem Sys2Proof.Laws.NoWord.quarantine (m : Fin 8) (late : Bool) : Sys2Proof.Laws.NoWord.Statement (.quarantine m late) := Sys2Proof.Laws.NoWord.of_any _
theorem Sys2Proof.Laws.NoWord.release (m : Fin 8) (late : Bool) : Sys2Proof.Laws.NoWord.Statement (.release m late) := Sys2Proof.Laws.NoWord.of_any _
theorem Sys2Proof.Laws.NoWord.pageReady (page : Fin 576) (ok : Bool) : Sys2Proof.Laws.NoWord.Statement (.pageReady page ok) := Sys2Proof.Laws.NoWord.of_any _
theorem Sys2Proof.Laws.NoWord.fatalCause (bit : Fin 3) : Sys2Proof.Laws.NoWord.Statement (.fatalCause bit) := Sys2Proof.Laws.NoWord.of_any _
theorem Sys2Proof.Laws.NoWord.regionMeasure (temps : List Int) (volts : List Nat) : Sys2Proof.Laws.NoWord.Statement (.regionMeasure temps volts) := Sys2Proof.Laws.NoWord.of_any _
theorem Sys2Proof.Laws.NoWord.lcalRun (m : Fin 8) (lg : Fin 16) : Sys2Proof.Laws.NoWord.Statement (.lcalRun m lg) := Sys2Proof.Laws.NoWord.of_any _
theorem Sys2Proof.Laws.NoWord.tcalRun (m : Fin 8) : Sys2Proof.Laws.NoWord.Statement (.tcalRun m) := Sys2Proof.Laws.NoWord.of_any _
theorem Sys2Proof.Laws.NoWord.mcalRun (m : Fin 8) : Sys2Proof.Laws.NoWord.Statement (.mcalRun m) := Sys2Proof.Laws.NoWord.of_any _
theorem Sys2Proof.Laws.NoWord.calPeriodExpiry (kind : Fin 5) (target : Fin 1024) : Sys2Proof.Laws.NoWord.Statement (.calPeriodExpiry kind target) := Sys2Proof.Laws.NoWord.of_any _
theorem Sys2Proof.Laws.NoWord.blockingRunStart (kind : Fin 5) (target : Fin 1024) : Sys2Proof.Laws.NoWord.Statement (.blockingRunStart kind target) := Sys2Proof.Laws.NoWord.of_any _
theorem Sys2Proof.Laws.NoWord.blockingRunComplete (kind : Fin 5) (target : Fin 1024) (rx tx : Int) (dq : List Nat) (fig0 fig1 : Nat) : Sys2Proof.Laws.NoWord.Statement (.blockingRunComplete kind target rx tx dq fig0 fig1) := Sys2Proof.Laws.NoWord.of_any _
theorem Sys2Proof.Laws.NoWord.blockingRunAbort (kind : Fin 5) (target : Fin 1024) (code : Fin 10) : Sys2Proof.Laws.NoWord.Statement (.blockingRunAbort kind target code) := Sys2Proof.Laws.NoWord.of_any _
theorem Sys2Proof.Laws.NoWord.mismatch (lane : Fin 192) : Sys2Proof.Laws.NoWord.Statement (.mismatch lane) := Sys2Proof.Laws.NoWord.of_any _
theorem Sys2Proof.Laws.NoWord.prog (m : Fin 8) (low : Bool) : Sys2Proof.Laws.NoWord.Statement (.prog m low) := Sys2Proof.Laws.NoWord.of_any _
theorem Sys2Proof.Laws.NoWord.fuseProgDone (ok : Bool) : Sys2Proof.Laws.NoWord.Statement (.fuseProgDone ok) := Sys2Proof.Laws.NoWord.of_any _
theorem Sys2Proof.Laws.NoWord.fuseProgAbort (n : Fin 16) (part : Word) : Sys2Proof.Laws.NoWord.Statement (.fuseProgAbort n part) := Sys2Proof.Laws.NoWord.of_any _
theorem Sys2Proof.Laws.NoWord.gaugeClear (m : Fin 8) : Sys2Proof.Laws.NoWord.Statement (.gaugeClear m) := Sys2Proof.Laws.NoWord.of_any _
theorem Sys2Proof.Laws.NoWord.gWr (m : Fin 8) (v : Word) : Sys2Proof.Laws.NoWord.Statement (.gWr m v) := Sys2Proof.Laws.NoWord.of_any _
theorem Sys2Proof.Laws.NoWord.traceStart (m : Fin 8) : Sys2Proof.Laws.NoWord.Statement (.traceStart m) := Sys2Proof.Laws.NoWord.of_any _
theorem Sys2Proof.Laws.NoWord.traceStop (m : Fin 8) : Sys2Proof.Laws.NoWord.Statement (.traceStop m) := Sys2Proof.Laws.NoWord.of_any _
theorem Sys2Proof.Laws.NoWord.traceReset (m : Fin 8) : Sys2Proof.Laws.NoWord.Statement (.traceReset m) := Sys2Proof.Laws.NoWord.of_any _
theorem Sys2Proof.Laws.NoWord.tRdIdxWrite (m : Fin 8) (idx : Word) : Sys2Proof.Laws.NoWord.Statement (.tRdIdxWrite m idx) := Sys2Proof.Laws.NoWord.of_any _
theorem Sys2Proof.Laws.NoWord.instrTagRecord (e : Fin 64) (pc : Nat) (instr cycle : Word) (stall causes complete : Nat) (fault : Bool) : Sys2Proof.Laws.NoWord.Statement (.instrTagRecord e pc instr cycle stall causes complete fault) := Sys2Proof.Laws.NoWord.of_any _
theorem Sys2Proof.Laws.NoWord.pop (m : Fin 8) : Sys2Proof.Laws.NoWord.Statement (.pop m) := Sys2Proof.Laws.NoWord.of_any _
theorem Sys2Proof.Laws.NoWord.sclkRefresh : Sys2Proof.Laws.NoWord.Statement (.sclkRefresh) := Sys2Proof.Laws.NoWord.of_any _
theorem Sys2Proof.Laws.NoWord.railToleranceChange (w : Supply) (l : Level) : Sys2Proof.Laws.NoWord.Statement (.railToleranceChange w l) := Sys2Proof.Laws.NoWord.of_any _
theorem Sys2Proof.Laws.NoWord.pllRelock (p : Pll) : Sys2Proof.Laws.NoWord.Statement (.pllRelock p) := Sys2Proof.Laws.NoWord.of_any _
theorem Sys2Proof.Laws.NoWord.txPllLockLoss (p : Pll) : Sys2Proof.Laws.NoWord.Statement (.txPllLockLoss p) := Sys2Proof.Laws.NoWord.of_any _
theorem Sys2Proof.Laws.NoWord.refReturn (input : Fin 5) : Sys2Proof.Laws.NoWord.Statement (.refReturn input) := Sys2Proof.Laws.NoWord.of_any _
theorem Sys2Proof.Laws.NoWord.refOorChange (input : Fin 5) (oor : Bool) : Sys2Proof.Laws.NoWord.Statement (.refOorChange input oor) := Sys2Proof.Laws.NoWord.of_any _
theorem Sys2Proof.Laws.NoWord.gelvySignalDetect (p : Fin 8) : Sys2Proof.Laws.NoWord.Statement (.gelvySignalDetect p) := Sys2Proof.Laws.NoWord.of_any _
theorem Sys2Proof.Laws.NoWord.helloTimeout (p : Fin 8) : Sys2Proof.Laws.NoWord.Statement (.helloTimeout p) := Sys2Proof.Laws.NoWord.of_any _
theorem Sys2Proof.Laws.NoWord.timingPortLinkChange (p : Fin 4) (link lf rf : Bool) : Sys2Proof.Laws.NoWord.Statement (.timingPortLinkChange p link lf rf) := Sys2Proof.Laws.NoWord.of_any _
theorem Sys2Proof.Laws.NoWord.hatterRun : Sys2Proof.Laws.NoWord.Statement (.hatterRun) := Sys2Proof.Laws.NoWord.of_any _
theorem Sys2Proof.Laws.NoWord.memChannelFail (ch : Fin 16) : Sys2Proof.Laws.NoWord.Statement (.memChannelFail ch) := Sys2Proof.Laws.NoWord.of_any _
end

