-- ==== Sys2Proof/Machine/GelvyLine.lean ====
section
/-!
DEFINITION. How the slots of a frame lie on an LG's datapath (01_architecture.md R10), and how a superframe lies on the lanes of a Gelvy
port: content blocks, segments, codewords and lane markers (15_group_gelvy.md R338, R339, R341). The commands carry a superframe and a
message as a whole (Wire.superframe, Wire.msg); these functions say which bits that is. Where an idle block stands is an argument
(log 86); which of a symbol's bits goes first follows IEEE 802.3 (PRESUMED, log 62).
-/

namespace Sys2Proof.Machine

open Sys2Proof

/-! ### Beats of an LG (R10) -/

/-- Row and column of an STS-1 frame of column `j`. -/
def columnPlace (j : Nat) : Nat × Nat := (j / 90, j % 90)

/-- The 32 bytes of beat `b` of column `j`, from the bytes of the LG's local slots; byte `i` takes the beat's bits 8i to 8i + 7. -/
def lgBeat (slot : Nat → List Byte) (j b : Nat) : List Byte := (List.range 32).map (fun i => (slot (32 * b + i)).getD j 0)

/-- The 192 beats of a column. -/
def lgColumn (slot : Nat → List Byte) (j : Nat) : List (List Byte) := (List.range 192).map (lgBeat slot j)

/-! ### Content blocks (R339) -/

/-- A list of bytes with its CRC-32C behind it (Tables 15-3, 15-4). -/
def withCrc (l : List Byte) : List Byte := l ++ leBytes (crc32 polyCrc32c l).toNat 4

/-- The SM block of the superframe of transmit SFN `n` (Table 15-3): its receive SFN is n + 1 (R334). -/
def smBlock (s : State) (p n : Nat) : List Byte :=
  withCrc (leBytes ((n + 1) % 2 ^ 61) 8 ++
    leBytes (s.g GRP_STAT_ID + 8 * s.g GRP_STAT_ROLE + 32 * s.mode) 1 ++
    leBytes (p + 8 * s.f (GP_CFG_SLOT_EN p) + 16 * bit (s.twinOn && p == s.mirrorPort)) 1 ++ List.replicate 18 0)

/-- The through-slots of a superframe: number, fill mark, bytes; a slot not listed carries AIS fill (R335). -/
abbrev Through := List (Nat × Nat × List Byte)
def fillMark (l : Through) (k : Nat) : Nat := ((l.find? (fun x => x.1 == k)).map (fun x => x.2.1)).getD 1
def throughByte (l : Through) (k j : Nat) : Byte := ((l.find? (fun x => x.1 == k)).map (fun x => x.2.2.getD j 0)).getD 0

/-- Byte `i` of the fill map: through-slots 4i to 4i + 3, two bits each; bytes 936 to 959 are 0 (Table 15-2). -/
def fillByte (l : Through) (i : Nat) : Byte :=
  if 936 ≤ i then 0 else BitVec.ofNat 8 ((List.range 4).foldl (fun v q => v + 4 ^ q * fillMark l (4 * i + q)) 0)

/-- The first content block of column `j`, and its control blocks (Table 15-2). -/
def columnBlock (j : Nat) : Nat := 31 + 118 * j + j / 5
def ctlBlocks (j : Nat) : Nat := if j % 5 = 4 then 2 else 1

/-- Content block `i` of a superframe, of 95,773; `ctl` gives its 972 control blocks in order (Table 15-2). -/
def contentBlock (sm : List Byte) (l : Through) (ctl : Nat → List Byte) (i : Nat) : List Byte :=
  if i = 0 then sm
  else if i < 31 then (List.range 32).map (fun x => fillByte l (32 * (i - 1) + x))
  else
    let j := 5 * ((i - 31) / 591) + min 4 ((i - 31) % 591 / 118)
    let b := i - columnBlock j
    if b < 117 then (List.range 32).map (fun x => throughByte l (32 * b + x) j)
    else ctl (j + j / 5 + (b - 117))

/-! ### Messages and segments (R341) -/

/-- A message on the control channel: header (Table 15-4), payload, CRC. -/
def msgOctets (type : Nat) (seqd : Bool) (seq ack : Nat) (payload : List Byte) : List Byte :=
  withCrc (leBytes type 1 ++ leBytes (bit seqd) 1 ++ leBytes payload.length 2 ++ leBytes (if seqd then seq else 0) 4 ++ leBytes ack 4 ++ payload)

/-- TYPE of a message (Table 15-5). -/
def msgType : Msg → Nat
  | .hello _ => 0x01 | .heartbeat _ => 0x02 | .ttStamp .. => 0x03 | .ptp .. => 0x04 | .action .. => 0x10 | .result .. => 0x11 | .cancel _ => 0x12
  | .fwdWrite .. => 0x13 | .digest .. => 0x14 | .copy .. => 0x15 | .copyAck .. => 0x16 | .join .. => 0x17 | .accept _ => 0x18
  | .refuse _ => 0x19 | .rraReq .. => 0x20 | .rraRsp .. => 0x21

/-- The byte enables of a write mask, and the alias that a write of a part of a byte went through: 1 SET, 2 CLR, 3 TGL (Table 2-1). -/
def maskEnables (val mask : Word) : Nat :=
  let be := (List.range 4).foldl (fun v i => v + 2 ^ i * bit (wordGet mask (8 * i) 8 != 0)) 0
  let whole := (List.range 4).all (fun i => wordGet mask (8 * i) 8 == 0 || wordGet mask (8 * i) 8 == 255)
  (if whole then 0 else if val &&& mask = mask then 1 else if val &&& mask = 0 then 2 else 3) + 16 * be

/-- The payload of a message that port `p` sends (Tables 14-1 and 15-5): integers least significant byte first, SFNs of 8 bytes, sequence numbers
of 4; where the table gives a field no place or width the model chooses it (log 90). -/
def msgPayload (s : State) (p : Nat) : Msg → List Byte
  | .hello h => wordBytes (s.rd 0) ++ leBytes 0xB0 1 ++ leBytes (h.role % 4 + 4 * (h.id % 8) + 32 * (h.mode % 8)) 1 ++ leBytes h.groupTag 2 ++
      leBytes h.pairId 2 ++ leBytes (bit h.twinEn + 2 * bit h.prefer + 4 * bit h.slotEn + 8 * bit h.mirror) 1 ++ leBytes p 1
  | .heartbeat b => leBytes b.sfn 8 ++ leBytes b.ns 8 ++ leBytes (b.mode % 8 + 8 * b.twin) 1 ++ leBytes (bit b.claim) 1 ++ leBytes (bit b.prefer) 1 ++
      leBytes b.pairId 2 ++ leBytes b.actSeq 4 ++ leBytes b.fwdSeq 4 ++ leBytes b.unmirrored 4 ++ leBytes b.complete 13
  | .ttStamp k d a v => leBytes k 8 ++ (stampWords d).flatMap wordBytes ++ (stampWords a).flatMap wordBytes ++ leBytes (bit v) 1
  | .ptp c f => leBytes c 4 ++ f
  | .action a check => leBytes a.sfn 8 ++ leBytes a.tick 1 ++
      leBytes (bit a.us + 2 * bit a.hdr.latePol + 4 * bit a.hdr.group + 8 * bit a.hdr.nomirror) 1 ++ leBytes a.hdr.tag 2 ++ leBytes a.peerSeq 4 ++
      leBytes (check.headD 0) 4 ++ leBytes a.items.length 2 ++
      a.items.flatMap (fun i => leBytes (i.kind % 256 + 256 * i.target) 4 ++ leBytes i.arg 4) ++ check.tail.flatMap (fun c => leBytes c 4)
  | .result o st re ap ix => leBytes o 4 ++ leBytes st 1 ++ leBytes re 1 ++ leBytes ap 2 ++ leBytes ix 1
  | .cancel o => leBytes o 4
  | .fwdWrite a v m ms n => leBytes a 4 ++ leBytes (maskEnables v m) 1 ++ leBytes ms 1 ++ wordBytes v ++ leBytes n 8
  | .digest n d => leBytes n 8 ++ d.flatMap (fun x => wordBytes x.1 ++ leBytes x.2 1)
  | .copy r g n o d _ => leBytes r 1 ++ leBytes g 2 ++ leBytes n 8 ++ leBytes o 4 ++ d.flatMap (fun x => leBytes x.1 16 ++ leBytes x.2 8)
  | .copyAck r g => leBytes r 1 ++ leBytes g 2
  | .join i v => leBytes i 2 ++ leBytes v 64
  | .accept c => leBytes c 8
  | .refuse c => leBytes c 1
  | .rraReq t o w be d => leBytes t 4 ++ leBytes o 4 ++ leBytes (bit w + 16 * (be % 16)) 1 ++ List.replicate 3 0 ++ wordBytes d
  | .rraRsp t st d => leBytes t 4 ++ leBytes st 1 ++ List.replicate 3 0 ++ wordBytes d

/-- The octets of a message that port `p` sends with sequence number `seq`; its ACK is the SEQ expected of its class (R342). -/
def ctlOctets (s : State) (p seq : Nat) (m : Msg) : List Byte :=
  msgOctets (msgType m) (!msgUnsequenced m) seq (if msgBulk m then (s.gpOf p).rx1 else (s.gpOf p).rx0) (msgPayload s p m)

/-- The control blocks of a message's octets: a header byte with SOM, EOM, CLASS and N, and up to 31 octets. -/
def segments (bulk : Bool) (l : List Byte) : List (List Byte) :=
  let n := (l.length + 30) / 31
  (List.range n).map (fun i =>
    let d := (l.drop (31 * i)).take 31
    (BitVec.ofNat 8 (128 * bit (i == 0) + 64 * bit (i + 1 == n) + 32 * bit bulk + d.length) :: d) ++ List.replicate (31 - d.length) 0)

/-- An empty control block. -/
def emptySegment : List Byte := List.replicate 32 0

/-! ### Codewords and lanes (R338, R339) -/

/-- The 257 bits of a block, H first, then 32 bytes from bit 0 of byte 0 on, scrambled by x^58 + x^39 + 1 but for H; an idle block is 32 bytes of
0. The register runs on. -/
def blockBits (reg : List Bool) (b : Option (List Byte)) : List Bool × List Bool :=
  let l := (b.getD (List.replicate 32 0)).flatMap (fun x => (List.range 8).map x.getLsbD)
  let r := selfScramble [58, 39] reg l
  (b.isSome :: r.1, r.2)

/-- The bits of a run of blocks. -/
def blocksBits : List Bool → List (Option (List Byte)) → List Bool × List Bool
  | reg, [] => ([], reg)
  | reg, b :: r =>
    let x := blockBits reg b
    let y := blocksBits x.2 r
    (x.1 ++ y.1, y.2)

/-- The 10-bit symbols of a bit string, the first bit sent the least significant. -/
def symbols (l : List Bool) : List Nat :=
  (List.range (l.length / 10)).map (fun i => (List.range 10).foldl (fun v q => v + 2 ^ q * bit (l.getD (10 * i + q) false)) 0)

/-- A codeword: the 514 symbols of 20 blocks and their parity, and the register after it. -/
def codeword (reg : List Bool) (blocks : List (Option (List Byte))) : List Nat × List Bool :=
  let r := blocksBits reg blocks
  (kp4Word (symbols r.1), r.2)

/-- The 136 symbols of a codeword that lane `n` carries. -/
def laneSymbols (word : List Nat) (n : Nat) : List Nat := (List.range 136).map (fun i => word.getD (4 * i + n) 0)

/-- The lane marker of lane `n` (R339). -/
def laneMarker (n : Nat) : List Byte :=
  [0x4B, 0xD2, 0x1E, 0x87, 0x39, BitVec.ofNat 8 n, ~~~(BitVec.ofNat 8 n), 0xA6]

/-- The codewords of a sequence of blocks, 20 in each. -/
def codewords : Nat → List Bool → List (Option (List Byte)) → List (List Nat)
  | 0, _, _ => []
  | n + 1, reg, l =>
    let r := codeword reg (l.take 20)
    r.1 :: codewords n r.2 (l.drop 20)

/-- What lane `n` sends of a superframe whose blocks, idle ones among them, fill `words` codewords: its marker, then its symbols (R339). -/
def laneFrame (reg : List Bool) (blocks : List (Option (List Byte))) (words n : Nat) : List Byte × List Nat :=
  (laneMarker n, ((codewords words reg blocks).map (fun w => laneSymbols w n)).flatten)

/-! ### PAM4 levels and receive polarity (R338, Table 15-8) -/

/-- The level of two bits under Gray coding, the first bit sent the more significant. -/
def grayLevel (a b : Bool) : Nat := if a then (if b then 2 else 3) else if b then 1 else 0

/-- The level that the receiver of lane `l` of port `p` takes a level for: RX_INV inverts its polarity. -/
def rxLevel (s : State) (p l level : Nat) : Nat := if s.on (bitOf (GP_CFG_RX_INV p) l) then 3 - level else level

end Sys2Proof.Machine
end

