-- ==== Sys2Proof/Tests/Slice0.lean ====
section
/-!
SUPPORT. Ill-formed commands, worked numbers of the spec, and for every clause of a statement that has hypotheses, a small state and operands that meet them all: the statement, taken as given,
yields the clause's conclusion there. Each hypothesis is decided on the state itself.
-/

namespace Sys2Proof.Tests

open Sys2Proof Sys2Proof.Machine

set_option maxRecDepth 100000
set_option Elab.async false

/-- The block out of its cold reset, every register at its reset value. -/
def base : State := { State.reset with pwr := { State.reset.pwr with inReset := false } }

/-- What holds at hand: a proposition that the kernel decides. -/
theorem here {p : Prop} [Decidable p] (h : decide p = true := by decide +kernel) : p := of_decide_eq_true h

/-- The same of what holds for every busy flag of the LGs. -/
theorem known {p : Prop} (h : p := by first | decide +kernel | exact fun _ => rfl) : p := h

def v0 : List Int := [-3, -3, -3, -3, -3, -3, -3, -3, -3, -3, -3, -3, -3, -3, -3, 300]
def v1 : List Nat := [800, 800, 800, 800, 800, 800, 800, 800, 800, 800, 800, 800, 800, 800, 800, 800]
def v2 : RegDesc := { off := 44, n := 1, stride := 4, reset := 102400, rw := 261120, rwh := 0, rws := 0, lck := 0, cmd := 0, imm := 0, ing := 0, banked := false, held := false }
def v3 : RegDesc := { off := 32, n := 3, stride := 4, reset := 0, rw := 3, rwh := 0, rws := 0, lck := 0, cmd := 0, imm := 0, ing := 0, banked := false, held := false }
def v4 : BattObs := { chk := 3, corr := 4, ue := none, crcBad := false, late := false, back := 0, latency := 99, waited := 8, infl := 4000 }
def v5 : RegDesc := { off := 320, n := 16, stride := 4, reset := 0, rw := 0, rwh := 0, rws := 4294967295, lck := 0, cmd := 0, imm := 4294967295, ing := 0, banked := false, held := true }
def v6 : ActMsg := { sfn := 987660, tick := 0, us := false, items := [{ kind := 14, target := 0, arg := 0 }], hdr := { latePol := false, group := false, nomirror := false, gmask := 0, tag := 7 }, peerSeq := 66 }
def v7 : Action := { seq := 9, sfn := 987655, tick := 0, us := false, items := [{ kind := 14, target := 0, arg := 0 }, { kind := 9, target := 0, arg := 0 }], hdr := { latePol := false, group := false, nomirror := false, gmask := 0, tag := 7 }, master := 3, mirroredIn := false, mirrorOut := false, unmirrored := false, groupIn := false, late := false, peerSeq := 0, check := [] }
def v8 : Action := { seq := 9, sfn := 987655, tick := 0, us := false, items := [{ kind := 14, target := 0, arg := 0 }, { kind := 1, target := 0, arg := 0 }], hdr := { latePol := false, group := false, nomirror := false, gmask := 0, tag := 7 }, master := 3, mirroredIn := false, mirrorOut := false, unmirrored := false, groupIn := false, late := false, peerSeq := 0, check := [] }
def v9 : Action := { seq := 77, sfn := 987660, tick := 0, us := false, items := [{ kind := 14, target := 0, arg := 0 }], hdr := { latePol := false, group := false, nomirror := false, gmask := 0, tag := 7 }, master := 3, mirroredIn := false, mirrorOut := false, unmirrored := false, groupIn := false, late := false, peerSeq := 0, check := [] }
def v10 : List Byte := ([1#8, 2#8, 3#8, 4#8, 5#8, 6#8, 7#8, 8#8, 9#8, 0xA#8, 0xB#8, 0xC#8, 8#8] ++ List.replicate 47 0#8 ++ [0x12#8, 0x4E#8, 0x4D#8, 0x11#8])
def v11 : List Byte := ([1#8, 2#8, 3#8, 4#8, 5#8, 6#8, 7#8, 8#8, 9#8, 0xA#8, 0xB#8, 0xC#8, 8#8] ++ List.replicate 47 0#8 ++ [0x12#8, 0x4E#8, 0x4D#8, 0x11#8, 1#8])
def v12 : List Byte := ([1#8, 2#8, 3#8, 4#8, 5#8, 6#8, 7#8, 8#8, 9#8, 0xA#8, 0xB#8, 0xC#8, 0x88#8, 0xF7#8, 1#8, 2#8, 0#8, 0x2C#8] ++ List.replicate 40 7#8 ++ [0#8, 0#8, 0x34#8, 0x71#8, 0x68#8, 0x43#8])
def v13 : PpsEdge := { start := 123456789400, width := 5, low := true, seq := 6 }
def v14 : List PpsEdge := [{ start := 9, width := 9, low := true, seq := 9 }]
def v15 : List Byte := [1#8, 2#8, 3#8, 4#8, 5#8, 6#8, 7#8, 8#8, 9#8, 0xA#8, 0xB#8, 0xC#8, 8#8] ++ List.replicate 47 0#8 ++ [0x12#8, 0x4E#8, 0x4D#8, 0x11#8, 1#8, 2#8, 3#8, 4#8, 5#8, 6#8, 7#8, 8#8, 9#8, 0xA#8, 0xB#8, 0xC#8, 8#8] ++ List.replicate 47 0#8 ++ [0x12#8, 0x4E#8, 0x4D#8, 0x11#8]
def v16 : RegDesc := { off := 32, n := 1, stride := 4, reset := 0, rw := 63, rwh := 0, rws := 0, lck := 0, cmd := 0, imm := 0, ing := 0, banked := false, held := false }
def v17 : List (BitVec 8) := (List.replicate 100 5#8)
def v18 : RegDesc := { off := 32, n := 1, stride := 4, reset := 0, rw := 31, rwh := 0, rws := 0, lck := 0, cmd := 0, imm := 0, ing := 0, banked := false, held := false }
def v19 : List Word × List Byte := ([1#32, 2#32, 3#32, 4#32], (List.replicate 70 8#8))
def v20 : List BusOp := [{ write := true, addr := 0, data := 0#32, dest := 0, drop := true }]
def v21 : BattObs := { chk := 3, corr := 4, ue := none, crcBad := false, late := true, back := 0, latency := 99, waited := 8, infl := 4000 }
def v22 : BattObs := { chk := 3, corr := 4, ue := some 5, crcBad := false, late := false, back := 0, latency := 99, waited := 8, infl := 4000 }
def v23 : CalRun := { kind := 0, target := 9, host := true, temp := 0, spare := 2 }
def v24 : CalRun := { kind := 0, target := 9, host := true, temp := 0, spare := 0 }
def v25 : CalRun := { kind := 4, target := 3, host := true, temp := 0, spare := 2 }
def v26 : List Word := [0x93051#32, 0x70008#32, 0#32, 0#32, 0#32, 0#32, 0#32, 0#32, 0#32, 0#32, 0#32, 0#32, 0#32, 0#32]
def v27 : LineObs := { lo := 0, hi := 100, ms := [], b1s := [], fas := 271540552214568, mfas := 7, ss := 2, k1 := 1, k2 := 22, s1 := 4, b1 := 131, b2 := 241, rei := 5, trace := some [1#8, 2#8, 3#8], sm := { bip := 21, bei := 3, bdi := true, stat := 1, tti := some [1#8, 2#8], pt := some 7 }, odu := { bip := 3, bei := 12, bdi := true, stat := 1, tti := some [1#8, 2#8], pt := some 7 }, tcm := [], msi := none, ext := some 32769, paths := [], tribs := [], nblk := 9, blocks := 5, lls := [(0, 0, 1000), (1, 1, 1003), (2, 2, 1006), (3, 3, 1009), (4, 0, 1012), (5, 1, 1015), (6, 2, 1018), (7, 3, 1021), (8, 0, 1024), (9, 1, 1027), (10, 2, 1030), (11, 3, 1033), (12, 0, 1036), (13, 1, 1039), (14, 2, 1042), (15, 3, 1045), (16, 0, 1048), (17, 1, 1051), (18, 2, 1054), (19, 3, 1057)], oh := [(4, 9#8), (768, 1#8), (16, 3#8)], stream := [1#8, 2#8, 3#8, 4#8, 5#8, 6#8, 7#8, 8#8, 9#8, 0xA#8, 0xB#8], at_ := 0 }
def v28 : LineObs := { lo := 0, hi := 100, ms := [], b1s := [], fas := 7, mfas := 7, ss := 2, k1 := 1, k2 := 22, s1 := 4, b1 := 131, b2 := 241, rei := 5, trace := some [1#8, 2#8, 3#8], sm := { bip := 21, bei := 3, bdi := true, stat := 1, tti := some [1#8, 2#8], pt := some 7 }, odu := { bip := 3, bei := 12, bdi := true, stat := 1, tti := some [1#8, 2#8], pt := some 7 }, tcm := [], msi := none, ext := some 32769, paths := [], tribs := [], nblk := 9, blocks := 5, lls := [(0, 0, 1000), (1, 1, 1003), (2, 2, 1006), (3, 3, 1009), (4, 0, 1012), (5, 1, 1015), (6, 2, 1018), (7, 3, 1021), (8, 0, 1024), (9, 1, 1027), (10, 2, 1030), (11, 3, 1033), (12, 0, 1036), (13, 1, 1039), (14, 2, 1042), (15, 3, 1045), (16, 0, 1048), (17, 1, 1051), (18, 2, 1054), (19, 3, 1057)], oh := [(4, 9#8), (768, 1#8), (16, 3#8)], stream := [1#8, 2#8, 3#8, 4#8, 5#8, 6#8, 7#8, 8#8, 9#8, 0xA#8, 0xB#8], at_ := 0 }
def v29 : LineObs := { lo := 0, hi := 100, ms := [{ pos := 5, mfas := 4, bits := 271540552214568 }], b1s := [], fas := 271540552214568, mfas := 7, ss := 2, k1 := 1, k2 := 22, s1 := 4, b1 := 131, b2 := 241, rei := 5, trace := some [1#8, 2#8, 3#8], sm := { bip := 21, bei := 3, bdi := true, stat := 1, tti := some [1#8, 2#8], pt := some 7 }, odu := { bip := 3, bei := 12, bdi := true, stat := 1, tti := some [1#8, 2#8], pt := some 7 }, tcm := [], msi := none, ext := some 32769, paths := [], tribs := [], nblk := 9, blocks := 5, lls := [(0, 0, 1000), (1, 1, 1003), (2, 2, 1006), (3, 3, 1009), (4, 0, 1012), (5, 1, 1015), (6, 2, 1018), (7, 3, 1021), (8, 0, 1024), (9, 1, 1027), (10, 2, 1030), (11, 3, 1033), (12, 0, 1036), (13, 1, 1039), (14, 2, 1042), (15, 3, 1045), (16, 0, 1048), (17, 1, 1051), (18, 2, 1054), (19, 3, 1057)], oh := [(4, 9#8), (768, 1#8), (16, 3#8)], stream := [1#8, 2#8, 3#8, 4#8, 5#8, 6#8, 7#8, 8#8, 9#8, 0xA#8, 0xB#8], at_ := 0 }
def v30 : LineObs := { lo := 0, hi := 100, ms := [], b1s := [], fas := 271540552214568, mfas := 7, ss := 2, k1 := 4, k2 := 22, s1 := 4, b1 := 131, b2 := 241, rei := 5, trace := some [1#8, 2#8, 3#8], sm := { bip := 21, bei := 3, bdi := true, stat := 1, tti := some [1#8, 2#8], pt := some 7 }, odu := { bip := 3, bei := 12, bdi := true, stat := 1, tti := some [1#8, 2#8], pt := some 7 }, tcm := [], msi := none, ext := some 32772, paths := [{ idx := 12, trib := 0, bip := 129, rei := 4, ptr := PtrObs.valid 500 true, pj := false, nj := false, label := 51, rdi := true, trace := some [3#8], odu := { bip := 21, bei := 3, bdi := true, stat := 1, tti := some [1#8, 2#8], pt := some 7 }, tcm := [], jcBad := false }], tribs := [], nblk := 9, blocks := 5, lls := [(0, 0, 1000), (1, 1, 1003), (2, 2, 1006), (3, 3, 1009), (4, 0, 1012), (5, 1, 1015), (6, 2, 1018), (7, 3, 1021), (8, 0, 1024), (9, 1, 1027), (10, 2, 1030), (11, 3, 1033), (12, 0, 1036), (13, 1, 1039), (14, 2, 1042), (15, 3, 1045), (16, 0, 1048), (17, 1, 1051), (18, 2, 1054), (19, 3, 1057)], oh := [(4, 9#8), (768, 1#8), (16, 3#8)], stream := [1#8, 2#8, 3#8, 4#8, 5#8, 6#8, 7#8, 8#8, 9#8, 0xA#8, 0xB#8], at_ := 0 }
def v31 : PathObs := { idx := 12, trib := 0, bip := 129, rei := 4, ptr := PtrObs.valid 500 true, pj := false, nj := false, label := 51, rdi := true, trace := some [3#8], odu := { bip := 21, bei := 3, bdi := true, stat := 1, tti := some [1#8, 2#8], pt := some 7 }, tcm := [], jcBad := false }
def v32 : LineObs := { lo := 0, hi := 100, ms := [], b1s := [], fas := 271540552214568, mfas := 3, ss := 2, k1 := 3, k2 := 22, s1 := 4, b1 := 131, b2 := 241, rei := 5, trace := some [1#8, 2#8, 3#8], sm := { bip := 21, bei := 3, bdi := true, stat := 1, tti := some [1#8, 2#8], pt := some 7 }, odu := { bip := 3, bei := 12, bdi := true, stat := 1, tti := some [1#8, 2#8], pt := some 7 }, tcm := [], msi := none, ext := some 32771, paths := [], tribs := [], nblk := 9, blocks := 5, lls := [(0, 0, 1000), (1, 1, 1003), (2, 2, 1006), (3, 3, 1009), (4, 0, 1012), (5, 1, 1015), (6, 2, 1018), (7, 3, 1021), (8, 0, 1024), (9, 1, 1027), (10, 2, 1030), (11, 3, 1033), (12, 0, 1036), (13, 1, 1039), (14, 2, 1042), (15, 3, 1045), (16, 0, 1048), (17, 1, 1051), (18, 2, 1054), (19, 3, 1057)], oh := [(4, 9#8), (768, 1#8), (16, 3#8)], stream := [1#8, 2#8, 3#8, 4#8, 5#8, 6#8, 7#8, 8#8, 9#8, 0xA#8, 0xB#8], at_ := 0 }
def v33 : LineObs := { lo := 0, hi := 100, ms := [], b1s := [], fas := 271540552214568, mfas := 7, ss := 2, k1 := 1, k2 := 22, s1 := 4, b1 := 131, b2 := 241, rei := 5, trace := some [1#8, 2#8, 3#8], sm := { bip := 21, bei := 3, bdi := true, stat := 1, tti := some [1#8, 2#8], pt := some 7 }, odu := { bip := 3, bei := 12, bdi := true, stat := 1, tti := some [1#8, 2#8], pt := some 7 }, tcm := [], msi := none, ext := some 32769, paths := [], tribs := [], nblk := 9, blocks := 5, lls := [(1, 1, 3)], oh := [(4, 9#8), (768, 1#8), (16, 3#8)], stream := [1#8, 2#8, 3#8, 4#8, 5#8, 6#8, 7#8, 8#8, 9#8, 0xA#8, 0xB#8], at_ := 0 }
def v34 : LineObs := { lo := 0, hi := 100, ms := [], b1s := [], fas := 271540552214568, mfas := 7, ss := 2, k1 := 1, k2 := 22, s1 := 4, b1 := 131, b2 := 241, rei := 5, trace := some [1#8, 2#8, 3#8], sm := { bip := 21, bei := 3, bdi := true, stat := 1, tti := some [1#8, 2#8], pt := some 7 }, odu := { bip := 3, bei := 12, bdi := true, stat := 1, tti := some [1#8, 2#8], pt := some 7 }, tcm := [], msi := none, ext := some 32769, paths := [], tribs := [], nblk := 9, blocks := 5, lls := [(0, 0, 1000), (1, 1, 1100), (2, 2, 1200), (3, 3, 1300), (4, 0, 1400), (5, 1, 1500), (6, 2, 1600), (7, 3, 1700), (8, 0, 1800), (9, 1, 1900), (10, 2, 2000), (11, 3, 2100), (12, 0, 2200), (13, 1, 2300), (14, 2, 2400), (15, 3, 2500), (16, 0, 2600), (17, 1, 2700), (18, 2, 2800), (19, 3, 2900)], oh := [(4, 9#8), (768, 1#8), (16, 3#8)], stream := [1#8, 2#8, 3#8, 4#8, 5#8, 6#8, 7#8, 8#8, 9#8, 0xA#8, 0xB#8], at_ := 0 }
def v35 : LineObs := { lo := 0, hi := 100, ms := [], b1s := [(5, 3, 3), (9, 7, 7)], fas := 271540552214568, mfas := 7, ss := 2, k1 := 1, k2 := 22, s1 := 4, b1 := 131, b2 := 241, rei := 5, trace := some [1#8, 2#8, 3#8], sm := { bip := 21, bei := 3, bdi := true, stat := 1, tti := some [1#8, 2#8], pt := some 7 }, odu := { bip := 3, bei := 12, bdi := true, stat := 1, tti := some [1#8, 2#8], pt := some 7 }, tcm := [], msi := none, ext := some 32769, paths := [], tribs := [], nblk := 9, blocks := 5, lls := [(0, 0, 1000), (1, 1, 1003), (2, 2, 1006), (3, 3, 1009), (4, 0, 1012), (5, 1, 1015), (6, 2, 1018), (7, 3, 1021), (8, 0, 1024), (9, 1, 1027), (10, 2, 1030), (11, 3, 1033), (12, 0, 1036), (13, 1, 1039), (14, 2, 1042), (15, 3, 1045), (16, 0, 1048), (17, 1, 1051), (18, 2, 1054), (19, 3, 1057)], oh := [(4, 9#8), (768, 1#8), (16, 3#8)], stream := [1#8, 2#8, 3#8, 4#8, 5#8, 6#8, 7#8, 8#8, 9#8, 0xA#8, 0xB#8], at_ := 0 }
def v36 : LineObs := { lo := 0, hi := 100, ms := [], b1s := [(5, 3, 3), (9, 3, 4)], fas := 271540552214568, mfas := 7, ss := 2, k1 := 1, k2 := 22, s1 := 4, b1 := 131, b2 := 241, rei := 5, trace := some [1#8, 2#8, 3#8], sm := { bip := 21, bei := 3, bdi := true, stat := 1, tti := some [1#8, 2#8], pt := some 7 }, odu := { bip := 3, bei := 12, bdi := true, stat := 1, tti := some [1#8, 2#8], pt := some 7 }, tcm := [], msi := none, ext := some 32769, paths := [], tribs := [], nblk := 9, blocks := 5, lls := [(0, 0, 1000), (1, 1, 1003), (2, 2, 1006), (3, 3, 1009), (4, 0, 1012), (5, 1, 1015), (6, 2, 1018), (7, 3, 1021), (8, 0, 1024), (9, 1, 1027), (10, 2, 1030), (11, 3, 1033), (12, 0, 1036), (13, 1, 1039), (14, 2, 1042), (15, 3, 1045), (16, 0, 1048), (17, 1, 1051), (18, 2, 1054), (19, 3, 1057)], oh := [(4, 9#8), (768, 1#8), (16, 3#8)], stream := [1#8, 2#8, 3#8, 4#8, 5#8, 6#8, 7#8, 8#8, 9#8, 0xA#8, 0xB#8], at_ := 0 }
def v37 : List Byte := (List.replicate 70 0x33#8 ++ [0x6B#8, 0xBA#8, 5#8, 0xB7#8])
def v38 : GfpObs := { chec := 0, thecBad := true, pti := 0, pfi := true, upi := 1, pfcsBad := true, payload := [1#8, 2#8, 3#8] }
def v39 : GfpObs := { chec := 0, thecBad := false, pti := 0, pfi := false, upi := 1, pfcsBad := true, payload := [1#8, 2#8, 3#8] }
def v40 : List Byte := (List.replicate 30 0x33#8 ++ [0xED#8, 0xB4#8, 0x9E#8, 0x20#8])
def v41 : GfpObs := { chec := 1, thecBad := false, pti := 0, pfi := true, upi := 1, pfcsBad := false, payload := [1#8, 2#8, 3#8] }
def v42 : GfpObs := { chec := 2, thecBad := false, pti := 0, pfi := true, upi := 1, pfcsBad := false, payload := [1#8, 2#8, 3#8] }
def v43 : GfpObs := { chec := 0, thecBad := false, pti := 4, pfi := true, upi := 2, pfcsBad := false, payload := [1#8, 2#8, 3#8] }
def v44 : List Int := [63999990, 63999990, 63999990, 63999990, 63999990, 63999990, 63999990, 63999990]
def v45 : HlObs := { keyW := true, keyP := true, goodW := true, goodP := false, slackW := 5000, slackP := 4, extW := 74565, extP := 7, frameW := [5#8, 6#8], frameP := [8#8] }
def v46 : HlObs := { keyW := false, keyP := false, goodW := false, goodP := false, slackW := 5, slackP := 6, extW := 74565, extP := 7, frameW := [5#8, 6#8], frameP := [8#8] }
def v47 : HlObs := { keyW := false, keyP := true, goodW := true, goodP := true, slackW := 3, slackP := 64000001, extW := 74565, extP := 7, frameW := [5#8, 6#8], frameP := [8#8] }
def v48 : HlObs := { keyW := true, keyP := true, goodW := true, goodP := true, slackW := 150, slackP := 80, extW := 74565, extP := 7, frameW := [5#8, 6#8], frameP := [8#8] }
def v49 : HlObs := { keyW := true, keyP := true, goodW := false, goodP := false, slackW := 5, slackP := 6, extW := 74565, extP := 7, frameW := [5#8, 6#8], frameP := [8#8] }
def v50 : HlObs := { keyW := true, keyP := false, goodW := true, goodP := false, slackW := 90, slackP := 77, extW := 74565, extP := 7, frameW := [5#8, 6#8], frameP := [8#8] }
def v51 : HlObs := { keyW := true, keyP := true, goodW := true, goodP := true, slackW := -5, slackP := -600000, extW := 74565, extP := 7, frameW := [5#8, 6#8], frameP := [8#8] }
def v52 : HlObs := { keyW := true, keyP := true, goodW := true, goodP := true, slackW := -5, slackP := -9, extW := 74565, extP := 7, frameW := [5#8, 6#8], frameP := [8#8] }
def v53 : List Int := [-9000, -9000, -9000, -9000, -9000, -9000, -9000, -9000]
def v54 : List Int := [64100000, 64100000, 64100000, 64100000, 64100000, 64100000, 64100000, 64100000]
def v55 : List Nat := [300, 300, 300, 300, 300, 300, 300, 300, 300, 300, 300, 300]
def v56 : List Byte := [1#8, 0x7E#8, 0x7D#8, 4#8, 5#8, 6#8, 7#8]
def v57 : FrameObs := { stores := [], odus := [], vcats := [], eg := [], lat := [], cyc := 3, det := [], dep := [], lm := [] }
def v58 : FrameObs := { stores := [], odus := [], vcats := [], eg := [], lat := [], cyc := 99, det := [], dep := [], lm := [] }
def v59 : FrameObs := { stores := [], odus := [], vcats := [], eg := [], lat := [], cyc := 156250, det := [], dep := [], lm := [] }
def v60 : FrameObs := { stores := [], odus := [], vcats := [], eg := [], lat := [], cyc := 0, det := [], dep := [], lm := [] }
def v61 : PendW := { addr := 4128, mask := 0xFF#32, old := 3#32, line := none, wait := 0, off := 32, m := 4 }
def v62 : PendW := { addr := 1052704, mask := 0xFF#32, old := 3#32, line := none, wait := 2, off := 32, m := 4 }
def v63 : Action := { seq := 7, sfn := 123456790, tick := 0, us := false, items := [{ kind := 8, target := 17, arg := 305419896 }], hdr := { latePol := true, group := false, nomirror := true, gmask := 3, tag := 9 }, master := 3, mirroredIn := false, mirrorOut := false, unmirrored := false, groupIn := false, late := false, peerSeq := 4, check := [1] }
def v64 : Beat := { sfn := 4, ns := 99999999999999999, mode := 3, twin := 4, claim := true, prefer := true, pairId := 3, actSeq := 9, fwdSeq := 6, unmirrored := 0, complete := 24197857161011715162171839636988778104 }
def v65 : Beat := { sfn := 4, ns := 99999999999999999, mode := 4, twin := 5, claim := true, prefer := true, pairId := 3, actSeq := 9, fwdSeq := 6, unmirrored := 0, complete := 24197857161011715162171839636988778104 }
def v66 : Beat := { sfn := 4, ns := 99999999999999999, mode := 4, twin := 1, claim := true, prefer := true, pairId := 3, actSeq := 9, fwdSeq := 6, unmirrored := 0, complete := 24197857161011715162171839636988778104 }
def v67 : Beat := { sfn := 4, ns := 99999999999999999, mode := 4, twin := 3, claim := true, prefer := true, pairId := 3, actSeq := 9, fwdSeq := 6, unmirrored := 0, complete := 24197857161011715162171839636988778104 }
def v68 : Beat := { sfn := 4, ns := 99999999999999999, mode := 3, twin := 4, claim := true, prefer := true, pairId := 3, actSeq := 9, fwdSeq := 6, unmirrored := 3, complete := 24197857161011715162171839636988778104 }
def v69 : Nat := 1833531271634509214727886632575943535174961561990950737722540516154593412610101848139710655426356838400
def v70 : List (Word × Nat) := [(1#32, 0), (2#32, 2), (3#32, 0), (4#32, 2), (5#32, 0), (6#32, 2)]
def v71 : List (Word × Nat) := [(1#32, 0), (2#32, 2), (4#32, 0), (4#32, 2), (6#32, 0), (6#32, 2)]
def v72 : List (Word × Nat) := [(1#32, 0), (2#32, 2), (4#32, 0), (4#32, 2), (5#32, 0), (6#32, 2)]
def v73 : SuperObs := { lm := false, skew := 20, smCrc := true, sfn := 987654312988, late := false, corr := 5, ucw := 1, ucwSlots := [7], slots := [(9, 0, [1#8, 2#8, 3#8])], at_ := 0 }
def v74 : Hello := { role := 1, id := 5, mode := 3, groupTag := 119, pairId := 85, twinEn := true, prefer := false, slotEn := true, mirror := false }
def v75 : SuperObs := { lm := true, skew := 20, smCrc := true, sfn := 4, late := false, corr := 5, ucw := 1, ucwSlots := [7], slots := [(9, 0, [1#8, 2#8, 3#8])], at_ := 0 }
def v76 : SuperObs := { lm := true, skew := 20, smCrc := false, sfn := 987654312988, late := false, corr := 5, ucw := 1, ucwSlots := [7], slots := [(9, 0, [1#8, 2#8, 3#8])], at_ := 0 }
def v77 : SuperObs := { lm := true, skew := 20, smCrc := true, sfn := 987654312988, late := false, corr := 5, ucw := 1, ucwSlots := [7], slots := [(9, 0, [1#8, 2#8, 3#8])], at_ := 0 }
def v78 : Hello := { role := 2, id := 2, mode := 3, groupTag := 119, pairId := 85, twinEn := true, prefer := false, slotEn := true, mirror := false }
def v79 : SuperObs := { lm := true, skew := 20, smCrc := true, sfn := 987654312988, late := true, corr := 5, ucw := 1, ucwSlots := [7], slots := [(9, 0, [1#8, 2#8, 3#8])], at_ := 0 }
def v80 : Prox := { tag := 70, id := 2, m := 3, off := 1193046, write := true, be := 15, data := 7#32, sent := true, more := [], got := [] }
def v81 : Prox := { tag := 70, id := 2, m := 3, off := 1193046, write := false, be := 15, data := 7#32, sent := true, more := [], got := [] }
def v82 : Action := { seq := 13, sfn := 987654312999, tick := 0, us := false, items := [], hdr := { latePol := true, group := true, nomirror := true, gmask := 3, tag := 9 }, master := 3, mirroredIn := false, mirrorOut := false, unmirrored := false, groupIn := true, late := false, peerSeq := 4, check := [1] }
def v83 : GroupJob := { act := { seq := 12, sfn := 3, tick := 0, us := false, items := [], hdr := { latePol := true, group := true, nomirror := true, gmask := 3, tag := 9 }, master := 3, mirroredIn := false, mirrorOut := false, unmirrored := false, groupIn := false, late := false, peerSeq := 4, check := [1] }, waiting := [2, 3], failed := 8, reason := 9, own := none }
def v84 : Prox := { tag := 70, id := 2, m := 3, off := 1193046, write := false, be := 15, data := 7#32, sent := true, more := [25240388, 25240392], got := [7#32] }
def v85 : GroupJob := { act := { seq := 12, sfn := 3, tick := 0, us := false, items := [], hdr := { latePol := true, group := true, nomirror := true, gmask := 3, tag := 9 }, master := 3, mirroredIn := false, mirrorOut := false, unmirrored := false, groupIn := false, late := false, peerSeq := 4, check := [1] }, waiting := [2], failed := 0, reason := 0, own := none }
def v86 : GroupJob := { act := { seq := 12, sfn := 3, tick := 0, us := false, items := [], hdr := { latePol := true, group := true, nomirror := true, gmask := 3, tag := 9 }, master := 3, mirroredIn := false, mirrorOut := false, unmirrored := false, groupIn := false, late := false, peerSeq := 4, check := [1] }, waiting := [2], failed := 0, reason := 0, own := some { seq := 12, sfn := 3, status := 0, tick := 0, items := 0, index := 1, master := 3, latePol := true, applied := 1, failed := 0, reason := 0, tag := 9, mirroredIn := false, mirrorOut := false, unmirrored := false, group := true, peerSeq := 4, map := 0 } }
def v87 : JRec := { seq := 12, sfn := 3, status := 0, tick := 0, items := 0, index := 1, master := 3, latePol := true, applied := 1, failed := 0, reason := 0, tag := 9, mirroredIn := false, mirrorOut := false, unmirrored := false, group := true, peerSeq := 4, map := 0 }

def s0 : State := { base with pwr := { inReset := true, mclkLost := false, refSeen := 0, modeReqs := [], straps := 0, rgn := [], fusesRead := false, bscan := false } }
def s1 : State := { base with regs := [(8204, 1#32)] }
def s2 : State := { base with regs := [(8232, 8#32)] }
def s3 : State := { base with regs := [(32, 3#32)] }
def s4 : State := { base with regs := [(12, 1#32), (32, 4#32)] }
def s5 : State := { base with regs := [(12, 1#32), (32, 1#32), (12320, 1#32), (16396, 1#32)] }
def s6 : State := { base with regs := [(12, 1#32), (8228, 0x1F#32)] }
def s7 : State := { base with regs := [(12, 1#32), (32, 5#32)] }
def s8 : State := { base with regs := [(12, 1#32), (32, 5#32), (52, 0x702#32)] }
def s9 : State := { base with regs := [(32, 3#32), (8228, 0x20#32)] }
def s10 : State := { base with regs := [(32, 3#32), (8228, 0x20#32), (49184, 0xFF#32)] }
def s11 : State := { base with regs := [(4108, 1#32)] }
def s12 : State := { base with regs := [(32, 2#32), (1167372, 1#32)] }
def s13 : State := { base with lgBuf := [(1, [{ m := 3, bank := 3, addr := 1167396, val := 0x12345677#32, mask := 0xFFFFFFFF#32, hw := none }])] }
def s14 : State := { base with regs := [(12, 1#32), (32, 2#32), (98316, 1#32), (114700, 1#32)] }
def s15 : State := { base with regs := [(98328, 4#32), (114700, 1#32)] }
def s16 : State := { base with regs := [(45068, 1#32), (49164, 1#32), (49184, 0x40007FFF#32), (432345564227569924, 5#32)], tb := { t := 530242871224172544077, inc := 8589934592, slewCnt := 0, disc := 0 }, rings := [(9, [34, 35])], cells := [(35868, { sfn := 987652, fill := 0, data := [1#8, 2#8, 3#8], good := 1 }), (35867, { sfn := 987651, fill := 0, data := [1#8, 2#8, 3#8], good := 3 })] }
def s17 : State := { base with regs := [(32, 2#32), (45068, 1#32)] }
def s18 : State := { base with regs := [(32, 2#32), (1052684, 1#32)] }
def s19 : State := { base with regs := [(32, 2#32), (16396, 1#32), (20492, 1#32), (20512, 6#32)], plk := { staged := [], nextSeq := 1, queue := [], sent := [], groups := [], ring := [(5, { seq := 9, sfn := 0, status := 0, tick := 0, items := 3, index := 0, master := 0, latePol := false, applied := 0, failed := 0, reason := 0, tag := 0, mirroredIn := false, mirrorOut := false, unmirrored := false, group := false, peerSeq := 0, map := 0 }), (1023, { seq := 8, sfn := 0, status := 0, tick := 0, items := 0, index := 0, master := 0, latePol := false, applied := 0, failed := 0, reason := 0, tag := 0, mirroredIn := false, mirrorOut := false, unmirrored := false, group := false, peerSeq := 0, map := 0 })], find := [] } }
def s20 : State := { base with regs := [(17179889796, 1#32)] }
def s21 : State := { base with regs := [(32, 2#32), (16396, 1#32)] }
def s22 : State := { base with regs := [(32, 2#32), (16396, 1#32), (17179885608, 0x3B9ACA00#32), (17179885620, 0x2FF#32)] }
def s23 : State := { base with regs := [(32, 2#32), (16396, 1#32), (17179885608, 0x20000000#32), (17179885612, 0x1F4#32), (17179885620, 0x2FF#32)], plk := { staged := [(768, { kind := 14, target := 0, arg := 0 }), (769, { kind := 30, target := 0, arg := 1 })], nextSeq := 1, queue := [], sent := [], groups := [], ring := [(5, { seq := 9, sfn := 0, status := 0, tick := 0, items := 3, index := 0, master := 0, latePol := false, applied := 0, failed := 0, reason := 0, tag := 0, mirroredIn := false, mirrorOut := false, unmirrored := false, group := false, peerSeq := 0, map := 0 }), (1023, { seq := 8, sfn := 0, status := 0, tick := 0, items := 0, index := 0, master := 0, latePol := false, applied := 0, failed := 0, reason := 0, tag := 0, mirroredIn := false, mirrorOut := false, unmirrored := false, group := false, peerSeq := 0, map := 0 })], find := [] } }
def s24 : State := { base with regs := [(32, 2#32), (16396, 1#32), (17179885608, 0x20000000#32), (17179885612, 0x1F4#32), (17179885620, 0x2FF#32)], plk := { staged := [(768, { kind := 14, target := 0, arg := 0 }), (769, { kind := 14, target := 1, arg := 1 })], nextSeq := 1, queue := [], sent := [], groups := [], ring := [(5, { seq := 9, sfn := 0, status := 0, tick := 0, items := 3, index := 0, master := 0, latePol := false, applied := 0, failed := 0, reason := 0, tag := 0, mirroredIn := false, mirrorOut := false, unmirrored := false, group := false, peerSeq := 0, map := 0 }), (1023, { seq := 8, sfn := 0, status := 0, tick := 0, items := 0, index := 0, master := 0, latePol := false, applied := 0, failed := 0, reason := 0, tag := 0, mirroredIn := false, mirrorOut := false, unmirrored := false, group := false, peerSeq := 0, map := 0 })], find := [] } }
def s25 : State := { base with regs := [(32, 2#32), (16396, 1#32), (17179885608, 0x20000000#32), (17179885612, 0x1F4#32), (17179885620, 0x2FF#32)], plk := { staged := [(768, { kind := 1, target := 0, arg := 0 }), (769, { kind := 1, target := 0, arg := 1 })], nextSeq := 1, queue := [], sent := [], groups := [], ring := [(5, { seq := 9, sfn := 0, status := 0, tick := 0, items := 3, index := 0, master := 0, latePol := false, applied := 0, failed := 0, reason := 0, tag := 0, mirroredIn := false, mirrorOut := false, unmirrored := false, group := false, peerSeq := 0, map := 0 }), (1023, { seq := 8, sfn := 0, status := 0, tick := 0, items := 0, index := 0, master := 0, latePol := false, applied := 0, failed := 0, reason := 0, tag := 0, mirroredIn := false, mirrorOut := false, unmirrored := false, group := false, peerSeq := 0, map := 0 })], find := [] } }
def s26 : State := { base with regs := [(32, 2#32), (16396, 1#32), (17179885608, 0x20000000#32), (17179885612, 0x1F4#32), (17179885620, 0x2FF#32)], plk := { staged := [(768, { kind := 14, target := 0, arg := 0 }), (769, { kind := 14, target := 0, arg := 1 })], nextSeq := 1, queue := [], sent := [], groups := [], ring := [(5, { seq := 9, sfn := 0, status := 0, tick := 0, items := 3, index := 0, master := 0, latePol := false, applied := 0, failed := 0, reason := 0, tag := 0, mirroredIn := false, mirrorOut := false, unmirrored := false, group := false, peerSeq := 0, map := 0 }), (1023, { seq := 8, sfn := 0, status := 0, tick := 0, items := 0, index := 0, master := 0, latePol := false, applied := 0, failed := 0, reason := 0, tag := 0, mirroredIn := false, mirrorOut := false, unmirrored := false, group := false, peerSeq := 0, map := 0 })], find := [] } }
def s27 : State := { base with regs := [(32, 2#32), (16396, 1#32), (17179885608, 0x20000000#32), (17179885612, 0x1F4#32), (17179885616, 2#32), (17179885620, 0x2FF#32)], plk := { staged := [(768, { kind := 14, target := 0, arg := 0 }), (769, { kind := 14, target := 0, arg := 1 })], nextSeq := 1, queue := [], sent := [], groups := [], ring := [(5, { seq := 9, sfn := 0, status := 0, tick := 0, items := 3, index := 0, master := 0, latePol := false, applied := 0, failed := 0, reason := 0, tag := 0, mirroredIn := false, mirrorOut := false, unmirrored := false, group := false, peerSeq := 0, map := 0 }), (1023, { seq := 8, sfn := 0, status := 0, tick := 0, items := 0, index := 0, master := 0, latePol := false, applied := 0, failed := 0, reason := 0, tag := 0, mirroredIn := false, mirrorOut := false, unmirrored := false, group := false, peerSeq := 0, map := 0 })], find := [] } }
def s28 : State := { base with regs := [(32, 2#32), (16396, 1#32), (17179885608, 0x20000000#32), (17179885612, 0x1F4#32), (17179885620, 0x2FF#32)], plk := { staged := [(768, { kind := 1, target := 0, arg := 0 }), (769, { kind := 14, target := 0, arg := 1 })], nextSeq := 1, queue := [{ seq := 8, sfn := 9, tick := 0, us := false, items := (List.replicate 4095 { kind := 14, target := 0, arg := 0 }), hdr := { latePol := false, group := false, nomirror := false, gmask := 0, tag := 7 }, master := 3, mirroredIn := false, mirrorOut := false, unmirrored := false, groupIn := false, late := false, peerSeq := 0, check := [] }], sent := [], groups := [], ring := [(5, { seq := 9, sfn := 0, status := 0, tick := 0, items := 3, index := 0, master := 0, latePol := false, applied := 0, failed := 0, reason := 0, tag := 0, mirroredIn := false, mirrorOut := false, unmirrored := false, group := false, peerSeq := 0, map := 0 }), (1023, { seq := 8, sfn := 0, status := 0, tick := 0, items := 0, index := 0, master := 0, latePol := false, applied := 0, failed := 0, reason := 0, tag := 0, mirroredIn := false, mirrorOut := false, unmirrored := false, group := false, peerSeq := 0, map := 0 })], find := [] } }
def s29 : State := { base with regs := [(32, 4#32), (16396, 1#32), (53280, 0x359#32), (77860, 5#32)] }
def s30 : State := { base with regs := [(12320, 1#32), (16396, 1#32)], plk := { staged := [], nextSeq := 1, queue := [{ seq := 9, sfn := 987655, tick := 0, us := false, items := [{ kind := 14, target := 0, arg := 0 }, { kind := 9, target := 0, arg := 0 }], hdr := { latePol := false, group := false, nomirror := false, gmask := 0, tag := 7 }, master := 3, mirroredIn := false, mirrorOut := false, unmirrored := false, groupIn := false, late := false, peerSeq := 0, check := [] }], sent := [], groups := [], ring := [(5, { seq := 9, sfn := 0, status := 0, tick := 0, items := 3, index := 0, master := 0, latePol := false, applied := 0, failed := 0, reason := 0, tag := 0, mirroredIn := false, mirrorOut := false, unmirrored := false, group := false, peerSeq := 0, map := 0 }), (1023, { seq := 8, sfn := 0, status := 0, tick := 0, items := 0, index := 0, master := 0, latePol := false, applied := 0, failed := 0, reason := 0, tag := 0, mirroredIn := false, mirrorOut := false, unmirrored := false, group := false, peerSeq := 0, map := 0 })], find := [] }, tb := { t := 530243154692014080000, inc := 8589934592, slewCnt := 0, disc := 0 } }
def s31 : State := { base with regs := [(12320, 1#32), (16396, 1#32)], plk := { staged := [], nextSeq := 1, queue := [{ seq := 9, sfn := 987655, tick := 0, us := false, items := [{ kind := 14, target := 0, arg := 0 }, { kind := 1, target := 0, arg := 0 }], hdr := { latePol := false, group := false, nomirror := false, gmask := 0, tag := 7 }, master := 3, mirroredIn := false, mirrorOut := false, unmirrored := false, groupIn := false, late := false, peerSeq := 0, check := [] }], sent := [], groups := [], ring := [(5, { seq := 9, sfn := 0, status := 0, tick := 0, items := 3, index := 0, master := 0, latePol := false, applied := 0, failed := 0, reason := 0, tag := 0, mirroredIn := false, mirrorOut := false, unmirrored := false, group := false, peerSeq := 0, map := 0 }), (1023, { seq := 8, sfn := 0, status := 0, tick := 0, items := 0, index := 0, master := 0, latePol := false, applied := 0, failed := 0, reason := 0, tag := 0, mirroredIn := false, mirrorOut := false, unmirrored := false, group := false, peerSeq := 0, map := 0 })], find := [] }, tb := { t := 530243154692014080000, inc := 8589934592, slewCnt := 0, disc := 0 } }
def s32 : State := { base with regs := [(32, 2#32), (16396, 1#32), (17179885636, 0x4D#32)], plk := { staged := [], nextSeq := 1, queue := [{ seq := 76, sfn := 987660, tick := 0, us := false, items := [{ kind := 14, target := 0, arg := 0 }], hdr := { latePol := false, group := false, nomirror := false, gmask := 0, tag := 7 }, master := 3, mirroredIn := false, mirrorOut := false, unmirrored := false, groupIn := false, late := false, peerSeq := 0, check := [] }, { seq := 77, sfn := 987660, tick := 0, us := false, items := [{ kind := 14, target := 0, arg := 0 }], hdr := { latePol := false, group := false, nomirror := false, gmask := 0, tag := 7 }, master := 3, mirroredIn := false, mirrorOut := false, unmirrored := false, groupIn := false, late := false, peerSeq := 0, check := [] }], sent := [], groups := [], ring := [(5, { seq := 9, sfn := 0, status := 0, tick := 0, items := 3, index := 0, master := 0, latePol := false, applied := 0, failed := 0, reason := 0, tag := 0, mirroredIn := false, mirrorOut := false, unmirrored := false, group := false, peerSeq := 0, map := 0 }), (1023, { seq := 8, sfn := 0, status := 0, tick := 0, items := 0, index := 0, master := 0, latePol := false, applied := 0, failed := 0, reason := 0, tag := 0, mirroredIn := false, mirrorOut := false, unmirrored := false, group := false, peerSeq := 0, map := 0 })], find := [] } }
def s33 : State := { base with regs := [(32, 2#32), (12300, 1#32)] }
def s34 : State := { base with regs := [(32, 2#32), (12300, 1#32), (12320, 1#32), (12344, 0xFFFF0000#32)], tb := { t := 530242871224172544077, inc := 8589934592, slewCnt := 990, disc := 5 } }
def s35 : State := { base with regs := [(12320, 1#32), (12352, 3#32)], tb := { t := 530242871224172544077, inc := 8589934592, slewCnt := 990, disc := 5 } }
def s36 : State := { base with regs := [(12320, 1#32), (12352, 0xFFFFFFFF#32)], tb := { t := 530242871224172544077, inc := 8589934592, slewCnt := 990, disc := 5 } }
def s37 : State := { base with regs := [(32, 2#32), (12300, 1#32), (102412, 1#32), (102432, 1#32)] }
def s38 : State := { base with regs := [(32, 2#32), (12300, 1#32), (102412, 1#32), (102432, 1#32), (17179881792, 0x108#32), (1108101574980, 4#32)] }
def s39 : State := { base with regs := [(77860, 5#32), (17179881860, 1#32)], gp := [(3, { tx0 := 0, tx1 := 0, rx0 := 0, rx1 := 0, un0 := [], un1 := [], wait0 := [], wait1 := [], try0 := 0, try1 := 0, smGood := 0, smBad := 0, lmGood := 0, lmMiss := 0, ttN := 3, ttOff := -30064758727, ttDly := 55555555555, match_ := false, rxSfn := 0, rxFill := [], rxBytes := [], hello := false, member := 0, deps := [(7, 6597069766656)], arrs := [(6, 1), (7, 35184372088832)] })] }
def s40 : State := { base with regs := [(32, 2#32), (102412, 1#32), (102432, 1#32), (1108101574980, 0xC#32)] }
def s41 : State := { base with regs := [(32, 2#32), (102412, 1#32), (102432, 1#32), (1108101574980, 9#32)] }
def s42 : State := { base with regs := [(32, 2#32), (29016, 0x11#32), (29020, 0x30007#32), (102412, 1#32), (102432, 1#32), (1108101574980, 1#32)] }
def s43 : State := { base with regs := [(12436, 1#32)] }
def s44 : State := { base with regs := [(12320, 1#32), (12384, 1#32), (12436, 1#32)], tb := { t := 530242871224172544077, inc := 8589934592, slewCnt := 990, disc := 5 }, pin := { pps := [{ start := 123456789400, width := 5, low := true, seq := 6 }, { start := 9, width := 9, low := true, seq := 9 }], pulse := some true, todEdge := true, todSending := false, tpRx := [], ppsIn := some 5 } }
def s45 : State := { base with regs := [(12384, 1#32)], tb := { t := 530242871224172544077, inc := 8589934592, slewCnt := 990, disc := 5 }, pin := { pps := [], pulse := none, todEdge := false, todSending := true, tpRx := [], ppsIn := some 8090864123904005 } }
def s46 : State := { base with regs := [(32, 2#32), (65548, 1#32)] }
def s47 : State := { base with regs := [(32, 2#32), (28684, 1#32), (28952, 0xB#32), (28956, 0xFFF0003#32), (102412, 1#32), (102432, 1#32)] }
def s48 : State := { base with regs := [(32, 2#32), (57380, 2#32), (77860, 5#32), (102412, 1#32)] }
def s49 : State := { base with regs := [(28952, 0xB#32), (28956, 0xFFF0003#32)] }
def s50 : State := { base with regs := [(32, 4#32), (53280, 0x359#32), (77860, 5#32), (102412, 1#32)] }
def s51 : State := { base with regs := [(32, 4#32), (53280, 0x359#32), (53288, 2#32), (77860, 5#32), (102412, 1#32)] }
def s52 : State := { base with regs := [(29016, 0xB#32), (29020, 0xFFF0003#32)], pin := { pps := [], pulse := none, todEdge := false, todSending := false, tpRx := [(1, [([1#32, 2#32, 3#32, 4#32], (List.replicate 70 8#8))])], ppsIn := none } }
def s53 : State := { base with eng := [(3, { gr := [(5, 7#32)], mem := [], ecc := [], csr := [], ops := [{ write := false, addr := 12320, data := 0x7777#32, dest := 5, drop := false }, { write := true, addr := 0, data := 0#32, dest := 0, drop := true }], snap := [], hdlc := [], halting := false, tmr := false, wd := 0, chk := 0, mute := false })] }
def s54 : State := { base with regs := [(32, 2#32), (65548, 1#32)], eng := [(3, { gr := [(5, 7#32)], mem := [], ecc := [], csr := [], ops := [{ write := false, addr := 65568, data := 0x7777#32, dest := 5, drop := false }, { write := true, addr := 0, data := 0#32, dest := 0, drop := true }], snap := [], hdlc := [], halting := false, tmr := false, wd := 0, chk := 0, mute := false })] }
def s55 : State := { base with regs := [(32, 2#32), (65548, 1#32)], eng := [(3, { gr := [(5, 7#32)], mem := [], ecc := [], csr := [], ops := [{ write := true, addr := 65568, data := 0x7777#32, dest := 5, drop := false }, { write := true, addr := 0, data := 0#32, dest := 0, drop := true }], snap := [], hdlc := [], halting := false, tmr := false, wd := 0, chk := 0, mute := false })] }
def s56 : State := { base with regs := [(32, 2#32), (45280, 0x323#32), (49164, 1#32), (49184, 0x7FFF#32)] }
def s57 : State := { base with regs := [(32, 2#32), (65548, 1#32)], hst := { smbAddr := 65568, smbStat := 7, smbBusy := false, vecLvl := 0, armed := 4294967295, msixEn := true, fnMask := false, vecMask := 4042322160, vecPend := 0, msix := [], flash := [], booting := false, wdogRun := 0, jtagErr := false, sentAt := [], sram := [(5, 0x12345678#32)], aer := false, remapLk := false, intN := false, bars := [] } }
def s58 : State := { base with hst := { smbAddr := 65568, smbStat := 7, smbBusy := true, vecLvl := 0, armed := 4294967295, msixEn := true, fnMask := false, vecMask := 4042322160, vecPend := 0, msix := [], flash := [], booting := false, wdogRun := 0, jtagErr := false, sentAt := [], sram := [(5, 0x12345678#32)], aer := false, remapLk := false, intN := false, bars := [] } }
def s59 : State := { base with regs := [(49164, 1#32), (49184, 0x40007FFF#32)] }
def s60 : State := { base with regs := [(32, 2#32), (45068, 1#32), (45104, 9#32)] }
def s61 : State := { base with regs := [(32, 2#32), (45068, 1#32), (49164, 1#32), (49184, 0x40007FFF#32), (432345564227569924, 5#32)], tb := { t := 530242871224172544077, inc := 8589934592, slewCnt := 0, disc := 0 }, rings := [(9, [34, 35])], cells := [(35868, { sfn := 987652, fill := 0, data := [1#8, 2#8, 3#8], good := 1 }), (35867, { sfn := 987651, fill := 0, data := [1#8, 2#8, 3#8], good := 3 })] }
def s62 : State := { base with regs := [(32, 2#32), (45068, 1#32), (45104, 9#32), (45124, 1#32), (49184, 0x40007FFF#32), (432345564227569924, 5#32)], tb := { t := 530242871224172544077, inc := 8589934592, slewCnt := 0, disc := 0 }, rings := [(9, [34, 35])], cells := [(35868, { sfn := 987652, fill := 0, data := [1#8, 2#8, 3#8], good := 1 }), (35867, { sfn := 987651, fill := 0, data := [1#8, 2#8, 3#8], good := 3 })] }
def s63 : State := { base with regs := [(32, 2#32), (8228, 0x20#32), (45280, 0x313#32), (49164, 1#32), (49184, 0x40007FFF#32)] }
def s64 : State := { base with regs := [(32, 2#32), (45280, 0x313#32), (49164, 1#32), (49184, 0x40007FFF#32), (53288, 2#32)] }
def s65 : State := { base with regs := [(32, 4#32), (45280, 0x313#32), (49164, 1#32), (49184, 0x40007FFF#32)], twn := { actSeq := 0, fwdSeq := 0, fwdDone := 0, unmirrored := 0, beat := none, prev := 0, joinAt := none, gen := [], captureAt := [], staged := [(0, 1, [(3, 4)]), (1, 1, [(3, 4)]), (2, 1, [(3, 4)]), (3, 1, [(3, 4)]), (4, 1, [(3, 4)]), (5, 1, [(3, 4)]), (6, 1, [(3, 4)]), (7, 1, [(3, 4)]), (8, 1, [(3, 4)]), (9, 1, [(3, 4)]), (10, 1, [(3, 4)]), (11, 1, [(3, 4)]), (12, 1, [(3, 4)]), (13, 1, [(3, 4)]), (14, 1, [(3, 4)]), (15, 1, [(3, 4)]), (16, 1, [(3, 4)]), (17, 1, [(3, 4)]), (18, 1, [(3, 4)]), (19, 1, [(3, 4)]), (20, 1, [(3, 4)]), (21, 1, [(3, 4)]), (22, 1, [(3, 4)]), (23, 1, [(3, 4)]), (24, 1, [(3, 4)]), (25, 1, [(3, 4)]), (26, 1, [(3, 4)]), (27, 1, [(3, 4)]), (28, 1, [(3, 4)]), (29, 1, [(3, 4)]), (30, 1, [(3, 4)]), (31, 1, [(3, 4)]), (32, 1, [(3, 4)]), (33, 1, [(3, 4)]), (34, 1, [(3, 4)]), (35, 1, [(3, 4)]), (36, 1, [(3, 4)]), (37, 1, [(3, 4)]), (38, 1, [(3, 4)]), (39, 1, [(3, 4)]), (40, 1, [(3, 4)]), (41, 1, [(3, 4)]), (42, 1, [(3, 4)]), (43, 1, [(3, 4)]), (44, 1, [(3, 4)]), (45, 1, [(3, 4)]), (46, 1, [(3, 4)]), (47, 1, [(3, 4)]), (48, 1, [(3, 4)]), (49, 1, [(3, 4)]), (50, 1, [(3, 4)]), (51, 1, [(3, 4)]), (52, 1, [(3, 4)]), (53, 1, [(3, 4)]), (54, 1, [(3, 4)]), (55, 1, [(3, 4)]), (56, 1, [(3, 4)]), (57, 1, [(3, 4)]), (58, 1, [(3, 4)]), (59, 1, [(3, 4)]), (60, 1, [(3, 4)]), (61, 1, [(3, 4)]), (62, 1, [(3, 4)]), (63, 1, [(3, 4)]), (64, 1, [(3, 4)]), (65, 1, [(3, 4)]), (66, 1, [(3, 4)]), (67, 1, [(3, 4)]), (68, 1, [(3, 4)]), (69, 1, [(3, 4)]), (70, 1, [(3, 4)]), (71, 1, [(3, 4)]), (72, 1, [(3, 4)]), (73, 1, [(3, 4)]), (74, 1, [(3, 4)]), (75, 1, [(3, 4)]), (76, 1, [(3, 4)]), (77, 1, [(3, 4)]), (78, 1, [(3, 4)]), (79, 1, [(3, 4)]), (80, 1, [(3, 4)]), (81, 1, [(3, 4)]), (82, 1, [(3, 4)]), (83, 1, [(3, 4)]), (84, 1, [(3, 4)]), (85, 1, [(3, 4)]), (86, 1, [(3, 4)]), (87, 1, [(3, 4)]), (88, 1, [(3, 4)]), (89, 1, [(3, 4)]), (90, 1, [(3, 4)]), (91, 1, [(3, 4)]), (92, 1, [(3, 4)]), (93, 1, [(3, 4)]), (94, 1, [(3, 4)]), (95, 1, [(3, 4)]), (96, 1, [(3, 4)]), (97, 1, [(3, 4)]), (98, 1, [(3, 4)]), (99, 1, [(3, 4)])], own := [], complete := 1267650600228229401496703205375, stagedMap := 0, flight := none, held := [], hist := [], lost := false, takeover := none, handAt := none, digests := [], convAt := 0, tvwAt := 0, tvwRdi := 0 } }
def s66 : State := { base with regs := [(32, 2#32), (118796, 1#32), (17179988016, 0x101#32)] }
def s67 : State := { base with cal := { queue := [{ kind := 3, target := 9, host := true, temp := 0, spare := 0 }], running := [{ kind := 0, target := 9, host := true, temp := 0, spare := 2 }], flag := [], last := [], fact := [], trim := [], corr := [], dq := [], dqTo := [], swap := [], ctle := [], prog := none, halt := false, fr := [] } }
def s68 : State := { base with regs := [(32, 2#32), (1167372, 1#32), (17181036672, 0x1E#32)] }
def s69 : State := { base with regs := [(32, 2#32), (118796, 1#32), (118816, 0x143C30#32)], cal := { queue := [{ kind := 0, target := 9, host := true, temp := 0, spare := 0 }], running := [], flag := [], last := [], fact := [], trim := [], corr := [], dq := [], dqTo := [], swap := [], ctle := [], prog := none, halt := false, fr := [] } }
def s70 : State := { base with regs := [(118816, 0x5A3C37#32)], cal := { queue := [{ kind := 3, target := 9, host := true, temp := 0, spare := 0 }], running := [{ kind := 4, target := 3, host := true, temp := 0, spare := 2 }], flag := [], last := [], fact := [], trim := [], corr := [], dq := [], dqTo := [], swap := [], ctle := [], prog := none, halt := false, fr := [] } }
def s71 : State := { base with regs := [(12320, 1#32), (118796, 1#32), (1101836, 1#32), (1101864, 4#32), (1101908, 0x300#32)], cal := { queue := [{ kind := 0, target := 9, host := true, temp := 0, spare := 0 }], running := [], flag := [], last := [], fact := [], trim := [], corr := [], dq := [], dqTo := [], swap := [], ctle := [], prog := none, halt := false, fr := [] } }
def s72 : State := { base with regs := [(32, 2#32), (118796, 1#32), (118912, 0x93051#32)] }
def s73 : State := { base with pwr := { inReset := false, mclkLost := false, refSeen := 0, modeReqs := [], straps := 0, rgn := [], fusesRead := true, bscan := false }, cal := { queue := [], running := [], flag := [], last := [], fact := [], trim := [], corr := [], dq := [], dqTo := [], swap := [], ctle := [], prog := some (3, [0x93051#32, 0x70008#32, 0#32, 0#32, 0#32, 0#32, 0#32, 0#32, 0#32, 0#32, 0#32, 0#32, 0#32, 0#32]), halt := false, fr := [] } }
def s74 : State := { base with regs := [(32, 2#32), (118796, 1#32), (118912, 0x93051#32)], fuses := [(32, 0x93051#32), (33, 0x70008#32), (46, 0x18D#32), (47, 0xC3A55A3C#32)] }
def s75 : State := { base with cal := { queue := [], running := [], flag := [], last := [], fact := [], trim := [], corr := [], dq := [], dqTo := [], swap := [], ctle := [], prog := some (3, [0x93051#32, 0x70008#32, 0#32, 0#32, 0#32, 0#32, 0#32, 0#32, 0#32, 0#32, 0#32, 0#32, 0#32, 0#32]), halt := true, fr := [] } }
def s76 : State := { base with regs := [(32, 2#32), (118796, 1#32)], fuses := [(0, 5#32), (16, 5#32), (32, 5#32), (48, 5#32), (64, 5#32), (80, 5#32), (96, 5#32), (112, 5#32), (128, 5#32), (144, 5#32), (160, 5#32), (176, 5#32), (192, 5#32), (208, 5#32), (224, 5#32), (240, 5#32), (256, 5#32), (272, 5#32), (288, 5#32), (304, 5#32), (320, 5#32), (336, 5#32), (352, 5#32), (368, 5#32), (384, 5#32), (400, 5#32), (416, 5#32), (432, 5#32), (448, 5#32), (464, 5#32)] }
def s77 : State := { base with regs := [(32, 2#32), (118796, 1#32)], fuses := [(0, 5#32), (16, 5#32), (32, 5#32), (48, 5#32), (64, 5#32), (80, 5#32), (96, 5#32), (112, 5#32), (128, 5#32), (144, 5#32), (160, 5#32), (176, 5#32), (192, 5#32), (208, 5#32), (224, 5#32), (240, 5#32), (256, 5#32), (272, 5#32), (288, 5#32), (304, 5#32), (320, 5#32), (336, 5#32), (352, 5#32), (368, 5#32), (384, 5#32), (400, 5#32), (416, 5#32), (432, 5#32), (448, 5#32), (464, 5#32), (480, 5#32), (496, 5#32)] }
def s78 : State := { base with regs := [(32, 2#32), (2117644, 1#32), (2117664, 5#32), (2117704, 0x7FFC#32)], eng := [(5, { gr := [(3, 0x80000003#32), (4, 0x7FFF0021#32), (7, 0xFFFFFF00#32)], mem := [(16383, 0x201941#32), (16384, 0xDEADBEEF#32), (16385, 0x87654321#32)], ecc := [], csr := [(5, 1#32), (8, 0x1FF#32)], ops := [{ write := false, addr := 4, data := 0#32, dest := 9, drop := false }], snap := [], hdlc := [], halting := false, tmr := false, wd := 0, chk := 0, mute := false })] }
def s79 : State := { base with regs := [(32, 2#32), (2117644, 1#32), (2117664, 5#32), (2117704, 0x7FFC#32)], eng := [(5, { gr := [(3, 0x80000003#32), (4, 0x7FFF0021#32), (7, 0xFFFFFF00#32)], mem := [(16383, 0x1201941#32), (16384, 0xDEADBEEF#32), (16385, 0x87654321#32)], ecc := [], csr := [(5, 1#32), (8, 0x1FF#32)], ops := [{ write := false, addr := 4, data := 0#32, dest := 9, drop := false }], snap := [], hdlc := [], halting := false, tmr := false, wd := 0, chk := 0, mute := false })] }
def s80 : State := { base with regs := [(32, 2#32), (2117644, 1#32), (2117664, 5#32), (2117704, 0x7FFC#32)], eng := [(5, { gr := [(3, 0x80000003#32), (4, 0x7FFF0021#32), (7, 0xFFFFFF00#32)], mem := [(16383, 0x2201941#32), (16384, 0xDEADBEEF#32), (16385, 0x87654321#32)], ecc := [], csr := [(5, 1#32), (8, 0x1FF#32)], ops := [{ write := false, addr := 4, data := 0#32, dest := 9, drop := false }], snap := [], hdlc := [], halting := false, tmr := false, wd := 0, chk := 0, mute := false })] }
def s81 : State := { base with regs := [(32, 2#32), (2117644, 1#32), (2117664, 5#32), (2117704, 0x7FFC#32)], eng := [(5, { gr := [(3, 0x80000003#32), (4, 0x7FFF0021#32), (7, 0xFFFFFF00#32)], mem := [(16383, 0x3201941#32), (16384, 0xDEADBEEF#32), (16385, 0x87654321#32)], ecc := [], csr := [(5, 1#32), (8, 0x1FF#32)], ops := [{ write := false, addr := 4, data := 0#32, dest := 9, drop := false }], snap := [], hdlc := [], halting := false, tmr := false, wd := 0, chk := 0, mute := false })] }
def s82 : State := { base with regs := [(32, 2#32), (2117644, 1#32), (2117664, 5#32), (2117704, 0x7FFC#32)], eng := [(5, { gr := [(3, 0x80000003#32), (4, 0x7FFF0021#32), (7, 0xFFFFFF00#32)], mem := [(16383, 0x4201941#32), (16384, 0xDEADBEEF#32), (16385, 0x87654321#32)], ecc := [], csr := [(5, 1#32), (8, 0x1FF#32)], ops := [{ write := false, addr := 4, data := 0#32, dest := 9, drop := false }], snap := [], hdlc := [], halting := false, tmr := false, wd := 0, chk := 0, mute := false })] }
def s83 : State := { base with regs := [(32, 2#32), (2117644, 1#32), (2117664, 5#32), (2117704, 0x7FFC#32)], eng := [(5, { gr := [(3, 0x80000003#32), (4, 0x7FFF0021#32), (7, 0xFFFFFF00#32)], mem := [(16383, 0x5201941#32), (16384, 0xDEADBEEF#32), (16385, 0x87654321#32)], ecc := [], csr := [(5, 1#32), (8, 0x1FF#32)], ops := [{ write := false, addr := 4, data := 0#32, dest := 9, drop := false }], snap := [], hdlc := [], halting := false, tmr := false, wd := 0, chk := 0, mute := false })] }
def s84 : State := { base with regs := [(32, 2#32), (2117644, 1#32), (2117664, 5#32), (2117704, 0x7FFC#32)], eng := [(5, { gr := [(3, 0x80000003#32), (4, 0x7FFF0021#32), (7, 0xFFFFFF00#32)], mem := [(16383, 0x6201941#32), (16384, 0xDEADBEEF#32), (16385, 0x87654321#32)], ecc := [], csr := [(5, 1#32), (8, 0x1FF#32)], ops := [{ write := false, addr := 4, data := 0#32, dest := 9, drop := false }], snap := [], hdlc := [], halting := false, tmr := false, wd := 0, chk := 0, mute := false })] }
def s85 : State := { base with regs := [(32, 2#32), (2117644, 1#32), (2117664, 5#32), (2117704, 0x7FFC#32)], eng := [(5, { gr := [(3, 0x80000003#32), (4, 0x7FFF0021#32), (7, 0xFFFFFF00#32)], mem := [(16383, 0x150D0#32), (16384, 0xDEADBEEF#32), (16385, 0x87654321#32)], ecc := [], csr := [(5, 1#32), (8, 0x1FF#32)], ops := [{ write := false, addr := 4, data := 0#32, dest := 9, drop := false }], snap := [], hdlc := [], halting := false, tmr := false, wd := 0, chk := 0, mute := false })] }
def s86 : State := { base with regs := [(32, 2#32), (2117644, 1#32), (2117664, 5#32), (2117704, 0x7FFC#32)], eng := [(5, { gr := [(3, 0x80000003#32), (4, 0x7FFF0021#32), (7, 0xFFFFFF00#32)], mem := [(16383, 0x7201941#32), (16384, 0xDEADBEEF#32), (16385, 0x87654321#32)], ecc := [], csr := [(5, 1#32), (8, 0x1FF#32)], ops := [{ write := false, addr := 4, data := 0#32, dest := 9, drop := false }], snap := [], hdlc := [], halting := false, tmr := false, wd := 0, chk := 0, mute := false })] }
def s87 : State := { base with regs := [(32, 2#32), (2117644, 1#32), (2117664, 5#32), (2117704, 0x7FFC#32)], eng := [(5, { gr := [(3, 0x80000003#32), (4, 0x7FFF0021#32), (7, 0xFFFFFF00#32)], mem := [(16383, 0x50D0#32), (16384, 0xDEADBEEF#32), (16385, 0x87654321#32)], ecc := [], csr := [(5, 1#32), (8, 0x1FF#32)], ops := [{ write := false, addr := 4, data := 0#32, dest := 9, drop := false }], snap := [], hdlc := [], halting := false, tmr := false, wd := 0, chk := 0, mute := false })] }
def s88 : State := { base with regs := [(32, 2#32), (2117644, 1#32), (2117664, 5#32), (2117704, 0x7FFC#32)], eng := [(5, { gr := [(3, 0x80000003#32), (4, 0x7FFF0021#32), (7, 0xFFFFFF00#32)], mem := [(16383, 0x350D1#32), (16384, 0xDEADBEEF#32), (16385, 0x87654321#32)], ecc := [], csr := [(5, 1#32), (8, 0x1FF#32)], ops := [{ write := false, addr := 4, data := 0#32, dest := 9, drop := false }], snap := [], hdlc := [], halting := false, tmr := false, wd := 0, chk := 0, mute := false })] }
def s89 : State := { base with regs := [(32, 2#32), (2117644, 1#32), (2117664, 5#32), (2117704, 0x7FFC#32)], eng := [(5, { gr := [(3, 0x80000003#32), (4, 0x7FFF0021#32), (7, 0xFFFFFF00#32)], mem := [(16383, 0x8201941#32), (16384, 0xDEADBEEF#32), (16385, 0x87654321#32)], ecc := [], csr := [(5, 1#32), (8, 0x1FF#32)], ops := [{ write := false, addr := 4, data := 0#32, dest := 9, drop := false }], snap := [], hdlc := [], halting := false, tmr := false, wd := 0, chk := 0, mute := false })] }
def s90 : State := { base with regs := [(32, 2#32), (2117644, 1#32), (2117664, 5#32), (2117704, 0x7FFC#32)], eng := [(5, { gr := [(3, 0x80000003#32), (4, 0x7FFF0021#32), (7, 0xFFFFFF00#32)], mem := [(16383, 0x50D1#32), (16384, 0xDEADBEEF#32), (16385, 0x87654321#32)], ecc := [], csr := [(5, 1#32), (8, 0x1FF#32)], ops := [{ write := false, addr := 4, data := 0#32, dest := 9, drop := false }], snap := [], hdlc := [], halting := false, tmr := false, wd := 0, chk := 0, mute := false })] }
def s91 : State := { base with regs := [(32, 2#32), (2117644, 1#32), (2117664, 5#32), (2117704, 0x7FFC#32)], eng := [(5, { gr := [(3, 0x80000003#32), (4, 0x7FFF0021#32), (7, 0xFFFFFF00#32)], mem := [(16383, 0x350D2#32), (16384, 0xDEADBEEF#32), (16385, 0x87654321#32)], ecc := [], csr := [(5, 1#32), (8, 0x1FF#32)], ops := [{ write := false, addr := 4, data := 0#32, dest := 9, drop := false }], snap := [], hdlc := [], halting := false, tmr := false, wd := 0, chk := 0, mute := false })] }
def s92 : State := { base with regs := [(32, 2#32), (2117644, 1#32), (2117664, 5#32), (2117704, 0x7FFC#32)], eng := [(5, { gr := [(3, 0x80000003#32), (4, 0x7FFF0021#32), (7, 0xFFFFFF00#32)], mem := [(16383, 0x9201941#32), (16384, 0xDEADBEEF#32), (16385, 0x87654321#32)], ecc := [], csr := [(5, 1#32), (8, 0x1FF#32)], ops := [{ write := false, addr := 4, data := 0#32, dest := 9, drop := false }], snap := [], hdlc := [], halting := false, tmr := false, wd := 0, chk := 0, mute := false })] }
def s93 : State := { base with regs := [(32, 2#32), (2117644, 1#32), (2117664, 5#32), (2117704, 0x7FFC#32)], eng := [(5, { gr := [(3, 0x80000003#32), (4, 0x7FFF0021#32), (7, 0xFFFFFF00#32)], mem := [(16383, 0x250D2#32), (16384, 0xDEADBEEF#32), (16385, 0x87654321#32)], ecc := [], csr := [(5, 1#32), (8, 0x1FF#32)], ops := [{ write := false, addr := 4, data := 0#32, dest := 9, drop := false }], snap := [], hdlc := [], halting := false, tmr := false, wd := 0, chk := 0, mute := false })] }
def s94 : State := { base with regs := [(32, 2#32), (2117644, 1#32), (2117664, 5#32), (2117704, 0x7FFC#32)], eng := [(5, { gr := [(3, 0x80000003#32), (4, 0x7FFF0021#32), (7, 0xFFFFFF00#32)], mem := [(16383, 0xA201941#32), (16384, 0xDEADBEEF#32), (16385, 0x87654321#32)], ecc := [], csr := [(5, 1#32), (8, 0x1FF#32)], ops := [{ write := false, addr := 4, data := 0#32, dest := 9, drop := false }], snap := [], hdlc := [], halting := false, tmr := false, wd := 0, chk := 0, mute := false })] }
def s95 : State := { base with regs := [(32, 2#32), (2117644, 1#32), (2117664, 5#32), (2117704, 0x7FFC#32)], eng := [(5, { gr := [(3, 0x80000003#32), (4, 0x7FFF0021#32), (7, 0xFFFFFF00#32)], mem := [(16383, 0x450D3#32), (16384, 0xDEADBEEF#32), (16385, 0x87654321#32)], ecc := [], csr := [(5, 1#32), (8, 0x1FF#32)], ops := [{ write := false, addr := 4, data := 0#32, dest := 9, drop := false }], snap := [], hdlc := [], halting := false, tmr := false, wd := 0, chk := 0, mute := false })] }
def s96 : State := { base with regs := [(32, 2#32), (2117644, 1#32), (2117664, 5#32), (2117704, 0x7FFC#32)], eng := [(5, { gr := [(3, 0x80000003#32), (4, 0x7FFF0021#32), (7, 0xFFFFFF00#32)], mem := [(16383, 0xB201941#32), (16384, 0xDEADBEEF#32), (16385, 0x87654321#32)], ecc := [], csr := [(5, 1#32), (8, 0x1FF#32)], ops := [{ write := false, addr := 4, data := 0#32, dest := 9, drop := false }], snap := [], hdlc := [], halting := false, tmr := false, wd := 0, chk := 0, mute := false })] }
def s97 : State := { base with regs := [(32, 2#32), (2117644, 1#32), (2117664, 5#32), (2117704, 0x7FFC#32)], eng := [(5, { gr := [(3, 0x80000003#32), (4, 0x7FFF0021#32), (7, 0xFFFFFF00#32)], mem := [(16383, 0x50D4#32), (16384, 0xDEADBEEF#32), (16385, 0x87654321#32)], ecc := [], csr := [(5, 1#32), (8, 0x1FF#32)], ops := [{ write := false, addr := 4, data := 0#32, dest := 9, drop := false }], snap := [], hdlc := [], halting := false, tmr := false, wd := 0, chk := 0, mute := false })] }
def s98 : State := { base with regs := [(32, 2#32), (2117644, 1#32), (2117664, 5#32), (2117704, 0x7FFC#32)], eng := [(5, { gr := [(3, 0x80000003#32), (4, 0x7FFF0021#32), (7, 0xFFFFFF00#32)], mem := [(16383, 0x350D5#32), (16384, 0xDEADBEEF#32), (16385, 0x87654321#32)], ecc := [], csr := [(5, 1#32), (8, 0x1FF#32)], ops := [{ write := false, addr := 4, data := 0#32, dest := 9, drop := false }], snap := [], hdlc := [], halting := false, tmr := false, wd := 0, chk := 0, mute := false })] }
def s99 : State := { base with regs := [(32, 2#32), (2117644, 1#32), (2117664, 5#32), (2117704, 0x7FFC#32)], eng := [(5, { gr := [(3, 0x80000003#32), (4, 0x7FFF0021#32), (7, 0xFFFFFF00#32)], mem := [(16383, 0x50D5#32), (16384, 0xDEADBEEF#32), (16385, 0x87654321#32)], ecc := [], csr := [(5, 1#32), (8, 0x1FF#32)], ops := [{ write := false, addr := 4, data := 0#32, dest := 9, drop := false }], snap := [], hdlc := [], halting := false, tmr := false, wd := 0, chk := 0, mute := false })] }
def s100 : State := { base with regs := [(32, 2#32), (2117644, 1#32), (2117664, 5#32), (2117704, 0x7FFC#32)], eng := [(5, { gr := [(3, 0x80000003#32), (4, 0x7FFF0021#32), (7, 0xFFFFFF00#32)], mem := [(16383, 0x250D6#32), (16384, 0xDEADBEEF#32), (16385, 0x87654321#32)], ecc := [], csr := [(5, 1#32), (8, 0x1FF#32)], ops := [{ write := false, addr := 4, data := 0#32, dest := 9, drop := false }], snap := [], hdlc := [], halting := false, tmr := false, wd := 0, chk := 0, mute := false })] }
def s101 : State := { base with regs := [(32, 2#32), (2117644, 1#32), (2117664, 5#32), (2117704, 0x7FFC#32)], eng := [(5, { gr := [(3, 0x80000003#32), (4, 0x7FFF0021#32), (7, 0xFFFFFF00#32)], mem := [(16383, 0x4FF50D8#32), (16384, 0xDEADBEEF#32), (16385, 0x87654321#32)], ecc := [], csr := [(5, 1#32), (8, 0x1FF#32)], ops := [{ write := false, addr := 4, data := 0#32, dest := 9, drop := false }], snap := [], hdlc := [], halting := false, tmr := false, wd := 0, chk := 0, mute := false })] }
def s102 : State := { base with regs := [(32, 2#32), (2117644, 1#32), (2117664, 5#32), (2117704, 0x7FFC#32)], eng := [(5, { gr := [(3, 0x80000003#32), (4, 0x7FFF0021#32), (7, 0xFFFFFF00#32)], mem := [(16383, 0x350D6#32), (16384, 0xDEADBEEF#32), (16385, 0x87654321#32)], ecc := [], csr := [(5, 1#32), (8, 0x1FF#32)], ops := [{ write := false, addr := 4, data := 0#32, dest := 9, drop := false }], snap := [], hdlc := [], halting := false, tmr := false, wd := 0, chk := 0, mute := false })] }
def s103 : State := { base with regs := [(32, 2#32), (2117644, 1#32), (2117664, 5#32), (2117704, 0x7FFC#32)], eng := [(5, { gr := [(3, 0x80000003#32), (4, 0x7FFF0021#32), (7, 0xFFFFFF00#32)], mem := [(16383, 0x80031942#32), (16384, 0xDEADBEEF#32), (16385, 0x87654321#32)], ecc := [], csr := [(5, 1#32), (8, 0x1FF#32)], ops := [{ write := false, addr := 4, data := 0#32, dest := 9, drop := false }], snap := [], hdlc := [], halting := false, tmr := false, wd := 0, chk := 0, mute := false })] }
def s104 : State := { base with regs := [(32, 2#32), (2117644, 1#32), (2117664, 5#32), (2117704, 0x7FFC#32)], eng := [(5, { gr := [(3, 0x80000003#32), (4, 0x7FFF0021#32), (7, 0xFFFFFF00#32)], mem := [(16383, 0x40050D8#32), (16384, 0xDEADBEEF#32), (16385, 0x87654321#32)], ecc := [], csr := [(5, 1#32), (8, 0x1FF#32)], ops := [{ write := false, addr := 4, data := 0#32, dest := 9, drop := false }], snap := [], hdlc := [], halting := false, tmr := false, wd := 0, chk := 0, mute := false })] }
def s105 : State := { base with regs := [(32, 2#32), (2117644, 1#32), (2117664, 5#32), (2117704, 0x7FFC#32)], eng := [(5, { gr := [(3, 0x80000003#32), (4, 0x7FFF0021#32), (7, 0xFFFFFF00#32)], mem := [(16383, 0x450D7#32), (16384, 0xDEADBEEF#32), (16385, 0x87654321#32)], ecc := [], csr := [(5, 1#32), (8, 0x1FF#32)], ops := [{ write := false, addr := 4, data := 0#32, dest := 9, drop := false }], snap := [], hdlc := [], halting := false, tmr := false, wd := 0, chk := 0, mute := false })] }
def s106 : State := { base with regs := [(32, 2#32), (2117644, 1#32), (2117664, 5#32), (2117704, 0x7FFC#32)], eng := [(5, { gr := [(3, 0x80000003#32), (4, 0x7FFF0021#32), (7, 0xFFFFFF00#32)], mem := [(16383, 0x80031943#32), (16384, 0xDEADBEEF#32), (16385, 0x87654321#32)], ecc := [], csr := [(5, 1#32), (8, 0x1FF#32)], ops := [{ write := false, addr := 4, data := 0#32, dest := 9, drop := false }], snap := [], hdlc := [], halting := false, tmr := false, wd := 0, chk := 0, mute := false })] }
def s107 : State := { base with regs := [(32, 2#32), (2117644, 1#32), (2117664, 5#32), (2117704, 0x7FFC#32)], eng := [(5, { gr := [(3, 0x80000003#32), (4, 0x7FFF0021#32), (7, 0xFFFFFF00#32)], mem := [(16383, 0x40450D9#32), (16384, 0xDEADBEEF#32), (16385, 0x87654321#32)], ecc := [], csr := [(5, 1#32), (8, 0x1FF#32)], ops := [{ write := false, addr := 4, data := 0#32, dest := 9, drop := false }], snap := [], hdlc := [], halting := false, tmr := false, wd := 0, chk := 0, mute := false })] }
def s108 : State := { base with regs := [(32, 2#32), (2117644, 1#32), (2117664, 5#32), (2117704, 0x7FFC#32)], eng := [(5, { gr := [(3, 0x80000003#32), (4, 0x7FFF0021#32), (7, 0xFFFFFF00#32)], mem := [(16383, 0x600050D8#32), (16384, 0xDEADBEEF#32), (16385, 0x87654321#32)], ecc := [], csr := [(5, 1#32), (8, 0x1FF#32)], ops := [{ write := false, addr := 4, data := 0#32, dest := 9, drop := false }], snap := [], hdlc := [], halting := false, tmr := false, wd := 0, chk := 0, mute := false })] }
def s109 : State := { base with regs := [(32, 2#32), (2117644, 1#32), (2117664, 5#32), (2117704, 0x7FFC#32)], eng := [(5, { gr := [(3, 0x80000003#32), (4, 0x7FFF0021#32), (7, 0xFFFFFF00#32)], mem := [(16383, 0x80031944#32), (16384, 0xDEADBEEF#32), (16385, 0x87654321#32)], ecc := [], csr := [(5, 1#32), (8, 0x1FF#32)], ops := [{ write := false, addr := 4, data := 0#32, dest := 9, drop := false }], snap := [], hdlc := [], halting := false, tmr := false, wd := 0, chk := 0, mute := false })] }
def s110 : State := { base with regs := [(32, 2#32), (2117644, 1#32), (2117664, 5#32), (2117704, 0x7FFC#32)], eng := [(5, { gr := [(3, 0x80000003#32), (4, 0x7FFF0021#32), (7, 0xFFFFFF00#32)], mem := [(16383, 0x600050D9#32), (16384, 0xDEADBEEF#32), (16385, 0x87654321#32)], ecc := [], csr := [(5, 1#32), (8, 0x1FF#32)], ops := [{ write := false, addr := 4, data := 0#32, dest := 9, drop := false }], snap := [], hdlc := [], halting := false, tmr := false, wd := 0, chk := 0, mute := false })] }
def s111 : State := { base with regs := [(32, 2#32), (2117644, 1#32), (2117664, 5#32), (2117704, 0x7FFC#32)], eng := [(5, { gr := [(3, 0x80000003#32), (4, 0x7FFF0021#32), (7, 0xFFFFFF00#32)], mem := [(16383, 0x4FF50DA#32), (16384, 0xDEADBEEF#32), (16385, 0x87654321#32)], ecc := [], csr := [(5, 1#32), (8, 0x1FF#32)], ops := [{ write := false, addr := 4, data := 0#32, dest := 9, drop := false }], snap := [], hdlc := [], halting := false, tmr := false, wd := 0, chk := 0, mute := false })] }
def s112 : State := { base with regs := [(32, 2#32), (2117644, 1#32), (2117664, 5#32), (2117704, 0x7FFC#32)], eng := [(5, { gr := [(3, 0x80000003#32), (4, 0x7FFF0021#32), (7, 0xFFFFFF00#32)], mem := [(16383, 0x80031945#32), (16384, 0xDEADBEEF#32), (16385, 0x87654321#32)], ecc := [], csr := [(5, 1#32), (8, 0x1FF#32)], ops := [{ write := false, addr := 4, data := 0#32, dest := 9, drop := false }], snap := [], hdlc := [], halting := false, tmr := false, wd := 0, chk := 0, mute := false })] }
def s113 : State := { base with regs := [(32, 2#32), (2117644, 1#32), (2117664, 5#32), (2117704, 0x7FFC#32)], eng := [(5, { gr := [(3, 0x80000003#32), (4, 0x7FFF0021#32), (7, 0xFFFFFF00#32)], mem := [(16383, 0x80031946#32), (16384, 0xDEADBEEF#32), (16385, 0x87654321#32)], ecc := [], csr := [(5, 1#32), (8, 0x1FF#32)], ops := [{ write := false, addr := 4, data := 0#32, dest := 9, drop := false }], snap := [], hdlc := [], halting := false, tmr := false, wd := 0, chk := 0, mute := false })] }
def s114 : State := { base with regs := [(32, 2#32), (2117644, 1#32), (2117664, 5#32), (2117704, 0x7FFC#32)], eng := [(5, { gr := [(3, 0x80000003#32), (4, 0x7FFF0021#32), (7, 0xFFFFFF00#32)], mem := [(16383, 0x2050DA#32), (16384, 0xDEADBEEF#32), (16385, 0x87654321#32)], ecc := [], csr := [(5, 1#32), (8, 0x1FF#32)], ops := [{ write := false, addr := 4, data := 0#32, dest := 9, drop := false }], snap := [], hdlc := [], halting := false, tmr := false, wd := 0, chk := 0, mute := false })] }
def s115 : State := { base with regs := [(32, 2#32), (2117644, 1#32), (2117664, 5#32), (2117704, 0x7FFC#32)], eng := [(5, { gr := [(3, 0x80000003#32), (4, 0x7FFF0021#32), (7, 0xFFFFFF00#32)], mem := [(16383, 0x600050DB#32), (16384, 0xDEADBEEF#32), (16385, 0x87654321#32)], ecc := [], csr := [(5, 1#32), (8, 0x1FF#32)], ops := [{ write := false, addr := 4, data := 0#32, dest := 9, drop := false }], snap := [], hdlc := [], halting := false, tmr := false, wd := 0, chk := 0, mute := false })] }
def s116 : State := { base with regs := [(32, 2#32), (2117644, 1#32), (2117664, 5#32), (2117704, 0x7FFC#32)], eng := [(5, { gr := [(3, 0x80000003#32), (4, 0x7FFF0021#32), (7, 0xFFFFFF00#32)], mem := [(16383, 0x80031947#32), (16384, 0xDEADBEEF#32), (16385, 0x87654321#32)], ecc := [], csr := [(5, 1#32), (8, 0x1FF#32)], ops := [{ write := false, addr := 4, data := 0#32, dest := 9, drop := false }], snap := [], hdlc := [], halting := false, tmr := false, wd := 0, chk := 0, mute := false })] }
def s117 : State := { base with regs := [(32, 2#32), (2117644, 1#32), (2117664, 5#32), (2117704, 0x7FFC#32)], eng := [(5, { gr := [(3, 0x80000003#32), (4, 0x7FFF0021#32), (7, 0xFFFFFF00#32)], mem := [(16383, 0x80031948#32), (16384, 0xDEADBEEF#32), (16385, 0x87654321#32)], ecc := [], csr := [(5, 1#32), (8, 0x1FF#32)], ops := [{ write := false, addr := 4, data := 0#32, dest := 9, drop := false }], snap := [], hdlc := [], halting := false, tmr := false, wd := 0, chk := 0, mute := false })] }
def s118 : State := { base with regs := [(32, 2#32), (2117644, 1#32), (2117664, 5#32), (2117704, 0x7FFC#32)], eng := [(5, { gr := [(3, 0x80000003#32), (4, 0x7FFF0021#32), (7, 0xFFFFFF00#32)], mem := [(16383, 0x40450DB#32), (16384, 0xDEADBEEF#32), (16385, 0x87654321#32)], ecc := [], csr := [(5, 1#32), (8, 0x1FF#32)], ops := [{ write := false, addr := 4, data := 0#32, dest := 9, drop := false }], snap := [], hdlc := [], halting := false, tmr := false, wd := 0, chk := 0, mute := false })] }
def s119 : State := { base with regs := [(32, 2#32), (2117644, 1#32), (2117664, 5#32), (2117704, 0x7FFC#32)], eng := [(5, { gr := [(3, 0x80000003#32), (4, 0x7FFF0021#32), (7, 0xFFFFFF00#32)], mem := [(16383, 0x41050DA#32), (16384, 0xDEADBEEF#32), (16385, 0x87654321#32)], ecc := [], csr := [(5, 1#32), (8, 0x1FF#32)], ops := [{ write := false, addr := 4, data := 0#32, dest := 9, drop := false }], snap := [], hdlc := [], halting := false, tmr := false, wd := 0, chk := 0, mute := false })] }
def s120 : State := { base with regs := [(32, 2#32), (2117644, 1#32), (2117664, 5#32), (2117704, 0x7FFC#32)], eng := [(5, { gr := [(3, 0x80000003#32), (4, 0x7FFF0021#32), (7, 0xFFFFFF00#32)], mem := [(16383, 0x201973#32), (16384, 0xDEADBEEF#32), (16385, 0x87654321#32)], ecc := [], csr := [(5, 1#32), (8, 0x1FF#32)], ops := [{ write := false, addr := 4, data := 0#32, dest := 9, drop := false }], snap := [], hdlc := [], halting := false, tmr := false, wd := 0, chk := 0, mute := false })] }
def s121 : State := { base with regs := [(32, 2#32), (2117644, 1#32), (2117664, 5#32), (2117704, 0x7FFC#32)], eng := [(5, { gr := [(3, 0x80000003#32), (4, 0x7FFF0021#32), (7, 0xFFFFFF00#32)], mem := [(16383, 0x201974#32), (16384, 0xDEADBEEF#32), (16385, 0x87654321#32)], ecc := [], csr := [(5, 1#32), (8, 0x1FF#32)], ops := [{ write := false, addr := 4, data := 0#32, dest := 9, drop := false }], snap := [], hdlc := [], halting := false, tmr := false, wd := 0, chk := 0, mute := false })] }
def s122 : State := { base with regs := [(32, 2#32), (2117644, 1#32), (2117664, 5#32), (2117704, 0x7FFC#32)], eng := [(5, { gr := [(3, 0x80000003#32), (4, 0x7FFF0021#32), (7, 0xFFFFFF00#32)], mem := [(16383, 0x80031949#32), (16384, 0xDEADBEEF#32), (16385, 0x87654321#32)], ecc := [], csr := [(5, 1#32), (8, 0x1FF#32)], ops := [{ write := false, addr := 4, data := 0#32, dest := 9, drop := false }], snap := [], hdlc := [], halting := false, tmr := false, wd := 0, chk := 0, mute := false })] }
def s123 : State := { base with regs := [(32, 2#32), (2117644, 1#32), (2117664, 5#32), (2117704, 0x7FFC#32)], eng := [(5, { gr := [(3, 0x80000003#32), (4, 0x7FFF0021#32), (7, 0xFFFFFF00#32)], mem := [(16383, 0x8003194A#32), (16384, 0xDEADBEEF#32), (16385, 0x87654321#32)], ecc := [], csr := [(5, 1#32), (8, 0x1FF#32)], ops := [{ write := false, addr := 4, data := 0#32, dest := 9, drop := false }], snap := [], hdlc := [], halting := false, tmr := false, wd := 0, chk := 0, mute := false })] }
def s124 : State := { base with regs := [(32, 2#32), (2117644, 1#32), (2117664, 5#32), (2117704, 0x7FFC#32)], eng := [(5, { gr := [(3, 0x80000003#32), (4, 0x7FFF0021#32), (7, 0xFFFFFF00#32), (8, 0x8000#32)], mem := [(16383, 0x16040D0#32), (16384, 0xDEADBEEF#32), (16385, 0x87654321#32)], ecc := [], csr := [(5, 1#32), (8, 0x1FF#32)], ops := [{ write := false, addr := 4, data := 0#32, dest := 9, drop := false }], snap := [], hdlc := [], halting := false, tmr := false, wd := 0, chk := 0, mute := false })] }
def s125 : State := { base with regs := [(32, 2#32), (2117644, 1#32), (2117664, 5#32), (2117704, 0x7FFC#32)], eng := [(5, { gr := [(3, 0x80000003#32), (4, 0x7FFF0021#32), (7, 0xFFFFFF00#32), (8, 0x8000#32)], mem := [(16383, 0x40D0#32), (16384, 0xDEADBEEF#32), (16385, 0x87654321#32)], ecc := [], csr := [(5, 1#32), (8, 0x1FF#32)], ops := [{ write := false, addr := 4, data := 0#32, dest := 9, drop := false }], snap := [], hdlc := [], halting := false, tmr := false, wd := 0, chk := 0, mute := false })] }
def s126 : State := { base with regs := [(32, 2#32), (2117644, 1#32), (2117664, 5#32), (2117704, 0x7FFC#32)], eng := [(5, { gr := [(3, 0x80000003#32), (4, 0x7FFF0021#32), (7, 0xFFFFFF00#32), (8, 0x8000#32)], mem := [(16383, 0x4040D1#32), (16384, 0xDEADBEEF#32), (16385, 0x87654321#32)], ecc := [], csr := [(5, 1#32), (8, 0x1FF#32)], ops := [{ write := false, addr := 4, data := 0#32, dest := 9, drop := false }], snap := [], hdlc := [], halting := false, tmr := false, wd := 0, chk := 0, mute := false })] }
def s127 : State := { base with regs := [(32, 2#32), (2117644, 1#32), (2117664, 5#32), (2117704, 0x7FFC#32)], eng := [(5, { gr := [(3, 0x80000003#32), (4, 0x7FFF0021#32), (7, 0xFFFFFF00#32), (8, 0x8000#32)], mem := [(16383, 0x3C40D2#32), (16384, 0xDEADBEEF#32), (16385, 0x87654321#32)], ecc := [], csr := [(5, 1#32), (8, 0x1FF#32)], ops := [{ write := false, addr := 4, data := 0#32, dest := 9, drop := false }], snap := [], hdlc := [], halting := false, tmr := false, wd := 0, chk := 0, mute := false })] }
def s128 : State := { base with regs := [(32, 2#32), (2117644, 1#32), (2117664, 5#32), (2117704, 0x7FFC#32)], eng := [(5, { gr := [(3, 0x80000003#32), (4, 0x7FFF0021#32), (7, 0xFFFFFF00#32), (8, 0x8000#32)], mem := [(16383, 0x40D3#32), (16384, 0xDEADBEEF#32), (16385, 0x87654321#32)], ecc := [], csr := [(5, 1#32), (8, 0x1FF#32)], ops := [{ write := false, addr := 4, data := 0#32, dest := 9, drop := false }], snap := [], hdlc := [], halting := false, tmr := false, wd := 0, chk := 0, mute := false })] }
def s129 : State := { base with regs := [(32, 2#32), (2117644, 1#32), (2117664, 5#32), (2117704, 0x7FFC#32)], eng := [(5, { gr := [(3, 0x80000003#32), (4, 0x7FFF0021#32), (7, 0xFFFFFF00#32), (8, 0x8000#32)], mem := [(16383, 0x7C40D4#32), (16384, 0xDEADBEEF#32), (16385, 0x87654321#32)], ecc := [], csr := [(5, 1#32), (8, 0x1FF#32)], ops := [{ write := false, addr := 4, data := 0#32, dest := 9, drop := false }], snap := [], hdlc := [], halting := false, tmr := false, wd := 0, chk := 0, mute := false })] }
def s130 : State := { base with regs := [(32, 2#32), (2117644, 1#32), (2117664, 5#32), (2117704, 0x7FFC#32)], eng := [(5, { gr := [(3, 0x80000003#32), (4, 0x7FFF0021#32), (7, 0xFFFFFF00#32), (8, 0x8000#32)], mem := [(16383, 0x40D5#32), (16384, 0xDEADBEEF#32), (16385, 0x87654321#32)], ecc := [], csr := [(5, 1#32), (8, 0x1FF#32)], ops := [{ write := false, addr := 4, data := 0#32, dest := 9, drop := false }], snap := [], hdlc := [], halting := false, tmr := false, wd := 0, chk := 0, mute := false })] }
def s131 : State := { base with regs := [(32, 2#32), (2117644, 1#32), (2117664, 5#32), (2117704, 0x7FFC#32)], eng := [(5, { gr := [(3, 0x80000003#32), (4, 0x7FFF0021#32), (7, 0xFFFFFF00#32), (8, 0x8000#32)], mem := [(16383, 0x3C40D6#32), (16384, 0xDEADBEEF#32), (16385, 0x87654321#32)], ecc := [], csr := [(5, 1#32), (8, 0x1FF#32)], ops := [{ write := false, addr := 4, data := 0#32, dest := 9, drop := false }], snap := [], hdlc := [], halting := false, tmr := false, wd := 0, chk := 0, mute := false })] }
def s132 : State := { base with regs := [(32, 2#32), (2117644, 1#32), (2117664, 5#32), (2117704, 0x7FFC#32)], eng := [(5, { gr := [(3, 0x80000003#32), (4, 0x7FFF0021#32), (7, 0xFFFFFF00#32), (8, 0x8000#32)], mem := [(16383, 0x4040D5#32), (16384, 0xDEADBEEF#32), (16385, 0x87654321#32)], ecc := [], csr := [(5, 1#32), (8, 0x1FF#32)], ops := [{ write := false, addr := 4, data := 0#32, dest := 9, drop := false }], snap := [], hdlc := [], halting := false, tmr := false, wd := 0, chk := 0, mute := false })] }
def s133 : State := { base with regs := [(32, 2#32), (2117644, 1#32), (2117664, 5#32), (2117704, 0x7FFC#32)], eng := [(5, { gr := [(3, 0x80000003#32), (4, 0x7FFF0021#32), (7, 0xFFFFFF00#32), (8, 0x8000#32)], mem := [(16383, 0x40D7#32), (16384, 0xDEADBEEF#32), (16385, 0x87654321#32)], ecc := [], csr := [(5, 1#32), (8, 0x1FF#32)], ops := [{ write := false, addr := 4, data := 0#32, dest := 9, drop := false }], snap := [], hdlc := [], halting := false, tmr := false, wd := 0, chk := 0, mute := false })] }
def s134 : State := { base with regs := [(32, 2#32), (2117644, 1#32), (2117664, 5#32), (2117704, 0x7FFC#32)], tb := { t := 532575944704000, inc := 8589934592, slewCnt := 0, disc := 0 }, eng := [(5, { gr := [(3, 0x80000003#32), (4, 0x7FFF0021#32), (7, 0xFFFFFF00#32)], mem := [(16383, 0x41050DA#32), (16384, 0xDEADBEEF#32), (16385, 0x87654321#32)], ecc := [], csr := [(5, 1#32), (8, 0x1FF#32)], ops := [{ write := false, addr := 4, data := 0#32, dest := 9, drop := false }], snap := [], hdlc := [], halting := false, tmr := false, wd := 0, chk := 0, mute := false })] }
def s135 : State := { base with regs := [(32, 2#32), (2117644, 1#32), (2117664, 5#32), (2117704, 0x7FFC#32)], tb := { t := 532575944704000, inc := 8589934592, slewCnt := 0, disc := 0 }, eng := [(5, { gr := [(3, 0x80000003#32), (4, 0x7FFF0021#32), (7, 0xFFFFFF00#32)], mem := [(16383, 0x40450DB#32), (16384, 0xDEADBEEF#32), (16385, 0x87654321#32)], ecc := [], csr := [(5, 1#32), (8, 0x1FF#32)], ops := [{ write := false, addr := 4, data := 0#32, dest := 9, drop := false }], snap := [], hdlc := [], halting := false, tmr := false, wd := 0, chk := 0, mute := false })] }
def s136 : State := { base with regs := [(32, 2#32), (2117644, 1#32), (2117664, 5#32), (2117704, 0x7FFC#32)], eng := [(5, { gr := [(3, 0x80000003#32), (4, 0x7FFF0021#32), (7, 0xFFFFFF00#32)], mem := [(16383, 0x181062#32), (16384, 0xDEADBEEF#32), (16385, 0x87654321#32)], ecc := [], csr := [(5, 1#32), (8, 0x1FF#32)], ops := [], snap := [], hdlc := [], halting := false, tmr := false, wd := 0, chk := 0, mute := false })] }
def s137 : State := { base with regs := [(32, 2#32), (2117644, 1#32), (2117664, 5#32), (2117704, 0x7FFC#32)], eng := [(5, { gr := [(3, 0x80000003#32), (4, 0x7FFF0021#32), (7, 0xFFFFFF00#32)], mem := [(16383, 0x20FF#32), (16384, 0xDEADBEEF#32), (16385, 0x87654321#32)], ecc := [], csr := [(5, 1#32), (8, 0x1FF#32)], ops := [], snap := [], hdlc := [], halting := false, tmr := false, wd := 0, chk := 0, mute := false })] }
def s138 : State := { base with regs := [(32, 2#32), (2117644, 1#32), (2117664, 5#32), (2117704, 0x7FFC#32)], eng := [(5, { gr := [(3, 0x80000003#32), (4, 0x7FFF0021#32), (7, 0xFFFFFF00#32)], mem := [(16383, 0xFFF020E8#32), (16384, 0xDEADBEEF#32), (16385, 0x87654321#32)], ecc := [], csr := [(5, 1#32), (8, 0x1FF#32)], ops := [{ write := false, addr := 4, data := 0#32, dest := 9, drop := false }], snap := [], hdlc := [], halting := false, tmr := false, wd := 0, chk := 0, mute := false })] }
def s139 : State := { base with regs := [(32, 2#32), (2117644, 1#32), (2117664, 5#32), (2117704, 0x7FFC#32)], eng := [(5, { gr := [(3, 0x80000003#32), (4, 0x7FFF0021#32), (7, 0xFFFFFF00#32)], mem := [(16383, 0x51929#32), (16384, 0xDEADBEEF#32), (16385, 0x87654321#32)], ecc := [], csr := [(5, 1#32), (8, 0x1FF#32)], ops := [{ write := false, addr := 4, data := 0#32, dest := 9, drop := false }], snap := [], hdlc := [], halting := false, tmr := false, wd := 0, chk := 0, mute := false })] }
def s140 : State := { base with regs := [(32, 2#32), (2117644, 1#32), (2117664, 5#32), (2117704, 0x7FFC#32)], eng := [(5, { gr := [(3, 0x80000003#32), (4, 0x7FFF0021#32), (7, 0xFFFFFF00#32)], mem := [(16383, 0x40150E0#32), (16384, 0xDEADBEEF#32), (16385, 0x87654321#32)], ecc := [], csr := [(5, 1#32), (8, 0x1FF#32)], ops := [{ write := false, addr := 4, data := 0#32, dest := 9, drop := false }], snap := [], hdlc := [], halting := false, tmr := false, wd := 0, chk := 0, mute := false })] }
def s141 : State := { base with regs := [(32, 2#32), (2117644, 1#32), (2117664, 5#32), (2117704, 0x7FFC#32)], eng := [(5, { gr := [(3, 0x80000003#32), (4, 0x7FFF0021#32), (7, 0xFFFFFF00#32)], mem := [(16383, 0xE00118EA#32), (16384, 0xDEADBEEF#32), (16385, 0x87654321#32)], ecc := [], csr := [(5, 1#32), (8, 0x1FF#32)], ops := [{ write := false, addr := 4, data := 0#32, dest := 9, drop := false }], snap := [], hdlc := [], halting := false, tmr := false, wd := 0, chk := 0, mute := false })] }
def s142 : State := { base with regs := [(32, 2#32), (2117644, 1#32), (2117664, 5#32), (2117704, 0x7FFC#32)], eng := [(5, { gr := [(3, 0x80000003#32), (4, 0x7FFF0021#32), (7, 0xFFFFFF00#32)], mem := [(16383, 0x40050E0#32), (16384, 0xDEADBEEF#32), (16385, 0x87654321#32)], ecc := [], csr := [(5, 1#32), (8, 0x1FF#32)], ops := [{ write := false, addr := 4, data := 0#32, dest := 9, drop := false }], snap := [], hdlc := [], halting := false, tmr := false, wd := 0, chk := 0, mute := false })] }
def s143 : State := { base with regs := [(32, 2#32), (2117644, 1#32), (2117664, 5#32), (2117704, 0x7FFC#32)], eng := [(5, { gr := [(3, 0x80000003#32), (4, 0x7FFF0021#32), (7, 0xFFFFFF00#32)], mem := [(16383, 0x40150E1#32), (16384, 0xDEADBEEF#32), (16385, 0x87654321#32)], ecc := [], csr := [(5, 1#32), (8, 0x1FF#32)], ops := [{ write := false, addr := 4, data := 0#32, dest := 9, drop := false }], snap := [], hdlc := [], halting := false, tmr := false, wd := 0, chk := 0, mute := false })] }
def s144 : State := { base with regs := [(32, 2#32), (2117644, 1#32), (2117664, 5#32), (2117704, 0x7FFC#32)], eng := [(5, { gr := [(3, 0x80000003#32), (4, 0x7FFF0021#32), (7, 0xFFFFFF00#32)], mem := [(16383, 0xFFF020EB#32), (16384, 0xDEADBEEF#32), (16385, 0x87654321#32)], ecc := [], csr := [(5, 1#32), (8, 0x1FF#32)], ops := [{ write := false, addr := 4, data := 0#32, dest := 9, drop := false }], snap := [], hdlc := [], halting := false, tmr := false, wd := 0, chk := 0, mute := false })] }
def s145 : State := { base with regs := [(32, 2#32), (2117644, 1#32), (2117664, 5#32), (2117704, 0x7FFC#32)], eng := [(5, { gr := [(3, 0x80000003#32), (4, 0x7FFF0021#32), (7, 0xFFFFFF00#32)], mem := [(16383, 0x40050E1#32), (16384, 0xDEADBEEF#32), (16385, 0x87654321#32)], ecc := [], csr := [(5, 1#32), (8, 0x1FF#32)], ops := [{ write := false, addr := 4, data := 0#32, dest := 9, drop := false }], snap := [], hdlc := [], halting := false, tmr := false, wd := 0, chk := 0, mute := false })] }
def s146 : State := { base with regs := [(32, 2#32), (2117644, 1#32), (2117664, 5#32), (2117704, 0x7FFC#32)], eng := [(5, { gr := [(3, 0x80000003#32), (4, 0x7FFF0021#32), (7, 0xFFFFFF00#32)], mem := [(16383, 0xFFF020EC#32), (16384, 0xDEADBEEF#32), (16385, 0x87654321#32)], ecc := [], csr := [(5, 1#32), (8, 0x1FF#32)], ops := [{ write := false, addr := 4, data := 0#32, dest := 9, drop := false }], snap := [], hdlc := [], halting := false, tmr := false, wd := 0, chk := 0, mute := false })] }
def s147 : State := { base with regs := [(32, 2#32), (2117644, 1#32), (2117664, 5#32), (2117704, 0x7FFC#32)], eng := [(5, { gr := [(3, 0x80000003#32), (4, 0x7FFF0021#32), (7, 0xFFFFFF00#32)], mem := [(16383, 0x5192D#32), (16384, 0xDEADBEEF#32), (16385, 0x87654321#32)], ecc := [], csr := [(5, 1#32), (8, 0x1FF#32)], ops := [{ write := false, addr := 4, data := 0#32, dest := 9, drop := false }], snap := [], hdlc := [], halting := false, tmr := false, wd := 0, chk := 0, mute := false })] }
def s148 : State := { base with regs := [(32, 2#32), (2117644, 1#32), (2117664, 5#32), (2117704, 0x7FFC#32)], eng := [(5, { gr := [(3, 0x80000003#32), (4, 0x7FFF0021#32), (7, 0xFFFFFF00#32)], mem := [(16383, 0x181062#32), (16384, 0xDEADBEEF#32), (16385, 0x87654321#32)], ecc := [], csr := [(5, 1#32), (8, 0x1FF#32)], ops := [{ write := false, addr := 4, data := 0#32, dest := 9, drop := false }], snap := [], hdlc := [], halting := false, tmr := false, wd := 0, chk := 0, mute := false })] }
def s149 : State := { base with regs := [(32, 2#32), (2117644, 1#32), (2117664, 5#32), (2117704, 0x7FFC#32)], eng := [(5, { gr := [(3, 0x80000003#32), (4, 0x7FFF0021#32), (7, 0xFFFFFF00#32)], mem := [(16383, 0x10818EF#32), (16384, 0xDEADBEEF#32), (16385, 0x87654321#32)], ecc := [], csr := [(5, 1#32), (8, 0x1FF#32)], ops := [{ write := false, addr := 4, data := 0#32, dest := 9, drop := false }], snap := [], hdlc := [], halting := false, tmr := false, wd := 0, chk := 0, mute := false })] }
def s150 : State := { base with regs := [(32, 2#32), (2117644, 1#32), (2117664, 5#32), (2117704, 0x7FFC#32)], eng := [(5, { gr := [(3, 0x80000003#32), (4, 0x7FFF0021#32), (7, 0xFFFFFF00#32)], mem := [(16383, 0x820EF#32), (16384, 0xDEADBEEF#32), (16385, 0x87654321#32)], ecc := [], csr := [(5, 1#32), (8, 0x1FF#32)], ops := [{ write := false, addr := 4, data := 0#32, dest := 9, drop := false }], snap := [], hdlc := [], halting := false, tmr := false, wd := 0, chk := 0, mute := false })] }
def s151 : State := { base with regs := [(32, 2#32), (2117644, 1#32), (2117664, 5#32), (2117704, 0x7FFC#32)], eng := [(5, { gr := [(3, 0x80000003#32), (4, 0x7FFF0021#32), (7, 0xFFFFFF00#32)], mem := [(16383, 0xFFF020EE#32), (16384, 0xDEADBEEF#32), (16385, 0x87654321#32)], ecc := [], csr := [(5, 1#32), (8, 0x1FF#32)], ops := [{ write := false, addr := 4, data := 0#32, dest := 9, drop := false }], snap := [], hdlc := [], halting := false, tmr := false, wd := 0, chk := 0, mute := false })] }
def s152 : State := { base with regs := [(32, 2#32), (2117644, 1#32), (2117664, 5#32), (2117704, 0x7FFC#32)], eng := [(5, { gr := [(3, 0x80000003#32), (4, 0x7FFF0021#32), (7, 0xFFFFFF00#32)], mem := [(16383, 0x50F0#32), (16384, 0xDEADBEEF#32), (16385, 0x87654321#32)], ecc := [], csr := [(5, 1#32), (8, 0x1FF#32)], ops := [{ write := false, addr := 4, data := 0#32, dest := 9, drop := false }], snap := [], hdlc := [], halting := false, tmr := false, wd := 0, chk := 0, mute := false })] }
def s153 : State := { base with regs := [(32, 2#32), (2117644, 1#32), (2117664, 5#32), (2117704, 0x7FFC#32)], eng := [(5, { gr := [(3, 0x80000003#32), (4, 0x7FFF0021#32), (7, 0xFFFFFF00#32)], mem := [(16383, 0x20F0#32), (16384, 0xDEADBEEF#32), (16385, 0x87654321#32)], ecc := [], csr := [(5, 1#32), (8, 0x1FF#32)], ops := [{ write := false, addr := 4, data := 0#32, dest := 9, drop := false }], snap := [], hdlc := [], halting := false, tmr := false, wd := 0, chk := 0, mute := false })] }
def s154 : State := { base with regs := [(32, 2#32), (2117644, 1#32), (2117664, 5#32), (2117704, 0x7FFC#32)], eng := [(5, { gr := [(3, 0x80000003#32), (4, 0x7FFF0021#32), (7, 0xFFFFFF00#32)], mem := [(16383, 0x90120F1#32), (16384, 0xDEADBEEF#32), (16385, 0x87654321#32)], ecc := [], csr := [(5, 1#32), (8, 0x1FF#32)], ops := [{ write := false, addr := 4, data := 0#32, dest := 9, drop := false }], snap := [], hdlc := [], halting := false, tmr := false, wd := 0, chk := 0, mute := false })] }
def s155 : State := { base with regs := [(32, 2#32), (2117644, 1#32), (2117664, 5#32), (2117704, 0x7FFC#32)], eng := [(5, { gr := [(3, 0x80000003#32), (4, 0x7FFF0021#32), (7, 0xFFFFFF00#32)], mem := [(16383, 0x90420F1#32), (16384, 0xDEADBEEF#32), (16385, 0x87654321#32)], ecc := [], csr := [(5, 1#32), (8, 0x1FF#32)], ops := [{ write := false, addr := 4, data := 0#32, dest := 9, drop := false }], snap := [], hdlc := [], halting := false, tmr := false, wd := 0, chk := 0, mute := false })] }
def s156 : State := { base with regs := [(32, 2#32), (2117644, 1#32), (2117664, 5#32), (2117704, 0x7FFC#32)], eng := [(5, { gr := [(3, 0x80000003#32), (4, 0x7FFF0021#32), (7, 0xFFFFFF00#32)], mem := [(16383, 0x20FF#32), (16384, 0xDEADBEEF#32), (16385, 0x87654321#32)], ecc := [], csr := [(5, 1#32), (8, 0x1FF#32)], ops := [{ write := false, addr := 4, data := 0#32, dest := 9, drop := false }], snap := [], hdlc := [], halting := false, tmr := false, wd := 0, chk := 0, mute := false })] }
def s157 : State := { base with regs := [(32, 2#32), (2117644, 1#32), (2117664, 5#32), (2117704, 0x7FFC#32)], eng := [(5, { gr := [(3, 0x80000003#32), (4, 0x7FFF0021#32), (7, 0xFFFFFF00#32)], mem := [(16383, 0x91120F2#32), (16384, 0xDEADBEEF#32), (16385, 0x87654321#32)], ecc := [], csr := [(5, 1#32), (8, 0x1FF#32)], ops := [{ write := false, addr := 4, data := 0#32, dest := 9, drop := false }], snap := [], hdlc := [], halting := false, tmr := false, wd := 0, chk := 0, mute := false })] }
def s158 : State := { base with regs := [(32, 2#32), (2117644, 1#32), (2117664, 5#32), (2117704, 0x7FFC#32)], eng := [(5, { gr := [(3, 0x80000003#32), (4, 0x7FFF0021#32), (7, 0xFFFFFF00#32)], mem := [(16383, 0x91220F2#32), (16384, 0xDEADBEEF#32), (16385, 0x87654321#32)], ecc := [], csr := [(5, 1#32), (8, 0x1FF#32)], ops := [{ write := false, addr := 4, data := 0#32, dest := 9, drop := false }], snap := [], hdlc := [], halting := false, tmr := false, wd := 0, chk := 0, mute := false })] }
def s159 : State := { base with regs := [(32, 2#32), (2117644, 1#32), (2117664, 5#32), (2117704, 0x7FFC#32)], eng := [(5, { gr := [(3, 0x80000003#32), (4, 0x7FFF0021#32), (7, 0xFFFFFF00#32)], mem := [(16383, 0x90120F2#32), (16384, 0xDEADBEEF#32), (16385, 0x87654321#32)], ecc := [], csr := [(5, 1#32), (8, 0x1FF#32)], ops := [{ write := false, addr := 4, data := 0#32, dest := 9, drop := false }], snap := [], hdlc := [], halting := false, tmr := false, wd := 0, chk := 0, mute := false })] }
def s160 : State := { base with regs := [(32, 2#32), (2117644, 1#32), (2117664, 5#32), (2117704, 0x7FFC#32)], eng := [(5, { gr := [(3, 0x80000003#32), (4, 0x7FFF0021#32), (7, 0xFFFFFF00#32), (8, 0x2000000#32)], mem := [(16383, 0x4440E0#32), (16384, 0xDEADBEEF#32), (16385, 0x87654321#32)], ecc := [], csr := [(5, 1#32), (8, 0x1FF#32)], ops := [{ write := false, addr := 4, data := 0#32, dest := 9, drop := false }], snap := [], hdlc := [], halting := false, tmr := false, wd := 0, chk := 0, mute := false })] }
def s161 : State := { base with regs := [(32, 2#32), (2117644, 1#32), (2117664, 5#32), (2117704, 0x7FFC#32)], eng := [(5, { gr := [(3, 0x80000003#32), (4, 0x7FFF0021#32), (7, 0xFFFFFF00#32), (8, 0x2000000#32)], mem := [(16383, 0x4440E1#32), (16384, 0xDEADBEEF#32), (16385, 0x87654321#32)], ecc := [], csr := [(5, 1#32), (8, 0x1FF#32)], ops := [{ write := false, addr := 4, data := 0#32, dest := 9, drop := false }], snap := [], hdlc := [], halting := false, tmr := false, wd := 0, chk := 0, mute := false })] }
def s162 : State := { base with regs := [(32, 2#32), (2117644, 1#32), (2117664, 5#32), (2117704, 0x7FFC#32), (2117708, 0xFF#32)], eng := [(5, { gr := [(3, 0x80000003#32), (4, 0x7FFF0021#32), (7, 0xFFFFFF00#32)], mem := [(16383, 0x20F0#32), (16384, 0xDEADBEEF#32), (16385, 0x87654321#32)], ecc := [], csr := [(5, 1#32), (8, 0x1FF#32)], ops := [{ write := false, addr := 4, data := 0#32, dest := 9, drop := false }], snap := [], hdlc := [], halting := false, tmr := false, wd := 0, chk := 0, mute := false })] }
def s163 : State := { base with regs := [(32, 2#32), (2117644, 1#32), (2117664, 5#32), (2117704, 0x7FFC#32)], eng := [(5, { gr := [(3, 0x80000003#32), (4, 0x7FFF0021#32), (7, 0xFFFFFF00#32), (8, 0x20000#32)], mem := [(16383, 0x4440E0#32), (16384, 0xDEADBEEF#32), (16385, 0x87654321#32)], ecc := [], csr := [(5, 1#32), (8, 0x1FF#32)], ops := [{ write := true, addr := 0, data := 0#32, dest := 0, drop := false }, { write := true, addr := 0, data := 0#32, dest := 0, drop := false }, { write := true, addr := 0, data := 0#32, dest := 0, drop := false }, { write := true, addr := 0, data := 0#32, dest := 0, drop := false }, { write := true, addr := 0, data := 0#32, dest := 0, drop := false }, { write := true, addr := 0, data := 0#32, dest := 0, drop := false }, { write := true, addr := 0, data := 0#32, dest := 0, drop := false }, { write := true, addr := 0, data := 0#32, dest := 0, drop := false }], snap := [], hdlc := [], halting := false, tmr := false, wd := 0, chk := 0, mute := false })] }
def s164 : State := { base with regs := [(32, 2#32), (2117644, 1#32), (2117664, 5#32), (2117704, 0x7FFC#32)], eng := [(5, { gr := [(3, 0x80000003#32), (4, 0x7FFF0021#32), (7, 0xFFFFFF00#32), (8, 0x20000#32)], mem := [(16383, 0x4440E1#32), (16384, 0xDEADBEEF#32), (16385, 0x87654321#32)], ecc := [], csr := [(5, 1#32), (8, 0x1FF#32)], ops := [{ write := true, addr := 0, data := 0#32, dest := 0, drop := false }, { write := true, addr := 0, data := 0#32, dest := 0, drop := false }, { write := true, addr := 0, data := 0#32, dest := 0, drop := false }, { write := true, addr := 0, data := 0#32, dest := 0, drop := false }, { write := true, addr := 0, data := 0#32, dest := 0, drop := false }, { write := true, addr := 0, data := 0#32, dest := 0, drop := false }, { write := true, addr := 0, data := 0#32, dest := 0, drop := false }, { write := true, addr := 0, data := 0#32, dest := 0, drop := false }], snap := [], hdlc := [], halting := false, tmr := false, wd := 0, chk := 0, mute := false })] }
def s165 : State := { base with regs := [(32, 2#32), (2117644, 1#32), (2117664, 5#32), (2117704, 2#32)] }
def s166 : State := { base with regs := [(32, 2#32), (2117644, 1#32), (2117664, 5#32), (2117704, 0x7FFC#32)], eng := [(5, { gr := [(3, 0x80000003#32), (4, 0x7FFF0021#32), (7, 0xFFFFFF00#32)], mem := [(16383, 0x3010001#32), (16384, 0xDEADBEEF#32), (16385, 0x87654321#32)], ecc := [], csr := [(5, 1#32), (8, 0x1FF#32)], ops := [{ write := false, addr := 4, data := 0#32, dest := 9, drop := false }], snap := [], hdlc := [], halting := false, tmr := false, wd := 0, chk := 0, mute := false })] }
def s167 : State := { base with regs := [(32, 2#32), (2117644, 1#32), (2117664, 5#32), (2117704, 0x7FFC#32)], eng := [(5, { gr := [(3, 0x80000003#32), (4, 0x7FFF0021#32), (7, 0xFFFFFF00#32)], mem := [(16383, 0#32), (16384, 0xDEADBEEF#32), (16385, 0x87654321#32)], ecc := [(16383, 2)], csr := [(5, 1#32), (8, 0x1FF#32)], ops := [{ write := false, addr := 4, data := 0#32, dest := 9, drop := false }], snap := [], hdlc := [], halting := false, tmr := false, wd := 0, chk := 0, mute := false })] }
def s168 : State := { base with regs := [(32, 2#32), (2117644, 1#32), (2117664, 0x23#32), (2117672, 1#32)] }
def s169 : State := { base with regs := [(32, 2#32), (2117644, 1#32), (2117828, 4#32)], eng := [(5, { gr := [(3, 0x80000003#32), (4, 0x7FFF0021#32), (7, 0xFFFFFF00#32)], mem := [(8199, 0x4D#32), (8194, 0xFFFFFFFF#32), (7, 5#32)], ecc := [(24575, 2)], csr := [(5, 1#32), (8, 0x1FF#32)], ops := [], snap := [], hdlc := [], halting := false, tmr := false, wd := 0, chk := 2, mute := false })] }
def s170 : State := { base with regs := [(2117676, 2#32)] }
def s171 : State := { base with regs := [(32, 2#32), (2117644, 1#32), (2117664, 0x13#32), (2117672, 1#32)], eng := [(5, { gr := [(3, 0x80000003#32), (4, 0x7FFF0021#32), (7, 0xFFFFFF00#32)], mem := [(8199, 0x4D#32), (8194, 0xFFFFFFFF#32), (7, 5#32)], ecc := [(24575, 1)], csr := [(5, 1#32), (8, 0x1FF#32)], ops := [], snap := [], hdlc := [], halting := false, tmr := true, wd := 0, chk := 0, mute := false })] }
def s172 : State := { base with regs := [(32, 2#32), (2117644, 1#32), (2117664, 6#32), (2117704, 0x7FFC#32)], eng := [(5, { gr := [(7, 4#32)], mem := [(16383, 0x39F0#32)], ecc := [], csr := [(5, 1#32), (8, 0x1FF#32)], ops := [{ write := false, addr := 4, data := 0#32, dest := 9, drop := false }], snap := [], hdlc := [], halting := false, tmr := true, wd := 0, chk := 0, mute := false })] }
def s173 : State := { base with regs := [(2117664, 6#32), (2117704, 0x7FFC#32)], eng := [(5, { gr := [(3, 0x80000003#32), (4, 0x7FFF0021#32), (7, 0xFFFFFF00#32)], mem := [(16383, 0x21F0#32)], ecc := [], csr := [(5, 1#32), (8, 0x1FF#32)], ops := [{ write := false, addr := 4, data := 0#32, dest := 9, drop := false }], snap := [], hdlc := [], halting := false, tmr := true, wd := 0, chk := 0, mute := false })] }
def s174 : State := { base with regs := [(2117644, 1#32), (2117664, 5#32), (2117668, 0x2000#32)], eng := [(5, { gr := [(3, 0x80000003#32), (4, 0x7FFF0021#32), (7, 0xFFFFFF00#32)], mem := [(16383, 0#32), (16384, 0xDEADBEEF#32), (16385, 0x87654321#32)], ecc := [], csr := [(5, 1#32), (8, 0x1FF#32)], ops := [{ write := false, addr := 4, data := 0#32, dest := 9, drop := false }], snap := [], hdlc := [], halting := false, tmr := false, wd := 4, chk := 0, mute := false })] }
def s175 : State := { base with regs := [(1052684, 1#32)] }
def s176 : State := { base with regs := [(1052684, 1#32), (1052716, 0x1402#32)] }
def s177 : State := { base with regs := [(1052684, 1#32), (1052716, 0x1603#32)] }
def s178 : State := { base with regs := [(1052684, 1#32), (1052716, 0xA03#32), (1052840, 3#32)] }
def s179 : State := { base with regs := [(1052684, 1#32), (1052704, 0x1000#32)] }
def s180 : State := { base with regs := [(1052684, 1#32), (1052716, 0x1202#32)] }
def s181 : State := { base with regs := [(1052684, 1#32), (1052716, 0x1202#32), (1060908, 5#32)] }
def s182 : State := { base with regs := [(32, 2#32), (1048588, 1#32), (1052684, 1#32)] }
def s183 : State := { base with regs := [(1052684, 1#32), (1052708, 0x3108007#32), (1052716, 0x1205#32), (1052840, 0x13#32)], tb := { t := 530242871224172544077, inc := 8589934592, slewCnt := 0, disc := 0 } }
def s184 : State := { base with regs := [(1101920, 0x10#32)] }
def s185 : State := { base with regs := [(1101920, 0x10#32)], eye := [(0, 13)] }
def s186 : State := { base with regs := [(1052684, 1#32), (1052716, 0x1407#32)] }
def s187 : State := { base with regs := [(1052684, 1#32), (1052880, 0x17#32)] }
def s188 : State := { base with regs := [(1052684, 1#32), (1052716, 0x204#32)] }
def s189 : State := { base with regs := [(1064972, 1#32), (1065004, 0x408#32)] }
def s190 : State := { base with regs := [(1052716, 4#32), (1056780, 1#32), (1056812, 0x1208#32)] }
def s191 : State := { base with regs := [(1052716, 5#32), (1056780, 1#32), (1056812, 0x1208#32)] }
def s192 : State := { base with regs := [(1052684, 1#32), (1052840, 0x2B#32)] }
def s193 : State := { base with regs := [(1052684, 1#32), (1052716, 0x1407#32), (1052840, 3#32)] }
def s194 : State := { base with regs := [(1052684, 1#32), (1052716, 4#32), (1052840, 0x2B#32)] }
def s195 : State := { base with regs := [(1052684, 1#32), (1052716, 0x1403#32), (1052840, 0x13#32)] }
def s196 : State := { base with regs := [(1052684, 1#32), (1052716, 0x404#32), (1052840, 3#32)] }
def s197 : State := { base with regs := [(1052684, 1#32), (1052716, 0x1405#32), (1052840, 1#32)], ln := [(0, { lastRate := some 4, tried := 3855, locked := true, blocked := true, late8 := true, capMsg := [], capN := 0, cap := none, ss := 0, ssN := 0, flav := some true, adm := none, auto := false, admSfn := 3, repl := 0, bond := false, los := false, cands := [{ pos := 9, n := 1, mfas := 4, conf := false }], tieOpen := true, ties := [], lockPos := 0, errN := 2, mfas := 0, oomN := 0, imN := 0, twExp := false, tiePos := 0, sole := none, aligned := false, prevPos := some 5, eth := 0, ethErr := 0, ethDown := false, ext := 0, extGood := 0, extBad := 0, extLock := false, back := 0, backs := [] }), (1, { lastRate := none, tried := 0, locked := false, blocked := false, late8 := false, capMsg := [], capN := 0, cap := none, ss := 0, ssN := 0, flav := none, adm := none, auto := false, admSfn := 0, repl := 0, bond := false, los := false, cands := [{ pos := 5, n := 2, mfas := 3, conf := true }], tieOpen := false, ties := [], lockPos := 0, errN := 0, mfas := 0, oomN := 0, imN := 0, twExp := false, tiePos := 0, sole := none, aligned := false, prevPos := none, eth := 0, ethErr := 0, ethDown := false, ext := 0, extGood := 0, extBad := 0, extLock := false, back := 0, backs := [] })] }
def s198 : State := { base with regs := [(1052684, 1#32), (1052840, 4#32)], ln := [(0, { lastRate := some 4, tried := 3855, locked := false, blocked := true, late8 := false, capMsg := [], capN := 0, cap := some [1#8, 2#8, 3#8, 4#8], ss := 0, ssN := 0, flav := none, adm := none, auto := false, admSfn := 3, repl := 0, bond := true, los := false, cands := [{ pos := 5, n := 2, mfas := 3, conf := true }, { pos := 9, n := 1, mfas := 4, conf := false }], tieOpen := false, ties := [], lockPos := 0, errN := 2, mfas := 0, oomN := 0, imN := 0, twExp := false, tiePos := 0, sole := none, aligned := false, prevPos := some 5, eth := 0, ethErr := 0, ethDown := false, ext := 0, extGood := 0, extBad := 0, extLock := false, back := 0, backs := [] }), (1, { lastRate := none, tried := 0, locked := false, blocked := false, late8 := false, capMsg := [], capN := 0, cap := none, ss := 0, ssN := 0, flav := none, adm := none, auto := false, admSfn := 0, repl := 0, bond := false, los := false, cands := [{ pos := 5, n := 2, mfas := 3, conf := true }], tieOpen := false, ties := [], lockPos := 0, errN := 0, mfas := 0, oomN := 0, imN := 0, twExp := false, tiePos := 0, sole := none, aligned := false, prevPos := none, eth := 0, ethErr := 0, ethDown := false, ext := 0, extGood := 0, extBad := 0, extLock := false, back := 0, backs := [] })] }
def s199 : State := { base with regs := [(1052684, 1#32), (1052716, 0x1403#32), (1052840, 1#32)], ln := [(0, { lastRate := some 4, tried := 3855, locked := true, blocked := true, late8 := true, capMsg := [], capN := 0, cap := some [1#8, 2#8, 3#8, 4#8], ss := 0, ssN := 0, flav := some true, adm := none, auto := false, admSfn := 3, repl := 0, bond := false, los := false, cands := [{ pos := 7, n := 2, mfas := 3, conf := true }, { pos := 9, n := 1, mfas := 4, conf := false }], tieOpen := true, ties := [], lockPos := 0, errN := 2, mfas := 0, oomN := 0, imN := 0, twExp := false, tiePos := 0, sole := none, aligned := false, prevPos := some 5, eth := 0, ethErr := 0, ethDown := false, ext := 0, extGood := 0, extBad := 0, extLock := false, back := 0, backs := [] }), (1, { lastRate := none, tried := 0, locked := false, blocked := false, late8 := false, capMsg := [], capN := 0, cap := none, ss := 0, ssN := 0, flav := none, adm := none, auto := false, admSfn := 0, repl := 0, bond := false, los := false, cands := [{ pos := 5, n := 2, mfas := 3, conf := true }], tieOpen := false, ties := [], lockPos := 0, errN := 0, mfas := 0, oomN := 0, imN := 0, twExp := false, tiePos := 0, sole := none, aligned := false, prevPos := none, eth := 0, ethErr := 0, ethDown := false, ext := 0, extGood := 0, extBad := 0, extLock := false, back := 0, backs := [] })] }
def s200 : State := { base with regs := [(1052684, 1#32), (1052832, 0x25254#32), (1052840, 1#32)], ln := [(0, { lastRate := some 4, tried := 3855, locked := true, blocked := true, late8 := true, capMsg := [], capN := 0, cap := none, ss := 0, ssN := 0, flav := some true, adm := none, auto := false, admSfn := 3, repl := 0, bond := false, los := false, cands := [{ pos := 5, n := 2, mfas := 3, conf := true }, { pos := 9, n := 1, mfas := 4, conf := true }], tieOpen := true, ties := [], lockPos := 0, errN := 2, mfas := 0, oomN := 0, imN := 0, twExp := false, tiePos := 0, sole := none, aligned := false, prevPos := some 5, eth := 0, ethErr := 0, ethDown := false, ext := 0, extGood := 0, extBad := 0, extLock := false, back := 0, backs := [] }), (1, { lastRate := none, tried := 0, locked := false, blocked := false, late8 := false, capMsg := [], capN := 0, cap := none, ss := 0, ssN := 0, flav := none, adm := none, auto := false, admSfn := 0, repl := 0, bond := false, los := false, cands := [{ pos := 5, n := 2, mfas := 3, conf := true }], tieOpen := false, ties := [], lockPos := 0, errN := 0, mfas := 0, oomN := 0, imN := 0, twExp := false, tiePos := 0, sole := none, aligned := false, prevPos := none, eth := 0, ethErr := 0, ethDown := false, ext := 0, extGood := 0, extBad := 0, extLock := false, back := 0, backs := [] })] }
def s201 : State := { base with regs := [(1052684, 1#32), (1052840, 1#32)], ln := [(0, { lastRate := some 4, tried := 3855, locked := false, blocked := true, late8 := false, capMsg := [], capN := 0, cap := some [1#8, 2#8, 3#8, 4#8], ss := 0, ssN := 0, flav := none, adm := none, auto := false, admSfn := 3, repl := 0, bond := false, los := false, cands := [{ pos := 5, n := 2, mfas := 3, conf := true }, { pos := 9, n := 1, mfas := 4, conf := true }], tieOpen := true, ties := [], lockPos := 0, errN := 2, mfas := 0, oomN := 0, imN := 0, twExp := false, tiePos := 0, sole := none, aligned := false, prevPos := some 5, eth := 0, ethErr := 0, ethDown := false, ext := 0, extGood := 0, extBad := 0, extLock := false, back := 0, backs := [] }), (1, { lastRate := none, tried := 0, locked := false, blocked := false, late8 := false, capMsg := [], capN := 0, cap := none, ss := 0, ssN := 0, flav := none, adm := none, auto := false, admSfn := 0, repl := 0, bond := false, los := false, cands := [{ pos := 5, n := 2, mfas := 3, conf := true }], tieOpen := false, ties := [], lockPos := 0, errN := 0, mfas := 0, oomN := 0, imN := 0, twExp := false, tiePos := 0, sole := none, aligned := false, prevPos := none, eth := 0, ethErr := 0, ethDown := false, ext := 0, extGood := 0, extBad := 0, extLock := false, back := 0, backs := [] })] }
def s202 : State := { base with regs := [(1052684, 1#32), (1052840, 1#32)], ln := [(0, { lastRate := some 4, tried := 3855, locked := false, blocked := true, late8 := false, capMsg := [], capN := 0, cap := some [1#8, 2#8, 3#8, 4#8], ss := 0, ssN := 0, flav := none, adm := none, auto := false, admSfn := 3, repl := 0, bond := false, los := false, cands := [{ pos := 5, n := 2, mfas := 3, conf := true }, { pos := 9, n := 1, mfas := 4, conf := false }], tieOpen := true, ties := [], lockPos := 0, errN := 2, mfas := 0, oomN := 0, imN := 0, twExp := false, tiePos := 5, sole := none, aligned := false, prevPos := some 5, eth := 0, ethErr := 0, ethDown := false, ext := 0, extGood := 0, extBad := 0, extLock := false, back := 0, backs := [] }), (1, { lastRate := none, tried := 0, locked := false, blocked := false, late8 := false, capMsg := [], capN := 0, cap := none, ss := 0, ssN := 0, flav := none, adm := none, auto := false, admSfn := 0, repl := 0, bond := false, los := false, cands := [{ pos := 5, n := 2, mfas := 3, conf := true }], tieOpen := false, ties := [], lockPos := 0, errN := 0, mfas := 0, oomN := 0, imN := 0, twExp := false, tiePos := 0, sole := none, aligned := false, prevPos := none, eth := 0, ethErr := 0, ethDown := false, ext := 0, extGood := 0, extBad := 0, extLock := false, back := 0, backs := [] })] }
def s203 : State := { base with regs := [(1052684, 1#32), (1052716, 3#32), (1052832, 0x25254#32), (1052840, 1#32)], ln := [(0, { lastRate := some 4, tried := 3855, locked := true, blocked := true, late8 := true, capMsg := [], capN := 0, cap := none, ss := 0, ssN := 0, flav := some true, adm := none, auto := false, admSfn := 3, repl := 0, bond := false, los := false, cands := [{ pos := 5, n := 2, mfas := 3, conf := true }, { pos := 9, n := 1, mfas := 4, conf := true }], tieOpen := true, ties := [], lockPos := 0, errN := 2, mfas := 0, oomN := 0, imN := 0, twExp := false, tiePos := 0, sole := none, aligned := false, prevPos := some 5, eth := 0, ethErr := 0, ethDown := false, ext := 0, extGood := 0, extBad := 0, extLock := false, back := 0, backs := [] }), (1, { lastRate := none, tried := 0, locked := false, blocked := false, late8 := false, capMsg := [], capN := 0, cap := none, ss := 0, ssN := 0, flav := none, adm := none, auto := false, admSfn := 0, repl := 0, bond := false, los := false, cands := [{ pos := 5, n := 2, mfas := 3, conf := true }], tieOpen := false, ties := [], lockPos := 0, errN := 0, mfas := 0, oomN := 0, imN := 0, twExp := false, tiePos := 0, sole := none, aligned := false, prevPos := none, eth := 0, ethErr := 0, ethDown := false, ext := 0, extGood := 0, extBad := 0, extLock := false, back := 0, backs := [] })] }
def s204 : State := { base with regs := [(1052684, 1#32), (1052716, 0xC04#32)] }
def s205 : State := { base with regs := [(1052684, 1#32), (1052716, 0x280605#32), (1052840, 3#32)] }
def s206 : State := { base with regs := [(1052684, 1#32), (1052716, 0x480805#32), (1052840, 3#32)] }
def s207 : State := { base with regs := [(1052684, 1#32), (1052716, 0x603#32), (1052840, 1#32)] }
def s208 : State := { base with regs := [(1052684, 1#32), (1052716, 0x280605#32), (1052840, 3#32), (216172782113784320, 0x180C#32), (216172782113849088, 5#32)] }
def s209 : State := { base with regs := [(1052684, 1#32), (1052716, 0x280605#32), (1052832, 0x25A51#32), (1052840, 3#32)], ln := [(0, { lastRate := some 4, tried := 0, locked := false, blocked := false, late8 := false, capMsg := [], capN := 0, cap := none, ss := 0, ssN := 0, flav := none, adm := none, auto := false, admSfn := 0, repl := 0, bond := false, los := false, cands := [], tieOpen := false, ties := [], lockPos := 5, errN := 2, mfas := 6, oomN := 1, imN := 0, twExp := false, tiePos := 0, sole := none, aligned := false, prevPos := some 5, eth := 0, ethErr := 0, ethDown := false, ext := 3, extGood := 2, extBad := 0, extLock := false, back := 0, backs := [] })] }
def s210 : State := { base with regs := [(1052684, 1#32), (1052716, 0x480805#32), (1052832, 0x21A54#32), (1052840, 3#32)], ln := [(0, { lastRate := some 4, tried := 0, locked := false, blocked := false, late8 := false, capMsg := [], capN := 0, cap := none, ss := 0, ssN := 0, flav := none, adm := none, auto := false, admSfn := 0, repl := 0, bond := false, los := false, cands := [], tieOpen := false, ties := [], lockPos := 5, errN := 2, mfas := 6, oomN := 1, imN := 0, twExp := false, tiePos := 0, sole := none, aligned := false, prevPos := some 5, eth := 0, ethErr := 0, ethDown := false, ext := 3, extGood := 2, extBad := 0, extLock := false, back := 0, backs := [] })] }
def s211 : State := { base with regs := [(1052684, 1#32), (1052716, 0x1203#32), (1052840, 1#32)], ln := [(0, { lastRate := some 4, tried := 3855, locked := false, blocked := true, late8 := false, capMsg := [], capN := 0, cap := some [1#8, 2#8, 3#8, 4#8], ss := 0, ssN := 0, flav := none, adm := none, auto := false, admSfn := 3, repl := 0, bond := true, los := false, cands := [], tieOpen := false, ties := [], lockPos := 0, errN := 2, mfas := 0, oomN := 0, imN := 0, twExp := false, tiePos := 0, sole := none, aligned := false, prevPos := some 5, eth := 0, ethErr := 0, ethDown := false, ext := 0, extGood := 0, extBad := 0, extLock := false, back := 0, backs := [] }), (1, { lastRate := none, tried := 0, locked := false, blocked := false, late8 := false, capMsg := [], capN := 0, cap := none, ss := 0, ssN := 0, flav := none, adm := none, auto := false, admSfn := 0, repl := 0, bond := false, los := false, cands := [{ pos := 5, n := 2, mfas := 3, conf := true }], tieOpen := false, ties := [], lockPos := 0, errN := 0, mfas := 0, oomN := 0, imN := 0, twExp := false, tiePos := 0, sole := none, aligned := false, prevPos := none, eth := 0, ethErr := 0, ethDown := false, ext := 0, extGood := 0, extBad := 0, extLock := false, back := 0, backs := [] })] }
def s212 : State := { base with regs := [(1052684, 1#32), (1052716, 0x1203#32), (1052840, 4#32)], ln := [(0, { lastRate := some 4, tried := 3855, locked := false, blocked := true, late8 := false, capMsg := [], capN := 0, cap := some [1#8, 2#8, 3#8, 4#8], ss := 0, ssN := 0, flav := none, adm := none, auto := false, admSfn := 3, repl := 0, bond := true, los := false, cands := [], tieOpen := false, ties := [], lockPos := 0, errN := 2, mfas := 0, oomN := 0, imN := 0, twExp := false, tiePos := 0, sole := none, aligned := false, prevPos := some 5, eth := 0, ethErr := 0, ethDown := false, ext := 0, extGood := 0, extBad := 0, extLock := false, back := 0, backs := [] }), (1, { lastRate := none, tried := 0, locked := false, blocked := false, late8 := false, capMsg := [], capN := 0, cap := none, ss := 0, ssN := 0, flav := none, adm := none, auto := false, admSfn := 0, repl := 0, bond := false, los := false, cands := [{ pos := 5, n := 2, mfas := 3, conf := true }], tieOpen := false, ties := [], lockPos := 0, errN := 0, mfas := 0, oomN := 0, imN := 0, twExp := false, tiePos := 0, sole := none, aligned := false, prevPos := none, eth := 0, ethErr := 0, ethDown := false, ext := 0, extGood := 0, extBad := 0, extLock := false, back := 0, backs := [] })] }
def s213 : State := { base with regs := [(1052684, 1#32), (1052716, 0x603#32), (1052840, 1#32)], ln := [(0, { lastRate := some 4, tried := 3855, locked := false, blocked := true, late8 := false, capMsg := [], capN := 0, cap := some [1#8, 2#8, 3#8, 4#8], ss := 0, ssN := 0, flav := none, adm := none, auto := false, admSfn := 3, repl := 0, bond := false, los := false, cands := [{ pos := 5, n := 2, mfas := 3, conf := false }], tieOpen := false, ties := [], lockPos := 0, errN := 2, mfas := 0, oomN := 0, imN := 0, twExp := false, tiePos := 0, sole := none, aligned := false, prevPos := some 5, eth := 0, ethErr := 0, ethDown := false, ext := 0, extGood := 0, extBad := 0, extLock := false, back := 0, backs := [] }), (1, { lastRate := none, tried := 0, locked := false, blocked := false, late8 := false, capMsg := [], capN := 0, cap := none, ss := 0, ssN := 0, flav := none, adm := none, auto := false, admSfn := 0, repl := 0, bond := false, los := false, cands := [{ pos := 5, n := 2, mfas := 3, conf := true }], tieOpen := false, ties := [], lockPos := 0, errN := 0, mfas := 0, oomN := 0, imN := 0, twExp := false, tiePos := 0, sole := none, aligned := false, prevPos := none, eth := 0, ethErr := 0, ethDown := false, ext := 0, extGood := 0, extBad := 0, extLock := false, back := 0, backs := [] })] }
def s214 : State := { base with regs := [(1052684, 1#32), (1052716, 0x603#32), (1052840, 1#32)], ln := [(0, { lastRate := some 4, tried := 3855, locked := false, blocked := true, late8 := false, capMsg := [], capN := 0, cap := none, ss := 0, ssN := 0, flav := none, adm := none, auto := false, admSfn := 3, repl := 0, bond := false, los := false, cands := [{ pos := 5, n := 2, mfas := 3, conf := false }], tieOpen := false, ties := [], lockPos := 0, errN := 2, mfas := 0, oomN := 0, imN := 0, twExp := false, tiePos := 0, sole := none, aligned := false, prevPos := some 5, eth := 0, ethErr := 0, ethDown := false, ext := 0, extGood := 0, extBad := 0, extLock := false, back := 0, backs := [] }), (1, { lastRate := none, tried := 0, locked := false, blocked := false, late8 := false, capMsg := [], capN := 0, cap := none, ss := 0, ssN := 0, flav := none, adm := none, auto := false, admSfn := 0, repl := 0, bond := false, los := false, cands := [{ pos := 5, n := 2, mfas := 3, conf := true }], tieOpen := false, ties := [], lockPos := 0, errN := 0, mfas := 0, oomN := 0, imN := 0, twExp := false, tiePos := 0, sole := none, aligned := false, prevPos := none, eth := 0, ethErr := 0, ethDown := false, ext := 0, extGood := 0, extBad := 0, extLock := false, back := 0, backs := [] })] }
def s215 : State := { base with regs := [(1052684, 1#32), (1052716, 0x603#32), (1052840, 2#32)], ln := [(0, { lastRate := some 4, tried := 3855, locked := false, blocked := true, late8 := false, capMsg := [], capN := 0, cap := none, ss := 0, ssN := 0, flav := none, adm := none, auto := false, admSfn := 3, repl := 0, bond := false, los := false, cands := [{ pos := 5, n := 2, mfas := 3, conf := true }, { pos := 9, n := 1, mfas := 4, conf := false }], tieOpen := false, ties := [({ pos := 5, n := 2, mfas := 3, conf := true }, none), ({ pos := 9, n := 1, mfas := 4, conf := false }, none)], lockPos := 0, errN := 2, mfas := 0, oomN := 0, imN := 0, twExp := false, tiePos := 0, sole := none, aligned := false, prevPos := some 5, eth := 0, ethErr := 0, ethDown := false, ext := 0, extGood := 0, extBad := 0, extLock := false, back := 0, backs := [] }), (1, { lastRate := none, tried := 0, locked := false, blocked := false, late8 := false, capMsg := [], capN := 0, cap := none, ss := 0, ssN := 0, flav := none, adm := none, auto := false, admSfn := 0, repl := 0, bond := false, los := false, cands := [{ pos := 5, n := 2, mfas := 3, conf := true }], tieOpen := false, ties := [], lockPos := 0, errN := 0, mfas := 0, oomN := 0, imN := 0, twExp := false, tiePos := 0, sole := none, aligned := false, prevPos := none, eth := 0, ethErr := 0, ethDown := false, ext := 0, extGood := 0, extBad := 0, extLock := false, back := 0, backs := [] })] }
def s216 : State := { base with regs := [(1052684, 1#32), (1052716, 0x700406#32)] }
def s217 : State := { base with regs := [(1052684, 1#32), (1052716, 0x280606#32), (1052880, 0x3110417#32), (216172782113784320, 0x180C#32), (216172782113849088, 5#32)], mon := [(0, { runs := [(false, 5), (false, 0), (true, 5), (true, 2), (false, 0), (false, 2), (false, 4)], ptr := 0, eqN := 0, eqA := 0, accs := [{ cand := 3, n := 2, acc := some 3 }], msg := [], msgN := 0, msgAcc := some [1#8, 2#8, 3#8], errs := [1, 2], raw := 69, sf := false, sd := false }), (1, { runs := [(true, 5), (true, 0), (false, 5), (false, 2), (true, 0), (true, 2), (true, 4)], ptr := 0, eqN := 0, eqA := 0, accs := [{ cand := 3, n := 2, acc := some 3 }], msg := [], msgN := 0, msgAcc := some [1#8, 2#8, 3#8], errs := [1, 2], raw := 69, sf := false, sd := false }), (3, { runs := [(true, 5), (true, 0), (false, 5), (false, 2), (true, 0), (true, 2), (true, 4)], ptr := 0, eqN := 0, eqA := 0, accs := [{ cand := 3, n := 2, acc := some 3 }], msg := [], msgN := 0, msgAcc := some [1#8, 2#8, 3#8], errs := [1, 2], raw := 69, sf := false, sd := false }), (68608, { runs := [(true, 5), (true, 8), (false, 7), (false, 5), (true, 4), (true, 7), (true, 1)], ptr := 0, eqN := 0, eqA := 3, accs := [{ cand := 3, n := 2, acc := some 3 }], msg := [], msgN := 0, msgAcc := some [1#8, 2#8, 3#8], errs := [1, 2], raw := 73, sf := true, sd := false })] }
def s218 : State := { base with regs := [(1052684, 1#32), (1052716, 0x280603#32), (216172782113784320, 0x180C#32), (216172782113849088, 5#32)], mon := [(0, { runs := [(true, 2), (true, 5), (true, 3), (true, 6), (false, 5), (false, 0), (false, 2)], ptr := 0, eqN := 0, eqA := 0, accs := [{ cand := 3, n := 2, acc := some 3 }], msg := [], msgN := 0, msgAcc := some [1#8, 2#8, 3#8], errs := [1, 2], raw := 66, sf := true, sd := false }), (1, { runs := [(false, 2), (false, 5), (false, 3), (false, 6), (true, 5), (true, 0), (true, 2)], ptr := 0, eqN := 0, eqA := 0, accs := [{ cand := 3, n := 2, acc := some 3 }], msg := [], msgN := 0, msgAcc := some [1#8, 2#8, 3#8], errs := [1, 2], raw := 66, sf := true, sd := false }), (3, { runs := [(false, 2), (false, 5), (false, 3), (false, 6), (true, 5), (true, 0), (true, 2)], ptr := 0, eqN := 0, eqA := 0, accs := [{ cand := 3, n := 2, acc := some 3 }], msg := [], msgN := 0, msgAcc := some [1#8, 2#8, 3#8], errs := [1, 2], raw := 66, sf := true, sd := false }), (68608, { runs := [(false, 1), (false, 5), (false, 4), (false, 1), (true, 1), (true, 4), (true, 7)], ptr := 0, eqN := 3, eqA := 2, accs := [{ cand := 3, n := 2, acc := some 3 }], msg := [], msgN := 0, msgAcc := some [1#8, 2#8, 3#8], errs := [1, 2], raw := 70, sf := true, sd := false })] }
def s219 : State := { base with regs := [(1052684, 1#32), (1052716, 0x280606#32), (1052880, 0x1120417#32)], mon := [(0, { runs := [(true, 5), (false, 3), (false, 6), (false, 5), (true, 0), (true, 2), (false, 3)], ptr := 0, eqN := 0, eqA := 0, accs := [{ cand := 3, n := 2, acc := some 3 }], msg := [], msgN := 0, msgAcc := some [1#8, 2#8, 3#8], errs := [1, 2], raw := 6, sf := false, sd := false }), (1, { runs := [(false, 5), (true, 3), (true, 6), (true, 5), (false, 0), (false, 2), (true, 3)], ptr := 0, eqN := 0, eqA := 0, accs := [{ cand := 3, n := 2, acc := some 3 }], msg := [], msgN := 0, msgAcc := some [1#8, 2#8, 3#8], errs := [1, 2], raw := 6, sf := false, sd := false }), (3, { runs := [(false, 5), (true, 3), (true, 6), (true, 5), (false, 0), (false, 2), (true, 3)], ptr := 0, eqN := 0, eqA := 0, accs := [{ cand := 3, n := 2, acc := some 3 }], msg := [], msgN := 0, msgAcc := some [1#8, 2#8, 3#8], errs := [1, 2], raw := 6, sf := false, sd := false }), (68608, { runs := [(false, 5), (true, 4), (true, 1), (true, 1), (false, 4), (false, 7), (true, 5)], ptr := 0, eqN := 2, eqA := 1, accs := [{ cand := 3, n := 2, acc := some 3 }], msg := [], msgN := 0, msgAcc := some [1#8, 2#8, 3#8], errs := [1, 2], raw := 65, sf := false, sd := false })] }
def s220 : State := { base with regs := [(1052684, 1#32), (1052716, 0x480806#32), (1052896, 4#32), (216172782113784320, 0x300C#32), (216172782113784324, 1#32), (216172782113849088, 9#32)], mon := [(0, { runs := [(false, 6), (false, 5), (false, 0), (false, 2), (true, 3), (true, 5), (true, 2)], ptr := 0, eqN := 0, eqA := 0, accs := [{ cand := 3, n := 2, acc := some 3 }], msg := [], msgN := 0, msgAcc := some [1#8, 2#8, 3#8], errs := [1, 2], raw := 67, sf := false, sd := false }), (1, { runs := [(true, 6), (true, 5), (true, 0), (true, 2), (false, 3), (false, 5), (false, 2)], ptr := 0, eqN := 0, eqA := 0, accs := [{ cand := 3, n := 2, acc := some 3 }], msg := [], msgN := 0, msgAcc := some [1#8, 2#8, 3#8], errs := [1, 2], raw := 67, sf := false, sd := false }), (3, { runs := [(true, 6), (true, 5), (true, 0), (true, 2), (false, 3), (false, 5), (false, 2)], ptr := 0, eqN := 0, eqA := 0, accs := [{ cand := 3, n := 2, acc := some 3 }], msg := [], msgN := 0, msgAcc := some [1#8, 2#8, 3#8], errs := [1, 2], raw := 67, sf := false, sd := false }), (68608, { runs := [(true, 1), (true, 1), (true, 4), (true, 7), (false, 5), (false, 8), (false, 6)], ptr := 0, eqN := 0, eqA := 3, accs := [{ cand := 3, n := 2, acc := some 3 }], msg := [], msgN := 0, msgAcc := some [1#8, 2#8, 3#8], errs := [1, 2], raw := 71, sf := false, sd := false })] }
def s221 : State := { base with regs := [(1052684, 1#32), (1052716, 0x480806#32), (216172782113784320, 0x300C#32), (216172782113784324, 1#32), (216172782113849088, 9#32)], mon := [(0, { runs := [(false, 5), (false, 0), (true, 5), (true, 2), (false, 0), (false, 2), (false, 4)], ptr := 0, eqN := 0, eqA := 0, accs := [{ cand := 3, n := 2, acc := some 3 }], msg := [], msgN := 0, msgAcc := some [1#8, 2#8, 3#8], errs := [1, 2], raw := 69, sf := false, sd := false }), (1, { runs := [(true, 5), (true, 0), (false, 5), (false, 2), (true, 0), (true, 2), (true, 4)], ptr := 0, eqN := 0, eqA := 0, accs := [{ cand := 3, n := 2, acc := some 3 }], msg := [], msgN := 0, msgAcc := some [1#8, 2#8, 3#8], errs := [1, 2], raw := 69, sf := false, sd := false }), (3, { runs := [(true, 5), (true, 0), (false, 5), (false, 2), (true, 0), (true, 2), (true, 4)], ptr := 0, eqN := 0, eqA := 0, accs := [{ cand := 3, n := 2, acc := some 3 }], msg := [], msgN := 0, msgAcc := some [1#8, 2#8, 3#8], errs := [1, 2], raw := 69, sf := false, sd := false }), (68608, { runs := [(true, 5), (true, 8), (false, 7), (false, 5), (true, 4), (true, 7), (true, 1)], ptr := 0, eqN := 0, eqA := 3, accs := [{ cand := 3, n := 2, acc := some 3 }], msg := [], msgN := 0, msgAcc := some [1#8, 2#8, 3#8], errs := [1, 2], raw := 73, sf := true, sd := false })] }
def s222 : State := { base with regs := [(1052684, 1#32), (1052716, 0x480806#32), (1052896, 4#32)], mon := [(0, { runs := [(true, 5), (true, 0), (false, 2), (false, 1), (false, 3), (false, 0), (true, 5)], ptr := 0, eqN := 0, eqA := 0, accs := [{ cand := 3, n := 2, acc := some 3 }], msg := [], msgN := 0, msgAcc := some [1#8, 2#8, 3#8], errs := [1, 2], raw := 4, sf := true, sd := false }), (1, { runs := [(false, 5), (false, 0), (true, 2), (true, 1), (true, 3), (true, 0), (false, 5)], ptr := 0, eqN := 0, eqA := 0, accs := [{ cand := 3, n := 2, acc := some 3 }], msg := [], msgN := 0, msgAcc := some [1#8, 2#8, 3#8], errs := [1, 2], raw := 4, sf := true, sd := false }), (3, { runs := [(false, 5), (false, 0), (true, 2), (true, 1), (true, 3), (true, 0), (false, 5)], ptr := 0, eqN := 0, eqA := 0, accs := [{ cand := 3, n := 2, acc := some 3 }], msg := [], msgN := 0, msgAcc := some [1#8, 2#8, 3#8], errs := [1, 2], raw := 4, sf := true, sd := false }), (68608, { runs := [(false, 5), (false, 8), (true, 2), (true, 2), (true, 5), (true, 3), (false, 2)], ptr := 0, eqN := 2, eqA := 1, accs := [{ cand := 3, n := 2, acc := some 3 }], msg := [], msgN := 0, msgAcc := some [1#8, 2#8, 3#8], errs := [1, 2], raw := 8, sf := false, sd := false })] }
def s223 : State := { base with regs := [(1052684, 1#32), (1052716, 0x480806#32)], mon := [(0, { runs := [(true, 5), (false, 3), (false, 6), (false, 5), (true, 0), (true, 2), (false, 3)], ptr := 0, eqN := 0, eqA := 0, accs := [{ cand := 3, n := 2, acc := some 3 }], msg := [], msgN := 0, msgAcc := some [1#8, 2#8, 3#8], errs := [1, 2], raw := 6, sf := false, sd := false }), (1, { runs := [(false, 5), (true, 3), (true, 6), (true, 5), (false, 0), (false, 2), (true, 3)], ptr := 0, eqN := 0, eqA := 0, accs := [{ cand := 3, n := 2, acc := some 3 }], msg := [], msgN := 0, msgAcc := some [1#8, 2#8, 3#8], errs := [1, 2], raw := 6, sf := false, sd := false }), (3, { runs := [(false, 5), (true, 3), (true, 6), (true, 5), (false, 0), (false, 2), (true, 3)], ptr := 0, eqN := 0, eqA := 0, accs := [{ cand := 3, n := 2, acc := some 3 }], msg := [], msgN := 0, msgAcc := some [1#8, 2#8, 3#8], errs := [1, 2], raw := 6, sf := false, sd := false }), (68608, { runs := [(false, 5), (true, 4), (true, 1), (true, 1), (false, 4), (false, 7), (true, 5)], ptr := 0, eqN := 2, eqA := 1, accs := [{ cand := 3, n := 2, acc := some 3 }], msg := [], msgN := 0, msgAcc := some [1#8, 2#8, 3#8], errs := [1, 2], raw := 65, sf := false, sd := false })] }
def s224 : State := { base with regs := [(1052684, 1#32), (1052716, 0x480806#32), (216172782113784320, 0x300C#32), (216172782113784324, 1#32), (216172782113849088, 9#32)], mon := [(0, { runs := [(false, 0), (false, 2), (false, 1), (true, 3), (true, 0), (true, 5), (true, 0)], ptr := 0, eqN := 0, eqA := 0, accs := [{ cand := 3, n := 2, acc := some 3 }], msg := [], msgN := 0, msgAcc := some [1#8, 2#8, 3#8], errs := [1, 2], raw := 71, sf := false, sd := false }), (1, { runs := [(true, 0), (true, 2), (true, 1), (false, 3), (false, 0), (false, 5), (false, 0)], ptr := 0, eqN := 0, eqA := 0, accs := [{ cand := 3, n := 2, acc := some 3 }], msg := [], msgN := 0, msgAcc := some [1#8, 2#8, 3#8], errs := [1, 2], raw := 71, sf := false, sd := false }), (3, { runs := [(true, 0), (true, 2), (true, 1), (false, 3), (false, 0), (false, 5), (false, 0)], ptr := 0, eqN := 0, eqA := 0, accs := [{ cand := 3, n := 2, acc := some 3 }], msg := [], msgN := 0, msgAcc := some [1#8, 2#8, 3#8], errs := [1, 2], raw := 71, sf := false, sd := false }), (68608, { runs := [(true, 8), (true, 2), (true, 2), (false, 5), (false, 3), (false, 2), (false, 5)], ptr := 0, eqN := 1, eqA := 0, accs := [{ cand := 3, n := 2, acc := some 3 }], msg := [], msgN := 0, msgAcc := some [1#8, 2#8, 3#8], errs := [1, 2], raw := 75, sf := false, sd := false })] }
def s225 : State := { base with regs := [(12, 1#32), (32, 2#32), (1048588, 1#32), (1052684, 1#32), (1052716, 0x480806#32), (1052840, 0x100#32), (1052896, 4#32), (1105932, 1#32), (144115188075922176, 0xC01#32), (144115188075922180, 5#32), (216172782113784320, 0x300C#32), (216172782113784324, 1#32), (216172782113784576, 0x818#32), (216172782113849088, 9#32)], mon := [(68608, { runs := [(false, 5), (false, 8), (true, 2), (true, 2), (true, 5), (true, 3), (false, 2)], ptr := 0, eqN := 2, eqA := 1, accs := [{ cand := 3, n := 2, acc := some 3 }], msg := [], msgN := 0, msgAcc := some [1#8, 2#8, 3#8], errs := [1, 2], raw := 8, sf := false, sd := false })] }
def s226 : State := { base with regs := [(12, 1#32), (32, 2#32), (1048588, 1#32), (1052684, 1#32), (1052716, 0x480806#32), (1052840, 0x100#32), (1052896, 4#32), (1105932, 1#32), (144115188075922176, 0xC01#32), (144115188075922180, 5#32), (216172782113784320, 0x300C#32), (216172782113784324, 1#32), (216172782113784576, 0x818#32), (216172782113849088, 9#32)], ln := [(0, { lastRate := none, tried := 0, locked := false, blocked := false, late8 := false, capMsg := [], capN := 0, cap := none, ss := 0, ssN := 0, flav := none, adm := none, auto := false, admSfn := 0, repl := 0, bond := false, los := false, cands := [], tieOpen := false, ties := [], lockPos := 0, errN := 0, mfas := 0, oomN := 0, imN := 0, twExp := false, tiePos := 0, sole := none, aligned := false, prevPos := none, eth := 0, ethErr := 0, ethDown := false, ext := 0, extGood := 0, extBad := 0, extLock := false, back := 0, backs := [] })], mon := [(0, { runs := [(false, 3), (true, 6), (true, 5), (false, 0), (false, 2), (false, 3), (false, 5)], ptr := 0, eqN := 0, eqA := 0, accs := [{ cand := 3, n := 2, acc := some 3 }], msg := [], msgN := 0, msgAcc := some [1#8, 2#8, 3#8], errs := [1, 2], raw := 73, sf := true, sd := false }), (1, { runs := [(true, 3), (false, 6), (false, 5), (true, 0), (true, 2), (true, 3), (true, 5)], ptr := 0, eqN := 0, eqA := 0, accs := [{ cand := 3, n := 2, acc := some 3 }], msg := [], msgN := 0, msgAcc := some [1#8, 2#8, 3#8], errs := [1, 2], raw := 73, sf := true, sd := false }), (3, { runs := [(true, 3), (false, 6), (false, 5), (true, 0), (true, 2), (true, 3), (true, 5)], ptr := 0, eqN := 0, eqA := 0, accs := [{ cand := 3, n := 2, acc := some 3 }], msg := [], msgN := 0, msgAcc := some [1#8, 2#8, 3#8], errs := [1, 2], raw := 73, sf := true, sd := false }), (68608, { runs := [(true, 4), (false, 1), (false, 1), (true, 4), (true, 7), (true, 5), (true, 8)], ptr := 0, eqN := 1, eqA := 0, accs := [{ cand := 3, n := 2, acc := some 3 }], msg := [], msgN := 0, msgAcc := some [1#8, 2#8, 3#8], errs := [1, 2], raw := 4, sf := true, sd := false })] }
def s227 : State := { base with regs := [(32, 2#32), (1105932, 1#32), (1105956, 0xC#32)] }
def s228 : State := { base with regs := [(32, 2#32), (1105932, 1#32), (1105956, 0xE80C0#32)] }
def s229 : State := { base with regs := [(12, 1#32), (32, 2#32), (1048588, 1#32), (1052684, 1#32), (1052716, 0x280606#32), (1052840, 0x100#32), (1105932, 1#32), (1105956, 0x1000C0#32), (1105972, 0x207#32), (144115188075922176, 0xC01#32), (144115188075922180, 5#32), (216172782113784320, 0x180C#32), (216172782113784324, 1#32), (216172782113784576, 0x818#32), (216172782113849088, 5#32)] }
def s230 : State := { base with regs := [(12, 1#32), (32, 2#32), (1048588, 1#32), (1052684, 1#32), (1052716, 0x280606#32), (1052840, 0x100#32), (1105932, 1#32), (1105956, 0xC0#32), (1105972, 7#32), (144115188075922176, 0xC01#32), (144115188075922180, 5#32), (216172782113784320, 0x180C#32), (216172782113784324, 1#32), (216172782113784576, 0x818#32), (216172782113849088, 5#32)] }
def s231 : State := { base with regs := [(12, 1#32), (32, 2#32), (45068, 1#32), (45104, 9#32), (45120, 0x60000#32), (1048588, 1#32), (1052684, 1#32), (1052716, 0x280606#32), (1052840, 0x100#32), (1105932, 1#32), (144115188075922176, 0xC01#32), (144115188075922180, 5#32), (216172782113784320, 0x180C#32), (216172782113784324, 1#32), (216172782113784576, 0x818#32), (216172782113849088, 5#32)] }
def s232 : State := { base with regs := [(12, 1#32), (32, 2#32), (1048588, 1#32), (1052684, 1#32), (1052716, 0x280606#32), (1052840, 0x100#32), (1105932, 1#32), (1105956, 0x12C0#32), (1105972, 0x31#32), (144115188075922176, 0xC01#32), (144115188075922180, 5#32), (216172782113784320, 0x180C#32), (216172782113784324, 1#32), (216172782113784576, 0x818#32), (216172782113849088, 5#32)] }
def s233 : State := { base with regs := [(12, 1#32), (32, 2#32), (1048588, 1#32), (1052684, 1#32), (1052716, 0x280606#32), (1052840, 0x100#32), (1105932, 1#32), (1105956, 0xD0#32), (1105972, 7#32), (144115188075922176, 0xC01#32), (144115188075922180, 5#32), (216172782113784320, 0x180C#32), (216172782113784324, 1#32), (216172782113784576, 0x818#32), (216172782113849088, 5#32)] }
def s234 : State := { base with regs := [(12, 1#32), (32, 2#32), (1048588, 1#32), (1052684, 1#32), (1052716, 0x280606#32), (1052840, 0x100#32), (1105932, 1#32), (1105956, 0x180C0#32), (1105972, 7#32), (144115188075922176, 0xC01#32), (144115188075922180, 5#32), (216172782113784320, 0x180C#32), (216172782113784324, 1#32), (216172782113784576, 0x818#32), (216172782113849088, 5#32)] }
def s235 : State := { base with regs := [(12, 1#32), (32, 2#32), (1048588, 1#32), (1052684, 1#32), (1052716, 0x480806#32), (1052840, 0x100#32), (1105932, 1#32), (1105956, 0xC0#32), (1105972, 7#32), (144115188075922176, 0xC01#32), (144115188075922180, 5#32), (216172782113784320, 0x300C#32), (216172782113784324, 1#32), (216172782113784576, 0x818#32), (216172782113849088, 9#32)] }
def s236 : State := { base with regs := [(12, 1#32), (32, 2#32), (1048588, 1#32), (1052684, 1#32), (1052716, 0x280606#32), (1052840, 0x100#32), (1105932, 1#32), (1105956, 0xC#32), (1105972, 0x31#32), (144115188075922176, 0xC01#32), (144115188075922180, 5#32), (216172782113784320, 0x180C#32), (216172782113784324, 1#32), (216172782113784576, 0x818#32), (216172782113849088, 5#32)] }
def s237 : State := { base with regs := [(32, 2#32), (36876, 1#32), (40972, 1#32)] }
def s238 : State := { base with regs := [(32, 2#32), (36876, 1#32), (36896, 8#32), (40972, 1#32), (40992, 8#32)] }
def s239 : State := { base with regs := [(32, 2#32), (36876, 1#32), (36896, 2#32), (40972, 1#32), (40992, 2#32)], tsi := { ent := [], bad := [], found := [], run := 1 }, lox := { ent := [], bad := [], found := [], run := 1 } }
def s240 : State := { base with regs := [(32, 2#32), (36876, 1#32), (36896, 6#32), (40972, 1#32), (40992, 6#32)], tsi := { ent := [(0, 5#32), (3, 9#32), (1048576, 0x4D#32), (1048578, 8#32)], bad := [(3, 1), (1048578, 1)], found := [3], run := 3 }, lox := { ent := [(0, 5#32), (16385, 0x10000#32), (1048576, 0x20005#32), (1048578, 8#32)], bad := [(3, 1), (1048578, 1)], found := [3], run := 3 } }
def s241 : State := { base with regs := [(32, 2#32), (40972, 1#32)] }
def s242 : State := { base with regs := [(32, 2#32), (1048588, 1#32)] }
def s243 : State := { base with regs := [(32, 2#32), (1048588, 1#32), (1048736, 0xC#32)], chk := [(0, 2)] }
def s244 : State := { base with regs := [(32, 2#32), (1048588, 1#32), (1048740, 4#32)] }
def s245 : State := { base with regs := [(32, 2#32), (1048588, 1#32), (1048736, 0x70#32)] }
def s246 : State := { base with regs := [(32, 2#32), (1048588, 1#32), (1048736, 0x1FF0#32)] }
def s247 : State := { base with regs := [(1052716, 0x700006#32), (1052752, 0xE#32), (1052944, 0x90D#32), (216172782113783808, 0x7000#32), (216172782113849088, 0xE#32)] }
def s248 : State := { base with regs := [(1052716, 0x700006#32), (1052752, 0xE#32), (1052944, 0x90D#32), (216172782113783808, 0x7000#32), (216172782113849088, 0xE#32)], gfp := [(0, { q := [(List.replicate 26 5#8)], out := [3#8], scr := [true], sync := 2, csf := true, full := false })] }
def s249 : State := { base with regs := [(1052752, 0xE#32), (1052944, 0x90D#32), (216172782113783808, 0x7000#32), (216172782113849088, 0xE#32)] }
def s250 : State := { base with regs := [(1052716, 0x700006#32), (1052944, 0x90D#32), (216172782113783808, 0x7000#32), (216172782113849088, 0xE#32)], gfp := [(0, { q := [(List.replicate 262100 5#8)], out := [3#8], scr := [true], sync := 2, csf := true, full := false })] }
def s251 : State := { base with regs := [(1052752, 0xE#32), (1052944, 0x90D#32), (216172782113783808, 0x7000#32), (216172782113849088, 0xE#32)], gfp := [(0, { q := [(List.replicate 100 5#8)], out := [3#8], scr := [true], sync := 2, csf := true, full := false })] }
def s252 : State := { base with regs := [(1052752, 0xE#32), (1052944, 0x90D#32), (216172782113783808, 0x7000#32), (216172782113849088, 0xE#32)], gfp := [(0, { q := [(List.replicate 100 5#8)], out := [3#8], scr := [true], sync := 1, csf := true, full := false })] }
def s253 : State := { base with regs := [(45068, 1#32), (1052752, 0xE#32), (1052944, 0x90D#32), (216172782113783808, 0x7000#32), (216172782113849088, 0xE#32), (288230376151712768, 0x73#32), (288230376151712776, 0x7F#32)], gfp := [(0, { q := [(List.replicate 100 5#8)], out := [3#8], scr := [true], sync := 1, csf := true, full := false })] }
def s254 : State := { base with regs := [(1052944, 0x90D#32), (216172782113783808, 0x7000#32), (216172782113849088, 0xE#32)], ln := [(0, { lastRate := none, tried := 0, locked := false, blocked := false, late8 := false, capMsg := [], capN := 0, cap := none, ss := 0, ssN := 0, flav := none, adm := none, auto := false, admSfn := 0, repl := 14, bond := false, los := true, cands := [], tieOpen := false, ties := [], lockPos := 0, errN := 0, mfas := 0, oomN := 0, imN := 0, twExp := false, tiePos := 0, sole := none, aligned := false, prevPos := none, eth := 0, ethErr := 0, ethDown := false, ext := 0, extGood := 0, extBad := 0, extLock := false, back := 0, backs := [] })] }
def s255 : State := { base with regs := [(32, 2#32), (1048588, 1#32), (1048816, 0xFFE00033#32), (288230376151713024, 0x287#32)] }
def s256 : State := { base with regs := [(32, 2#32), (1048588, 1#32), (1048816, 0x77#32)], rings := [(1, List.range 24575)] }
def s257 : State := { base with regs := [(32, 2#32), (1048588, 1#32), (1048800, 3#32), (1048816, 0x57#32), (1052716, 0x700006#32), (1052944, 0x90D#32), (216172782113783808, 0x7000#32), (216172782113849088, 0xE#32)] }
def s258 : State := { base with regs := [(32, 2#32), (1110028, 1#32), (1110048, 0x103#32), (1110276, 0xC#32)] }
def s259 : State := { base with regs := [(32, 3#32)], sel := [(3, { on := true, sfN := 2, sdN := 3, freeW := 100, freeP := 90, wtrAt := 7, ask := some 7, once := none, lastW := [100, 200], lastP := [-50, 70, 90], period := 125000, src := 2, rep := 0, sent := 0, last := [], out := [], ext := 0, cnt := 0, img := [], moved := false })] }
def s260 : State := { base with regs := [(360287970189640468, 0x7C0000#32)], tb := { t := 530242871224172544077, inc := 8589934592, slewCnt := 0, disc := 0 }, sel := [(3, { on := true, sfN := 2, sdN := 3, freeW := 100, freeP := 90, wtrAt := 7, ask := some 7, once := none, lastW := [100, 200], lastP := [-50, 70, 90], period := 125000, src := 2, rep := 0, sent := 0, last := [], out := [], ext := 0, cnt := 0, img := [], moved := false })] }
def s261 : State := { base with regs := [(32, 2#32), (1110028, 1#32), (1110276, 0x180C0#32)] }
def s262 : State := { base with regs := [(32, 3#32), (1056812, 6#32), (360287970189640456, 0x258#32)], sel := [(3, { on := true, sfN := 2, sdN := 3, freeW := 100, freeP := 90, wtrAt := 7, ask := none, once := none, lastW := [100, 200], lastP := [-50, 70, 90], period := 125000, src := 2, rep := 0, sent := 0, last := [], out := [], ext := 0, cnt := 0, img := [], moved := false })] }
def s263 : State := { base with regs := [(32, 3#32), (12320, 1#32), (16396, 1#32), (53280, 0x759#32)], sel := [(3, { on := true, sfN := 2, sdN := 3, freeW := 100, freeP := 90, wtrAt := 7, ask := some 7, once := none, lastW := [100, 200], lastP := [-50, 70, 90], period := 125000, src := 2, rep := 0, sent := 0, last := [], out := [], ext := 0, cnt := 0, img := [], moved := false })] }
def s264 : State := { base with regs := [(32, 3#32), (1052716, 6#32), (1056812, 6#32), (360287970189640448, 0x40009#32), (360287970189640468, 0x780011#32)], sel := [(3, { on := true, sfN := 2, sdN := 3, freeW := 100, freeP := 90, wtrAt := 7, ask := none, once := none, lastW := [100, 200], lastP := [-50, 70, 90], period := 125000, src := 2, rep := 0, sent := 0, last := [], out := [], ext := 0, cnt := 0, img := [], moved := false })] }
def s265 : State := { base with regs := [(32, 3#32), (12320, 1#32), (16396, 1#32), (53280, 0x759#32), (1056812, 6#32), (360287970189640456, 0x258#32)], sel := [(3, { on := true, sfN := 2, sdN := 3, freeW := 100, freeP := 90, wtrAt := 7, ask := none, once := none, lastW := [100, 200], lastP := [-50, 70, 90], period := 125000, src := 2, rep := 0, sent := 0, last := [], out := [], ext := 0, cnt := 0, img := [], moved := false })] }
def s266 : State := { base with regs := [(360287970189640448, 5#32), (360287970189640468, 0x790401#32)], sel := [(3, { on := true, sfN := 2, sdN := 3, freeW := 100, freeP := 90, wtrAt := 7, ask := none, once := none, lastW := [100, 200], lastP := [-50, 70, 90], period := 125000, src := 2, rep := 0, sent := 0, last := [], out := [], ext := 0, cnt := 0, img := [], moved := false })] }
def s267 : State := { base with regs := [(360287970189640448, 5#32), (360287970189640468, 0x780401#32)], sel := [(3, { on := true, sfN := 2, sdN := 3, freeW := 100, freeP := 90, wtrAt := 7, ask := none, once := none, lastW := [100, 200], lastP := [-50, 70, 90], period := 125000, src := 2, rep := 0, sent := 0, last := [], out := [], ext := 0, cnt := 0, img := [], moved := false })] }
def s268 : State := { base with regs := [(360287970189640448, 5#32), (360287970189640468, 0x788401#32)], sel := [(3, { on := true, sfN := 2, sdN := 3, freeW := 100, freeP := 90, wtrAt := 7, ask := none, once := none, lastW := [100, 200], lastP := [-50, 70, 90], period := 125000, src := 2, rep := 0, sent := 0, last := [], out := [], ext := 0, cnt := 0, img := [], moved := false })] }
def s269 : State := { base with regs := [(360287970189640448, 5#32), (360287970189640468, 0x798401#32)], sel := [(3, { on := true, sfN := 2, sdN := 3, freeW := 100, freeP := 90, wtrAt := 7, ask := none, once := none, lastW := [100, 200], lastP := [-50, 70, 90], period := 125000, src := 2, rep := 0, sent := 0, last := [], out := [], ext := 0, cnt := 0, img := [], moved := false })] }
def s270 : State := { base with regs := [(360287970189640448, 5#32), (360287970189640468, 0x798400#32)], sel := [(3, { on := true, sfN := 2, sdN := 3, freeW := 100, freeP := 90, wtrAt := 7, ask := none, once := none, lastW := [100, 200], lastP := [-50, 70, 90], period := 125000, src := 2, rep := 0, sent := 0, last := [], out := [], ext := 0, cnt := 0, img := [], moved := false })] }
def s271 : State := { base with regs := [(360287970189640448, 5#32), (360287970189640468, 0x780400#32)], sel := [(3, { on := true, sfN := 2, sdN := 3, freeW := 100, freeP := 90, wtrAt := 7, ask := none, once := none, lastW := [100, 200], lastP := [-50, 70, 90], period := 125000, src := 2, rep := 0, sent := 0, last := [], out := [], ext := 0, cnt := 0, img := [], moved := false })] }
def s272 : State := { base with regs := [(360287970189640448, 5#32), (360287970189640468, 0x780801#32)], sel := [(3, { on := true, sfN := 2, sdN := 3, freeW := 100, freeP := 90, wtrAt := 7, ask := none, once := none, lastW := [100, 200], lastP := [-50, 70, 90], period := 125000, src := 2, rep := 0, sent := 0, last := [], out := [], ext := 0, cnt := 0, img := [], moved := false })] }
def s273 : State := { base with regs := [(1060908, 6#32), (360287970189640448, 5#32), (360287970189640452, 0x18002#32), (360287970189640460, 0x1000000#32), (360287970189640468, 0x781000#32)], ln := [(2, { lastRate := none, tried := 0, locked := false, blocked := false, late8 := false, capMsg := [], capN := 0, cap := none, ss := 0, ssN := 0, flav := none, adm := none, auto := false, admSfn := 0, repl := 0, bond := false, los := false, cands := [], tieOpen := false, ties := [], lockPos := 0, errN := 0, mfas := 0, oomN := 0, imN := 0, twExp := false, tiePos := 0, sole := none, aligned := false, prevPos := none, eth := 0, ethErr := 0, ethDown := false, ext := 0, extGood := 0, extBad := 0, extLock := true, back := 0, backs := [] }), (5, { lastRate := none, tried := 0, locked := false, blocked := false, late8 := false, capMsg := [], capN := 0, cap := none, ss := 0, ssN := 0, flav := none, adm := none, auto := false, admSfn := 0, repl := 0, bond := false, los := false, cands := [], tieOpen := false, ties := [], lockPos := 0, errN := 0, mfas := 0, oomN := 0, imN := 0, twExp := false, tiePos := 0, sole := none, aligned := false, prevPos := none, eth := 0, ethErr := 0, ethDown := false, ext := 0, extGood := 0, extBad := 0, extLock := true, back := 0, backs := [] })], sel := [(3, { on := true, sfN := 2, sdN := 3, freeW := 100, freeP := 90, wtrAt := 7, ask := none, once := none, lastW := [100, 200], lastP := [-50, 70, 90], period := 125000, src := 2, rep := 0, sent := 0, last := [], out := [], ext := 0, cnt := 0, img := [], moved := false })] }
def s274 : State := { base with regs := [(1073196, 6#32), (360287970189640448, 5#32), (360287970189640456, 0xA00#32), (360287970189640460, 0x1000000#32), (360287970189640468, 0x780801#32)], ln := [(2, { lastRate := none, tried := 0, locked := false, blocked := false, late8 := false, capMsg := [], capN := 0, cap := none, ss := 0, ssN := 0, flav := none, adm := none, auto := false, admSfn := 0, repl := 0, bond := false, los := false, cands := [], tieOpen := false, ties := [], lockPos := 0, errN := 0, mfas := 0, oomN := 0, imN := 0, twExp := false, tiePos := 0, sole := none, aligned := false, prevPos := none, eth := 0, ethErr := 0, ethDown := false, ext := 0, extGood := 0, extBad := 0, extLock := true, back := 0, backs := [] }), (5, { lastRate := none, tried := 0, locked := false, blocked := false, late8 := false, capMsg := [], capN := 0, cap := none, ss := 0, ssN := 0, flav := none, adm := none, auto := false, admSfn := 0, repl := 0, bond := false, los := false, cands := [], tieOpen := false, ties := [], lockPos := 0, errN := 0, mfas := 0, oomN := 0, imN := 0, twExp := false, tiePos := 0, sole := none, aligned := false, prevPos := none, eth := 0, ethErr := 0, ethDown := false, ext := 0, extGood := 0, extBad := 0, extLock := true, back := 0, backs := [] })], sel := [(3, { on := true, sfN := 2, sdN := 3, freeW := 100, freeP := 90, wtrAt := 7, ask := none, once := none, lastW := [100, 200], lastP := [-50, 70, 90], period := 125000, src := 2, rep := 0, sent := 0, last := [], out := [], ext := 0, cnt := 0, img := [], moved := false })] }
def s275 : State := { base with regs := [(1060908, 6#32), (360287970189640448, 5#32), (360287970189640452, 0x18002#32), (360287970189640460, 0x1000000#32), (360287970189640468, 0x780C00#32)], ln := [(2, { lastRate := none, tried := 0, locked := false, blocked := false, late8 := false, capMsg := [], capN := 0, cap := none, ss := 0, ssN := 0, flav := none, adm := none, auto := false, admSfn := 0, repl := 0, bond := false, los := false, cands := [], tieOpen := false, ties := [], lockPos := 0, errN := 0, mfas := 0, oomN := 0, imN := 0, twExp := false, tiePos := 0, sole := none, aligned := false, prevPos := none, eth := 0, ethErr := 0, ethDown := false, ext := 0, extGood := 0, extBad := 0, extLock := true, back := 0, backs := [] }), (5, { lastRate := none, tried := 0, locked := false, blocked := false, late8 := false, capMsg := [], capN := 0, cap := none, ss := 0, ssN := 0, flav := none, adm := none, auto := false, admSfn := 0, repl := 0, bond := false, los := false, cands := [], tieOpen := false, ties := [], lockPos := 0, errN := 0, mfas := 0, oomN := 0, imN := 0, twExp := false, tiePos := 0, sole := none, aligned := false, prevPos := none, eth := 0, ethErr := 0, ethDown := false, ext := 0, extGood := 0, extBad := 0, extLock := true, back := 0, backs := [] })], sel := [(3, { on := true, sfN := 2, sdN := 3, freeW := 100, freeP := 90, wtrAt := 7, ask := none, once := none, lastW := [100, 200], lastP := [-50, 70, 90], period := 125000, src := 2, rep := 0, sent := 0, last := [], out := [], ext := 0, cnt := 0, img := [], moved := false })] }
def s276 : State := { base with regs := [(1073196, 6#32), (360287970189640448, 5#32), (360287970189640456, 0xA00#32), (360287970189640460, 0x1000000#32), (360287970189640468, 0x780800#32)], ln := [(2, { lastRate := none, tried := 0, locked := false, blocked := false, late8 := false, capMsg := [], capN := 0, cap := none, ss := 0, ssN := 0, flav := none, adm := none, auto := false, admSfn := 0, repl := 0, bond := false, los := false, cands := [], tieOpen := false, ties := [], lockPos := 0, errN := 0, mfas := 0, oomN := 0, imN := 0, twExp := false, tiePos := 0, sole := none, aligned := false, prevPos := none, eth := 0, ethErr := 0, ethDown := false, ext := 0, extGood := 0, extBad := 0, extLock := true, back := 0, backs := [] }), (5, { lastRate := none, tried := 0, locked := false, blocked := false, late8 := false, capMsg := [], capN := 0, cap := none, ss := 0, ssN := 0, flav := none, adm := none, auto := false, admSfn := 0, repl := 0, bond := false, los := false, cands := [], tieOpen := false, ties := [], lockPos := 0, errN := 0, mfas := 0, oomN := 0, imN := 0, twExp := false, tiePos := 0, sole := none, aligned := false, prevPos := none, eth := 0, ethErr := 0, ethDown := false, ext := 0, extGood := 0, extBad := 0, extLock := true, back := 0, backs := [] })], sel := [(3, { on := true, sfN := 2, sdN := 3, freeW := 100, freeP := 90, wtrAt := 7, ask := none, once := none, lastW := [100, 200], lastP := [-50, 70, 90], period := 125000, src := 2, rep := 0, sent := 0, last := [], out := [], ext := 0, cnt := 0, img := [], moved := false })] }
def s277 : State := { base with regs := [(1060908, 6#32), (360287970189640448, 5#32), (360287970189640452, 0x18002#32), (360287970189640460, 0x1000000#32), (360287970189640468, 0x780801#32)], ln := [(2, { lastRate := none, tried := 0, locked := false, blocked := false, late8 := false, capMsg := [], capN := 0, cap := none, ss := 0, ssN := 0, flav := none, adm := none, auto := false, admSfn := 0, repl := 0, bond := false, los := false, cands := [], tieOpen := false, ties := [], lockPos := 0, errN := 0, mfas := 0, oomN := 0, imN := 0, twExp := false, tiePos := 0, sole := none, aligned := false, prevPos := none, eth := 0, ethErr := 0, ethDown := false, ext := 0, extGood := 0, extBad := 0, extLock := true, back := 0, backs := [] }), (5, { lastRate := none, tried := 0, locked := false, blocked := false, late8 := false, capMsg := [], capN := 0, cap := none, ss := 0, ssN := 0, flav := none, adm := none, auto := false, admSfn := 0, repl := 0, bond := false, los := false, cands := [], tieOpen := false, ties := [], lockPos := 0, errN := 0, mfas := 0, oomN := 0, imN := 0, twExp := false, tiePos := 0, sole := none, aligned := false, prevPos := none, eth := 0, ethErr := 0, ethDown := false, ext := 0, extGood := 0, extBad := 0, extLock := true, back := 0, backs := [] })], sel := [(3, { on := true, sfN := 2, sdN := 3, freeW := 100, freeP := 90, wtrAt := 7, ask := none, once := none, lastW := [100, 200], lastP := [-50, 70, 90], period := 125000, src := 2, rep := 0, sent := 0, last := [], out := [], ext := 0, cnt := 0, img := [], moved := false })] }
def s278 : State := { base with regs := [(1073196, 6#32), (360287970189640448, 5#32), (360287970189640456, 0xA00#32), (360287970189640460, 0x1000000#32), (360287970189640464, 0x2FFFF#32), (360287970189640468, 0x780801#32)], ln := [(2, { lastRate := none, tried := 0, locked := false, blocked := false, late8 := false, capMsg := [], capN := 0, cap := none, ss := 0, ssN := 0, flav := none, adm := none, auto := false, admSfn := 0, repl := 0, bond := false, los := false, cands := [], tieOpen := false, ties := [], lockPos := 0, errN := 0, mfas := 0, oomN := 0, imN := 0, twExp := false, tiePos := 0, sole := none, aligned := false, prevPos := none, eth := 0, ethErr := 0, ethDown := false, ext := 0, extGood := 0, extBad := 0, extLock := true, back := 0, backs := [] }), (5, { lastRate := none, tried := 0, locked := false, blocked := false, late8 := false, capMsg := [], capN := 0, cap := none, ss := 0, ssN := 0, flav := none, adm := none, auto := false, admSfn := 0, repl := 0, bond := false, los := false, cands := [], tieOpen := false, ties := [], lockPos := 0, errN := 0, mfas := 0, oomN := 0, imN := 0, twExp := false, tiePos := 0, sole := none, aligned := false, prevPos := none, eth := 0, ethErr := 0, ethDown := false, ext := 0, extGood := 0, extBad := 0, extLock := true, back := 0, backs := [] })], sel := [(3, { on := true, sfN := 2, sdN := 3, freeW := 100, freeP := 90, wtrAt := 7, ask := none, once := none, lastW := [100, 200], lastP := [-50, 70, 90], period := 125000, src := 2, rep := 0, sent := 0, last := [], out := [], ext := 0, cnt := 0, img := [], moved := false })] }
def s279 : State := { base with regs := [(360287970189640448, 5#32), (360287970189640468, 0x79AC00#32)], sel := [(3, { on := true, sfN := 2, sdN := 3, freeW := 100, freeP := 90, wtrAt := 7, ask := none, once := none, lastW := [100, 200], lastP := [-50, 70, 90], period := 125000, src := 2, rep := 0, sent := 0, last := [], out := [], ext := 0, cnt := 0, img := [], moved := false })] }
def s280 : State := { base with regs := [(32, 3#32), (12320, 1#32), (16396, 1#32), (53280, 0x759#32), (360287970189640448, 5#32), (360287970189640468, 0x796C00#32)], sel := [(3, { on := true, sfN := 2, sdN := 3, freeW := 100, freeP := 90, wtrAt := 7, ask := none, once := none, lastW := [100, 200], lastP := [-50, 70, 90], period := 125000, src := 2, rep := 0, sent := 0, last := [], out := [], ext := 0, cnt := 0, img := [], moved := false })] }
def s281 : State := { base with regs := [(360287970189640448, 5#32), (360287970189640468, 0x792800#32)], sel := [(3, { on := true, sfN := 2, sdN := 3, freeW := 100, freeP := 90, wtrAt := 7, ask := none, once := none, lastW := [100, 200], lastP := [-50, 70, 90], period := 125000, src := 2, rep := 0, sent := 0, last := [], out := [], ext := 0, cnt := 0, img := [], moved := false })] }
def s282 : State := { base with regs := [(360287970189640448, 5#32), (360287970189640468, 0x799001#32)], sel := [(3, { on := true, sfN := 2, sdN := 3, freeW := 100, freeP := 90, wtrAt := 7, ask := none, once := none, lastW := [100, 200], lastP := [-50, 70, 90], period := 125000, src := 2, rep := 0, sent := 0, last := [], out := [], ext := 0, cnt := 0, img := [], moved := false })] }
def s283 : State := { base with regs := [(360287970189640448, 5#32), (360287970189640468, 0x79E800#32)], sel := [(3, { on := true, sfN := 2, sdN := 3, freeW := 100, freeP := 90, wtrAt := 7, ask := none, once := none, lastW := [100, 200], lastP := [-50, 70, 90], period := 125000, src := 2, rep := 0, sent := 0, last := [], out := [], ext := 0, cnt := 0, img := [], moved := false })] }
def s284 : State := { base with regs := [(2117644, 1#32)] }
def s285 : State := { base with regs := [(2117644, 1#32)], eng := [(5, { gr := [], mem := [(16516, 7#32), (16517, 0x99#32), (16518, 0x47D7E01#32), (16519, 0x70605#32)], ecc := [], csr := [(48, 0x140E#32), (49, 0x800100#32), (50, 0x800200#32), (51, 8#32), (52, 0x14#32), (53, 0x20#32), (54, 0x10#32)], ops := [], snap := [], hdlc := [(2, { cfg := 5134, inFr := false, rx := [], esc := false, bits := [], ones := 0, long := false, pos := 0, sfn6 := 0, tx := [] })], halting := false, tmr := false, wd := 0, chk := 0, mute := false })] }
def s286 : State := { base with regs := [(2117644, 1#32)], ohb := [(79873, 0xD#8), (80128, 0x7E#8), (80129, 1#8), (80130, 0x7D#8), (80131, 0x5E#8), (80132, 0x7D#8), (80133, 0x5D#8), (80134, 4#8), (80135, 5#8), (80136, 6#8), (80137, 7#8), (80138, 0xBF#8), (80139, 0xED#8), (80140, 0x7E#8)], eng := [(5, { gr := [], mem := [(16516, 7#32), (16517, 0x99#32), (16518, 0x47D7E01#32), (16519, 0x70605#32)], ecc := [], csr := [(48, 0x140D#32), (49, 0x800100#32), (50, 0x800200#32), (51, 8#32), (52, 0x14#32), (53, 0x20#32), (54, 0x10#32)], ops := [], snap := [], hdlc := [(2, { cfg := 5133, inFr := false, rx := [], esc := false, bits := [], ones := 0, long := false, pos := 0, sfn6 := 0, tx := [] })], halting := false, tmr := false, wd := 0, chk := 0, mute := false })] }
def s287 : State := { base with regs := [(32, 2#32), (131084, 1#32), (131128, 2#32)] }
def s288 : State := { base with regs := [(32, 2#32), (131084, 1#32), (131128, 1#32)] }
def s289 : State := { base with regs := [(12320, 1#32)] }
def s290 : State := { base with regs := [(12320, 1#32)], snap := (some 1) }
def s291 : State := { base with regs := [(12320, 1#32)], snap := (some 0) }
def s292 : State := { base with regs := [(12320, 1#32)], inj := [{ slot := 5, arg := 2, wait := 3, cmd := 0 }] }
def s293 : State := { base with regs := [(12320, 1#32)], inj := [{ slot := 5, arg := 4, wait := 0, cmd := 1 }] }
def s294 : State := { base with regs := [(12320, 1#32)], inj := [{ slot := 5, arg := 1, wait := 0, cmd := 0 }] }
def s295 : State := { base with regs := [(12320, 1#32), (16396, 1#32), (154618953764, 0x1B#32)], inj := [{ slot := 35, arg := 3, wait := 0, cmd := 0 }] }
def s296 : State := { base with regs := [(12320, 1#32)], pend := [{ addr := 4128, mask := 0xFF#32, old := 3#32, line := none, wait := 0, off := 32, m := 4 }] }
def s297 : State := { base with regs := [(12320, 1#32)], pend := [{ addr := 1052704, mask := 0xFF#32, old := 3#32, line := none, wait := 2, off := 32, m := 4 }] }
def s298 : State := { base with regs := [(12320, 1#32)], pwr := { inReset := false, mclkLost := false, refSeen := 0, modeReqs := [{ cmd := 2, wait := 1 }], straps := 0, rgn := [], fusesRead := false, bscan := false } }
def s299 : State := { base with regs := [(32, 1#32), (12320, 1#32), (16396, 1#32)], pwr := { inReset := false, mclkLost := false, refSeen := 0, modeReqs := [{ cmd := 1, wait := 0 }], straps := 0, rgn := [], fusesRead := false, bscan := false } }
def s300 : State := { base with regs := [(12300, 1#32), (12320, 1#32)], plk := { staged := [], nextSeq := 1, queue := [], sent := [{ seq := 7, sfn := 123456790, tick := 0, us := false, items := [{ kind := 8, target := 17, arg := 305419896 }], hdr := { latePol := true, group := false, nomirror := true, gmask := 3, tag := 9 }, master := 3, mirroredIn := false, mirrorOut := false, unmirrored := false, groupIn := false, late := false, peerSeq := 4, check := [1] }], groups := [], ring := [], find := [] }, tb := { t := 66280358903064517673037, inc := 8589934532, slewCnt := 3, disc := 0 } }
def s301 : State := { base with regs := [(32, 3#32), (53260, 1#32)] }
def s302 : State := { base with regs := [(32, 2#32), (53260, 1#32), (53292, 0xF#32)] }
def s303 : State := { base with regs := [(32, 4#32), (53260, 1#32), (53280, 0x359#32), (53288, 0x405#32)] }
def s304 : State := { base with regs := [(32, 2#32), (53260, 1#32), (53280, 0x359#32), (53288, 0x440#32)] }
def s305 : State := { base with regs := [(32, 2#32), (53260, 1#32), (53280, 0x359#32), (53288, 0x143#32)] }
def s306 : State := { base with regs := [(32, 4#32), (53260, 1#32), (53280, 0x359#32), (53288, 0x2045#32)] }
def s307 : State := { base with regs := [(32, 4#32), (53260, 1#32), (53280, 0x359#32), (53288, 0x143#32)] }
def s308 : State := { base with regs := [(32, 4#32), (45068, 1#32), (53260, 1#32), (53280, 0x359#32), (53288, 0x445#32), (77860, 5#32)] }
def s309 : State := { base with regs := [(77860, 5#32)] }
def s310 : State := { base with regs := [(32, 3#32), (53280, 0x349#32), (53288, 0x47#32), (77860, 4#32)] }
def s311 : State := { base with regs := [(53280, 0x359#32), (53288, 0x40#32), (77860, 5#32)] }
def s312 : State := { base with regs := [(32, 4#32), (53280, 0x349#32), (53288, 0x145#32), (77860, 5#32)] }
def s313 : State := { base with regs := [(32, 4#32), (53280, 0x359#32), (53288, 0x41#32)] }
def s314 : State := { base with regs := [(32, 4#32), (53280, 0x359#32), (53288, 0x142#32)] }
def s315 : State := { base with regs := [(32, 3#32), (53280, 0x349#32), (53288, 0x147#32), (77860, 5#32)] }
def s316 : State := { base with regs := [(32, 3#32), (53280, 0x349#32), (53288, 0x106#32), (77860, 5#32)] }
def s317 : State := { base with regs := [(32, 4#32), (53280, 0x349#32), (53288, 5#32), (77860, 4#32)] }
def s318 : State := { base with regs := [(32, 4#32), (53280, 0x349#32), (53288, 0x105#32), (77860, 5#32)], twn := { actSeq := 9, fwdSeq := 8, fwdDone := 6, unmirrored := 4, beat := none, prev := 2, joinAt := some 3, gen := [], captureAt := [], staged := [], own := [], complete := 1095233372415, stagedMap := 0, flight := some (3, 4), held := [(4, Msg.result 1 2 3 4 5), (5, Msg.result 1 2 3 4 5)], hist := [(2, [true, false])], lost := true, takeover := some 1, handAt := none, digests := [], convAt := 0, tvwAt := 0, tvwRdi := 0 } }
def s319 : State := { base with regs := [(32, 4#32), (53280, 0x12340359#32), (77860, 5#32)] }
def s320 : State := { base with regs := [(32, 4#32), (53280, 0x12340359#32), (53288, 1#32), (77860, 5#32)], gp := [(3, { tx0 := 12, tx1 := 0, rx0 := 5, rx1 := 4294967295, un0 := [], un1 := [], wait0 := [], wait1 := [], try0 := 2, try1 := 0, smGood := 0, smBad := 0, lmGood := 0, lmMiss := 0, ttN := 3, ttOff := 0, ttDly := 0, match_ := false, rxSfn := 0, rxFill := [], rxBytes := [], hello := false, member := 0, deps := [], arrs := [] })] }
def s321 : State := { base with regs := [(53280, 0x12340359#32), (77860, 5#32)], twn := { actSeq := 9, fwdSeq := 8, fwdDone := 6, unmirrored := 4, beat := none, prev := 0, joinAt := some 3, gen := [], captureAt := [], staged := [], own := [], complete := 1095233372415, stagedMap := 0, flight := some (3, 4), held := [(4, Msg.result 1 2 3 4 5), (5, Msg.result 1 2 3 4 5)], hist := [(2, [true, false])], lost := true, takeover := some 1, handAt := none, digests := [(122, []), (987654312985, [(1#32, 0), (2#32, 2), (3#32, 0), (4#32, 2), (5#32, 0), (6#32, 2)])], convAt := 0, tvwAt := 0, tvwRdi := 0 } }
def s322 : State := { base with regs := [(32, 3#32), (53280, 0x1234035D#32), (77860, 5#32)], gp := [(3, { tx0 := 8, tx1 := 0, rx0 := 5, rx1 := 4294967295, un0 := [], un1 := [], wait0 := [], wait1 := [], try0 := 2, try1 := 0, smGood := 0, smBad := 0, lmGood := 0, lmMiss := 0, ttN := 3, ttOff := 0, ttDly := 0, match_ := false, rxSfn := 0, rxFill := [], rxBytes := [], hello := false, member := 0, deps := [], arrs := [] })], twn := { actSeq := 9, fwdSeq := 8, fwdDone := 6, unmirrored := 4, beat := some { sfn := 4, ns := 99999999999999999, mode := 3, twin := 4, claim := true, prefer := true, pairId := 3, actSeq := 9, fwdSeq := 6, unmirrored := 0, complete := 24197857161011715162171839636988778104 }, prev := 0, joinAt := some 3, gen := [(3, 77)], captureAt := [], staged := [], own := [], complete := 1095233372415, stagedMap := 0, flight := some (3, 4), held := [(4, Msg.result 1 2 3 4 5), (5, Msg.result 1 2 3 4 5)], hist := [(2, [true, false])], lost := true, takeover := some 1, handAt := none, digests := [], convAt := 0, tvwAt := 0, tvwRdi := 0 } }
def s323 : State := { base with regs := [(32, 3#32), (53280, 0x1234035D#32), (53288, 0x2000#32), (77860, 4#32)], gp := [(3, { tx0 := 9, tx1 := 0, rx0 := 5, rx1 := 4294967295, un0 := [], un1 := [], wait0 := [], wait1 := [], try0 := 2, try1 := 0, smGood := 0, smBad := 0, lmGood := 0, lmMiss := 0, ttN := 3, ttOff := 0, ttDly := 0, match_ := false, rxSfn := 0, rxFill := [], rxBytes := [], hello := false, member := 0, deps := [], arrs := [] })], twn := { actSeq := 9, fwdSeq := 8, fwdDone := 6, unmirrored := 4, beat := some { sfn := 4, ns := 99999999999999999, mode := 3, twin := 4, claim := true, prefer := true, pairId := 3, actSeq := 9, fwdSeq := 6, unmirrored := 0, complete := 24197857161011715162171839636988778104 }, prev := 0, joinAt := some 3, gen := [(3, 76)], captureAt := [], staged := [], own := [], complete := 1095233372415, stagedMap := 0, flight := some (3, 4), held := [(4, Msg.result 1 2 3 4 5), (5, Msg.result 1 2 3 4 5)], hist := [(2, [true, false])], lost := true, takeover := some 1, handAt := none, digests := [], convAt := 0, tvwAt := 0, tvwRdi := 0 } }
def s324 : State := { base with regs := [(53280, 0x12340359#32), (77860, 4#32)], tb := { t := 530242871754068429111296077, inc := 8589934592, slewCnt := 3, disc := 0 }, gp := [(3, { tx0 := 47, tx1 := 0, rx0 := 5, rx1 := 4294967295, un0 := [], un1 := [], wait0 := [], wait1 := [], try0 := 2, try1 := 0, smGood := 0, smBad := 0, lmGood := 0, lmMiss := 0, ttN := 3, ttOff := 0, ttDly := 0, match_ := false, rxSfn := 0, rxFill := [], rxBytes := [], hello := false, member := 0, deps := [], arrs := [] })] }
def s325 : State := { base with regs := [(32, 3#32), (53280, 0x12340359#32), (53288, 0x27#32), (77860, 5#32)], twn := { actSeq := 9, fwdSeq := 8, fwdDone := 6, unmirrored := 4, beat := none, prev := 0, joinAt := some 3, gen := [], captureAt := [], staged := [], own := [], complete := 1095233372415, stagedMap := 0, flight := some (3, 4), held := [(4, Msg.result 1 2 3 4 5), (5, Msg.result 1 2 3 4 5)], hist := [(2, [false, true, true, false])], lost := true, takeover := some 1, handAt := none, digests := [(122, []), (987654312985, [(1#32, 0), (2#32, 2), (3#32, 0), (4#32, 2), (5#32, 0), (6#32, 2)])], convAt := 0, tvwAt := 0, tvwRdi := 0 } }
def s326 : State := { base with regs := [(32, 4#32), (53280, 0x12340359#32), (53288, 3#32), (53324, 0x1F3F#32), (77860, 4#32)], twn := { actSeq := 9, fwdSeq := 8, fwdDone := 6, unmirrored := 4, beat := none, prev := 0, joinAt := some 3, gen := [], captureAt := [], staged := [], own := [], complete := 1267650600228229401496703205375, stagedMap := 0, flight := some (3, 4), held := [(4, Msg.result 1 2 3 4 5), (5, Msg.result 1 2 3 4 5)], hist := [(2, [true, false])], lost := true, takeover := some 1, handAt := none, digests := [(122, []), (987654312985, [(1#32, 0), (2#32, 2), (3#32, 0), (4#32, 2), (5#32, 0), (6#32, 2)])], convAt := 0, tvwAt := 0, tvwRdi := 0 } }
def s327 : State := { base with regs := [(53280, 0x12340359#32), (77860, 4#32)], gp := [(3, { tx0 := 27, tx1 := 0, rx0 := 5, rx1 := 4294967295, un0 := [], un1 := [], wait0 := [], wait1 := [], try0 := 2, try1 := 0, smGood := 0, smBad := 0, lmGood := 0, lmMiss := 0, ttN := 3, ttOff := 0, ttDly := 0, match_ := false, rxSfn := 0, rxFill := [], rxBytes := [], hello := false, member := 0, deps := [], arrs := [] })], twn := { actSeq := 9, fwdSeq := 8, fwdDone := 6, unmirrored := 4, beat := none, prev := 0, joinAt := some 3, gen := [], captureAt := [], staged := [], own := [], complete := 1095233372415, stagedMap := 0, flight := some (3, 4), held := [(4, Msg.result 1 2 3 4 5), (5, Msg.result 1 2 3 4 5)], hist := [(2, [true, false])], lost := true, takeover := some 1, handAt := none, digests := [(122, []), (987654312985, [(1#32, 0), (2#32, 2), (3#32, 0), (4#32, 2), (5#32, 0), (6#32, 2)])], convAt := 0, tvwAt := 0, tvwRdi := 0 } }
def s328 : State := { base with regs := [(53280, 0x359#32), (53288, 0x3C7#32)] }
def s329 : State := { base with regs := [(32, 2#32), (45068, 1#32), (53260, 1#32), (53280, 0x359#32), (53288, 0x440#32), (77860, 5#32)] }
def s330 : State := { base with regs := [(32, 4#32), (53260, 1#32), (53280, 0x359#32), (53288, 0x443#32)], tb := { t := 530242871754068429111296077, inc := 8589934592, slewCnt := 3, disc := 0 }, twn := { actSeq := 9, fwdSeq := 8, fwdDone := 6, unmirrored := 4, beat := none, prev := 0, joinAt := some 3, gen := [], captureAt := [], staged := [], own := [], complete := 1095233372415, stagedMap := 0, flight := some (3, 4), held := [(4, Msg.result 1 2 3 4 5), (5, Msg.result 1 2 3 4 5)], hist := [(2, [true, false])], lost := true, takeover := some 1, handAt := none, digests := [], convAt := 0, tvwAt := 0, tvwRdi := 0 } }
def s331 : State := { base with regs := [(53288, 0x4000#32)] }
def s332 : State := { base with regs := [(53280, 0x359#32), (53288, 0x1C7#32)] }
def s333 : State := { base with regs := [(32, 3#32), (53280, 0x359#32), (53288, 0x183#32)] }
def s334 : State := { base with regs := [(32, 4#32), (53280, 0x359#32)], twn := { actSeq := 5, fwdSeq := 8, fwdDone := 6, unmirrored := 4, beat := none, prev := 0, joinAt := some 3, gen := [], captureAt := [], staged := [], own := [], complete := 1095233372415, stagedMap := 0, flight := some (3, 4), held := [(4, Msg.result 1 2 3 4 5), (5, Msg.result 1 2 3 4 5)], hist := [(2, [true, false])], lost := true, takeover := some 1, handAt := none, digests := [], convAt := 0, tvwAt := 0, tvwRdi := 0 } }
def s335 : State := { base with regs := [(32, 4#32), (53280, 0x379#32), (53288, 0x43#32)], twn := { actSeq := 9, fwdSeq := 8, fwdDone := 6, unmirrored := 4, beat := none, prev := 0, joinAt := some 3, gen := [], captureAt := [], staged := [], own := [], complete := 1267650600228229401496703205375, stagedMap := 0, flight := some (3, 4), held := [(4, Msg.result 1 2 3 4 5), (5, Msg.result 1 2 3 4 5)], hist := [(2, [true, false])], lost := true, takeover := some 1, handAt := none, digests := [], convAt := 0, tvwAt := 0, tvwRdi := 0 } }
def s336 : State := { base with regs := [(32, 4#32), (53280, 0x379#32), (53288, 0x205#32)], twn := { actSeq := 9, fwdSeq := 8, fwdDone := 6, unmirrored := 4, beat := none, prev := 4, joinAt := some 3, gen := [], captureAt := [], staged := [], own := [], complete := 1267650600228229401496703205375, stagedMap := 0, flight := some (3, 4), held := [(4, Msg.result 1 2 3 4 5), (5, Msg.result 1 2 3 4 5)], hist := [(2, [true, false])], lost := true, takeover := some 1, handAt := none, digests := [], convAt := 0, tvwAt := 0, tvwRdi := 0 } }
def s337 : State := { base with regs := [(32, 4#32), (53280, 0x379#32), (53288, 0x605#32)], twn := { actSeq := 9, fwdSeq := 8, fwdDone := 6, unmirrored := 4, beat := none, prev := 4, joinAt := some 3, gen := [], captureAt := [], staged := [], own := [], complete := 1267650600228229401496703205375, stagedMap := 0, flight := some (3, 4), held := [(4, Msg.result 1 2 3 4 5), (5, Msg.result 1 2 3 4 5)], hist := [(2, [true, false])], lost := true, takeover := some 1, handAt := none, digests := [], convAt := 0, tvwAt := 0, tvwRdi := 0 } }
def s338 : State := { base with regs := [(53280, 0x359#32)], tb := { t := 530242871754068429111296077, inc := 8589934592, slewCnt := 3, disc := 0 }, twn := { actSeq := 9, fwdSeq := 8, fwdDone := 6, unmirrored := 4, beat := none, prev := 0, joinAt := some 3, gen := [], captureAt := [], staged := [], own := [], complete := 1095233372415, stagedMap := 0, flight := some (3, 4), held := [(4, Msg.result 1 2 3 4 5), (5, Msg.result 1 2 3 4 5)], hist := [(2, [true, false])], lost := true, takeover := some 1, handAt := some 987654312987, digests := [], convAt := 0, tvwAt := 0, tvwRdi := 0 } }
def s339 : State := { base with regs := [(77860, 1#32)] }
def s340 : State := { base with regs := [(77856, 3#32)] }
def s341 : State := { base with regs := [(77860, 3#32)] }
def s342 : State := { base with regs := [(77860, 2#32)] }
def s343 : State := { base with regs := [(57376, 0x770000#32), (57380, 2#32), (77856, 2#32), (77860, 5#32)], tb := { t := 530242871754068429111296077, inc := 8589934592, slewCnt := 3, disc := 0 } }
def s344 : State := { base with regs := [(57376, 0x770000#32), (77860, 0x44#32)] }
def s345 : State := { base with regs := [(57376, 0x770000#32), (77860, 0x45#32)] }
def s346 : State := { base with regs := [(32, 1#32), (77860, 5#32)], gp := [(3, { tx0 := 18, tx1 := 0, rx0 := 5, rx1 := 9, un0 := [], un1 := [], wait0 := [], wait1 := [], try0 := 2, try1 := 1, smGood := 0, smBad := 7, lmGood := 0, lmMiss := 2, ttN := 3, ttOff := 0, ttDly := 0, match_ := false, rxSfn := 0, rxFill := [(4, 0)], rxBytes := [(4, [3#8])], hello := false, member := 0, deps := [], arrs := [] }), (4, { tx0 := 19, tx1 := 0, rx0 := 5, rx1 := 9, un0 := [], un1 := [], wait0 := [], wait1 := [], try0 := 2, try1 := 1, smGood := 0, smBad := 0, lmGood := 12, lmMiss := 0, ttN := 3, ttOff := 0, ttDly := 0, match_ := false, rxSfn := 0, rxFill := [(4, 0)], rxBytes := [(4, [3#8])], hello := true, member := 3, deps := [], arrs := [] })] }
def s347 : State := { base with regs := [(57376, 0x770000#32), (57380, 1#32), (77856, 2#32), (77860, 5#32)] }
def s348 : State := { base with regs := [(77860, 5#32)], tb := { t := 530242871754068429111296077, inc := 8589934592, slewCnt := 3, disc := 0 } }
def s349 : State := { base with regs := [(77860, 3#32)], gp := [(3, { tx0 := 18, tx1 := 0, rx0 := 5, rx1 := 9, un0 := [], un1 := [], wait0 := [], wait1 := [], try0 := 2, try1 := 1, smGood := 0, smBad := 7, lmGood := 0, lmMiss := 2, ttN := 3, ttOff := 0, ttDly := 0, match_ := false, rxSfn := 0, rxFill := [(4, 0)], rxBytes := [(4, [3#8])], hello := false, member := 0, deps := [], arrs := [] }), (4, { tx0 := 19, tx1 := 0, rx0 := 5, rx1 := 9, un0 := [], un1 := [], wait0 := [], wait1 := [], try0 := 2, try1 := 1, smGood := 0, smBad := 0, lmGood := 12, lmMiss := 0, ttN := 3, ttOff := 0, ttDly := 0, match_ := false, rxSfn := 0, rxFill := [(4, 0)], rxBytes := [(4, [3#8])], hello := true, member := 3, deps := [], arrs := [] })] }
def s350 : State := { base with regs := [(77860, 5#32)], gp := [(3, { tx0 := 17, tx1 := 0, rx0 := 5, rx1 := 9, un0 := [(3, Msg.copyAck 1 2), (4, Msg.copyAck 3 4)], un1 := [(3, Msg.copyAck 5 6)], wait0 := [], wait1 := [], try0 := 3, try1 := 3, smGood := 0, smBad := 2, lmGood := 10, lmMiss := 1, ttN := 3, ttOff := 0, ttDly := 0, match_ := false, rxSfn := 0, rxFill := [(4, 0)], rxBytes := [(4, [3#8])], hello := true, member := 0, deps := [], arrs := [] }), (4, { tx0 := 18, tx1 := 0, rx0 := 5, rx1 := 9, un0 := [], un1 := [], wait0 := [], wait1 := [], try0 := 2, try1 := 1, smGood := 1, smBad := 3, lmGood := 11, lmMiss := 2, ttN := 3, ttOff := 0, ttDly := 0, match_ := false, rxSfn := 0, rxFill := [(4, 0)], rxBytes := [(4, [3#8])], hello := false, member := 3, deps := [], arrs := [] })] }
def s351 : State := { base with regs := [(61472, 0x4141#32), (77860, 5#32)], gp := [(3, { tx0 := 17, tx1 := 0, rx0 := 5, rx1 := 9, un0 := [(3, Msg.copyAck 1 2), (4, Msg.copyAck 3 4)], un1 := [(3, Msg.copyAck 5 6)], wait0 := [], wait1 := [], try0 := 4, try1 := 4, smGood := 0, smBad := 2, lmGood := 10, lmMiss := 1, ttN := 3, ttOff := 0, ttDly := 0, match_ := false, rxSfn := 0, rxFill := [(4, 0)], rxBytes := [(4, [3#8])], hello := true, member := 0, deps := [], arrs := [] }), (4, { tx0 := 18, tx1 := 0, rx0 := 5, rx1 := 9, un0 := [], un1 := [], wait0 := [], wait1 := [], try0 := 2, try1 := 1, smGood := 1, smBad := 3, lmGood := 11, lmMiss := 2, ttN := 3, ttOff := 0, ttDly := 0, match_ := false, rxSfn := 0, rxFill := [(4, 0)], rxBytes := [(4, [3#8])], hello := false, member := 3, deps := [], arrs := [] })] }
def s352 : State := { base with regs := [(77860, 3#32)], tb := { t := 530242871754068429111296077, inc := 8589934592, slewCnt := 3, disc := 0 }, gp := [(3, { tx0 := 18, tx1 := 0, rx0 := 5, rx1 := 9, un0 := [], un1 := [], wait0 := [], wait1 := [], try0 := 2, try1 := 1, smGood := 0, smBad := 0, lmGood := 0, lmMiss := 0, ttN := 3, ttOff := 0, ttDly := 0, match_ := false, rxSfn := 0, rxFill := [(4, 0)], rxBytes := [(4, [3#8])], hello := false, member := 0, deps := [], arrs := [] }), (4, { tx0 := 19, tx1 := 0, rx0 := 5, rx1 := 9, un0 := [], un1 := [], wait0 := [], wait1 := [], try0 := 2, try1 := 1, smGood := 0, smBad := 0, lmGood := 12, lmMiss := 0, ttN := 3, ttOff := 0, ttDly := 0, match_ := false, rxSfn := 0, rxFill := [(4, 0)], rxBytes := [(4, [3#8])], hello := true, member := 3, deps := [], arrs := [] })] }
def s353 : State := { base with regs := [(57376, 0x770000#32), (57380, 1#32), (77856, 2#32), (77860, 5#32)], gp := [(3, { tx0 := 16, tx1 := 0, rx0 := 5, rx1 := 9, un0 := [], un1 := [], wait0 := [], wait1 := [], try0 := 2, try1 := 1, smGood := 1, smBad := 1, lmGood := 9, lmMiss := 0, ttN := 3, ttOff := 0, ttDly := 0, match_ := false, rxSfn := 0, rxFill := [(4, 0)], rxBytes := [(4, [3#8])], hello := false, member := 2, deps := [], arrs := [] }), (4, { tx0 := 17, tx1 := 0, rx0 := 5, rx1 := 9, un0 := [], un1 := [], wait0 := [], wait1 := [], try0 := 2, try1 := 1, smGood := 0, smBad := 2, lmGood := 10, lmMiss := 1, ttN := 3, ttOff := 0, ttDly := 0, match_ := false, rxSfn := 0, rxFill := [(4, 0)], rxBytes := [(4, [3#8])], hello := true, member := 3, deps := [], arrs := [] })] }
def s354 : State := { base with regs := [(57376, 0x770000#32), (57380, 1#32), (77856, 2#32), (77860, 5#32)], gp := [(3, { tx0 := 16, tx1 := 0, rx0 := 5, rx1 := 9, un0 := [], un1 := [], wait0 := [], wait1 := [], try0 := 2, try1 := 1, smGood := 1, smBad := 1, lmGood := 9, lmMiss := 0, ttN := 3, ttOff := 0, ttDly := 0, match_ := false, rxSfn := 0, rxFill := [(4, 0)], rxBytes := [(4, [3#8])], hello := false, member := 0, deps := [], arrs := [] }), (4, { tx0 := 17, tx1 := 0, rx0 := 5, rx1 := 9, un0 := [], un1 := [], wait0 := [], wait1 := [], try0 := 2, try1 := 1, smGood := 0, smBad := 2, lmGood := 10, lmMiss := 1, ttN := 3, ttOff := 0, ttDly := 0, match_ := false, rxSfn := 0, rxFill := [(4, 0)], rxBytes := [(4, [3#8])], hello := true, member := 2, deps := [], arrs := [] })] }
def s355 : State := { base with regs := [(57376, 0x770000#32), (57380, 1#32), (77856, 2#32), (77860, 5#32), (81960, 0x550000#32)], gp := [(3, { tx0 := 16, tx1 := 0, rx0 := 5, rx1 := 9, un0 := [], un1 := [], wait0 := [], wait1 := [], try0 := 2, try1 := 1, smGood := 1, smBad := 1, lmGood := 9, lmMiss := 0, ttN := 3, ttOff := 0, ttDly := 0, match_ := false, rxSfn := 0, rxFill := [(4, 0)], rxBytes := [(4, [3#8])], hello := false, member := 0, deps := [], arrs := [] }), (4, { tx0 := 17, tx1 := 0, rx0 := 5, rx1 := 9, un0 := [], un1 := [], wait0 := [], wait1 := [], try0 := 2, try1 := 1, smGood := 0, smBad := 2, lmGood := 10, lmMiss := 1, ttN := 3, ttOff := 0, ttDly := 0, match_ := false, rxSfn := 0, rxFill := [(4, 0)], rxBytes := [(4, [3#8])], hello := true, member := 2, deps := [], arrs := [] })] }
def s356 : State := { base with regs := [(32, 1#32), (57356, 1#32), (57380, 1#32), (57484, 0x12#32)] }
def s357 : State := { base with regs := [(32, 1#32), (57356, 1#32), (57380, 1#32), (57416, 0xB#32), (57484, 0x12#32), (77860, 4#32)] }
def s358 : State := { base with regs := [(32, 1#32), (57356, 1#32), (57380, 1#32), (77860, 5#32)], gp := [(3, { tx0 := 22, tx1 := 0, rx0 := 5, rx1 := 9, un0 := [], un1 := [], wait0 := [], wait1 := [], try0 := 2, try1 := 1, smGood := 1, smBad := 3, lmGood := 15, lmMiss := 0, ttN := 3, ttOff := 0, ttDly := 0, match_ := false, rxSfn := 0, rxFill := [(4, 0)], rxBytes := [(4, [3#8])], hello := false, member := 0, deps := [], arrs := [] }), (4, { tx0 := 23, tx1 := 0, rx0 := 5, rx1 := 9, un0 := [], un1 := [], wait0 := [], wait1 := [], try0 := 2, try1 := 1, smGood := 0, smBad := 0, lmGood := 16, lmMiss := 1, ttN := 3, ttOff := 0, ttDly := 0, match_ := false, rxSfn := 0, rxFill := [(4, 0)], rxBytes := [(4, [3#8])], hello := true, member := 3, deps := [], arrs := [] })], prox := [{ tag := 70, id := 2, m := 3, off := 1193046, write := true, be := 15, data := 7#32, sent := true, more := [], got := [] }] }
def s359 : State := { base with regs := [(57380, 1#32), (57416, 8#32), (77860, 5#32)], gp := [(3, { tx0 := 14, tx1 := 0, rx0 := 5, rx1 := 9, un0 := [], un1 := [], wait0 := [], wait1 := [], try0 := 2, try1 := 1, smGood := 1, smBad := 3, lmGood := 7, lmMiss := 1, ttN := 3, ttOff := 0, ttDly := 0, match_ := false, rxSfn := 0, rxFill := [(4, 0)], rxBytes := [(4, [3#8])], hello := false, member := 0, deps := [], arrs := [] }), (4, { tx0 := 15, tx1 := 0, rx0 := 5, rx1 := 9, un0 := [], un1 := [], wait0 := [], wait1 := [], try0 := 2, try1 := 1, smGood := 0, smBad := 0, lmGood := 8, lmMiss := 2, ttN := 3, ttOff := 0, ttDly := 0, match_ := false, rxSfn := 0, rxFill := [(4, 0)], rxBytes := [(4, [3#8])], hello := true, member := 3, deps := [], arrs := [] })], prox := [{ tag := 70, id := 2, m := 3, off := 1193046, write := false, be := 15, data := 7#32, sent := true, more := [], got := [] }] }
def s360 : State := { base with regs := [(32, 4#32), (57380, 0x182#32), (77860, 0x304#32)], plk := { staged := [], nextSeq := 1, queue := [{ seq := 13, sfn := 987654312999, tick := 0, us := false, items := [], hdr := { latePol := true, group := true, nomirror := true, gmask := 3, tag := 9 }, master := 3, mirroredIn := false, mirrorOut := false, unmirrored := false, groupIn := true, late := false, peerSeq := 4, check := [1] }], sent := [], groups := [], ring := [], find := [] }, gp := [(3, { tx0 := 17, tx1 := 0, rx0 := 5, rx1 := 9, un0 := [], un1 := [], wait0 := [], wait1 := [], try0 := 2, try1 := 1, smGood := 0, smBad := 2, lmGood := 10, lmMiss := 1, ttN := 3, ttOff := 0, ttDly := 0, match_ := false, rxSfn := 0, rxFill := [(4, 0)], rxBytes := [(4, [3#8])], hello := true, member := 0, deps := [], arrs := [] }), (4, { tx0 := 18, tx1 := 0, rx0 := 5, rx1 := 9, un0 := [], un1 := [], wait0 := [], wait1 := [], try0 := 2, try1 := 1, smGood := 1, smBad := 3, lmGood := 11, lmMiss := 2, ttN := 3, ttOff := 0, ttDly := 0, match_ := false, rxSfn := 0, rxFill := [(4, 0)], rxBytes := [(4, [3#8])], hello := false, member := 3, deps := [], arrs := [] })] }
def s361 : State := { base with regs := [(57380, 1#32), (57416, 8#32)], plk := { staged := [], nextSeq := 1, queue := [], sent := [], groups := [{ act := { seq := 12, sfn := 3, tick := 0, us := false, items := [], hdr := { latePol := true, group := true, nomirror := true, gmask := 3, tag := 9 }, master := 3, mirroredIn := false, mirrorOut := false, unmirrored := false, groupIn := false, late := false, peerSeq := 4, check := [1] }, waiting := [2, 3], failed := 8, reason := 9, own := none }], ring := [], find := [] } }
def s362 : State := { base with regs := [(32, 2#32), (57356, 1#32), (57380, 1#32), (57420, 0xB#32), (57484, 0xB#32), (77860, 4#32)], gp := [(3, { tx0 := 11, tx1 := 0, rx0 := 5, rx1 := 9, un0 := [], un1 := [], wait0 := [], wait1 := [], try0 := 2, try1 := 1, smGood := 0, smBad := 0, lmGood := 4, lmMiss := 1, ttN := 3, ttOff := 0, ttDly := 0, match_ := false, rxSfn := 0, rxFill := [(4, 0)], rxBytes := [(4, [3#8])], hello := true, member := 3, deps := [], arrs := [] })], prox := [{ tag := 70, id := 2, m := 3, off := 1193046, write := false, be := 15, data := 7#32, sent := true, more := [25240388, 25240392], got := [7#32] }] }
def s363 : State := { base with regs := [(32, 1#32), (57380, 0x182#32), (77860, 0x304#32)], plk := { staged := [], nextSeq := 1, queue := [{ seq := 13, sfn := 987654312999, tick := 0, us := false, items := [], hdr := { latePol := true, group := true, nomirror := true, gmask := 3, tag := 9 }, master := 3, mirroredIn := false, mirrorOut := false, unmirrored := false, groupIn := true, late := false, peerSeq := 4, check := [1] }], sent := [], groups := [], ring := [], find := [] }, gp := [(3, { tx0 := 17, tx1 := 0, rx0 := 5, rx1 := 9, un0 := [], un1 := [], wait0 := [], wait1 := [], try0 := 2, try1 := 1, smGood := 0, smBad := 2, lmGood := 10, lmMiss := 1, ttN := 3, ttOff := 0, ttDly := 0, match_ := false, rxSfn := 0, rxFill := [(4, 0)], rxBytes := [(4, [3#8])], hello := true, member := 0, deps := [], arrs := [] }), (4, { tx0 := 18, tx1 := 0, rx0 := 5, rx1 := 9, un0 := [], un1 := [], wait0 := [], wait1 := [], try0 := 2, try1 := 1, smGood := 1, smBad := 3, lmGood := 11, lmMiss := 2, ttN := 3, ttOff := 0, ttDly := 0, match_ := false, rxSfn := 0, rxFill := [(4, 0)], rxBytes := [(4, [3#8])], hello := false, member := 3, deps := [], arrs := [] })] }
def s364 : State := { base with regs := [(57380, 1#32), (77860, 4#32)], plk := { staged := [], nextSeq := 1, queue := [], sent := [], groups := [{ act := { seq := 12, sfn := 3, tick := 0, us := false, items := [], hdr := { latePol := true, group := true, nomirror := true, gmask := 3, tag := 9 }, master := 3, mirroredIn := false, mirrorOut := false, unmirrored := false, groupIn := false, late := false, peerSeq := 4, check := [1] }, waiting := [2], failed := 0, reason := 0, own := none }], ring := [], find := [] }, gp := [(3, { tx0 := 15, tx1 := 0, rx0 := 5, rx1 := 9, un0 := [], un1 := [], wait0 := [], wait1 := [], try0 := 2, try1 := 1, smGood := 0, smBad := 0, lmGood := 8, lmMiss := 2, ttN := 3, ttOff := 0, ttDly := 0, match_ := false, rxSfn := 0, rxFill := [(4, 0)], rxBytes := [(4, [3#8])], hello := true, member := 10, deps := [], arrs := [] }), (4, { tx0 := 16, tx1 := 0, rx0 := 5, rx1 := 9, un0 := [], un1 := [], wait0 := [], wait1 := [], try0 := 2, try1 := 1, smGood := 1, smBad := 1, lmGood := 9, lmMiss := 0, ttN := 3, ttOff := 0, ttDly := 0, match_ := false, rxSfn := 0, rxFill := [(4, 0)], rxBytes := [(4, [3#8])], hello := false, member := 3, deps := [], arrs := [] })] }
def s365 : State := { base with regs := [(57380, 1#32), (77860, 4#32)], plk := { staged := [], nextSeq := 1, queue := [], sent := [], groups := [{ act := { seq := 12, sfn := 3, tick := 0, us := false, items := [], hdr := { latePol := true, group := true, nomirror := true, gmask := 3, tag := 9 }, master := 3, mirroredIn := false, mirrorOut := false, unmirrored := false, groupIn := false, late := false, peerSeq := 4, check := [1] }, waiting := [2], failed := 0, reason := 0, own := some { seq := 12, sfn := 3, status := 0, tick := 0, items := 0, index := 1, master := 3, latePol := true, applied := 1, failed := 0, reason := 0, tag := 9, mirroredIn := false, mirrorOut := false, unmirrored := false, group := true, peerSeq := 4, map := 0 } }], ring := [], find := [] }, gp := [(3, { tx0 := 15, tx1 := 0, rx0 := 5, rx1 := 9, un0 := [], un1 := [], wait0 := [], wait1 := [], try0 := 2, try1 := 1, smGood := 0, smBad := 0, lmGood := 8, lmMiss := 2, ttN := 3, ttOff := 0, ttDly := 0, match_ := false, rxSfn := 0, rxFill := [(4, 0)], rxBytes := [(4, [3#8])], hello := true, member := 10, deps := [], arrs := [] }), (4, { tx0 := 16, tx1 := 0, rx0 := 5, rx1 := 9, un0 := [], un1 := [], wait0 := [], wait1 := [], try0 := 2, try1 := 1, smGood := 1, smBad := 1, lmGood := 9, lmMiss := 0, ttN := 3, ttOff := 0, ttDly := 0, match_ := false, rxSfn := 0, rxFill := [(4, 0)], rxBytes := [(4, [3#8])], hello := false, member := 3, deps := [], arrs := [] })] }
def s366 : State := { base with regs := [(32, 1#32), (32780, 1#32)] }
def s367 : State := { base with regs := [(32, 1#32), (32780, 1#32), (32800, 1#32)] }
def s368 : State := { base with hst := { smbAddr := 0, smbStat := 0, smbBusy := false, vecLvl := 0, armed := 4294967295, msixEn := false, fnMask := false, vecMask := 4294967295, vecPend := 0, msix := [], flash := [], booting := true, wdogRun := 0, jtagErr := false, sentAt := [], sram := [], aer := false, remapLk := false, intN := false, bars := [] } }
def s369 : State := { base with regs := [(32, 4#32), (32780, 1#32), (53280, 0x759#32), (53288, 2#32)] }
def s370 : State := { base with regs := [(32780, 1#32), (32800, 1#32), (32896, 0xBEEF0101#32), (32964, 9#32), (33032, 0xFFFF#32), (33036, 0xFFFF#32)] }
def s371 : State := { base with regs := [(32780, 1#32), (32800, 1#32), (32896, 0xBEEF0320#32), (32964, 0xE#32), (33032, 0xFFFF#32), (33036, 0xFFFF#32)] }
def s372 : State := { base with regs := [(32780, 1#32), (32800, 1#32), (32896, 0xBEEF0210#32), (32964, 0xB#32), (33032, 0xFFFF#32), (33036, 0xFFFF#32)] }
def s373 : State := { base with regs := [(32780, 1#32), (32800, 1#32), (32896, 0xBEEF0910#32), (32964, 0xB#32), (33032, 0xFFFF#32), (33036, 0xFFFF#32)] }
def s374 : State := { base with regs := [(32780, 1#32), (32800, 1#32), (32896, 0xBEEF0212#32), (32964, 0xD#32), (33032, 0xFFFF#32), (33036, 0xFFFF#32)] }
def s375 : State := { base with regs := [(32780, 1#32), (32800, 5#32), (32896, 0xBEEF0910#32), (32964, 0xB#32), (33032, 0xFFFF#32), (33036, 0xFFFF#32)] }
def s376 : State := { base with regs := [(32780, 1#32), (32800, 5#32), (32896, 0xBEEF0211#32), (32964, 0xC#32), (33032, 0xFFFF#32), (33036, 0xFFFF#32)] }
def s377 : State := { base with regs := [(32780, 1#32), (32800, 1#32), (32896, 0xBEEF0211#32), (32964, 0xC#32), (33032, 0xFFFF#32), (33036, 0xFFFF#32)] }
def s378 : State := { base with regs := [(32780, 1#32), (32800, 1#32), (32896, 0xBEEF0212#32), (32900, 7#32), (32964, 0x14#32), (33032, 0xFFFF#32), (33036, 0xFFFF#32)] }
def s379 : State := { base with regs := [(32780, 1#32), (32800, 1#32), (32896, 0xBEEF0211#32), (32900, 2#32), (32964, 0xE#32), (33032, 0xFFFF#32), (33036, 0xFFFF#32)] }
def s380 : State := { base with regs := [(32, 1#32), (32780, 1#32), (32800, 1#32), (32896, 0xBEEF0320#32), (32900, 2#32), (32904, 0x80#32), (32964, 0x10#32), (33032, 0xFFFF#32), (33036, 0xFFFF#32), (2105356, 1#32)], hst := { smbAddr := 0, smbStat := 0, smbBusy := false, vecLvl := 0, armed := 4294967295, msixEn := false, fnMask := false, vecMask := 4294967295, vecPend := 0, msix := [], flash := [(32, 8#32), (33, 8#32)], booting := false, wdogRun := 0, jtagErr := false, sentAt := [], sram := [], aer := false, remapLk := false, intN := false, bars := [] } }
def s381 : State := { base with regs := [(32, 1#32)], hst := { smbAddr := 0, smbStat := 0, smbBusy := false, vecLvl := 0, armed := 4294967295, msixEn := false, fnMask := false, vecMask := 4294967295, vecPend := 0, msix := [], flash := [(0, 0x48545231#32), (1, 0x20#32), (2, 0x4D#32), (3, 5#32), (4, 0#32), (5, 0#32), (6, 0#32), (7, 0xFA64871B#32), (8, 0x4D#32), (9, 0x50#32), (10, 0x53#32), (11, 0x56#32), (12, 0x59#32), (13, 0x5C#32), (14, 0x5F#32), (15, 0x62#32)], booting := false, wdogRun := 0, jtagErr := false, sentAt := [], sram := [], aer := false, remapLk := false, intN := false, bars := [] } }
def s382 : State := { base with regs := [(32800, 4#32)], hst := { smbAddr := 0, smbStat := 0, smbBusy := false, vecLvl := 0, armed := 4294967295, msixEn := false, fnMask := false, vecMask := 4294967295, vecPend := 0, msix := [], flash := [(0, 0x48545231#32), (1, 0x20#32), (2, 0x4D#32), (3, 5#32), (4, 0#32), (5, 0#32), (6, 0#32), (7, 0xFA64871B#32), (8, 0x4D#32), (9, 0x50#32), (10, 0x53#32), (11, 0x56#32), (12, 0x59#32), (13, 0x5C#32), (14, 0x5F#32), (15, 0x62#32)], booting := true, wdogRun := 0, jtagErr := false, sentAt := [], sram := [], aer := false, remapLk := false, intN := false, bars := [] } }
def s383 : State := { base with regs := [(32780, 1#32), (32800, 1#32), (32896, 0xBEEF0320#32), (32904, 0x40#32), (32964, 0x11#32), (33032, 0xFFFF#32), (33036, 0xFFFF#32)], hst := { smbAddr := 0, smbStat := 0, smbBusy := false, vecLvl := 0, armed := 4294967295, msixEn := false, fnMask := false, vecMask := 4294967295, vecPend := 0, msix := [], flash := [(16, 9#32), (17, 0x28#32), (18, 0x3DE7#32), (19, 0x5CD6#32), (20, 0x7BC5#32), (21, 0x9AB4#32), (22, 0xB9A3#32), (23, 0xD892#32), (24, 0xF781#32), (25, 0x11670#32)], booting := false, wdogRun := 0, jtagErr := false, sentAt := [], sram := [], aer := false, remapLk := false, intN := false, bars := [] } }
def s384 : State := { base with regs := [(32, 1#32)], hst := { smbAddr := 0, smbStat := 0, smbBusy := false, vecLvl := 0, armed := 4294967295, msixEn := false, fnMask := false, vecMask := 4294967295, vecPend := 0, msix := [], flash := [(0, 0x48545231#32), (1, 0x20#32), (2, 0x4D#32), (3, 0x12345#32), (4, 0#32), (5, 0#32), (6, 0#32), (7, 0xB321C43F#32), (8, 0x4D#32), (9, 0x50#32), (10, 0x53#32), (11, 0x56#32), (12, 0x59#32), (13, 0x5C#32), (14, 0x5F#32), (15, 0x62#32), (1048576, 0x48545231#32), (1048577, 0x20#32), (1048578, 0x63#32), (1048579, 0x10002#32), (1048580, 0#32), (1048581, 0#32), (1048582, 0#32), (1048583, 0xD6E795F3#32), (1048584, 0x63#32), (1048585, 0x66#32), (1048586, 0x69#32), (1048587, 0x6C#32), (1048588, 0x6F#32), (1048589, 0x72#32), (1048590, 0x75#32), (1048591, 0x78#32)], booting := false, wdogRun := 3, jtagErr := false, sentAt := [], sram := [], aer := false, remapLk := false, intN := false, bars := [] } }
def s385 : State := { base with regs := [(32, 1#32)], hst := { smbAddr := 0, smbStat := 0, smbBusy := false, vecLvl := 0, armed := 4294967295, msixEn := false, fnMask := false, vecMask := 4294967295, vecPend := 0, msix := [], flash := [(0, 0x48545231#32), (1, 0x20#32), (2, 0x4D#32), (3, 5#32), (4, 0#32), (5, 0#32), (6, 0#32), (7, 0xFA64871B#32), (8, 0x4D#32), (9, 0x50#32), (10, 0x53#32), (11, 0x56#32), (12, 0x59#32), (13, 0x5C#32), (14, 0x5F#32), (15, 0x62#32), (1048576, 0x48545231#32), (1048577, 0x20#32), (1048578, 0x63#32), (1048579, 6#32), (1048580, 0#32), (1048581, 0#32), (1048582, 0#32), (1048583, 0xE653800D#32), (1048584, 0x63#32), (1048585, 0x66#32), (1048586, 0x69#32), (1048587, 0x6C#32), (1048588, 0x6F#32), (1048589, 0x72#32), (1048590, 0x75#32), (1048591, 0x78#32)], booting := false, wdogRun := 0, jtagErr := false, sentAt := [], sram := [], aer := false, remapLk := false, intN := false, bars := [] } }
def s386 : State := { base with regs := [(32780, 1#32), (32800, 1#32), (32896, 0xBEEF0212#32), (32964, 0xE#32), (33032, 0xFFFF#32), (33036, 0xFFFF#32)], hst := { smbAddr := 0, smbStat := 0, smbBusy := false, vecLvl := 0, armed := 4294967295, msixEn := false, fnMask := false, vecMask := 4294967295, vecPend := 0, msix := [], flash := [(0, 0x48545231#32), (1, 0x20#32), (2, 9#32), (3, 4#32), (4, 0#32), (5, 0#32), (6, 0#32), (7, 0xE162E09#32), (8, 9#32), (9, 0xC#32), (10, 0xF#32), (11, 0x12#32), (12, 0x15#32), (13, 0x18#32), (14, 0x1B#32), (15, 0x1E#32), (1048576, 0x48545231#32), (1048577, 0x20#32), (1048578, 9#32), (1048579, 0x11170#32), (1048580, 0#32), (1048581, 0#32), (1048582, 0#32), (1048583, 0x123F330D#32), (1048584, 9#32), (1048585, 0xC#32), (1048586, 0xF#32), (1048587, 0x12#32), (1048588, 0x15#32), (1048589, 0x18#32), (1048590, 0x1B#32), (1048591, 0x1E#32)], booting := false, wdogRun := 0, jtagErr := false, sentAt := [], sram := [], aer := false, remapLk := false, intN := false, bars := [] } }
def s387 : State := { base with regs := [(32780, 1#32), (32800, 5#32), (32896, 0xBEEF0212#32), (32964, 0xE#32), (33032, 0xFFFF#32), (33036, 0xFFFF#32)], hst := { smbAddr := 0, smbStat := 0, smbBusy := false, vecLvl := 0, armed := 4294967295, msixEn := false, fnMask := false, vecMask := 4294967295, vecPend := 0, msix := [], flash := [(0, 0x48545231#32), (1, 0x20#32), (2, 9#32), (3, 4#32), (4, 0#32), (5, 0#32), (6, 0#32), (7, 0xE162E09#32), (8, 9#32), (9, 0xC#32), (10, 0xF#32), (11, 0x12#32), (12, 0x15#32), (13, 0x18#32), (14, 0x1B#32), (15, 0x1E#32), (1048576, 0x48545231#32), (1048577, 0x20#32), (1048578, 9#32), (1048579, 0x11170#32), (1048580, 0#32), (1048581, 0#32), (1048582, 0#32), (1048583, 0x123F330D#32), (1048584, 9#32), (1048585, 0xC#32), (1048586, 0xF#32), (1048587, 0x12#32), (1048588, 0x15#32), (1048589, 0x18#32), (1048590, 0x1B#32), (1048591, 0x1E#32)], booting := false, wdogRun := 0, jtagErr := false, sentAt := [], sram := [], aer := false, remapLk := false, intN := false, bars := [] } }
def s388 : State := { base with regs := [(32, 1#32), (24588, 1#32)], hst := { smbAddr := 0, smbStat := 0, smbBusy := false, vecLvl := 0, armed := 0, msixEn := true, fnMask := false, vecMask := 4294967295, vecPend := 32, msix := [(23, 1#32)], flash := [], booting := false, wdogRun := 0, jtagErr := false, sentAt := [], sram := [], aer := false, remapLk := false, intN := false, bars := [] } }
def s389 : State := { base with hst := { smbAddr := 0, smbStat := 0, smbBusy := false, vecLvl := 32, armed := 4294967295, msixEn := true, fnMask := false, vecMask := 4294967295, vecPend := 32, msix := [(23, 1#32)], flash := [], booting := false, wdogRun := 0, jtagErr := false, sentAt := [], sram := [], aer := false, remapLk := false, intN := false, bars := [] } }
def s390 : State := { base with regs := [(32, 1#32), (122892, 1#32), (126988, 1#32)] }
def s391 : State := { base with regs := [(32, 1#32), (126988, 1#32), (127092, 0x801#32)] }
def s392 : State := { base with regs := [(32, 1#32), (122892, 1#32), (17179992096, 7#32), (34359861284, 0x300002#32)] }
def s393 : State := { base with regs := [(32, 1#32), (122892, 1#32), (17179992096, 7#32), (34359861284, 0x300002#32)], gaug := [(7, 9)] }
def s394 : State := { base with regs := [(126988, 1#32), (127136, 0x15#32)], prf := { trace := [], cfg := 0x8FFF#32, alo := 0#32, ahi := 0xFFFFFFFF#32, tags := [], mask := 4 } }
def s395 : State := { base with regs := [(126988, 1#32), (127136, 0x15#32)], prf := { trace := [], cfg := 0x8FFF#32, alo := 0#32, ahi := 0xFFFFFFFF#32, tags := (List.replicate 64 [1#32, 2#32, 3#32, 4#32]), mask := 4 } }
def s396 : State := { base with regs := [(12, 1#32), (32, 2#32), (45068, 1#32), (1048588, 1#32), (1052684, 1#32), (1052716, 0x700006#32), (1052752, 0xE#32), (1052944, 0x90D#32), (216172782113783808, 0x7000#32), (216172782113849088, 0xE#32), (216172782113849856, 0x1800#32), (216172782113850112, 0x180C#32), (216172782113850136, 5#32), (216172782113851648, 0x1818#32), (216172782113900544, 0x1824#32), (216172782113914624, 5#32), (288230376151712512, 0x71#32), (288230376151712520, 0x7F#32), (288230376151712768, 0x73#32), (288230376151712776, 0x7F#32), (288230376151713024, 0x287#32), (288230376151713032, 0x7F#32), (288230376151713048, 5#32)], rings := [(65539, [1, 2]), (65543, [5, 6, 7])], cells := [(5123, { sfn := 1, fill := 2, data := [3#8], good := 1 })] }
def s397 : State := { base with regs := [(12, 1#32), (32, 2#32), (12320, 1#32), (16396, 1#32), (53280, 0x759#32), (1052684, 1#32), (1052716, 6#32), (1110028, 1#32), (1110048, 3#32), (1110276, 0xC#32), (360287970189640452, 0x18000#32), (360287970189640456, 0x258#32), (360287970189640464, 0x20032#32)], tb := { t := 530242871224172544077, inc := 8589934592, slewCnt := 0, disc := 0 }, sel := [(3, { on := true, sfN := 2, sdN := 3, freeW := 100, freeP := 90, wtrAt := 7, ask := none, once := none, lastW := [100, 200], lastP := [-50, 70, 90], period := 125000, src := 2, rep := 0, sent := 0, last := [], out := [], ext := 0, cnt := 0, img := [], moved := false })] }
def s398 : State := { base with regs := [(12, 1#32), (32, 2#32), (12320, 1#32), (16396, 1#32), (53280, 0x759#32), (1052684, 1#32), (1052716, 6#32), (1110028, 1#32), (1110048, 3#32), (1110276, 0xC0#32), (1110280, 0x258#32), (360287970189640452, 0x18000#32), (360287970189640456, 0x258#32), (360287970189640464, 0x20032#32)], tb := { t := 530242871224172544077, inc := 8589934592, slewCnt := 0, disc := 0 }, sel := [(3, { on := true, sfN := 2, sdN := 3, freeW := 100, freeP := 90, wtrAt := 7, ask := none, once := none, lastW := [100, 200], lastP := [-50, 70, 90], period := 125000, src := 2, rep := 0, sent := 0, last := [], out := [], ext := 0, cnt := 0, img := [], moved := false })] }
def s399 : State := { base with regs := [(12, 1#32), (32, 2#32), (12320, 1#32), (16396, 1#32), (53280, 0x759#32), (1052684, 1#32), (1052716, 6#32), (1110028, 1#32), (1110048, 0x103#32), (1110272, 6#32), (1110276, 0x180C0#32), (1110280, 0x258#32), (360287970189640452, 0x18000#32), (360287970189640456, 0x258#32), (360287970189640464, 0x20032#32)], tb := { t := 530242871224172544077, inc := 8589934592, slewCnt := 0, disc := 0 }, sel := [(3, { on := true, sfN := 2, sdN := 3, freeW := 100, freeP := 90, wtrAt := 7, ask := none, once := none, lastW := [100, 200], lastP := [-50, 70, 90], period := 125000, src := 2, rep := 0, sent := 0, last := [], out := [], ext := 0, cnt := 0, img := [], moved := false })] }
def s400 : State := { base with regs := [(12, 1#32), (32, 2#32), (12320, 1#32), (16396, 1#32), (53280, 0x759#32), (1052684, 1#32), (1052716, 6#32), (1110028, 1#32), (1110048, 0x103#32), (1110276, 0xC#32), (360287970189640452, 0x18000#32), (360287970189640456, 0x258#32), (360287970189640464, 0x20032#32)], tb := { t := 530242871224172544077, inc := 8589934592, slewCnt := 0, disc := 0 }, sel := [(3, { on := true, sfN := 2, sdN := 3, freeW := 100, freeP := 90, wtrAt := 7, ask := none, once := none, lastW := [100, 200], lastP := [-50, 70, 90], period := 125000, src := 2, rep := 0, sent := 0, last := [], out := [], ext := 0, cnt := 0, img := [], moved := false })] }
def s401 : State := { base with regs := [(32, 1#32), (24588, 1#32), (24732, 0xFF000#32), (24752, 0x3F#32), (25480, 0x1F140000#32), (25484, 0xA2611C7#32), (126988, 1#32), (127016, 1#32), (4295094308, 0x539#32), (17179996196, 0x1F39#32), (274878033956, 0x739#32)], hst := { smbAddr := 0, smbStat := 0, smbBusy := false, vecLvl := 32, armed := 4294967295, msixEn := true, fnMask := false, vecMask := 0, vecPend := 0, msix := [], flash := [], booting := false, wdogRun := 0, jtagErr := false, sentAt := [(5, 7), (7, 7)], sram := [], aer := false, remapLk := false, intN := false, bars := [] } }
def s402 : State := { base with regs := [(32, 1#32), (24588, 1#32), (24732, 0xFF000#32), (24752, 0x3F#32), (25480, 0x1F140000#32), (25484, 0xA2611C7#32), (126988, 1#32), (127016, 1#32), (4295094308, 0x539#32), (17179996196, 0x1F39#32), (274878033956, 0x739#32)], hst := { smbAddr := 0, smbStat := 0, smbBusy := false, vecLvl := 32, armed := 4294967295, msixEn := true, fnMask := true, vecMask := 0, vecPend := 0, msix := [], flash := [], booting := false, wdogRun := 0, jtagErr := false, sentAt := [(5, 7), (7, 7)], sram := [], aer := false, remapLk := false, intN := false, bars := [] } }
def s403 : State := { base with regs := [(32, 1#32), (24588, 1#32), (24732, 0xFF000#32), (24752, 0x3F#32), (25480, 0x1F140000#32), (25484, 0xA2611C7#32), (126988, 1#32), (127016, 1#32), (4295094308, 0x539#32), (17179996196, 0x1F39#32), (274878033956, 0x739#32)], hst := { smbAddr := 0, smbStat := 0, smbBusy := false, vecLvl := 32, armed := 0, msixEn := true, fnMask := true, vecMask := 0, vecPend := 66, msix := [], flash := [], booting := false, wdogRun := 0, jtagErr := false, sentAt := [(5, 7), (7, 7)], sram := [], aer := false, remapLk := false, intN := false, bars := [] } }

/-- The reset entries of an interchange page have no fault (R132, R149). -/
theorem sealFault_fresh (s : State) (lox : Bool) (he : (s.ic lox).ent = []) (hb : (s.ic lox).bad = []) :
    ∀ w ∈ icOrder lox, sealFault s lox w = 0 := by
  intro w hw
  have hB : s.icBad lox (s.icStandby lox) w ≠ 2 := by simp [State.icBad, hb, tget]
  have hW : ∀ w, s.icWord lox w = icDflt lox (icKey (s.icStandby lox) w) := by simp [State.icWord, he, tget]
  cases lox with
  | false =>
    have : icDflt false (icKey (s.icStandby false) w) = 0x20000#32 := by
      rw [icDflt, icReset, icDefault, if_pos]
      · rfl
      · simp only [Bool.false_eq_true, if_false]; omega
    simp only [sealFault, hB, if_false, Bool.false_eq_true, hW, this]
    decide
  | true =>
    have h0 : ∀ w, s.icWord true w = 0#32 := by
      intro w
      rw [hW, icDflt, icReset, icDefault, if_neg]
      · rfl
      · simp only [if_true]; omega
    have g (a b : Nat) : wordGet 0#32 a b = 0 := by simp [wordGet]
    simp [sealFault, hB, loxCheck, h0, g]

/-- A list that begins with its word 0, cut there. -/
theorem cut_first (l : List Nat) (h : l.head? = some 0) : l = [] ++ 0 :: l.tail := by cases l <;> simp_all

/-- Seals in progress whose first entry has fill code 3 (R138), and an input entry state 3 (R150). -/
def sealing (lox : Bool) : State :=
  { base with regs := [(32, 2#32), (36876, 1#32), (36896, 2#32), (40972, 1#32), (40992, 2#32)] }.setIc lox
    { ent := [(0x100000, 0x60000#32)], bad := [], found := [], run := 1 }

theorem test_meets_InterchangePagesComplete_faulty (h : Obligations.InterchangePagesComplete) :
    (∃ p, Completes .sealDone (sealing false) p) ∧ (∃ p, Completes .loxSealDone (sealing true) p) :=
  ⟨⟨_, ((h.1 (sealing false) 3 2 here).2.2.1.2.2.2.1 here).1 [] 0 _ (cut_first _ here) (by simp) here⟩,
    ⟨_, ((h.1 (sealing true) 3 2 here).2.2.2.2.2.2.1 here).1 [] 0 _ (cut_first _ here) (by simp) here⟩⟩

theorem test_meets_ColdResetsLeaveTheResetState (h : Obligations.ColdResetsLeaveTheResetState) :
    (∃ p, Completes (.resetNAssert 2000) base p) ∧
    (∃ p, Completes (.seqViolation 2 true) base p) ∧
    Ignored (.resetNAssert 999) base :=
  ⟨⟨_, (((h base).2).2).1 2000 here⟩,
    ⟨_, ((((((h base).2).2).2).2).2).2 2 true here here⟩,
    ((((h base).2).2).2).1 999 here⟩

theorem test_meets_InternalResetEndTakesTheStraps (h : Obligations.InternalResetEndTakesTheStraps) :
    Ignored (.internalResetEnd 0x135#9 0x1F7#9 0xA#9 9#5) base ∧
    (∃ p, Completes (.internalResetEnd 0x135#9 0x1F7#9 0xA#9 9#5) s0 p) :=
  ⟨(h base 0x135#9 0x1F7#9 0xA#9 9#5).1 here,
    ⟨_, (h s0 0x135#9 0x1F7#9 0xA#9 9#5).2 here⟩⟩

theorem test_meets_ClockCommandsComplete_1 (h : Obligations.ClockCommandsComplete) :
    (∃ p, Completes (.corePllRelock) base p) ∧
    Ignored (.refLoss 4) base ∧
    (∃ p, Completes (.refReturn 4) base p) ∧
    (∃ p, Completes (.crossingOverflow 3 77) base p) ∧
    (∃ p, Completes (.pllRelock (Pll.mem)) base p) ∧
    (∃ p, Completes (.pllRelock (Pll.pcie)) base p) ∧
    (∃ p, Completes (.pllRelock (Pll.core)) base p) ∧
    (∃ p, Completes (.pllRelock (Pll.quad 9)) base p) :=
  ⟨⟨_, (((h).1 base).2).1 here here⟩,
    (((h).2 base).2).1 4 here,
    ⟨_, ((((h).2 base).2).2).1 4 here⟩,
    ⟨_, ((((((h).2 base).2).2).2).2).1 3 77 here⟩,
    ⟨_, (((((((((h).2 base).2).2).2).2).2).2).1 here).1⟩,
    ⟨_, ((((((((((h).2 base).2).2).2).2).2).2).1 here).2).1⟩,
    ⟨_, (((((((((((h).2 base).2).2).2).2).2).2).1 here).2).2).1 here⟩,
    ⟨_, ((((((((((((h).2 base).2).2).2).2).2).2).1 here).2).2).2).1 9⟩⟩

theorem test_meets_ClockCommandsComplete_2 (h : Obligations.ClockCommandsComplete) :
    (∃ p, Completes (.pllRelock (Pll.tport 3)) base p) ∧
    (∃ p, Completes (.pllRelock (Pll.gelvy 2)) base p) ∧
    (∃ p, Completes (.memPllLockLoss) base p) ∧
    (∃ p, Completes (.coreCfgWrite 5 0x80000003#32) s1 p) ∧
    (∃ p, Completes (.coreClockLockLoss true false true) s1 p) ∧
    Ignored (.crossingOverflow 11 77) base ∧
    (∃ p, Completes (.refLoss 3) s2 p) ∧
    (∃ p, Completes (.coreClockLockLoss true false true) s3 p) :=
  ⟨⟨_, (((((((((((((h).2 base).2).2).2).2).2).2).1 here).2).2).2).2).1 3⟩,
    ⟨_, (((((((((((((h).2 base).2).2).2).2).2).2).1 here).2).2).2).2).2 2⟩,
    ⟨_, (((((((((h).2 base).2).2).2).2).2).2).2).1 here⟩,
    ⟨_, ((h).1 s1).1 5 0x80000003#32 here here here here here⟩,
    ⟨_, ((((h).1 s1).2).2).1 true false true here here here⟩,
    (((((((h).2 base).2).2).2).2).2).1 11 77 here,
    ⟨_, ((h).2 s2).1 3 here⟩,
    ⟨_, (((((h).1 s3).2).2).2).1 true false true here here here here⟩⟩

theorem test_meets_ModeCommandsComplete (h : Obligations.ModeCommandsComplete) :
    (∃ p, Completes (.bringup 3) s4 p) ∧
    (∃ p, Completes (.solo 3 true) s4 p) ∧
    (∃ p, Completes (.quarantine 3 true) s4 p) ∧
    (∃ p, Completes (.solo 3 true) s5 p) ∧
    (∃ p, Completes (.quarantine 3 true) s5 p) ∧
    (∃ p, Completes (.bringup 3) s6 p) ∧
    (∃ p, Completes (.release 3 true) s7 p) ∧
    (∃ p, Completes (.release 3 true) s8 p) :=
  ⟨⟨_, ((h s4 3 true here here).2).1 here here⟩,
    ⟨_, ((((h s4 3 true here here).2).2).2).1 here here⟩,
    ⟨_, (((((h s4 3 true here here).2).2).2).2).1 here here here here⟩,
    ⟨_, (((h s5 3 true here here).2).2).1 here here here here⟩,
    ⟨_, ((((((h s5 3 true here here).2).2).2).2).2).1 here here here here⟩,
    ⟨_, (h s6 3 true here here).1 here here here⟩,
    ⟨_, (((((((h s7 3 true here here).2).2).2).2).2).2).1 here here here here⟩,
    ⟨_, (((((((h s8 3 true here here).2).2).2).2).2).2).2 here here here⟩⟩

theorem test_meets_SupplyAndReadinessEventsComplete_1 (h : Obligations.SupplyAndReadinessEventsComplete) :
    (∃ p, Completes (.fatalCause 2) s9 p) ∧
    (∃ p, Completes (.railToleranceChange (Supply.rail 4) (Level.over)) s9 p) ∧
    (∃ p, Completes (.railToleranceChange (Supply.island 3) (Level.over)) s9 p) ∧
    (∃ p, Completes (.pageReady 12 true) s9 p) ∧
    (∃ p, Completes (.pageReady 12 false) s9 p) ∧
    (∃ p, Completes (.fatalCause 2) base p) ∧
    (∃ p, Completes (.railToleranceChange (Supply.rail 4) (Level.ok)) base p) ∧
    (∃ p, Completes (.memChannelTrained 3 true) s10 p) :=
  ⟨⟨_, ((h s9).2).1 2 here here here here here⟩,
    ⟨_, ((((h s9).2).2).2).1 4 (Level.over) here⟩,
    ⟨_, (((((h s9).2).2).2).2).1 3 (Level.over) here here⟩,
    ⟨_, ((((((((h s9).2).2).2).2).2).2).1 12 here here here here).1⟩,
    ⟨_, ((((((((h s9).2).2).2).2).2).2).1 12 here here here here).2⟩,
    ⟨_, (h base).1 2 here here here⟩,
    ⟨_, (((h base).2).2).1 4 (Level.ok) here⟩,
    ⟨_, ((((((((((h s10).2).2).2).2).2).2).2).2).2).1 3 true here here⟩⟩

theorem test_meets_SupplyAndReadinessEventsComplete_2 (h : Obligations.SupplyAndReadinessEventsComplete) :
    (∃ p, Completes (.memChannelFail 3) s10 p) ∧
    (∃ p, Completes (.bringup 3) s6 p) ∧
    (∃ p, Completes (.quarantine 3 true) s4 p) ∧
    (∃ p, Completes (.release 3 true) s7 p) ∧
    (∃ p, Completes (.regionMeasure v0 v1) s11 p) ∧
    (∃ p, Completes (.solo 3 true) s5 p) :=
  ⟨⟨_, (((((((((((h s10).2).2).2).2).2).2).2).2).2).2).1 3 here⟩,
    ⟨_, ((((((((((((h s6).2).2).2).2).2).2).2).2).2).2).2 3 true here here).1 here here here⟩,
    ⟨_, ((((((((((((((h s4).2).2).2).2).2).2).2).2).2).2).2 3 true here here).2).2).1 here here here here⟩,
    ⟨_, ((((((((((((((h s7).2).2).2).2).2).2).2).2).2).2).2 3 true here here).2).2).2 here here here here⟩,
    ⟨_, ((((((((h s11).2).2).2).2).2).2).2).1 v0 v1 here here here here here⟩,
    ⟨_, (((((((((((((h s5).2).2).2).2).2).2).2).2).2).2).2 3 true here here).2).1 here here here here⟩⟩

theorem test_meets_RegisterWriteStoresOrRefuses (h : Obligations.RegisterWriteStoresOrRefuses) :
    (∃ p, Completes (.registerWrite 5 15728640 0x12345678#32 5 true none) base p) ∧
    (∃ p, Completes (.registerWrite 5 98336 0x12345678#32 5 true none) base p) ∧
    (∃ p, Completes (.registerWrite 3 7212 0x12345678#32 5 true none) s11 p) :=
  ⟨⟨_, ((h base 5 0x12345678#32 5 true known known).2).2 15728640 known known known known⟩,
    ⟨_, ((h base 5 0x12345678#32 5 true known known).2).1 98336 known known known known known⟩,
    ⟨_, (h s11 3 0x12345678#32 5 true known known).1 4140 3 v2 known known known known⟩⟩

theorem test_meets_LgAccessesGoThroughTheBuffer (h : Obligations.LgAccessesGoThroughTheBuffer) :
    (∃ p, Completes (.lgPostedWrite 3 1 [(53284, 0x12345677#32, 15)]) s12 p) ∧
    (∃ p, Completes (.lgReadComplete 3 1 53284 true) s12 p) ∧
    (∃ p, Completes (.lgPostedWrite 3 1 [(53284, 0x12345677#32, 15)]) s13 p) ∧
    (∃ p, Completes (.postedWriteLand 1 true) s13 p) :=
  ⟨⟨_, (h s12 3 1 here here here).1 1167396 v3 0x12345677#32 15 here here here here here here⟩,
    ⟨_, (((h s12 3 1 here here here).2).2).2 1167396 v3 true here here here here here here⟩,
    ⟨_, ((h s13 3 1 here here here).2).1 1167396 0x12345677#32 15 here here here⟩,
    ⟨_, (((h s13 3 1 here here here).2).2).1 1167396 v3 0x12345677#32 15 true here here here here here⟩⟩

theorem test_meets_PageCommandsComplete (h : Obligations.PageCommandsComplete) :
    (∃ p, Completes (.pageLock 3 24) s14 p) ∧
    (∃ p, Completes (.pageSrst 3 24) s14 p) ∧
    (∃ p, Completes (.cntClr 3 24) s14 p) ∧
    (∃ p, Completes (.parActWrite 3 24 5#32) s14 p) ∧
    (∃ p, Completes (.parityScanPass 70000 []) s14 p) ∧
    (∃ p, Completes (.snapTake 3 false) s14 p) ∧
    (∃ p, Completes (.sclkRefresh) s14 p) ∧
    (∃ p, Completes (.parityScanPass 70000 [98336]) s15 p) :=
  ⟨⟨_, (h s14 3 here here).1 24 here here⟩,
    ⟨_, ((h s14 3 here here).2).1 0 24 here here here here⟩,
    ⟨_, (((h s14 3 here here).2).2).1 24 here here here here⟩,
    ⟨_, ((((h s14 3 here here).2).2).2).1 24 5#32 here here⟩,
    ⟨_, (((((h s14 3 here here).2).2).2).2).1 70000 here⟩,
    ⟨_, (((((((h s14 3 here here).2).2).2).2).2).2).1 false here here⟩,
    ⟨_, (((((((h s14 3 here here).2).2).2).2).2).2).2 here⟩,
    ⟨_, ((((((h s15 3 here here).2).2).2).2).2).1 70000 98336 here here here here here⟩⟩

theorem test_meets_CounterCommandsComplete (h : Obligations.CounterCommandsComplete) :
    (∃ p, Completes (.battScrubRead 3 16965 1 none) s16 p) ∧
    (∃ p, Completes (.battScrubRead 3 16965 2 none) s16 p) ∧
    (∃ p, Completes (.battScrubRead 3 16965 0 (some 70000)) s16 p) ∧
    (∃ p, Completes (.battReadReturn 9 1 v4) s16 p) ∧
    (∃ p, Completes (.counterLowRead 3 45184) s17 p) ∧
    (∃ p, Completes (.occAckWrite 3 1052720 4) s18 p) ∧
    (∃ p, Completes (.counterPreset 3 1052992 0xFFFFFFF0#32 9#32) s18 p) :=
  ⟨⟨_, ((((((h s16 3 here here).2).2).2).2).1 3 16965 here here here).1⟩,
    ⟨_, (((((((h s16 3 here here).2).2).2).2).1 3 16965 here here here).2).1⟩,
    ⟨_, (((((((h s16 3 here here).2).2).2).2).1 3 16965 here here here).2).2 70000⟩,
    ⟨_, (((((h s16 3 here here).2).2).2).2).2 9 1 v4 35 987652 here here here here here here here⟩,
    ⟨_, (((h s17 3 here here).2).2).1 45184 here here here here here⟩,
    ⟨_, ((h s18 3 here here).2).1 1052720 4 here here here here here here⟩,
    ⟨_, (h s18 3 here here).1 1052992 v5 0xFFFFFFF0#32 9#32 here here here here here here here here here here here⟩⟩

theorem test_meets_StagingAndJournalCommandsComplete (h : Obligations.StagingAndJournalCommandsComplete) :
    (∃ p, Completes (.stItemBWrite 3 0xF00#32) s19 p) ∧
    (∃ p, Completes (.clear 3) s19 p) ∧
    (∃ p, Completes (.rdIdxWrite 3 5#32) s19 p) ∧
    (∃ p, Completes (.find 3) s19 p) ∧
    Ignored (.findComplete 3) s19 ∧
    (∃ p, Completes (.findComplete 3) s20 p) :=
  ⟨⟨_, (h s19 3).1 0xF00#32 here⟩,
    ⟨_, ((h s19 3).2).1 here here⟩,
    ⟨_, (((h s19 3).2).2).1 5#32 here here here here⟩,
    ⟨_, ((((h s19 3).2).2).2).1 here here⟩,
    (((((h s19 3).2).2).2).2).2 here,
    ⟨_, (((((h s20 3).2).2).2).2).1 here⟩⟩

theorem test_meets_AdmissionQueuesOrRefuses (h : Obligations.AdmissionQueuesOrRefuses) :
    (∃ p, Completes (.admitCmd 3) s21 p) ∧
    (∃ p, Completes (.admitCmd 3) s22 p) ∧
    (∃ p, Completes (.admitCmd 3) s23 p) ∧
    (∃ p, Completes (.admitCmd 3) s24 p) ∧
    (∃ p, Completes (.admitCmd 3) s25 p) ∧
    (∃ p, Completes (.admitCmd 3) s26 p) ∧
    (∃ p, Completes (.admitCmd 3) s27 p) ∧
    (∃ p, Completes (.admitCmd 3) s28 p) :=
  ⟨⟨_, (h s21 3 here).1 here⟩,
    ⟨_, ((h s22 3 here).2).1 here here⟩,
    ⟨_, (((h s23 3 here).2).2 500536870912 here here).1 1 here⟩,
    ⟨_, ((((h s24 3 here).2).2 500536870912 here here).2 here).1 1 here⟩,
    ⟨_, ((((((h s25 3 here).2).2 500536870912 here here).2 here).2 here).2 here here).1 1 here⟩,
    ⟨_, (((((((h s26 3 here).2).2 500536870912 here here).2 here).2 here).2 here here).2 here here).2 here⟩,
    ⟨_, (((((h s27 3 here).2).2 500536870912 here here).2 here).2 here).1 here⟩,
    ⟨_, (((((((h s28 3 here).2).2 500536870912 here here).2 here).2 here).2 here here).2 here here).1 here⟩⟩

theorem test_meets_CancelDispatchAndMirroredActionsComplete (h : Obligations.CancelDispatchAndMirroredActionsComplete) :
    (∃ p, Completes (.cancel 3) s29 p) ∧
    (∃ p, Completes (.actionMessageRx { port := 3, seq := 0, ack := 0, crcOk := true } v6 [5]) s29 p) ∧
    (∃ p, Completes (.plankDispatch 987655 0 []) s30 p) ∧
    (∃ p, Completes (.plankDispatch 987655 0 []) s31 p) ∧
    (∃ p, Completes (.cancel 3) s32 p) :=
  ⟨⟨_, ((h s29 here).2).1 3 here here here here here⟩,
    ⟨_, (((h s29 here).2).2).1 { port := 3, seq := 0, ack := 0, crcOk := true } v6 [5] here here here here here here⟩,
    ⟨_, ((((h s30 here).2).2).2).1 v7 987655 0 here here here here here here here here⟩,
    ⟨_, ((((h s31 here).2).2).2).2 v8 987655 0 1 2 here here here here here here here here here here⟩,
    ⟨_, (h s32 here).1 3 v9 here here here here here here here here here here⟩⟩

theorem test_meets_TimeBaseCommandsComplete_1 (h : Obligations.TimeBaseCommandsComplete) :
    (∃ p, Completes (.load 3) s33 p) ∧
    (∃ p, Completes (.nowNsRead 3) s33 p) ∧
    (∃ p, Completes (.tbIncWrite 3 1#32) s33 p) ∧
    Ignored (.usTick) s33 ∧
    Ignored (.holdover) s33 ∧
    (∃ p, Completes (.load 3) s34 p) ∧
    (∃ p, Completes (.tbIncWrite 3 1#32) s34 p) ∧
    (∃ p, Completes (.usTick) s34 p) :=
  ⟨⟨_, (h s33 3).1 here here here⟩,
    ⟨_, (((h s33 3).2).2).1 here⟩,
    ⟨_, (((((h s33 3).2).2).2).1 1#32 here here).2 here⟩,
    ((((((h s33 3).2).2).2).2).2).1 here,
    ((((((((h s33 3).2).2).2).2).2).2).2).2 here,
    ⟨_, ((h s34 3).2).1 here here⟩,
    ⟨_, (((((h s34 3).2).2).2).1 1#32 here here).1 here here⟩,
    ⟨_, (((((h s34 3).2).2).2).2).1 here here here here here here⟩⟩

theorem test_meets_TimeBaseCommandsComplete_2 (h : Obligations.TimeBaseCommandsComplete) :
    (∃ p, Completes (.holdover) s34 p) ∧
    (∃ p, Completes (.slewStep) s35 p) ∧
    (∃ p, Completes (.slewStep) s36 p) :=
  ⟨⟨_, ((((((((h s34 3).2).2).2).2).2).2).2).1 here here here⟩,
    ⟨_, ((((((((h s35 3).2).2).2).2).2).2).1 here here).1 here here⟩,
    ⟨_, ((((((((h s36 3).2).2).2).2).2).2).1 here here).2 here here⟩⟩

theorem test_meets_TimestampsAndTimingPortsComplete_1 (h : Obligations.TimestampsAndTimingPortsComplete) :
    Ignored (.portTimestamp 257 false 74565 3 99999999999999999999 4) s37 ∧
    (∃ p, Completes (.rxPop 3) s37 p) ∧
    (∃ p, Completes (.txPop 3) s37 p) ∧
    (∃ p, Completes (.timingPortFrameTx 1 0#32 v10 99999999999999999999) s37 p) ∧
    (∃ p, Completes (.timingPortFrameRx 1 v10 99999999999999999999) s37 p) ∧
    (∃ p, Completes (.portTimestamp 257 true 74565 3 99999999999999999999 4) s38 p) ∧
    (∃ p, Completes (.rxPop 3) s38 p) ∧
    (∃ p, Completes (.txPop 3) s38 p) :=
  ⟨((h s37).2).1 257 false 74565 3 99999999999999999999 4 here,
    ⟨_, ((((h s37).2).2).1 3 here).1 here⟩,
    ⟨_, (((((h s37).2).2).1 3 here).2).1 here⟩,
    ⟨_, (((((h s37).2).2).2).1 1 0#32 v10 99999999999999999999 here here).1 here here⟩,
    ⟨_, ((((((h s37).2).2).2).2).1 1 v10 99999999999999999999 here here).1 here⟩,
    ⟨_, (h s38).1 257 true 74565 3 99999999999999999999 4 here⟩,
    ⟨_, ((((((h s38).2).2).1 3 here).2).2 here).1⟩,
    ⟨_, ((((((h s38).2).2).1 3 here).2).2 here).2⟩⟩

theorem test_meets_TimestampsAndTimingPortsComplete_2 (h : Obligations.TimestampsAndTimingPortsComplete) :
    (∃ p, Completes (.timingPortFrameTx 1 1#32 v11 99999999999999999999) s38 p) ∧
    (∃ p, Completes (.timingPortFrameRx 1 v11 99999999999999999999) s38 p) ∧
    Ignored (.ttResult 3) base ∧
    Ignored (.timingPortFrameTx 1 0x40002#32 v12 5) base ∧
    Ignored (.timingPortFrameRx 1 v12 5) base ∧
    (∃ p, Completes (.ttStampRx { port := 3, seq := 0, ack := 0, crcOk := true } 7 4000000000 5000000000 true 6597069766656 35184372088832) s39 p) ∧
    (∃ p, Completes (.ttStampRx { port := 3, seq := 0, ack := 0, crcOk := true } 7 4000000000 5000000000 false 6597069766656 35184372088832) s39 p) ∧
    (∃ p, Completes (.ttResult 3) s39 p) :=
  ⟨⟨_, ((((((h s38).2).2).2).1 1 1#32 v11 99999999999999999999 here here).2).1 here here⟩,
    ⟨_, ((((((h s38).2).2).2).2).2).1 1 v11 99999999999999999999 here here here here⟩,
    (((((((((h base).2).2).2).2).2).2).2).2 3).1 here,
    ((((((((h base).2).2).2).2).2).2).1 1 0x40002#32 v12 5 here).1,
    ((((((((h base).2).2).2).2).2).2).1 1 0x40002#32 v12 5 here).2,
    ⟨_, (((((((((h s39).2).2).2).2).2).2).2).1 { port := 3, seq := 0, ack := 0, crcOk := true } 7 4000000000 5000000000 6597069766656 35184372088832 here here here here).1 6597069766656 35184372088832 here here⟩,
    ⟨_, (((((((((h s39).2).2).2).2).2).2).2).1 { port := 3, seq := 0, ack := 0, crcOk := true } 7 4000000000 5000000000 6597069766656 35184372088832 here here here here).2 false here⟩,
    ⟨_, (((((((((h s39).2).2).2).2).2).2).2).2 3).2 here here⟩⟩

theorem test_meets_TimestampsAndTimingPortsComplete_3 (h : Obligations.TimestampsAndTimingPortsComplete) :
    (∃ p, Completes (.timingPortFrameTx 1 0x40002#32 v12 99999999999999999999) s40 p) ∧
    (∃ p, Completes (.timingPortFrameTx 1 1#32 v12 99999999999999999999) s41 p) ∧
    (∃ p, Completes (.timingPortFrameRx 1 v12 5) s42 p) :=
  ⟨⟨_, (((((((h s40).2).2).2).1 1 0x40002#32 v12 99999999999999999999 here here).2).2).2 (14, 0, 0) here here here⟩,
    ⟨_, (((((((h s41).2).2).2).1 1 1#32 v12 99999999999999999999 here here).2).2).1 (14, 0, 0) here here here here here⟩,
    ⟨_, ((((((h s42).2).2).2).2).1 1 v12 5 here here).2 (14, 0, 0) here here here here⟩⟩

theorem test_meets_PpsTodAndLinkCommandsComplete_1 (h : Obligations.PpsTodAndLinkCommandsComplete) :
    Ignored (.ppsInEdge false 987654321987654321987654321) s43 ∧
    Ignored (.ppsPulseStart) s43 ∧
    Ignored (.ppsPulseEnd) s43 ∧
    Ignored (.todSendStart) s43 ∧
    Ignored (.todSendDone) s43 ∧
    (∃ p, Completes (.txAbandon) s43 p) ∧
    (∃ p, Completes (.ppsInEdge false 987654321987654321987654321) s44 p) ∧
    (∃ p, Completes (.ppsPulseStart) s44 p) :=
  ⟨((h s43).2).1 false 987654321987654321987654321 here,
    ((((h s43).2).2).2).1 here,
    ((((((h s43).2).2).2).2).2).1 here,
    (((((((((h s43).2).2).2).2).2).2).2).2).1 here,
    (((((((((((h s43).2).2).2).2).2).2).2).2).2).2).1 here,
    ⟨_, ((((((((((((h s43).2).2).2).2).2).2).2).2).2).2).2).1 here here⟩,
    ⟨_, ((h s44).1 false 987654321987654321987654321 here here).1 here⟩,
    ⟨_, (((h s44).2).2).1 v13 v14 here here here here here⟩⟩

theorem test_meets_PpsTodAndLinkCommandsComplete_2 (h : Obligations.PpsTodAndLinkCommandsComplete) :
    (∃ p, Completes (.ppsPulseEnd) s44 p) ∧
    (∃ p, Completes (.todSendStart) s44 p) ∧
    Ignored (.txAbandon) s44 ∧
    Ignored (.ppsInEdge false 9) s45 ∧
    (∃ p, Completes (.todSendDone) s45 p) ∧
    (∃ p, Completes (.arm 3) s33 p) ∧
    (∃ p, Completes (.todRxMessage v15 987654321987654321987654321) s33 p) :=
  ⟨⟨_, (((((h s44).2).2).2).2).1 true here⟩,
    ⟨_, ((((((((h s44).2).2).2).2).2).2).2).1 here here here⟩,
    (((((((((((((h s44).2).2).2).2).2).2).2).2).2).2).2).2).1 here,
    ((h s45).1 false 9 here here).2 here,
    ⟨_, ((((((((((h s45).2).2).2).2).2).2).2).2).2).1 here⟩,
    ⟨_, (((((((h s33).2).2).2).2).2).2).1 3 here here⟩,
    ⟨_, ((((((((((((((h s33).2).2).2).2).2).2).2).2).2).2).2).2).2).1 v15 987654321987654321987654321 here here⟩⟩

theorem test_meets_PcieAndMasterResetsComplete_1 (h : Obligations.PcieAndMasterResetsComplete) :
    (∃ p, Completes (.pcieWriteTlp (PcieSpace.bar4) 492 [(0x8001#32, 15)] false) base p) ∧
    (∃ p, Completes (.pcieWriteTlp (PcieSpace.bar4) 488 [(0x8001#32, 15)] false) base p) ∧
    (∃ p, Completes (.pcieWriteTlp (PcieSpace.msixControl) 0 [(0x8001#32, 15)] false) base p) ∧
    (∃ p, Completes (.pcieReadTlp (PcieSpace.bar0) 12320 1 true 0) base p) ∧
    (∃ p, Completes (.pcieReadTlp (PcieSpace.bar4) 8192 1 true 0) base p) ∧
    Ignored (.masterReset 7 none) base ∧
    (∃ p, Completes (.pcieWriteTlp (PcieSpace.bar0) 65568 [(0xFFFFFFFF#32, 5)] true) s46 p) ∧
    (∃ p, Completes (.pcieReadTlp (PcieSpace.bar0) 65568 1 true 0) s46 p) :=
  ⟨⟨_, (((h base).2).2).1 30 0x8001#32 here here here⟩,
    ⟨_, ((((h base).2).2).2).1 30 2 0x8001#32 here here⟩,
    ⟨_, (((((h base).2).2).2).2).1 0x8001#32 here here here⟩,
    ⟨_, (((((((h base).2).2).2).2).2).2).1 12320 true 0 here⟩,
    ⟨_, ((((((((h base).2).2).2).2).2).2).2).1 true 0 here here⟩,
    ((((((((((h base).2).2).2).2).2).2).2).2).2).2 7 none here,
    ⟨_, (h s46).1 65568 v16 0xFFFFFFFF#32 5 true here⟩,
    ⟨_, ((((((h s46).2).2).2).2).2).1 65568 v16 true 0 here⟩⟩

theorem test_meets_PcieAndMasterResetsComplete_2 (h : Obligations.PcieAndMasterResetsComplete) :
    (∃ p, Completes (.masterReset 2 (some { addr := 536875052, bytes := 9 })) s46 p) ∧
    Ignored (.masterReset 2 none) s46 ∧
    (∃ p, Completes (.pcieWriteTlp (PcieSpace.bar0) 12320 [(0xFFFF#32, 5)] true) base p) :=
  ⟨⟨_, (((((((((((h s46).2).2).2).2).2).2).2).2).2).1 2 { addr := 536875052, bytes := 9 } here here here).1⟩,
    (((((((((((h s46).2).2).2).2).2).2).2).2).2).1 2 { addr := 536875052, bytes := 9 } here here here).2,
    ⟨_, ((h base).2).1 12320 0xFFFF#32 5 true here⟩⟩

theorem test_meets_DmaEngineAndRemoteAccessesComplete_1 (h : Obligations.DmaEngineAndRemoteAccessesComplete) :
    (∃ p, Completes (.dmaTailWrite 3 1 77) s47 p) ∧
    (∃ p, Completes (.dmaDescriptorDone 1 67108864 99 2#32 v17 8 true) s47 p) ∧
    (∃ p, Completes (.dmaDescriptorDone 1 67108864 99 2#32 v17 8 false) s47 p) ∧
    (∃ p, Completes (.rraReq { port := 3, seq := 0, ack := 0, crcOk := true } 9 102432 true 14 0x7777#32) s48 p) ∧
    (∃ p, Completes (.rraReq { port := 3, seq := 0, ack := 0, crcOk := true } 9 102432 false 14 0x7777#32) s48 p) ∧
    (∃ p, Completes (.dmaDescriptorDone 1 67108864 9 2#32 v17 8 false) s49 p) ∧
    (∃ p, Completes (.fwdWrite { port := 3, seq := 0, ack := 0, crcOk := true } 102432 0x7777#32 0xFFFFFF00#32 1 3) s50 p) ∧
    (∃ p, Completes (.fwdWrite { port := 3, seq := 0, ack := 0, crcOk := true } 102432 0x7777#32 0xFFFFFF00#32 1 3) s51 p) :=
  ⟨⟨_, (h s47).1 3 1 77 known known⟩,
    ⟨_, ((h s47).2).1 1 32 67108864 99 2#32 v17 8 known⟩,
    ⟨_, ((((h s47).2).2).1 1 32 67108864 99 2#32 v17 8 known).1 known known known known known known⟩,
    ⟨_, ((((((((h s48).2).2).2).2).2).2).1 { port := 3, seq := 0, ack := 0, crcOk := true } 9 102432 v18 14 0x7777#32 known known known known).1⟩,
    ⟨_, ((((((((h s48).2).2).2).2).2).2).1 { port := 3, seq := 0, ack := 0, crcOk := true } 9 102432 v18 14 0x7777#32 known known known known).2⟩,
    ⟨_, ((((h s49).2).2).1 1 32 67108864 9 2#32 v17 8 known).2 known⟩,
    ⟨_, ((((((((h s50).2).2).2).2).2).2).2 { port := 3, seq := 0, ack := 0, crcOk := true } 102432 v18 14 0x7777#32 1 3 known known known known known).1 known⟩,
    ⟨_, ((((((((h s51).2).2).2).2).2).2).2 { port := 3, seq := 0, ack := 0, crcOk := true } 102432 v18 14 0x7777#32 1 3 known known known known known).2 known⟩⟩

theorem test_meets_DmaEngineAndRemoteAccessesComplete_2 (h : Obligations.DmaEngineAndRemoteAccessesComplete) :
    (∃ p, Completes (.dmaDescriptorDone 5 67108864 66 2#32 v17 8 false) s52 p) ∧
    (∃ p, Completes (.busOpComplete 3) s53 p) ∧
    (∃ p, Completes (.busOpComplete 3) s54 p) ∧
    (∃ p, Completes (.busOpComplete 3) s55 p) :=
  ⟨⟨_, ((((h s52).2).2).2).1 1 32 67108864 66 2#32 v17 8 v19 [] known known⟩,
    ⟨_, ((((((h s53).2).2).2).2).2).1 3 12320 0x7777#32 5 v20 known known known known⟩,
    ⟨_, ((((((h s54).2).2).2).2).1 3 65568 v16 0x7777#32 5 false v20 known known known).2 known⟩,
    ⟨_, ((((((h s55).2).2).2).2).1 3 65568 v16 0x7777#32 5 false v20 known known known).1 known known⟩⟩

theorem test_meets_SmbusAndJtagCommandsComplete_1 (h : Obligations.SmbusAndJtagCommandsComplete) :
    (∃ p, Completes (.wrDirect 1 44 0xF0F0F0F0#32 true 7 false) s11 p) ∧
    (∃ p, Completes (.rdDirect 1 44 3) s11 p) ∧
    (∃ p, Completes (.wrDirect 3 32 0xF0F0F0F0#32 true 7 false) s11 p) ∧
    (∃ p, Completes (.wrDirect 3 32 0xF0F0F0F0#32 false 5 false) s11 p) ∧
    (∃ p, Completes (.wrDirect 3 32 0xF0F0F0F0#32 true 5 false) s11 p) ∧
    (∃ p, Completes (.setAddr 0xFFFFFFFF#32 true 4) s11 p) ∧
    (∃ p, Completes (.status) s11 p) ∧
    Ignored (.smbusStretchLimit) s11 :=
  ⟨⟨_, (((((((h s11 here here).2).2).2).2).1 here).1 44 v2 0xF0F0F0F0#32 false here).1⟩,
    ⟨_, (((((((h s11 here here).2).2).2).2).1 here).1 44 v2 0xF0F0F0F0#32 false here).2⟩,
    ⟨_, (((((((h s11 here here).2).2).2).2).1 here).2).1 3 32 0xF0F0F0F0#32 false here⟩,
    ⟨_, (((((((((h s11 here here).2).2).2).2).1 here).2).2).1 3 5 32 0xF0F0F0F0#32 false).1⟩,
    ⟨_, (((((((((h s11 here here).2).2).2).2).1 here).2).2).1 3 5 32 0xF0F0F0F0#32 false).2 here⟩,
    ⟨_, (((((((((h s11 here here).2).2).2).2).1 here).2).2).2).1 0xFFFFFFFF#32⟩,
    ⟨_, (((((((((((h s11 here here).2).2).2).2).1 here).2).2).2).2).2).1⟩,
    (((((((((((h s11 here here).2).2).2).2).1 here).2).2).2).2).2).2⟩

theorem test_meets_SmbusAndJtagCommandsComplete_2 (h : Obligations.SmbusAndJtagCommandsComplete) :
    (∃ p, Completes (.smbusTimeout none) s11 p) ∧
    (∃ p, Completes (.smbusTimeout (some { addr := 536875052, bytes := 9 })) s11 p) ∧
    (∃ p, Completes (.jtagBusAccess 0x10000014#32 true 6 0xF0F0F0F0#32 false 3) s11 p) ∧
    (∃ p, Completes (.jtagBusAccess 0x10000014#32 false 6 0xF0F0F0F0#32 false 3) s11 p) ∧
    (∃ p, Completes (.pcieReset (PcieResetKind.hot) none none) s56 p) ∧
    (∃ p, Completes (.masterReset 2 (some { addr := 536875052, bytes := 9 })) s56 p) ∧
    (∃ p, Completes (.battWindowAccess 2 68 (some 0xFFFFFFFF#32) 0) s56 p) ∧
    (∃ p, Completes (.pcieWriteTlp (PcieSpace.bar0) 65568 [(0xF0F0F0F0#32, 6)] false) s57 p) :=
  ⟨⟨_, (((((((h s11 here here).2).2).2).2).2).2).1⟩,
    ⟨_, ((((((((h s11 here here).2).2).2).2).2).2).2).1 { addr := 536875052, bytes := 9 }⟩,
    ⟨_, ((((((((((h s11 here here).2).2).2).2).2).2).2).2).2 5 6 0xF0F0F0F0#32 false 3).1⟩,
    ⟨_, ((((((((((h s11 here here).2).2).2).2).2).2).2).2).2 5 6 0xF0F0F0F0#32 false 3).2⟩,
    ⟨_, ((h s56 here here).2).1 (PcieResetKind.hot)⟩,
    ⟨_, (((h s56 here here).2).2).1 2 { addr := 536875052, bytes := 9 } here here⟩,
    ⟨_, ((((h s56 here here).2).2).2).1 2 68 0xFFFFFFFF#32 here here here here here here⟩,
    ⟨_, ((h s57 here here).1 65568 v16 0xF0F0F0F0#32 6 false 3 here).1⟩⟩

theorem test_meets_SmbusAndJtagCommandsComplete_3 (h : Obligations.SmbusAndJtagCommandsComplete) :
    (∃ p, Completes (.pcieReadTlp (PcieSpace.bar0) 65568 1 false 3) s57 p) ∧
    (∃ p, Completes (.wrInd 0xF0F0F0F0#32 true 4 false false) s57 p) ∧
    (∃ p, Completes (.rdInd false false 3) s57 p) ∧
    (∃ p, Completes (.rdInd false true 3) s57 p) ∧
    (∃ p, Completes (.jtagBusAccess 0x20010020#32 true 6 0xF0F0F0F0#32 false 3) s57 p) ∧
    (∃ p, Completes (.jtagBusAccess 0x20010020#32 false 6 0xF0F0F0F0#32 false 3) s57 p) ∧
    (∃ p, Completes (.smbusStretchLimit) s58 p) :=
  ⟨⟨_, ((h s57 here here).1 65568 v16 0xF0F0F0F0#32 6 false 3 here).2⟩,
    ⟨_, (((((((((((h s57 here here).2).2).2).2).1 here).2).2).2).2).1 65568 v16 0xF0F0F0F0#32 false 3 here here).1⟩,
    ⟨_, ((((((((((((h s57 here here).2).2).2).2).1 here).2).2).2).2).1 65568 v16 0xF0F0F0F0#32 false 3 here here).2).1⟩,
    ⟨_, ((((((((((((h s57 here here).2).2).2).2).1 here).2).2).2).2).1 65568 v16 0xF0F0F0F0#32 false 3 here here).2).2⟩,
    ⟨_, ((((((((((h s57 here here).2).2).2).2).2).2).2).2).1 65568 v16 6 0xF0F0F0F0#32 false 3 here).1⟩,
    ⟨_, ((((((((((h s57 here here).2).2).2).2).2).2).2).2).1 65568 v16 6 0xF0F0F0F0#32 false 3 here).2⟩,
    ⟨_, ((((((h s58 here here).2).2).2).2).2).1 here⟩⟩

theorem test_meets_BattReadsScrubsAndPathsComplete_1 (h : Obligations.BattReadsScrubsAndPathsComplete) :
    (∃ p, Completes (.battScrubRead 3 5 1 none) s59 p) ∧
    (∃ p, Completes (.battScrubRead 3 5 2 none) s59 p) ∧
    (∃ p, Completes (.battScrubRead 3 5 0 (some 70000)) s59 p) ∧
    (∃ p, Completes (.battScrubRead 3 5 3 none) s59 p) ∧
    (∃ p, Completes (.pathRead 3) s60 p) ∧
    (∃ p, Completes (.pathWrite 3 true) s60 p) ∧
    (∃ p, Completes (.battReadReturn 9 1 v4) s61 p) ∧
    (∃ p, Completes (.battScrubRead 3 16960 3 none) s61 p) :=
  ⟨⟨_, (((((h s59).2).2).1 3 5 here here).1 here).1⟩,
    ⟨_, ((((((h s59).2).2).1 3 5 here here).1 here).2).1⟩,
    ⟨_, ((((((h s59).2).2).1 3 5 here here).1 here).2).2 70000⟩,
    ⟨_, ((((((h s59).2).2).1 3 5 here here).2).2).1 here here⟩,
    ⟨_, (((((h s60).2).2).2).1 3 here here).2 here⟩,
    ⟨_, ((((((h s60).2).2).2).2 3 true here here here).2).2 here⟩,
    ⟨_, ((h s61).1 9 1 v4 35 987652 here here here here here here).1 here⟩,
    ⟨_, (((((h s61).2).2).1 3 16960 here here).2).1 here here⟩⟩

theorem test_meets_BattReadsScrubsAndPathsComplete_2 (h : Obligations.BattReadsScrubsAndPathsComplete) :
    (∃ p, Completes (.pathRead 3) s61 p) ∧
    (∃ p, Completes (.pathWrite 3 false) s61 p) ∧
    (∃ p, Completes (.battReadReturn 9 1 v21) s16 p) ∧
    (∃ p, Completes (.battScrubRead 3 13000000 3 none) s16 p) ∧
    (∃ p, Completes (.battReadReturn 9 1 v22) s62 p) ∧
    (∃ p, Completes (.pathWrite 3 false) s62 p) :=
  ⟨⟨_, (((((h s61).2).2).2).1 3 here here).1 here⟩,
    ⟨_, (((((h s61).2).2).2).2 3 false here here here).1 here⟩,
    ⟨_, ((h s16).1 9 1 v21 35 987652 here here here here here here).2 here⟩,
    ⟨_, ((((((h s16).2).2).1 3 13000000 here here).2).2).2 here here⟩,
    ⟨_, ((h s62).2).1 9 1 v22 35 987652 5 here here here here here here here here here⟩,
    ⟨_, ((((((h s62).2).2).2).2 3 false here here here).2).1 here here here here⟩⟩

theorem test_meets_MemoryWindowAndChannelsComplete_1 (h : Obligations.MemoryWindowAndChannelsComplete) :
    (∃ p, Completes (.battWindowAccess 3 4 (some 0x63#32) 0) base p) ∧
    (∃ p, Completes (.battWindowAccess 3 4 (some 0#32) 0) base p) ∧
    Ignored (.memChannelTrained 15 false) base ∧
    Ignored (.memChannelFail 15) base ∧
    (∃ p, Completes (.memPllLockLoss) base p) ∧
    (∃ p, Completes (.battWindowAccess 3 4 (some 0x63#32) 0) s63 p) ∧
    (∃ p, Completes (.battWindowAccess 3 4 none 0) s63 p) ∧
    (∃ p, Completes (.battWindowAccess 3 4 none 3) s63 p) :=
  ⟨⟨_, (((h base).1 3 4 here).2).1 0x63#32 here⟩,
    ⟨_, (((h base).1 3 4 here).2).2 here (some 0#32) 0⟩,
    (((h base).2).2).1 15 false here,
    (((((h base).2).2).2).2).1 15 here,
    ⟨_, ((((((h base).2).2).2).2).2).1 here⟩,
    ⟨_, (((h s63).1 3 4 here).1 here here here here here).1 0x63#32 here⟩,
    ⟨_, (((((h s63).1 3 4 here).1 here here here here here).2).2).1⟩,
    ⟨_, ((((((h s63).1 3 4 here).1 here here here here here).2).2).2).1 here⟩⟩

theorem test_meets_MemoryWindowAndChannelsComplete_2 (h : Obligations.MemoryWindowAndChannelsComplete) :
    (∃ p, Completes (.memChannelTrained 3 true) s63 p) ∧
    (∃ p, Completes (.memChannelFail 3) s63 p) ∧
    Ignored (.memPllLockLoss) s0 ∧
    (∃ p, Completes (.battWindowAccess 3 4 (some 0x63#32) 0) s64 p) ∧
    (∃ p, Completes (.battWindowAccess 3 4 none 3) s65 p) :=
  ⟨⟨_, ((h s63).2).1 3 true here here⟩,
    ⟨_, ((((h s63).2).2).2).1 3 here⟩,
    ((((((h s0).2).2).2).2).2).2 here,
    ⟨_, ((((h s64).1 3 4 here).1 here here here here here).2).1 0x63#32 here⟩,
    ⟨_, ((((((h s65).1 3 4 here).1 here here here here here).2).2).2).2 here here here⟩⟩

theorem test_meets_CalibrationCommandsComplete_1 (h : Obligations.CalibrationCommandsComplete) :
    (∃ p, Completes (.tcalRun 3) s66 p) ∧
    (∃ p, Completes (.mcalRun 3) s66 p) ∧
    (∃ p, Completes (.calPeriodExpiry 4 6) s66 p) ∧
    Ignored (.blockingRunComplete 4 6 3 5 [3, 20] 70000 5) s66 ∧
    Ignored (.blockingRunAbort 4 6 3) s66 ∧
    Ignored (.calPeriodExpiry 0 9) s67 ∧
    (∃ p, Completes (.blockingRunComplete 0 9 3 5 [3, 20] 70000 5) s67 p) ∧
    (∃ p, Completes (.blockingRunAbort 0 9 3) s67 p) :=
  ⟨⟨_, (((h s66).2).1 3 here here).1 here here⟩,
    ⟨_, (((h s66).2).2).1 3 here here here⟩,
    ⟨_, ((((h s66).2).2).2).1 4 6 here here here here here⟩,
    (((((((((((h s66).2).2).2).2).2).2).2).2).2).2 4 6 3 3 5 [3, 20] 70000 5 here).1,
    (((((((((((h s66).2).2).2).2).2).2).2).2).2).2 4 6 3 3 5 [3, 20] 70000 5 here).2,
    (((((h s67).2).2).2).2).1 0 9 here,
    ⟨_, (((((((h s67).2).2).2).2).2).2).1 0 9 v23 3 5 [3, 20] 70000 5 here here here here here here⟩,
    ⟨_, (((((((((h s67).2).2).2).2).2).2).2).2).1 0 9 3 v23 here here here here here⟩⟩

theorem test_meets_CalibrationCommandsComplete_2 (h : Obligations.CalibrationCommandsComplete) :
    (∃ p, Completes (.mismatch 9) s67 p) ∧
    (∃ p, Completes (.lcalRun 3 1) s12 p) ∧
    (∃ p, Completes (.lcalRun 3 1) s68 p) ∧
    (∃ p, Completes (.tcalRun 3) s69 p) ∧
    (∃ p, Completes (.blockingRunStart 0 9) s69 p) ∧
    (∃ p, Completes (.blockingRunComplete 4 3 3 5 [3, 20] 70 5) s70 p) ∧
    (∃ p, Completes (.blockingRunStart 0 9) s71 p) :=
  ⟨⟨_, ((((((((((h s67).2).2).2).2).2).2).2).2).2).1 9 v23 here here here⟩,
    ⟨_, ((h s12).1 3 1 here here).1 here here here⟩,
    ⟨_, ((h s68).1 3 1 here here).2 here⟩,
    ⟨_, (((h s69).2).1 3 here here).2 here⟩,
    ⟨_, (((((((h s69).2).2).2).2).2).1 0 9 v24 [] here here here here here here here here).2 here⟩,
    ⟨_, ((((((((h s70).2).2).2).2).2).2).2).1 3 v25 3 5 [3, 20] 70 5 here here here here⟩,
    ⟨_, (((((((h s71).2).2).2).2).2).1 0 9 v24 [] here here here here here here here here).1 here⟩⟩

theorem test_meets_FuseCommandsComplete_1 (h : Obligations.FuseCommandsComplete) :
    (∃ p, Completes (.fuseReadComplete false [(7, -3), (5, 2)]) s72 p) ∧
    (∃ p, Completes (.prog 3 true) s72 p) ∧
    (∃ p, Completes (.prog 3 false) s72 p) ∧
    Ignored (.fuseProgDone true) s72 ∧
    Ignored (.fuseProgAbort 7 0x63#32) s72 ∧
    Ignored (.fuseReadComplete false [(7, -3), (5, 2)]) s73 ∧
    (∃ p, Completes (.fuseProgDone true) s73 p) ∧
    (∃ p, Completes (.fuseProgDone false) s73 p) :=
  ⟨⟨_, (h s72).1 false [(7, -3), (5, 2)] here here here here⟩,
    ⟨_, (((((((h s72).2).2).1 3 true here here).2 0 here).2 here here here here).2 here).1⟩,
    ⟨_, (((((((h s72).2).2).1 3 true here here).2 0 here).2 here here here here).2 here).2⟩,
    ((((((h s72).2).2).2).2).2 true 7 0x63#32 here).1,
    ((((((h s72).2).2).2).2).2 true 7 0x63#32 here).2,
    ((h s73).2).1 false [(7, -3), (5, 2)] here,
    ⟨_, (((((h s73).2).2).2).1 3 v26 here here here here).1⟩,
    ⟨_, ((((((h s73).2).2).2).1 3 v26 here here here here).2).1⟩⟩

theorem test_meets_FuseCommandsComplete_2 (h : Obligations.FuseCommandsComplete) :
    (∃ p, Completes (.fuseProgAbort 1 0xFFFF0000#32) s73 p) ∧
    (∃ p, Completes (.prog 3 true) s74 p) ∧
    Ignored (.fuseProgDone true) s75 ∧
    (∃ p, Completes (.fuseProgAbort 1 0xFFFF0000#32) s75 p) ∧
    (∃ p, Completes (.prog 3 true) s76 p) ∧
    (∃ p, Completes (.prog 3 true) s77 p) :=
  ⟨⟨_, ((((((h s73).2).2).2).1 3 v26 here here here here).2).2 1 0xFFFF0000#32⟩,
    ⟨_, ((((((h s74).2).2).1 3 true here here).2 0 here).2 here here here here).1 here⟩,
    ((((((h s75).2).2).2).2).1 3 v26 1 0xFFFF0000#32 here here).1,
    ⟨_, ((((((h s75).2).2).2).2).1 3 v26 1 0xFFFF0000#32 here here).2⟩,
    ⟨_, (((((h s76).2).2).1 3 true here here).2 30 here).1 here⟩,
    ⟨_, ((((h s77).2).2).1 3 true here here).1 here⟩⟩

theorem test_meets_EngineArithmeticLoadsAndStoresComplete_1 (h : Obligations.EngineArithmeticLoadsAndStoresComplete) :
    (∃ p, Completes (.feAdd 5) s78 p) ∧
    (∃ p, Completes (.feSub 5) s79 p) ∧
    (∃ p, Completes (.feAnd 5) s80 p) ∧
    (∃ p, Completes (.feOr 5) s81 p) ∧
    (∃ p, Completes (.feXor 5) s82 p) ∧
    (∃ p, Completes (.feShl 5) s83 p) ∧
    (∃ p, Completes (.feShr 5) s84 p) ∧
    (∃ p, Completes (.feLdw 5) s85 p) :=
  ⟨⟨_, ((h).1 s78).1 5 5 3 4 here⟩,
    ⟨_, (((h).1 s79).2).1 5 5 3 4 here⟩,
    ⟨_, ((((h).1 s80).2).2).1 5 5 3 4 here⟩,
    ⟨_, (((((h).1 s81).2).2).2).1 5 5 3 4 here⟩,
    ⟨_, ((((((h).1 s82).2).2).2).2).1 5 5 3 4 here⟩,
    ⟨_, (((((((h).1 s83).2).2).2).2).2).1 5 5 3 4 here⟩,
    ⟨_, ((((((((h).1 s84).2).2).2).2).2).2).1 5 5 3 4 here⟩,
    ⟨_, (((((h).2 s85).1 5 3 10 1#16 here).2).2).1 here⟩⟩

theorem test_meets_EngineArithmeticLoadsAndStoresComplete_2 (h : Obligations.EngineArithmeticLoadsAndStoresComplete) :
    (∃ p, Completes (.feSha 5) s86 p) ∧
    (∃ p, Completes (.feLdw 5) s87 p) ∧
    (∃ p, Completes (.feLdh 5) s88 p) ∧
    (∃ p, Completes (.feClt 5) s89 p) ∧
    (∃ p, Completes (.feLdh 5) s90 p) ∧
    (∃ p, Completes (.feLdhu 5) s91 p) ∧
    (∃ p, Completes (.feCltu 5) s92 p) ∧
    (∃ p, Completes (.feLdhu 5) s93 p) :=
  ⟨⟨_, (((((((((h).1 s86).2).2).2).2).2).2).2).1 5 5 3 4 here⟩,
    ⟨_, (((h).2 s87).1 5 3 10 0#16 here).1 here here here⟩,
    ⟨_, ((((((h).2 s88).2).1 5 3 10 3#16 here).2).2).1 here⟩,
    ⟨_, ((((((((((h).1 s89).2).2).2).2).2).2).2).2).1 5 5 3 4 here⟩,
    ⟨_, ((((h).2 s90).2).1 5 3 10 0#16 here).1 here here here⟩,
    ⟨_, (((((((h).2 s91).2).2).1 5 3 10 3#16 here).2).2).1 here⟩,
    ⟨_, (((((((((((h).1 s92).2).2).2).2).2).2).2).2).2).1 5 5 3 4 here⟩,
    ⟨_, (((((h).2 s93).2).2).1 5 3 10 2#16 here).1 here here here⟩⟩

theorem test_meets_EngineArithmeticLoadsAndStoresComplete_3 (h : Obligations.EngineArithmeticLoadsAndStoresComplete) :
    (∃ p, Completes (.feMul 5) s94 p) ∧
    (∃ p, Completes (.feLdb 5) s95 p) ∧
    (∃ p, Completes (.feMulhi 5) s96 p) ∧
    (∃ p, Completes (.feLdbu 5) s97 p) ∧
    (∃ p, Completes (.feStw 5) s98 p) ∧
    (∃ p, Completes (.feStw 5) s99 p) ∧
    (∃ p, Completes (.feSth 5) s100 p) ∧
    (∃ p, Completes (.feOldw 5) s101 p) :=
  ⟨⟨_, ((((((((((((h).1 s94).2).2).2).2).2).2).2).2).2).2).1 5 5 3 4 here⟩,
    ⟨_, ((((((h).2 s95).2).2).2).1 5 3 10 4#16 here).1 here here here⟩,
    ⟨_, (((((((((((((h).1 s96).2).2).2).2).2).2).2).2).2).2).2).1 5 5 3 4 here⟩,
    ⟨_, (((((((h).2 s97).2).2).2).2).1 5 3 10 0#16 here).1 here here here⟩,
    ⟨_, (((((((((((h).2 s98).2).2).2).2).2).1 5 3 10 3#16 here).2).2).2).1 here⟩,
    ⟨_, ((((((((h).2 s99).2).2).2).2).2).1 5 3 10 0#16 here).1 here here here⟩,
    ⟨_, (((((((((h).2 s100).2).2).2).2).2).2).1 5 3 10 2#16 here).1 here here here⟩,
    ⟨_, ((((((((((((h).2 s101).2).2).2).2).2).2).2).2).1 5 3 10 0x4FF#16 here).2).1 here⟩⟩

theorem test_meets_EngineArithmeticLoadsAndStoresComplete_4 (h : Obligations.EngineArithmeticLoadsAndStoresComplete) :
    (∃ p, Completes (.feSth 5) s102 p) ∧
    (∃ p, Completes (.feAddk 5) s103 p) ∧
    (∃ p, Completes (.feOldw 5) s104 p) ∧
    (∃ p, Completes (.feStb 5) s105 p) ∧
    (∃ p, Completes (.feAndk 5) s106 p) ∧
    (∃ p, Completes (.feOldbu 5) s107 p) ∧
    (∃ p, Completes (.feOldw 5) s108 p) ∧
    (∃ p, Completes (.feOrk 5) s109 p) :=
  ⟨⟨_, ((((((((((((h).2 s102).2).2).2).2).2).2).1 5 3 10 3#16 here).2).2).2).1 here⟩,
    ⟨_, ((((((((((((((h).1 s103).2).2).2).2).2).2).2).2).2).2).2).2).1 5 5 3 0x8003#16 here⟩,
    ⟨_, (((((((((((h).2 s104).2).2).2).2).2).2).2).2).1 5 3 10 0x400#16 here).1 here here⟩,
    ⟨_, ((((((((((h).2 s105).2).2).2).2).2).2).2).1 5 3 10 4#16 here).1 here here here⟩,
    ⟨_, (((((((((((((((h).1 s106).2).2).2).2).2).2).2).2).2).2).2).2).2).1 5 5 3 0x8003#16 here⟩,
    ⟨_, ((((((((((((h).2 s107).2).2).2).2).2).2).2).2).2).1 5 3 10 0x404#16 here).1 here here⟩,
    ⟨_, ((((((((((((h).2 s108).2).2).2).2).2).2).2).2).1 5 3 10 0x6000#16 here).2).2 here here⟩,
    ⟨_, ((((((((((((((((h).1 s109).2).2).2).2).2).2).2).2).2).2).2).2).2).2).1 5 5 3 0x8003#16 here⟩⟩

theorem test_meets_EngineArithmeticLoadsAndStoresComplete_5 (h : Obligations.EngineArithmeticLoadsAndStoresComplete) :
    (∃ p, Completes (.feOldbu 5) s110 p) ∧
    (∃ p, Completes (.feOstw 5) s111 p) ∧
    (∃ p, Completes (.feXork 5) s112 p) ∧
    (∃ p, Completes (.feCltk 5) s113 p) ∧
    (∃ p, Completes (.feOstw 5) s114 p) ∧
    (∃ p, Completes (.feOstb 5) s115 p) ∧
    (∃ p, Completes (.feKhi 5) s116 p) ∧
    (∃ p, Completes (.feShlk 5) s117 p) :=
  ⟨⟨_, (((((((((((((h).2 s110).2).2).2).2).2).2).2).2).2).1 5 3 10 0x6000#16 here).2).2 here here⟩,
    ⟨_, (((((((((((((((h).2 s111).2).2).2).2).2).2).2).2).2).2).1 5 3 10 0x4FF#16 here).2).2).1 here⟩,
    ⟨_, (((((((((((((((((h).1 s112).2).2).2).2).2).2).2).2).2).2).2).2).2).2).2).1 5 5 3 0x8003#16 here⟩,
    ⟨_, ((((((((((((((((((h).1 s113).2).2).2).2).2).2).2).2).2).2).2).2).2).2).2).2).1 5 5 3 0x8003#16 here⟩,
    ⟨_, (((((((((((((((h).2 s114).2).2).2).2).2).2).2).2).2).2).1 5 3 10 0x20#16 here).2).2).2 here here⟩,
    ⟨_, (((((((((((((((h).2 s115).2).2).2).2).2).2).2).2).2).2).2 5 3 10 0x6000#16 here).2).2).2 here here⟩,
    ⟨_, (((((((((((((((((((h).1 s116).2).2).2).2).2).2).2).2).2).2).2).2).2).2).2).2).2).1 5 5 3 0x8003#16 here⟩,
    ⟨_, ((((((((((((((((((((h).1 s117).2).2).2).2).2).2).2).2).2).2).2).2).2).2).2).2).2).2).1 5 5 3 0x8003#16 here⟩⟩

theorem test_meets_EngineArithmeticLoadsAndStoresComplete_6 (h : Obligations.EngineArithmeticLoadsAndStoresComplete) :
    (∃ p, Completes (.feOstb 5) s118 p) ∧
    (∃ p, Completes (.feOstw 5) s119 p) ∧
    (∃ p, Completes (.feCrcb 5) s120 p) ∧
    (∃ p, Completes (.feCrcw 5) s121 p) ∧
    (∃ p, Completes (.feShrk 5) s122 p) ∧
    (∃ p, Completes (.feShak 5) s123 p) ∧
    (∃ p, Completes (.feLdw 5) s124 p) ∧
    (∃ p, Completes (.feLdw 5) s125 p) :=
  ⟨⟨_, (((((((((((((h).2 s118).2).2).2).2).2).2).2).2).2).2).2 5 3 10 0x404#16 here).1 here here here here here⟩,
    ⟨_, (((((((((((((h).2 s119).2).2).2).2).2).2).2).2).2).2).1 5 3 10 0x410#16 here).1 here here here here here⟩,
    ⟨_, (((((((((((((((((((((((h).1 s120).2).2).2).2).2).2).2).2).2).2).2).2).2).2).2).2).2).2).2).2).2).1 5 5 3 4 here⟩,
    ⟨_, (((((((((((((((((((((((h).1 s121).2).2).2).2).2).2).2).2).2).2).2).2).2).2).2).2).2).2).2).2).2).2 5 5 3 4 here⟩,
    ⟨_, (((((((((((((((((((((h).1 s122).2).2).2).2).2).2).2).2).2).2).2).2).2).2).2).2).2).2).2).1 5 5 3 0x8003#16 here⟩,
    ⟨_, ((((((((((((((((((((((h).1 s123).2).2).2).2).2).2).2).2).2).2).2).2).2).2).2).2).2).2).2).2).1 5 5 3 0x8003#16 here⟩,
    ⟨_, (((((h).2 s124).1 5 3 8 0x160#16 here).2).2).2 here here here⟩,
    ⟨_, ((((h).2 s125).1 5 3 8 0#16 here).2).1 here here here here⟩⟩

theorem test_meets_EngineArithmeticLoadsAndStoresComplete_7 (h : Obligations.EngineArithmeticLoadsAndStoresComplete) :
    (∃ p, Completes (.feLdh 5) s126 p) ∧
    (∃ p, Completes (.feLdhu 5) s127 p) ∧
    (∃ p, Completes (.feLdb 5) s128 p) ∧
    (∃ p, Completes (.feLdbu 5) s129 p) ∧
    (∃ p, Completes (.feStw 5) s130 p) ∧
    (∃ p, Completes (.feSth 5) s131 p) ∧
    (∃ p, Completes (.feStw 5) s132 p) ∧
    (∃ p, Completes (.feStb 5) s133 p) :=
  ⟨⟨_, ((((((h).2 s126).2).1 5 3 8 0x40#16 here).2).2).2 here here here⟩,
    ⟨_, (((((((h).2 s127).2).2).1 5 3 8 0x3C#16 here).2).2).2 here here here⟩,
    ⟨_, ((((((((h).2 s128).2).2).2).1 5 3 8 0#16 here).2).2).2 here here here⟩,
    ⟨_, (((((((((h).2 s129).2).2).2).2).1 5 3 8 0x7C#16 here).2).2).2 here here here⟩,
    ⟨_, (((((((((((h).2 s130).2).2).2).2).2).1 5 3 8 0#16 here).2).2).2).2 here here here⟩,
    ⟨_, ((((((((((((h).2 s131).2).2).2).2).2).2).1 5 3 8 0x3C#16 here).2).2).2).2 here here here⟩,
    ⟨_, (((((((((h).2 s132).2).2).2).2).2).1 5 3 8 0x40#16 here).2).1 here here here here here⟩,
    ⟨_, (((((((((((((h).2 s133).2).2).2).2).2).2).2).1 5 3 8 0#16 here).2).2).2).2 here here here⟩⟩

theorem test_meets_EngineArithmeticLoadsAndStoresComplete_8 (h : Obligations.EngineArithmeticLoadsAndStoresComplete) :
    (∃ p, Completes (.feOstw 5) s134 p) ∧
    (∃ p, Completes (.feOstb 5) s135 p) :=
  ⟨⟨_, ((((((((((((((h).2 s134).2).2).2).2).2).2).2).2).2).2).1 5 3 10 0x410#16 here).2).1 here here here here here⟩,
    ⟨_, ((((((((((((((h).2 s135).2).2).2).2).2).2).2).2).2).2).2 5 3 10 0x404#16 here).2).1 here here here here here⟩⟩

theorem test_meets_EngineBusBranchesAndCsrsComplete_1 (h : Obligations.EngineBusBranchesAndCsrsComplete) :
    (∃ p, Completes (.feBsync 5) s136 p) ∧
    (∃ p, Completes (.feHalt 5) s137 p) ∧
    (∃ p, Completes (.feBreq 5) s138 p) ∧
    (∃ p, Completes (.feBrne 5) s139 p) ∧
    (∃ p, Completes (.feBld 5) s140 p) ∧
    (∃ p, Completes (.feBrlt 5) s141 p) ∧
    (∃ p, Completes (.feBld 5) s142 p) ∧
    (∃ p, Completes (.feBst 5) s143 p) :=
  ⟨⟨_, ((((((((((h s136).2).2).2).2).2).2).2).2).1 5 1 2 3 here).1 here⟩,
    ⟨_, (((((((((((((((h s137).2).2).2).2).2).2).2).2).2).2).2).2).2).2 5 3 4 0 here here).1 here⟩,
    ⟨_, (((h s138).2).2).1 5 3 4 0xFFF0#16 here here⟩,
    ⟨_, ((((h s139).2).2).2).1 5 4 3 5#16 here here⟩,
    ⟨_, ((((h s140).1 5 3 10 0x401#16 here).2).2).1 here⟩,
    ⟨_, (((((h s141).2).2).2).2).1 5 3 3 0xE001#16 here here⟩,
    ⟨_, ((h s142).1 5 3 10 0x400#16 here).1 here here here⟩,
    ⟨_, (((((h s143).2).1 5 3 10 0x401#16 here).2).2).1 here⟩⟩

theorem test_meets_EngineBusBranchesAndCsrsComplete_2 (h : Obligations.EngineBusBranchesAndCsrsComplete) :
    (∃ p, Completes (.feBrge 5) s144 p) ∧
    (∃ p, Completes (.feBst 5) s145 p) ∧
    (∃ p, Completes (.feBrlo 5) s146 p) ∧
    (∃ p, Completes (.feBrhs 5) s147 p) ∧
    Ignored (.feBsync 5) s148 ∧
    (∃ p, Completes (.feJmp 5) s149 p) ∧
    (∃ p, Completes (.feJmp 5) s150 p) ∧
    (∃ p, Completes (.feCall 5) s151 p) :=
  ⟨⟨_, ((((((h s144).2).2).2).2).2).1 5 3 4 0xFFF0#16 here here⟩,
    ⟨_, (((h s145).2).1 5 3 10 0x400#16 here).1 here here here⟩,
    ⟨_, (((((((h s146).2).2).2).2).2).2).1 5 3 4 0xFFF0#16 here here⟩,
    ⟨_, ((((((((h s147).2).2).2).2).2).2).2).1 5 4 3 5#16 here here⟩,
    ((((((((((h s148).2).2).2).2).2).2).2).2).1 5 1 2 3 here).2 here,
    ⟨_, ((((((((((((h s149).2).2).2).2).2).2).2).2).2).2).1 5 3 3 1).2 here⟩,
    ⟨_, ((((((((((((h s150).2).2).2).2).2).2).2).2).2).2).1 5 3 4 1).1 here⟩,
    ⟨_, ((((((((((h s151).2).2).2).2).2).2).2).2).2).1 5 3 4 0xFFF0#16 here here⟩⟩

theorem test_meets_EngineBusBranchesAndCsrsComplete_3 (h : Obligations.EngineBusBranchesAndCsrsComplete) :
    (∃ p, Completes (.feWait 5) s152 p) ∧
    (∃ p, Completes (.feWait 5) s153 p) ∧
    (∃ p, Completes (.feRdc 5) s154 p) ∧
    (∃ p, Completes (.feRdc 5) s155 p) ∧
    (∃ p, Completes (.feHalt 5) s156 p) ∧
    (∃ p, Completes (.feWrc 5) s157 p) ∧
    (∃ p, Completes (.feWrc 5) s158 p) ∧
    (∃ p, Completes (.feWrc 5) s159 p) :=
  ⟨⟨_, (((((((((((((h s152).2).2).2).2).2).2).2).2).2).2).2).1 5 3 10 0 here).1 here⟩,
    ⟨_, ((((((((((((((h s153).2).2).2).2).2).2).2).2).2).2).2).1 5 3 4 0 here).2).1 here here⟩,
    ⟨_, ((((((((((((((h s154).2).2).2).2).2).2).2).2).2).2).2).2).1 5 3 4 1 9 here here).1 here⟩,
    ⟨_, ((((((((((((((h s155).2).2).2).2).2).2).2).2).2).2).2).2).1 5 3 4 4 9 here here).2 here⟩,
    ⟨_, (((((((((((((((h s156).2).2).2).2).2).2).2).2).2).2).2).2).2).2 5 3 4 0 here here).2 here⟩,
    ⟨_, (((((((((((((((h s157).2).2).2).2).2).2).2).2).2).2).2).2).2).1 5 3 4 17 9 here here).1 here⟩,
    ⟨_, ((((((((((((((((h s158).2).2).2).2).2).2).2).2).2).2).2).2).2).1 5 3 4 18 9 here here).2).1 here⟩,
    ⟨_, ((((((((((((((((h s159).2).2).2).2).2).2).2).2).2).2).2).2).2).1 5 3 4 1 9 here here).2).2 here here⟩⟩

theorem test_meets_EngineBusBranchesAndCsrsComplete_4 (h : Obligations.EngineBusBranchesAndCsrsComplete) :
    (∃ p, Completes (.feBld 5) s160 p) ∧
    (∃ p, Completes (.feBst 5) s161 p) ∧
    (∃ p, Completes (.feWait 5) s162 p) ∧
    Ignored (.feBld 5) s163 ∧
    Ignored (.feBst 5) s164 :=
  ⟨⟨_, ((((h s160).1 5 3 8 0x44#16 here).2).2).2 here here⟩,
    ⟨_, (((((h s161).2).1 5 3 8 0x44#16 here).2).2).2 here here⟩,
    ⟨_, ((((((((((((((h s162).2).2).2).2).2).2).2).2).2).2).2).1 5 3 4 0 here).2).2 here⟩,
    (((h s163).1 5 3 8 0x44#16 here).2).1 here here here,
    ((((h s164).2).1 5 3 8 0x44#16 here).2).1 here here here⟩

theorem test_meets_EnginesFaultOnWhatTheyCannotIssue (h : Obligations.EnginesFaultOnWhatTheyCannotIssue) :
    Ignored (.feAdd 5) base ∧
    (∃ p, Completes (.feWait 5) s165 p) ∧
    (∃ p, Completes (.feAdd 5) s166 p) ∧
    (∃ p, Completes (.feOstw 5) s167 p) :=
  ⟨(h base 5 (Instr.feAdd 5) here).1 here,
    ⟨_, ((h s165 5 (Instr.feWait 5) here).2).1 here here here here⟩,
    ⟨_, (((h s166 5 (Instr.feAdd 5) here).2).2).1 0x3010001#32 here here⟩,
    ⟨_, (((h s167 5 (Instr.feOstw 5) here).2).2).2 here here here here here here here⟩⟩

theorem test_meets_EngineControlCommandsComplete_1 (h : Obligations.EngineControlCommandsComplete) :
    (∃ p, Completes (.feStart 3 5) s168 p) ∧
    (∃ p, Completes (.feStop 3 5) s168 p) ∧
    Ignored (.feStopDone 5) s168 ∧
    (∃ p, Completes (.feCheck 3 5) s168 p) ∧
    Ignored (.feCheckDone 5) s168 ∧
    (∃ p, Completes (.feWindowWrite 3 5 65532 0xFFFF1234#32) s168 p) ∧
    (∃ p, Completes (.feWindowWrite 3 5 32764 0xFFFF1234#32) s168 p) ∧
    Ignored (.feScrub 5 24575) s168 :=
  ⟨⟨_, ((h s168 3 5).2).1 here here here⟩,
    ⟨_, (((((h s168 3 5).2).2).2).2).1 here here⟩,
    (((((((h s168 3 5).2).2).2).2).2).2).1 here,
    ⟨_, ((((((((h s168 3 5).2).2).2).2).2).2).2).1 here here here⟩,
    (((((((((((h s168 3 5).2).2).2).2).2).2).2).2).2).2).1 here,
    ⟨_, (((((((((((((h s168 3 5).2).2).2).2).2).2).2).2).2).2).2).1 here here).1 8191 0xFFFF1234#32⟩,
    ⟨_, ((((((((((((((h s168 3 5).2).2).2).2).2).2).2).2).2).2).2).1 here here).2).2 8191 0xFFFF1234#32 here⟩,
    ((((((((((((((h s168 3 5).2).2).2).2).2).2).2).2).2).2).2).2).1 24575 here here).1 here⟩

theorem test_meets_EngineControlCommandsComplete_2 (h : Obligations.EngineControlCommandsComplete) :
    (∃ p, Completes (.hInDbWrite 3 5 0xFFFF1234#32 false) s168 p) ∧
    (∃ p, Completes (.hOutAckWrite 3 5 0xFFFF1234#32 false) s168 p) ∧
    (∃ p, Completes (.hInDWrite 3 5 15 0xFFFF1234#32 false) s168 p) ∧
    Ignored (.feWatchdog 5) s168 ∧
    Ignored (.feTimerExpiry 5) s168 ∧
    (∃ p, Completes (.feStop 3 5) s169 p) ∧
    (∃ p, Completes (.feCheck 3 5) s169 p) ∧
    (∃ p, Completes (.feCheckDone 5) s169 p) :=
  ⟨⟨_, (((((((((((((((h s168 3 5).2).2).2).2).2).2).2).2).2).2).2).2).2).1 here here here 0xFFFF1234#32).1⟩,
    ⟨_, ((((((((((((((((h s168 3 5).2).2).2).2).2).2).2).2).2).2).2).2).2).1 here here here 0xFFFF1234#32).2).1⟩,
    ⟨_, (((((((((((((((((h s168 3 5).2).2).2).2).2).2).2).2).2).2).2).2).2).1 here here here 0xFFFF1234#32).2).2).1 15 here⟩,
    ((((((((((((((((h s168 3 5).2).2).2).2).2).2).2).2).2).2).2).2).2).2).2).1 here,
    ((((((((((((((((((h s168 3 5).2).2).2).2).2).2).2).2).2).2).2).2).2).2).2).2).2).2 here,
    ⟨_, ((((h s169 3 5).2).2).2).1 here here⟩,
    ⟨_, (((((((((h s169 3 5).2).2).2).2).2).2).2).2).1 here here⟩,
    ⟨_, ((((((((((h s169 3 5).2).2).2).2).2).2).2).2).2).1 1 here⟩⟩

theorem test_meets_EngineControlCommandsComplete_3 (h : Obligations.EngineControlCommandsComplete) :
    (∃ p, Completes (.feWindowWrite 3 5 28 3#32) s169 p) ∧
    (∃ p, Completes (.hInDWrite 3 5 15 3#32 false) s169 p) ∧
    (∃ p, Completes (.feStopDone 5) s170 p) ∧
    (∃ p, Completes (.feStart 3 5) s171 p) ∧
    (∃ p, Completes (.feScrub 5 24575) s171 p) ∧
    (∃ p, Completes (.feTimerExpiry 5) s171 p) ∧
    (∃ p, Completes (.feStart 3 5) s172 p) ∧
    (∃ p, Completes (.feTimerExpiry 5) s172 p) :=
  ⟨⟨_, ((((((((((((((h s169 3 5).2).2).2).2).2).2).2).2).2).2).2).1 here here).2).1 7 3#32 here here⟩,
    ⟨_, (((((((((((((((((h s169 3 5).2).2).2).2).2).2).2).2).2).2).2).2).2).1 here here here 3#32).2).2).2 15 here⟩,
    ⟨_, ((((((h s170 3 5).2).2).2).2).2).1 here here⟩,
    ⟨_, (((h s171 3 5).2).2).1 here here here⟩,
    ⟨_, ((((((((((((((h s171 3 5).2).2).2).2).2).2).2).2).2).2).2).2).1 24575 here here).2 here⟩,
    ⟨_, (((((((((((((((((h s171 3 5).2).2).2).2).2).2).2).2).2).2).2).2).2).2).2).2).1 here here⟩,
    ⟨_, (h s172 3 5).1 here here⟩,
    ⟨_, (((((((((((((((((((h s172 3 5).2).2).2).2).2).2).2).2).2).2).2).2).2).2).2).2).2).1 0x39F0#32 here here here here).2 here⟩⟩

theorem test_meets_EngineControlCommandsComplete_4 (h : Obligations.EngineControlCommandsComplete) :
    (∃ p, Completes (.feTimerExpiry 5) s173 p) ∧
    (∃ p, Completes (.feWatchdog 5) s174 p) :=
  ⟨⟨_, (((((((((((((((((((h s173 3 5).2).2).2).2).2).2).2).2).2).2).2).2).2).2).2).2).2).1 0x21F0#32 here here here here).1 here⟩,
    ⟨_, (((((((((((((((h s174 3 5).2).2).2).2).2).2).2).2).2).2).2).2).2).2).1 here here here here⟩⟩

theorem test_meets_LaneDiscoveryCommandsComplete_1 (h : Obligations.LaneDiscoveryCommandsComplete) :
    (∃ p, Completes (.signalDetect 0) s175 p) ∧
    (∃ p, Completes (.signalDetectLoss 0 false) s175 p) ∧
    (∃ p, Completes (.rateDwellExpiry 0) s175 p) ∧
    (∃ p, Completes (.cdrLock 0) s175 p) ∧
    (∃ p, Completes (.frameHuntTimeout 0) s175 p) ∧
    (∃ p, Completes (.traceWaitExpiry 0) s175 p) ∧
    (∃ p, Completes (.signalDetect 0) s176 p) ∧
    (∃ p, Completes (.signalDetectLoss 0 true) s176 p) :=
  ⟨⟨_, ((h s175 0 here).2).1 here here⟩,
    ⟨_, (((((h s175 0 here).2).2).2).1 false).2 here here⟩,
    ⟨_, (((((((h s175 0 here).2).2).2).2).2).1 here).1⟩,
    ⟨_, (((((((h s175 0 here).2).2).2).2).2).1 here).2⟩,
    ⟨_, (((((((((((h s175 0 here).2).2).2).2).2).2).2).2).2).2).1 here⟩,
    ⟨_, (((((((((((((h s175 0 here).2).2).2).2).2).2).2).2).2).2).2).2).2 here⟩,
    ⟨_, (((h s176 0 here).2).2).1 here⟩,
    ⟨_, (((((h s176 0 here).2).2).2).1 true).1 here⟩⟩

theorem test_meets_LaneDiscoveryCommandsComplete_2 (h : Obligations.LaneDiscoveryCommandsComplete) :
    (∃ p, Completes (.rateDwellExpiry 0) s176 p) ∧
    (∃ p, Completes (.cdrLock 0) s176 p) ∧
    (∃ p, Completes (.frameHuntTimeout 0) s177 p) ∧
    (∃ p, Completes (.traceWaitExpiry 0) s177 p) ∧
    (∃ p, Completes (.frameHuntTimeout 0) s178 p) ∧
    (∃ p, Completes (.traceWaitExpiry 0) s178 p) ∧
    (∃ p, Completes (.signalDetect 0) s179 p) ∧
    (∃ p, Completes (.cdrLock 0) s180 p) :=
  ⟨⟨_, (((((h s176 0 here).2).2).2).2).1 here⟩,
    ⟨_, (((((((h s176 0 here).2).2).2).2).2).2).1 here here here here⟩,
    ⟨_, ((((((((((h s177 0 here).2).2).2).2).2).2).2).2).2).1 here here⟩,
    ⟨_, (((((((((((((h s177 0 here).2).2).2).2).2).2).2).2).2).2).2).2).1 here here⟩,
    ⟨_, (((((((((h s178 0 here).2).2).2).2).2).2).2).2).1 here here⟩,
    ⟨_, ((((((((((((h s178 0 here).2).2).2).2).2).2).2).2).2).2).2).1 here here⟩,
    ⟨_, (h s179 0 here).1 here here⟩,
    ⟨_, (((((((((h s180 0 here).2).2).2).2).2).2).2).1 here here here).2 here⟩⟩

theorem test_meets_LaneDiscoveryCommandsComplete_3 (h : Obligations.LaneDiscoveryCommandsComplete) :
    (∃ p, Completes (.cdrLock 0) s181 p) :=
  ⟨_, (((((((((h s181 0 here).2).2).2).2).2).2).2).1 here here here).1 here⟩

theorem test_meets_LaneServiceCommandsComplete_1 (h : Obligations.LaneServiceCommandsComplete) :
    (∃ p, Completes (.admitGo 3 0 true) s182 p) ∧
    (∃ p, Completes (.admittedExpiry 0) s182 p) ∧
    (∃ p, Completes (.rehuntExpiry 0) s182 p) ∧
    (∃ p, Completes (.holdOffExpiry 0) s182 p) ∧
    (∃ p, Completes (.losDeclare 0 false) s182 p) ∧
    (∃ p, Completes (.losClear 0) s182 p) ∧
    (∃ p, Completes (.start 3 0) s182 p) ∧
    Ignored (.eyeMeasureDone 0 false 70000 99) s182 :=
  ⟨⟨_, (h s182 0).1 3 true here here here⟩,
    ⟨_, ((((h s182 0).2).1 here).2).1 here⟩,
    ⟨_, ((((((h s182 0).2).1 here).2).2).1).2 here⟩,
    ⟨_, (((((((h s182 0).2).1 here).2).2).2).2).1 here⟩,
    ⟨_, ((((((((((h s182 0).2).1 here).2).2).2).2).2).1 false here here).2).2 here⟩,
    ⟨_, ((((((((((h s182 0).2).1 here).2).2).2).2).2).2).2).2⟩,
    ⟨_, ((((h s182 0).2).2).2 3 0).1 here here⟩,
    (((((h s182 0).2).2).2 3 0).2).2 here false 70000 99⟩

theorem test_meets_LaneServiceCommandsComplete_2 (h : Obligations.LaneServiceCommandsComplete) :
    Ignored (.signalDetect 1) base ∧
    Ignored (.losDeclare 1 false) base ∧
    Ignored (.losClear 1) base ∧
    (∃ p, Completes (.admittedExpiry 0) s183 p) ∧
    (∃ p, Completes (.rehuntExpiry 0) s183 p) ∧
    (∃ p, Completes (.losDeclare 0 true) s183 p) ∧
    (∃ p, Completes (.eyeMeasureDone 0 true 70000 99) s184 p) ∧
    (∃ p, Completes (.eyeMeasureDone 0 true 70000 99) s185 p) :=
  ⟨((((h base 1).2).2).1 here).1,
    (((((h base 1).2).2).1 here).2).1,
    (((((h base 1).2).2).1 here).2).2,
    ⟨_, (((h s183 0).2).1 here).1 here here⟩,
    ⟨_, ((((((h s183 0).2).1 here).2).2).1).1 here here here⟩,
    ⟨_, ((((((((((h s183 0).2).1 here).2).2).2).2).2).1 true here here).2).1 here⟩,
    ⟨_, ((((((h s184 0).2).2).2 3 0).2).1 here true 70000 99).1 here here here here⟩,
    ⟨_, ((((((h s185 0).2).2).2 3 0).2).1 here true 70000 99).2 here⟩⟩

theorem test_meets_LaneServiceCommandsComplete_3 (h : Obligations.LaneServiceCommandsComplete) :
    (∃ p, Completes (.holdOffExpiry 0) s186 p) ∧
    Ignored (.losDeclare 0 true) s187 ∧
    (∃ p, Completes (.losDeclare 0 false) s188 p) ∧
    (∃ p, Completes (.losDeclare 3 true) s189 p) ∧
    (∃ p, Completes (.losDeclare 1 true) s190 p) ∧
    (∃ p, Completes (.losDeclare 1 true) s191 p) :=
  ⟨⟨_, ((((((h s186 0).2).1 here).2).2).2).1 here⟩,
    ((((((((((h s187 0).2).1 here).2).2).2).2).2).2).2).1 here,
    ⟨_, (((((((((h s188 0).2).1 here).2).2).2).2).2).1 false here here).1 here⟩,
    ⟨_, (((((((((((h s189 3).2).1 here).2).2).2).2).2).2).1 here true here here).2).2 here⟩,
    ⟨_, ((((((((((h s190 1).2).1 here).2).2).2).2).2).2).1 here true here here).1 here⟩,
    ⟨_, (((((((((((h s191 1).2).1 here).2).2).2).2).2).2).1 here true here here).2).1 here⟩⟩

theorem test_meets_CarderCommandsComplete_1 (h : Obligations.CarderCommandsComplete) :
    (∃ p, Completes (.tieWindowClose 0) s192 p) ∧
    (∃ p, Completes (.lofDeclare 0) s192 p) ∧
    (∃ p, Completes (.lofClear 0) s192 p) ∧
    (∃ p, Completes (.lomDeclare 0) s192 p) ∧
    (∃ p, Completes (.lomClear 0) s192 p) ∧
    (∃ p, Completes (.lolDeclare 0) s192 p) ∧
    (∃ p, Completes (.lolClear 0) s192 p) ∧
    (∃ p, Completes (.blockLockChange 0 true) s192 p) :=
  ⟨⟨_, ((h s192 0 here).2).1 here⟩,
    ⟨_, ((((h s192 0 here).2).2).1).1 here here⟩,
    ⟨_, (((((h s192 0 here).2).2).2).2).1 here⟩,
    ⟨_, (((((((h s192 0 here).2).2).2).2).2).1).1 here here⟩,
    ⟨_, ((((((((h s192 0 here).2).2).2).2).2).2).2).1 here⟩,
    ⟨_, (((((((((((h s192 0 here).2).2).2).2).2).2).2).2).1).2).1 here⟩,
    ⟨_, ((((((((((((h s192 0 here).2).2).2).2).2).2).2).2).1).2).2).1 here⟩,
    ⟨_, ((((((((((h s192 0 here).2).2).2).2).2).2).2).2).2).2 here true⟩⟩

theorem test_meets_CarderCommandsComplete_2 (h : Obligations.CarderCommandsComplete) :
    (∃ p, Completes (.lofDeclare 0) s193 p) ∧
    (∃ p, Completes (.lofClear 0) s193 p) ∧
    (∃ p, Completes (.lomDeclare 0) s193 p) ∧
    (∃ p, Completes (.lomClear 0) s193 p) ∧
    (∃ p, Completes (.blockLockChange 0 true) s193 p) ∧
    (∃ p, Completes (.blockLockChange 0 false) s193 p) ∧
    (∃ p, Completes (.lofDeclare 0) s194 p) ∧
    (∃ p, Completes (.lomDeclare 0) s194 p) :=
  ⟨⟨_, (((((h s193 0 here).2).2).1).2).2 here⟩,
    ⟨_, ((((h s193 0 here).2).2).2).1 here⟩,
    ⟨_, ((((((((h s193 0 here).2).2).2).2).2).1).2).2 here⟩,
    ⟨_, (((((((h s193 0 here).2).2).2).2).2).2).1 here⟩,
    ⟨_, (((((((((((h s193 0 here).2).2).2).2).2).2).2).2).2).1 here here).1 here⟩,
    ⟨_, ((((((((((((((h s193 0 here).2).2).2).2).2).2).2).2).2).1 here here).2).2).2).1 here⟩,
    ⟨_, (((((h s194 0 here).2).2).1).2).1 here here⟩,
    ⟨_, ((((((((h s194 0 here).2).2).2).2).2).1).2).1 here here⟩⟩

theorem test_meets_CarderCommandsComplete_3 (h : Obligations.CarderCommandsComplete) :
    (∃ p, Completes (.blockLockChange 0 true) s195 p) ∧
    (∃ p, Completes (.blockLockChange 0 false) s195 p) ∧
    (∃ p, Completes (.blockLockChange 0 false) s196 p) ∧
    (∃ p, Completes (.tieWindowClose 0) s197 p) ∧
    (∃ p, Completes (.blockLockChange 0 false) s197 p) ∧
    (∃ p, Completes (.lolDeclare 0) s198 p) ∧
    (∃ p, Completes (.lolClear 0) s198 p) ∧
    (∃ p, Completes (.tieWindowClose 0) s199 p) :=
  ⟨⟨_, ((((((((((((h s195 0 here).2).2).2).2).2).2).2).2).2).1 here here).2).1 here⟩,
    ⟨_, (((((((((((((((h s195 0 here).2).2).2).2).2).2).2).2).2).1 here here).2).2).2).2).1 here here⟩,
    ⟨_, ((((((((((((((((h s196 0 here).2).2).2).2).2).2).2).2).2).1 here here).2).2).2).2).2).2 here⟩,
    ⟨_, ((h s197 0 here).1 here here here).1 here⟩,
    ⟨_, (((((((((((((h s197 0 here).2).2).2).2).2).2).2).2).2).1 here here).2).2).1 here here here⟩,
    ⟨_, ((((((((((h s198 0 here).2).2).2).2).2).2).2).2).1).1 here here⟩,
    ⟨_, ((((((((((((h s198 0 here).2).2).2).2).2).2).2).2).1).2).2).2 here⟩,
    ⟨_, (((h s199 0 here).1 here here here).2).1 { pos := 7, n := 2, mfas := 3, conf := true } here here⟩⟩

theorem test_meets_CarderCommandsComplete_4 (h : Obligations.CarderCommandsComplete) :
    (∃ p, Completes (.blockLockChange 0 false) s199 p) ∧
    (∃ p, Completes (.tieWindowClose 0) s200 p) ∧
    (∃ p, Completes (.tieWindowClose 0) s201 p) ∧
    (∃ p, Completes (.tieWindowClose 0) s202 p) ∧
    (∃ p, Completes (.tieWindowClose 0) s203 p) :=
  ⟨⟨_, ((((((((((((((((h s199 0 here).2).2).2).2).2).2).2).2).2).1 here here).2).2).2).2).2).1 here here⟩,
    ⟨_, ((((((h s200 0 here).1 here here here).2).2).2).2).1 here here here⟩,
    ⟨_, (((((h s201 0 here).1 here here here).2).2).2).1 here here⟩,
    ⟨_, ((((h s202 0 here).1 here here here).2).2).1 { pos := 5, n := 2, mfas := 3, conf := true } here here⟩,
    ⟨_, ((((((h s203 0 here).1 here here here).2).2).2).2).2 here here here⟩⟩

theorem test_meets_LineFramesComplete_1 (h : Obligations.LineFramesComplete) :
    Ignored (.lineFrame 0 v27) base ∧
    (∃ p, Completes (.lineFrame 0 v27) s204 p) ∧
    (∃ p, Completes (.lineFrame 0 v28) s205 p) ∧
    (∃ p, Completes (.lineFrame 0 v27) s205 p) ∧
    (∃ p, Completes (.lineFrame 0 v27) s206 p) ∧
    (∃ p, Completes (.lineFrame 0 v29) s207 p) ∧
    (∃ p, Completes (.lineFrame 0 v30) s208 p) ∧
    (∃ p, Completes (.lineFrame 0 v28) s209 p) :=
  ⟨(h base 0 v27).1 here,
    ⟨_, (((((h s204 0 v27).2).2).2).2).1 here here here here⟩,
    ⟨_, ((((((h s205 0 v28).2).2).1 here here here here here here here here here).1 here here).2).1 here here⟩,
    ⟨_, (((((h s205 0 v27).2).2).1 here here here here here here here here here).1 here here).1 here⟩,
    ⟨_, (((((h s206 0 v27).2).2).1 here here here here here here here here here).2 here here here here here).1 here⟩,
    ⟨_, ((((h s207 0 v29).2).1 here here here).1 here here here).1 { pos := 5, mfas := 4, bits := 271540552214568 } here here here here here here⟩,
    ⟨_, ((((h s208 0 v30).2).2).2).1 here here here here here here here here here here here v31 { kind := 1, slots := 12, first := 12 } here here here here here here here here⟩,
    ⟨_, ((((((h s209 0 v28).2).2).1 here here here here here here here here here).1 here here).2).2 here here⟩⟩

theorem test_meets_LineFramesComplete_2 (h : Obligations.LineFramesComplete) :
    (∃ p, Completes (.lineFrame 0 v32) s210 p) ∧
    (∃ p, Completes (.lineFrame 0 v33) s211 p) ∧
    (∃ p, Completes (.lineFrame 0 v27) s212 p) ∧
    (∃ p, Completes (.lineFrame 0 v34) s211 p) ∧
    (∃ p, Completes (.lineFrame 0 v27) s213 p) ∧
    (∃ p, Completes (.lineFrame 0 v29) s214 p) ∧
    (∃ p, Completes (.lineFrame 0 v35) s215 p) ∧
    (∃ p, Completes (.lineFrame 0 v36) s215 p) :=
  ⟨⟨_, (((((h s210 0 v32).2).2).1 here here here here here here here here here).2 here here here here here).2 here⟩,
    ⟨_, (((((((h s211 0 v33).2).2).2).2).2 here here here here here here here here).2).2 here here⟩,
    ⟨_, ((((((h s212 0 v27).2).2).2).2).2 here here here here here here here here).1 here here here⟩,
    ⟨_, (((((((h s211 0 v34).2).2).2).2).2 here here here here here here here here).2).1 here here here⟩,
    ⟨_, (((((h s213 0 v27).2).1 here here here).1 here here here).2).1 { pos := 5, n := 2, mfas := 3, conf := false } here here here here here⟩,
    ⟨_, (((((h s214 0 v29).2).1 here here here).1 here here here).2).2 { pos := 5, n := 2, mfas := 3, conf := false } { pos := 5, mfas := 4, bits := 271540552214568 } here here here here here here here here⟩,
    ⟨_, ((((h s215 0 v35).2).1 here here here).2 { pos := 5, n := 2, mfas := 3, conf := true } { pos := 9, n := 1, mfas := 4, conf := false } here here here here here here 3 3 7 7 here).2 here⟩,
    ⟨_, ((((h s215 0 v36).2).1 here here here).2 { pos := 5, n := 2, mfas := 3, conf := true } { pos := 9, n := 1, mfas := 4, conf := false } here here here here here here 3 3 3 4 here).1 here here⟩⟩

theorem test_meets_SdhAndEthernetDefectsComplete_1 (h : Obligations.SdhAndEthernetDefectsComplete) :
    Ignored (.ethDefectChange 0 0 true) base ∧
    Ignored (.defectDeclare (Ent.line 0) (Defect.ais)) base ∧
    Ignored (.defectClear (Ent.line 0) (Defect.ais)) base ∧
    (∃ p, Completes (.ethDefectChange 0 1 true) s216 p) ∧
    (∃ p, Completes (.defectDeclare (Ent.line 0) (Defect.ais)) s217 p) ∧
    (∃ p, Completes (.defectClear (Ent.line 0) (Defect.ais)) s217 p) ∧
    (∃ p, Completes (.defectDeclare (Ent.path 0 12 0 0) (Defect.ais)) s217 p) ∧
    (∃ p, Completes (.defectDeclare (Ent.path 0 12 0 0) (Defect.lop)) s217 p) :=
  ⟨(((h base 0).2).2).1 0 true here,
    (((((h base 0).2).2).2).1 here (Defect.ais)).1,
    (((((h base 0).2).2).2).1 here (Defect.ais)).2,
    ⟨_, ((h s216 0).2).1 1 true here here⟩,
    ⟨_, ((((h s217 0).1 here).2).1 here).1⟩,
    ⟨_, ((((h s217 0).1 here).2).1 here).2⟩,
    ⟨_, ((((((h s217 0).1 here).2).2).2).2 12 0 here).1 here⟩,
    ⟨_, (((((((h s217 0).1 here).2).2).2).2 12 0 here).2).1 here⟩⟩

theorem test_meets_SdhAndEthernetDefectsComplete_2 (h : Obligations.SdhAndEthernetDefectsComplete) :
    (∃ p, Completes (.defectDeclare (Ent.path 0 12 0 0) (Defect.rdi)) s217 p) ∧
    (∃ p, Completes (.defectClear (Ent.path 0 12 0 0) (Defect.ais)) s217 p) ∧
    (∃ p, Completes (.defectDeclare (Ent.line 0) (Defect.rdi)) s218 p) ∧
    (∃ p, Completes (.defectClear (Ent.path 0 12 0 0) (Defect.rdi)) s218 p) ∧
    (∃ p, Completes (.defectClear (Ent.path 0 12 0 0) (Defect.lop)) s218 p) ∧
    (∃ p, Completes (.defectClear (Ent.path 0 12 0 0) (Defect.ais)) s218 p) ∧
    (∃ p, Completes (.losDeclare 0 false) s218 p) ∧
    (∃ p, Completes (.defectDeclare (Ent.line 0) (Defect.ais)) s219 p) :=
  ⟨⟨_, ((((((((h s217 0).1 here).2).2).2).2 12 0 here).2).2).1 here⟩,
    ⟨_, ((((((((((h s217 0).1 here).2).2).2).2 12 0 here).2).2).2).2).1 here⟩,
    ⟨_, ((((h s218 0).1 here).2).2).1 here⟩,
    ⟨_, (((((((((h s218 0).1 here).2).2).2).2 12 0 here).2).2).2).1 here⟩,
    ⟨_, (((((((((((h s218 0).1 here).2).2).2).2 12 0 here).2).2).2).2).2).1 here⟩,
    ⟨_, (((((((((((h s218 0).1 here).2).2).2).2 12 0 here).2).2).2).2).2).2 here⟩,
    ⟨_, ((((h s218 0).2).2).2).2 false here here here here⟩,
    ⟨_, ((h s219 0).1 here).1 here⟩⟩

theorem test_meets_SdhAndEthernetDefectsComplete_3 (h : Obligations.SdhAndEthernetDefectsComplete) :
    (∃ p, Completes (.defectClear (Ent.line 0) (Defect.rdi)) s219 p) :=
  ⟨_, (((((h s219 0).1 here).2).2).2).1 here⟩

theorem test_meets_OtnDefectsComplete_1 (h : Obligations.OtnDefectsComplete) :
    (∃ p, Completes (.otnDefectDeclare (Ent.line 0) (Defect.ais)) s220 p) ∧
    (∃ p, Completes (.otnDefectClear (Ent.line 0) (Defect.ais)) s220 p) ∧
    (∃ p, Completes (.otnDefectDeclare (Ent.line 0) (Defect.rdi)) s220 p) ∧
    (∃ p, Completes (.otnDefectClear (Ent.line 0) (Defect.rdi)) s220 p) ∧
    (∃ p, Completes (.otnDefectDeclare (Ent.odu 0 0) (Defect.ais)) s220 p) ∧
    (∃ p, Completes (.otnDefectDeclare (Ent.odu 0 0) (Defect.rdi)) s220 p) ∧
    (∃ p, Completes (.otnDefectDeclare (Ent.odu 0 2) (Defect.ltc)) s220 p) ∧
    (∃ p, Completes (.otnDefectClear (Ent.odu 0 2) (Defect.ltc)) s220 p) :=
  ⟨⟨_, (h s220 0 here).1⟩,
    ⟨_, ((h s220 0 here).2).1⟩,
    ⟨_, (((((h s220 0 here).2).2).1).2 here).1⟩,
    ⟨_, (((((h s220 0 here).2).2).1).2 here).2⟩,
    ⟨_, (((((h s220 0 here).2).2).2).1).1 here⟩,
    ⟨_, ((((((((h s220 0 here).2).2).2).2).2).2).1).1 here⟩,
    ⟨_, (((((((((((h s220 0 here).2).2).2).2).2).2).2).1 2 here here).1).2 here).1⟩,
    ⟨_, (((((((((((h s220 0 here).2).2).2).2).2).2).2).1 2 here here).1).2 here).2⟩⟩

theorem test_meets_OtnDefectsComplete_2 (h : Obligations.OtnDefectsComplete) :
    (∃ p, Completes (.otnDefectDeclare (Ent.odu 0 2) (Defect.ais)) s220 p) ∧
    (∃ p, Completes (.otnDefectDeclare (Ent.odu 0 2) (Defect.rdi)) s220 p) ∧
    (∃ p, Completes (.otnDefectDeclare (Ent.path 0 12 0 0) (Defect.oci)) s220 p) ∧
    (∃ p, Completes (.otnDefectDeclare (Ent.path 0 12 0 0) (Defect.lck)) s220 p) ∧
    (∃ p, Completes (.otnDefectDeclare (Ent.odu 0 0) (Defect.oci)) s221 p) ∧
    (∃ p, Completes (.otnDefectClear (Ent.odu 0 0) (Defect.oci)) s221 p) ∧
    (∃ p, Completes (.otnDefectDeclare (Ent.path 0 12 0 0) (Defect.ais)) s221 p) ∧
    (∃ p, Completes (.otnDefectDeclare (Ent.path 0 12 0 0) (Defect.oci)) s221 p) :=
  ⟨⟨_, (((((((((((h s220 0 here).2).2).2).2).2).2).2).1 2 here here).2).1).1 here⟩,
    ⟨_, ((((((((((((h s220 0 here).2).2).2).2).2).2).2).1 2 here here).2).2).2).1 here⟩,
    ⟨_, (((((((((((h s220 0 here).2).2).2).2).2).2).2).2 12 here).2).1).1 here⟩,
    ⟨_, ((((((((((((h s220 0 here).2).2).2).2).2).2).2).2 12 here).2).2).1).1 here⟩,
    ⟨_, (((((((h s221 0 here).2).2).2).2).1).2 here).1⟩,
    ⟨_, (((((((h s221 0 here).2).2).2).2).1).2 here).2⟩,
    ⟨_, ((((((((((h s221 0 here).2).2).2).2).2).2).2).2 12 here).1).1 here⟩,
    ⟨_, ((((((((((((h s221 0 here).2).2).2).2).2).2).2).2 12 here).2).1).2 here).1⟩⟩

theorem test_meets_OtnDefectsComplete_3 (h : Obligations.OtnDefectsComplete) :
    (∃ p, Completes (.otnDefectClear (Ent.path 0 12 0 0) (Defect.oci)) s221 p) ∧
    (∃ p, Completes (.otnDefectDeclare (Ent.path 0 12 0 0) (Defect.lck)) s221 p) ∧
    (∃ p, Completes (.otnDefectClear (Ent.path 0 12 0 0) (Defect.lck)) s221 p) ∧
    (∃ p, Completes (.otnDefectDeclare (Ent.path 0 12 0 0) (Defect.rdi)) s221 p) ∧
    (∃ p, Completes (.otnDefectDeclare (Ent.odu 0 0) (Defect.ais)) s222 p) ∧
    (∃ p, Completes (.otnDefectClear (Ent.odu 0 0) (Defect.ais)) s222 p) ∧
    (∃ p, Completes (.otnDefectDeclare (Ent.odu 0 2) (Defect.ltc)) s222 p) ∧
    (∃ p, Completes (.otnDefectDeclare (Ent.odu 0 2) (Defect.ais)) s222 p) :=
  ⟨⟨_, ((((((((((((h s221 0 here).2).2).2).2).2).2).2).2 12 here).2).1).2 here).2⟩,
    ⟨_, (((((((((((((h s221 0 here).2).2).2).2).2).2).2).2 12 here).2).2).1).2 here).1⟩,
    ⟨_, (((((((((((((h s221 0 here).2).2).2).2).2).2).2).2 12 here).2).2).1).2 here).2⟩,
    ⟨_, ((((((((((((h s221 0 here).2).2).2).2).2).2).2).2 12 here).2).2).2).1 here⟩,
    ⟨_, ((((((h s222 0 here).2).2).2).1).2 here).1⟩,
    ⟨_, ((((((h s222 0 here).2).2).2).1).2 here).2⟩,
    ⟨_, ((((((((((h s222 0 here).2).2).2).2).2).2).2).1 2 here here).1).1 here⟩,
    ⟨_, ((((((((((((h s222 0 here).2).2).2).2).2).2).2).1 2 here here).2).1).2 here).1⟩⟩

theorem test_meets_OtnDefectsComplete_4 (h : Obligations.OtnDefectsComplete) :
    (∃ p, Completes (.otnDefectClear (Ent.odu 0 2) (Defect.ais)) s222 p) ∧
    (∃ p, Completes (.otnDefectDeclare (Ent.odu 0 2) (Defect.ociLck)) s222 p) ∧
    (∃ p, Completes (.otnDefectClear (Ent.odu 0 2) (Defect.ociLck)) s222 p) ∧
    (∃ p, Completes (.otnDefectDeclare (Ent.odu 0 0) (Defect.oci)) s223 p) ∧
    (∃ p, Completes (.otnDefectDeclare (Ent.odu 0 0) (Defect.lck)) s223 p) ∧
    (∃ p, Completes (.otnDefectDeclare (Ent.odu 0 0) (Defect.lck)) s224 p) ∧
    (∃ p, Completes (.otnDefectClear (Ent.odu 0 0) (Defect.lck)) s224 p) ∧
    (∃ p, Completes (.otnDefectDeclare (Ent.path 0 12 0 0) (Defect.rdi)) s225 p) :=
  ⟨⟨_, ((((((((((((h s222 0 here).2).2).2).2).2).2).2).1 2 here here).2).1).2 here).2⟩,
    ⟨_, (((((((((((((h s222 0 here).2).2).2).2).2).2).2).1 2 here here).2).2).1).2 here).1⟩,
    ⟨_, (((((((((((((h s222 0 here).2).2).2).2).2).2).2).1 2 here here).2).2).1).2 here).2⟩,
    ⟨_, ((((((h s223 0 here).2).2).2).2).1).1 here⟩,
    ⟨_, (((((((h s223 0 here).2).2).2).2).2).1).1 here⟩,
    ⟨_, ((((((((h s224 0 here).2).2).2).2).2).1).2 here).1⟩,
    ⟨_, ((((((((h s224 0 here).2).2).2).2).2).1).2 here).2⟩,
    ⟨_, (((((((((((((h s225 0 here).2).2).2).2).2).2).2).2 12 here).2).2).2).2 here).1⟩⟩

theorem test_meets_OtnDefectsComplete_5 (h : Obligations.OtnDefectsComplete) :
    (∃ p, Completes (.otnDefectClear (Ent.path 0 12 0 0) (Defect.rdi)) s225 p) ∧
    (∃ p, Completes (.otnDefectDeclare (Ent.path 0 12 0 0) (Defect.ais)) s225 p) ∧
    (∃ p, Completes (.otnDefectClear (Ent.path 0 12 0 0) (Defect.ais)) s225 p) ∧
    (∃ p, Completes (.otnDefectDeclare (Ent.line 0) (Defect.rdi)) s226 p) ∧
    (∃ p, Completes (.otnDefectDeclare (Ent.odu 0 0) (Defect.rdi)) s226 p) ∧
    (∃ p, Completes (.otnDefectClear (Ent.odu 0 0) (Defect.rdi)) s226 p) ∧
    (∃ p, Completes (.otnDefectDeclare (Ent.odu 0 2) (Defect.rdi)) s226 p) ∧
    (∃ p, Completes (.otnDefectClear (Ent.odu 0 2) (Defect.rdi)) s226 p) :=
  ⟨⟨_, (((((((((((((h s225 0 here).2).2).2).2).2).2).2).2 12 here).2).2).2).2 here).2⟩,
    ⟨_, (((((((((((h s225 0 here).2).2).2).2).2).2).2).2 12 here).1).2 here).1⟩,
    ⟨_, (((((((((((h s225 0 here).2).2).2).2).2).2).2).2 12 here).1).2 here).2⟩,
    ⟨_, ((((h s226 0 here).2).2).1).1 here⟩,
    ⟨_, (((((((((h s226 0 here).2).2).2).2).2).2).1).2 here).1⟩,
    ⟨_, (((((((((h s226 0 here).2).2).2).2).2).2).1).2 here).2⟩,
    ⟨_, (((((((((((((h s226 0 here).2).2).2).2).2).2).2).1 2 here here).2).2).2).2 here).1⟩,
    ⟨_, (((((((((((((h s226 0 here).2).2).2).2).2).2).2).1 2 here here).2).2).2).2 here).2⟩⟩

theorem test_meets_OtnDefectsComplete_6 (h : Obligations.OtnDefectsComplete) :
    (∃ p, Completes (.otnDefectDeclare (Ent.odu 0 2) (Defect.ociLck)) s226 p) :=
  ⟨_, ((((((((((((h s226 0 here).2).2).2).2).2).2).2).1 2 here here).2).2).1).1 here⟩

theorem test_meets_TributariesAndPathWindowsComplete_1 (h : Obligations.TributariesAndPathWindowsComplete) :
    Ignored (.tribDefectDeclare 0 1 3 3 true) s227 ∧
    (∃ p, Completes (.pwRead 3 0) s227 p) ∧
    (∃ p, Completes (.tmRead 3 0) s227 p) ∧
    (∃ p, Completes (.tmWrite 3 0 true) s227 p) ∧
    (∃ p, Completes (.pwRead 3 0) s228 p) ∧
    (∃ p, Completes (.pwRead 3 0) s229 p) ∧
    (∃ p, Completes (.pwWrite 3 0 true) s229 p) ∧
    (∃ p, Completes (.pwWrite 3 0 false) s230 p) :=
  ⟨((h s227 3 0).1 1 3 3 true here here).2 here,
    ⟨_, (((h s227 3 0).2).1 here here).1 here⟩,
    ⟨_, ((((((h s227 3 0).2).2).2).1 here).1 here).2 here⟩,
    ⟨_, (((((((h s227 3 0).2).2).2).1 here).2 true here here).2).2 here here⟩,
    ⟨_, ((((h s228 3 0).2).1 here here).2 here here here).1 here⟩,
    ⟨_, (((((((h s229 3 0).2).1 here here).2 here here here).2).2 { kind := 1, slots := 12, first := 12 } here).2).1 here here⟩,
    ⟨_, ((((h s229 3 0).2).2).1 true here here here here here here here { kind := 1, slots := 12, first := 12 } here here).1 here⟩,
    ⟨_, (((((h s230 3 0).2).2).1 false here here here here here here here { kind := 1, slots := 12, first := 12 } here here).2).1 here here⟩⟩

theorem test_meets_TributariesAndPathWindowsComplete_2 (h : Obligations.TributariesAndPathWindowsComplete) :
    (∃ p, Completes (.tmWrite 3 0 true) s229 p) ∧
    (∃ p, Completes (.pathRead 3) s231 p) ∧
    (∃ p, Completes (.pathWrite 3 true) s231 p) ∧
    (∃ p, Completes (.pwRead 3 0) s232 p) ∧
    (∃ p, Completes (.pwRead 3 0) s233 p) ∧
    (∃ p, Completes (.pwRead 3 0) s234 p) ∧
    (∃ p, Completes (.pwWrite 3 0 false) s235 p) ∧
    (∃ p, Completes (.tribDefectDeclare 0 1 3 3 false) s230 p) :=
  ⟨⟨_, (((((((h s229 3 0).2).2).2).1 here).2 true here here).2).1 here here⟩,
    ⟨_, (((((h s231 3 0).2).2).2).2 here here).1 here⟩,
    ⟨_, (((((h s231 3 0).2).2).2).2 here here).2 true here here here⟩,
    ⟨_, (((((h s232 3 0).2).1 here here).2 here here here).2).1 here here⟩,
    ⟨_, ((((((h s233 3 0).2).1 here here).2 here here here).2).2 { kind := 1, slots := 12, first := 12 } here).1 here here⟩,
    ⟨_, (((((((h s234 3 0).2).1 here here).2 here here here).2).2 { kind := 1, slots := 12, first := 12 } here).2).2 here here here⟩,
    ⟨_, (((((h s235 3 0).2).2).1 false here here here here here here here { kind := 3, slots := 25, first := 12 } here here).2).2 here here⟩,
    ⟨_, ((h s230 3 0).1 1 3 3 false here here).1 here here⟩⟩

theorem test_meets_TributariesAndPathWindowsComplete_3 (h : Obligations.TributariesAndPathWindowsComplete) :
    (∃ p, Completes (.tmRead 3 0) s236 p) ∧
    (∃ p, Completes (.tmWrite 3 0 true) s236 p) :=
  ⟨⟨_, ((((((h s236 3 0).2).2).2).1 here).1 here).1 here⟩,
    ⟨_, ((((((h s236 3 0).2).2).2).1 here).2 true here here).1 here⟩⟩

theorem test_meets_InterchangePagesComplete_1 (h : Obligations.InterchangePagesComplete) :
    (∃ p, Completes (.tsiWindowWrite 3 12 0xFFFFFFFF#32) s237 p) ∧
    (∃ p, Completes (.seal 3) s237 p) ∧
    (∃ p, Completes (.copyActive 3) s237 p) ∧
    (∃ p, Completes (.abandon 3 2) s237 p) ∧
    Ignored (.sealDone) s237 ∧
    Ignored (.copyActiveDone) s237 ∧
    (∃ p, Completes (.loxSeal 3) s237 p) ∧
    (∃ p, Completes (.loxCopyActive 3) s237 p) :=
  ⟨⟨_, ((((h).1 s237 3 2 here).1 12 0xFFFFFFFF#32).1 here here).1 0xFFFFFFFF#32 here here⟩,
    ⟨_, ((((((h).1 s237 3 2 here).2).2).1).1 here here).1 here⟩,
    ⟨_, ((((((h).1 s237 3 2 here).2).2).1).1 here here).2 here⟩,
    ⟨_, (((((((((h).1 s237 3 2 here).2).2).1).2).2).1 here here).2).1 here here⟩,
    (((((((((h).1 s237 3 2 here).2).2).1).2).2).2).2).1 here,
    ((((((((((h).1 s237 3 2 here).2).2).1).2).2).2).2).2).2 here,
    ⟨_, ((((((h).1 s237 3 2 here).2).2).2).1 here here).1 here⟩,
    ⟨_, ((((((h).1 s237 3 2 here).2).2).2).1 here here).2 here⟩⟩

theorem test_meets_InterchangePagesComplete_2 (h : Obligations.InterchangePagesComplete) :
    (∃ p, Completes (.loxAbandon 3 2) s237 p) ∧
    Ignored (.loxSealDone) s237 ∧
    Ignored (.loxCopyActiveDone) s237 ∧
    (∃ p, Completes (.tsiWindowWrite 3 524272 0x12345678#32) s238 p) ∧
    (∃ p, Completes (.loxWindowWrite 3 262128 0x12345678#32) s238 p) ∧
    (∃ p, Completes (.seal 3) s238 p) ∧
    (∃ p, Completes (.copyActive 3) s238 p) ∧
    (∃ p, Completes (.abandon 3 2) s238 p) :=
  ⟨⟨_, (((((((((h).1 s237 3 2 here).2).2).2).2).2).1 here here).2).1 here here⟩,
    (((((((((h).1 s237 3 2 here).2).2).2).2).2).2).2).1 here,
    ((((((((((h).1 s237 3 2 here).2).2).2).2).2).2).2).2).2 here,
    ⟨_, (((((h).1 s238 3 2 here).1 524272 0x12345678#32).1 here here).2).2 here⟩,
    ⟨_, ((((((h).1 s238 3 2 here).2).1 262128 0x12345678#32).1 here here).2).2 here⟩,
    ⟨_, (((((((h).1 s238 3 2 here).2).2).1).2).1 here here).1 here⟩,
    ⟨_, (((((((h).1 s238 3 2 here).2).2).1).2).1 here here).2 here⟩,
    ⟨_, ((((((((h).1 s238 3 2 here).2).2).1).2).2).1 here here).1 here⟩⟩

theorem test_meets_InterchangePagesComplete_3 (h : Obligations.InterchangePagesComplete) :
    (∃ p, Completes (.loxSeal 3) s238 p) ∧
    (∃ p, Completes (.loxCopyActive 3) s238 p) ∧
    (∃ p, Completes (.loxAbandon 3 2) s238 p) ∧
    (∃ p, Completes (.tsiWindowWrite 3 524272 0x12345678#32) base p) ∧
    (∃ p, Completes (.loxWindowWrite 3 262128 0x12345678#32) base p) ∧
    (∃ p, Completes (.abandon 3 2) s239 p) ∧
    (∃ p, Completes (.sealDone) s239 p) ∧
    (∃ p, Completes (.loxAbandon 3 2) s239 p) :=
  ⟨⟨_, (((((((h).1 s238 3 2 here).2).2).2).2).1 here here).1 here⟩,
    ⟨_, (((((((h).1 s238 3 2 here).2).2).2).2).1 here here).2 here⟩,
    ⟨_, ((((((((h).1 s238 3 2 here).2).2).2).2).2).1 here here).1 here⟩,
    ⟨_, (((h).1 base 3 2 here).1 524272 0x12345678#32).2 here here⟩,
    ⟨_, ((((h).1 base 3 2 here).2).1 262128 0x12345678#32).2 here here⟩,
    ⟨_, (((((((((h).1 s239 3 2 here).2).2).1).2).2).1 here here).2).2 here here⟩,
    ⟨_, (((((((((h).1 s239 3 2 (by first | exact sealFault_fresh _ _ rfl rfl | decide +kernel)).2).2).1).2).2).2).1 (by first | exact sealFault_fresh _ _ rfl rfl | decide +kernel)).2 (by first | exact sealFault_fresh _ _ rfl rfl | decide +kernel)⟩,
    ⟨_, (((((((((h).1 s239 3 2 here).2).2).2).2).2).1 here here).2).2 here here⟩⟩

theorem test_meets_InterchangePagesComplete_4 (h : Obligations.InterchangePagesComplete) :
    (∃ p, Completes (.loxSealDone) s239 p) ∧
    (∃ p, Completes (.tsiWindowWrite 3 12 0x12345678#32) s240 p) ∧
    (∃ p, Completes (.loxWindowWrite 3 8 0x12345678#32) s240 p) ∧
    (∃ p, Completes (.copyActiveDone) s240 p) ∧
    (∃ p, Completes (.loxCopyActiveDone) s240 p) ∧
    (∃ p, Completes (.loxWindowWrite 3 12 0xFFFFFFFF#32) s241 p) :=
  ⟨⟨_, (((((((((h).1 s239 3 2 (by first | exact sealFault_fresh _ _ rfl rfl | decide +kernel)).2).2).2).2).2).2).1 (by first | exact sealFault_fresh _ _ rfl rfl | decide +kernel)).2 (by first | exact sealFault_fresh _ _ rfl rfl | decide +kernel)⟩,
    ⟨_, (((((h).1 s240 3 2 here).1 12 0x12345678#32).1 here here).2).1 here here⟩,
    ⟨_, ((((((h).1 s240 3 2 here).2).1 8 0x12345678#32).1 here here).2).1 here here⟩,
    ⟨_, ((((((((((h).1 s240 3 2 here).2).2).1).2).2).2).2).2).1 here⟩,
    ⟨_, ((((((((((h).1 s240 3 2 here).2).2).2).2).2).2).2).2).1 here⟩,
    ⟨_, (((((h).1 s241 3 2 here).2).1 12 0xFFFFFFFF#32).1 here here).1 0x3FFFFF#32 here here⟩⟩

theorem test_meets_MappingWindowCommandsComplete_1 (h : Obligations.MappingWindowCommandsComplete) :
    (∃ p, Completes (.mwRead 3 0) s242 p) ∧
    (∃ p, Completes (.mwWrite 3 0) s242 p) ∧
    (∃ p, Completes (.check 3 0) s242 p) ∧
    Ignored (.checkDone 0) s242 ∧
    (∃ p, Completes (.mwRead 3 0) s243 p) ∧
    (∃ p, Completes (.mwWrite 3 0) s243 p) ∧
    (∃ p, Completes (.check 3 0) s243 p) ∧
    (∃ p, Completes (.checkDone 0) s243 p) :=
  ⟨⟨_, (((h).1 s242 3 0).1 here here here).2 here⟩,
    ⟨_, (((((h).1 s242 3 0).2).1 here here here here).2).1 here here⟩,
    ⟨_, ((((((h).1 s242 3 0).2).2).2).1 here here here).2 here⟩,
    (((((((h).1 s242 3 0).2).2).2).2).2).1 here,
    ⟨_, (((h).1 s243 3 0).1 here here here).1 here⟩,
    ⟨_, ((((h).1 s243 3 0).2).1 here here here here).1 here⟩,
    ⟨_, ((((((h).1 s243 3 0).2).2).2).1 here here here).1 here⟩,
    ⟨_, ((((((h).1 s243 3 0).2).2).2).2).1 1 here here⟩⟩

theorem test_meets_MappingWindowCommandsComplete_2 (h : Obligations.MappingWindowCommandsComplete) :
    (∃ p, Completes (.mwRead 3 0) s244 p) ∧
    (∃ p, Completes (.mwWrite 3 0) s245 p) ∧
    (∃ p, Completes (.mwWrite 3 0) s246 p) :=
  ⟨⟨_, ((((h).1 s244 3 0).2).2).1 here here⟩,
    ⟨_, ((((((h).1 s245 3 0).2).1 here here here here).2).2 here here here here here).2 here⟩,
    ⟨_, ((((((h).1 s246 3 0).2).1 here here here here).2).2 here here here here here).1 here⟩⟩

theorem test_meets_ClientCommandsComplete_1 (h : Obligations.ClientCommandsComplete) :
    Ignored (.clientFrameMap 0 v37 5) base ∧
    Ignored (.gfpFrameRx 0 v38 5) base ∧
    Ignored (.csfSend 0) base ∧
    (∃ p, Completes (.clientFrameMap 0 v37 5) s247 p) ∧
    (∃ p, Completes (.gfpFrameRx 0 v39 5) s247 p) ∧
    (∃ p, Completes (.clientFrameMap 0 v40 5) s248 p) ∧
    (∃ p, Completes (.gfpFrameRx 0 v38 5) s248 p) ∧
    (∃ p, Completes (.gfpFrameRx 0 v41 5) s249 p) :=
  ⟨((h base 0 here).1 v37 5).2 here,
    (((h base 0 here).2).1 v38 5).2 here,
    (((h base 0 here).2).2).2 here,
    ⟨_, ((((h s247 0 here).1 v37 5).1 here here here).2).2 here here⟩,
    ⟨_, (((((h s247 0 here).2).1 v39 5).1 here).2).1 here here⟩,
    ⟨_, (((h s248 0 here).1 v40 5).1 here here here).1 here⟩,
    ⟨_, (((((((h s248 0 here).2).1 v38 5).1 here).2).2).2).1 here here here⟩,
    ⟨_, ((((h s249 0 here).2).1 v41 5).1 here).1 here here⟩⟩

theorem test_meets_ClientCommandsComplete_2 (h : Obligations.ClientCommandsComplete) :
    (∃ p, Completes (.clientFrameMap 0 v37 5) s250 p) ∧
    (∃ p, Completes (.gfpFrameRx 0 v42 5) s251 p) ∧
    (∃ p, Completes (.gfpFrameRx 0 v39 5) s252 p) ∧
    (∃ p, Completes (.gfpFrameRx 0 v43 5) s251 p) ∧
    (∃ p, Completes (.gfpFrameRx 0 v39 5) s253 p) ∧
    (∃ p, Completes (.csfSend 0) s254 p) :=
  ⟨⟨_, ((((h s250 0 here).1 v37 5).1 here here here).2).1 here here⟩,
    ⟨_, ((((((h s251 0 here).2).1 v42 5).1 here).2).2).1 here here⟩,
    ⟨_, (((((((((h s252 0 here).2).1 v39 5).1 here).2).2).2).2).2 here here here).2 here⟩,
    ⟨_, ((((((((h s251 0 here).2).1 v43 5).1 here).2).2).2).2).1 here here here here here⟩,
    ⟨_, (((((((((h s253 0 here).2).1 v39 5).1 here).2).2).2).2).2 here here here).1 here⟩,
    ⟨_, (((h s254 0 here).2).2).1 here here here⟩⟩

theorem test_meets_VcatGroupCommandsComplete_1 (h : Obligations.VcatGroupCommandsComplete) :
    (∃ p, Completes (.vgRead 3 0) s242 p) ∧
    (∃ p, Completes (.vgWrite 3 0 false) s242 p) ∧
    Ignored (.lcasMemberFail 0 5 40) s242 ∧
    Ignored (.lcasMemberRestore 0 5 40) s242 ∧
    (∃ p, Completes (.vgWrite 3 0 true) s255 p) ∧
    (∃ p, Completes (.lcasMemberFail 0 5 2) s255 p) ∧
    (∃ p, Completes (.lcasMemberRestore 0 5 2) s255 p) ∧
    (∃ p, Completes (.vgWrite 3 0 true) s256 p) :=
  ⟨⟨_, (h s242 3 0).1 here here⟩,
    ⟨_, (((h s242 3 0).2).1 false here here here).1 here⟩,
    ((((h s242 3 0).2).2 5 40).2 here).1,
    ((((h s242 3 0).2).2 5 40).2 here).2,
    ⟨_, (((((h s255 3 0).2).1 true here here here).2).2).2 here here here⟩,
    ⟨_, ((((h s255 3 0).2).2 5 2).1 here).1⟩,
    ⟨_, ((((h s255 3 0).2).2 5 2).1 here).2⟩,
    ⟨_, (((((h s256 3 0).2).1 true here here here).2).2).1 here here here⟩⟩

theorem test_meets_VcatGroupCommandsComplete_2 (h : Obligations.VcatGroupCommandsComplete) :
    (∃ p, Completes (.vgWrite 3 0 true) s257 p) :=
  ⟨_, ((((h s257 3 0).2).1 true here here here).2).1 here here⟩

theorem test_meets_SelectorCommandsComplete_1 (h : Obligations.SelectorCommandsComplete) :
    (∃ p, Completes (.swRead 3 0) s258 p) ∧
    (∃ p, Completes (.swWrite 3 0 false) s258 p) ∧
    (∃ p, Completes (.selectorAdmit 3) s259 p) ∧
    Ignored (.selectorAdmitRetry 3) s259 ∧
    Ignored (.wtrExpiry 3) s259 ∧
    Ignored (.selectorAdmit 3) s260 ∧
    (∃ p, Completes (.selectorAdmitRetry 3) s260 p) ∧
    (∃ p, Completes (.wtrExpiry 3) s260 p) :=
  ⟨⟨_, ((h).2 s258 3 0 here).1 here⟩,
    ⟨_, (((h).2 s258 3 0 here).2 false here here).1 here⟩,
    ⟨_, (((h).1 s259 3).1 here here here).1 here here⟩,
    ((((((h).1 s259 3).2).2).1 7 here).2).1 here here,
    ((((((h).1 s259 3).2).2).2).2).2 here,
    (((h).1 s260 3).2).1 here,
    ⟨_, ((((((h).1 s260 3).2).2).1 7 here).2).2 here⟩,
    ⟨_, ((((((h).1 s260 3).2).2).2).2).1 here here⟩⟩

theorem test_meets_SelectorCommandsComplete_2 (h : Obligations.SelectorCommandsComplete) :
    (∃ p, Completes (.swWrite 3 0 true) s261 p) ∧
    (∃ p, Completes (.selectorAdmit 3) s262 p) ∧
    Ignored (.selectorAdmitRetry 3) s262 ∧
    (∃ p, Completes (.selectorAdmitRetry 3) s263 p) ∧
    (∃ p, Completes (.selectorAdmit 3) s264 p) ∧
    (∃ p, Completes (.selectorAdmit 3) s265 p) :=
  ⟨⟨_, ((((h).2 s261 3 0 here).2 true here here).2).2 here⟩,
    ⟨_, (((((h).1 s262 3).1 here here here).2).2 here here here here).2 here⟩,
    (((((h).1 s262 3).2).2).2).1 here,
    ⟨_, (((((h).1 s263 3).2).2).1 7 here).1 here here⟩,
    ⟨_, ((((h).1 s264 3).1 here here here).2).1 here⟩,
    ⟨_, (((((h).1 s265 3).1 here here here).2).2 here here here here).1 here⟩⟩

theorem test_meets_HitlessAcquisitionCompletes (h : Obligations.HitlessAcquisitionCompletes) :
    Ignored (.hitlessAcquired 3 [1, 2, 3, 4, 5, 6, 7, -600] 14) base ∧
    (∃ p, Completes (.hitlessAcquired 3 [1, 2] 14) s266 p) ∧
    Ignored (.hitlessAcquired 3 [5, 6, 7, 8, 9, 10, 11, 900] 14) s267 ∧
    (∃ p, Completes (.hitlessAcquired 3 [1, 2, 3, 4, 5, 6, 7, -600] 14) s268 p) ∧
    (∃ p, Completes (.hitlessAcquired 3 [5, 6, 7, 8, 9, 10, 11, 900] 14) s269 p) ∧
    (∃ p, Completes (.hitlessAcquired 3 v44 7) s270 p) :=
  ⟨(h base 3 [1, 2, 3, 4, 5, 6, 7, -600] 14).2 here,
    ⟨_, ((((h s266 3 [1, 2] 14).1 here here).2).2).1 here here⟩,
    ((((h s267 3 [5, 6, 7, 8, 9, 10, 11, 900] 14).1 here here).2).2).2 here,
    ⟨_, (((h s268 3 [1, 2, 3, 4, 5, 6, 7, -600] 14).1 here here).2).1 here here⟩,
    ⟨_, (((h s269 3 [5, 6, 7, 8, 9, 10, 11, 900] 14).1 here here).1 900 here here here here here).1 here⟩,
    ⟨_, (((h s270 3 v44 7).1 here here).1 63999990 here here here here here).2 here⟩⟩

theorem test_meets_HitlessFramesComplete_1 (h : Obligations.HitlessFramesComplete) :
    (∃ p, Completes (.hitlessFrameDue 3 v45) s271 p) ∧
    (∃ p, Completes (.hitlessFrameDue 3 v46) s272 p) ∧
    (∃ p, Completes (.hitlessFrameDue 3 v45) s273 p) ∧
    (∃ p, Completes (.hitlessFrameDue 3 v47) s274 p) ∧
    (∃ p, Completes (.hitlessFrameDue 3 v48) s275 p) ∧
    (∃ p, Completes (.hitlessFrameDue 3 v49) s276 p) ∧
    (∃ p, Completes (.hitlessFrameDue 3 v50) s277 p) ∧
    (∃ p, Completes (.hitlessFrameDue 3 v51) s276 p) :=
  ⟨⟨_, (h s271 3 v45 here here).1 here⟩,
    ⟨_, (((((h s272 3 v46 here here).2).1 here here here).2).2).1 here here⟩,
    ⟨_, ((((h s273 3 v45 here here).2).2).2).1 here here⟩,
    ⟨_, (((h s274 3 v47 here here).2).2).1 here here⟩,
    ⟨_, (((h s275 3 v48 here here).2).1 here here here).1 here⟩,
    ⟨_, ((((h s276 3 v49 here here).2).2).2).2 here here here here⟩,
    ⟨_, ((((h s277 3 v50 here here).2).1 here here here).2).1 here here⟩,
    ⟨_, ((((((h s276 3 v51 here here).2).1 here here here).2).2).2 here here here here here).1 here here⟩⟩

theorem test_meets_HitlessFramesComplete_2 (h : Obligations.HitlessFramesComplete) :
    (∃ p, Completes (.hitlessFrameDue 3 v52) s278 p) :=
  ⟨_, ((((((h s278 3 v52 here here).2).1 here here here).2).2).2 here here here here here).2 here⟩

theorem test_meets_DelayStepsAndRealignmentsComplete_1 (h : Obligations.DelayStepsAndRealignmentsComplete) :
    Ignored (.delayStep 3 false [3, 3, 3, 3, 3, 3, 3, 3]) base ∧
    Ignored (.realignAuto 3) base ∧
    (∃ p, Completes (.delayStep 3 false v53) s279 p) ∧
    (∃ p, Completes (.realignAuto 3) s279 p) ∧
    Ignored (.delayStep 3 true [3, 3, 3, 3, 3, 3, 3, 3]) s280 ∧
    (∃ p, Completes (.realignAuto 3) s280 p) ∧
    (∃ p, Completes (.delayStep 3 false [5000, 5000, 5000, 5000, 5000, 5000, 5000, 5000]) s281 p) ∧
    (∃ p, Completes (.delayStep 3 false v53) s282 p) :=
  ⟨((h base 3).2).1 false [3, 3, 3, 3, 3, 3, 3, 3] here,
    ((((h base 3).2).2).2).2 here,
    ⟨_, ((((h s279 3).1 false v53 (-9000) here here here here here).2).2).1 here here here here⟩,
    ⟨_, (((h s279 3).2).2).1 here here here here here here here⟩,
    (((((h s280 3).1 true [3, 3, 3, 3, 3, 3, 3, 3] 3 here here here here here).2).2).2).2 here,
    ⟨_, ((((h s280 3).2).2).2).1 here here here here⟩,
    ⟨_, (((h s281 3).1 false [5000, 5000, 5000, 5000, 5000, 5000, 5000, 5000] 5000 here here here here here).2).1 here here here here⟩,
    ⟨_, ((h s282 3).1 false v53 (-9000) here here here here here).1 here here⟩⟩

theorem test_meets_DelayStepsAndRealignmentsComplete_2 (h : Obligations.DelayStepsAndRealignmentsComplete) :
    (∃ p, Completes (.delayStep 3 true v54) s283 p) :=
  ⟨_, (((((h s283 3).1 true v54 64100000 here here here here here).2).2).2).1 here here here⟩

theorem test_meets_HdlcPassesComplete (h : Obligations.HdlcPassesComplete) :
    Ignored (.hdlcRxPass 5) base ∧
    Ignored (.hdlcTxPass 5 v55 [3]) base ∧
    Ignored (.hdlcRxPass 5) s284 ∧
    Ignored (.hdlcTxPass 5 v55 [3]) s284 ∧
    (∃ p, Completes (.hdlcTxPass 5 v55 []) s285 p) ∧
    (∃ p, Completes (.hdlcRxPass 5) s286 p) :=
  ⟨((h).2 base 5 v55 [3] here).1,
    ((h).2 base 5 v55 [3] here).2,
    (((h).1 s284 5 2 here).1 here).1,
    (((h).1 s284 5 2 here).1 here).2 v55 [3] here here,
    ⟨_, (((h).1 s285 5 2 here).2).2 v56 v55 [] here here here here here here here here here here here here here here⟩,
    ⟨_, (((h).1 s286 5 2 here).2).1 v56 here here here here here here here here here here here here here⟩⟩

theorem test_meets_FrameTicksAndInjectionComplete_1 (h : Obligations.FrameTicksAndInjectionComplete) :
    (∃ p, Completes (.go 3 true) s287 p) ∧
    (∃ p, Completes (.stop 3 true) s287 p) ∧
    (∃ p, Completes (.stop 3 false) s288 p) ∧
    (∃ p, Completes (.go 3 false) s288 p) ∧
    Ignored (.frameTick v57) base ∧
    (∃ p, Completes (.frameTick v58) s289 p) ∧
    (∃ p, Completes (.frameTick v59) s290 p) ∧
    (∃ p, Completes (.frameTick v59) s291 p) :=
  ⟨⟨_, ((h).2 s287 3 true here).1 here⟩,
    ⟨_, ((((h).2 s287 3 true here).2).2).2 here⟩,
    ⟨_, (((h).2 s288 3 false here).2).1 here⟩,
    ⟨_, ((((h).2 s288 3 false here).2).2).1 here⟩,
    ((h).1).1 base v57 here,
    ⟨_, (((h).1).2 s289 99 here).1 here here⟩,
    ⟨_, ((((h).1).2 s290 156250 here).2).1 0 here here here here⟩,
    ⟨_, (((((h).1).2 s291 156250 here).2).2).1 here here here here here⟩⟩

theorem test_meets_FrameTicksAndInjectionComplete_2 (h : Obligations.FrameTicksAndInjectionComplete) :
    (∃ p, Completes (.frameTick v60) s292 p) ∧
    (∃ p, Completes (.frameTick v60) s293 p) ∧
    (∃ p, Completes (.frameTick v60) s294 p) ∧
    (∃ p, Completes (.frameTick v60) s295 p) ∧
    (∃ p, Completes (.frameTick v60) s296 p) ∧
    (∃ p, Completes (.frameTick v60) s297 p) ∧
    (∃ p, Completes (.frameTick v59) s298 p) ∧
    (∃ p, Completes (.frameTick v59) s299 p) :=
  ⟨⟨_, (((((((h).1).2 s292 0 here).2).2).2).1 5 2 0 2 here here here here).1 here⟩,
    ⟨_, ((((((((h).1).2 s293 0 here).2).2).2).1 5 4 1 2 here here here here).2 here here).1 here⟩,
    ⟨_, (((((((((h).1).2 s294 0 here).2).2).2).1 5 1 0 2 here here here here).2 here here).2).1 here here⟩,
    ⟨_, (((((((((h).1).2 s295 0 here).2).2).2).1 35 3 0 2 here here here here).2 here here).2).2 here here here here⟩,
    ⟨_, ((((((((h).1).2 s296 0 here).2).2).2).2).1 v61 here here here here here).2 here here here⟩,
    ⟨_, ((((((((h).1).2 s297 0 here).2).2).2).2).1 v62 here here here here here).1 here⟩,
    ⟨_, (((((((((h).1).2 s298 156250 here).2).2).2).2).2).1 2 0 here here here).1 here⟩,
    ⟨_, (((((((((h).1).2 s299 156250 here).2).2).2).2).2).1 1 0 here here here).2 here here here⟩⟩

theorem test_meets_FrameTicksAndInjectionComplete_3 (h : Obligations.FrameTicksAndInjectionComplete) :
    (∃ p, Completes (.frameTick v59) s300 p) :=
  ⟨_, ((((((((h).1).2 s300 156250 here).2).2).2).2).2).2 v63 17 305419896 here here here here here here here here here here here here here⟩

theorem test_meets_TwinCommandsComplete_1 (h : Obligations.TwinCommandsComplete) :
    (∃ p, Completes (.join 3) s301 p) ∧
    (∃ p, Completes (.serve 3) s301 p) ∧
    (∃ p, Completes (.leave 3) s301 p) ∧
    (∃ p, Completes (.forceTakeover 3) s301 p) ∧
    (∃ p, Completes (.join 3) s302 p) ∧
    (∃ p, Completes (.serve 3) s302 p) ∧
    (∃ p, Completes (.leave 3) s302 p) ∧
    (∃ p, Completes (.forceTakeover 3) s302 p) :=
  ⟨⟨_, ((h s301 3 here).1 here).1 here⟩,
    ⟨_, (((h s301 3 here).2).1 here).1 here⟩,
    ⟨_, ((((h s301 3 here).2).2).1 here).1 here⟩,
    ⟨_, (((((h s301 3 here).2).2).2).1 here).1 here⟩,
    ⟨_, (((((h s302 3 here).2).2).2).2).1 here⟩,
    ⟨_, ((((((h s302 3 here).2).2).2).2).2).1 here⟩,
    ⟨_, (((((((h s302 3 here).2).2).2).2).2).2).1 here⟩,
    ⟨_, (((((((h s302 3 here).2).2).2).2).2).2).2 here⟩⟩

theorem test_meets_TwinCommandsComplete_2 (h : Obligations.TwinCommandsComplete) :
    (∃ p, Completes (.join 3) s303 p) ∧
    (∃ p, Completes (.leave 3) s303 p) ∧
    (∃ p, Completes (.forceTakeover 3) s303 p) ∧
    (∃ p, Completes (.join 3) s304 p) ∧
    (∃ p, Completes (.serve 3) s304 p) ∧
    (∃ p, Completes (.serve 3) s305 p) ∧
    (∃ p, Completes (.join 3) s306 p) ∧
    (∃ p, Completes (.forceTakeover 3) s307 p) :=
  ⟨⟨_, (((h s303 3 here).1 here).2 here here).1 here⟩,
    ⟨_, ((((h s303 3 here).2).2).1 here).2 here⟩,
    ⟨_, ((((((h s303 3 here).2).2).2).1 here).2 here here).2 here⟩,
    ⟨_, (((((h s304 3 here).1 here).2 here here).2).2).1 here here here⟩,
    ⟨_, ((((h s304 3 here).2).1 here).2 here here).2 here⟩,
    ⟨_, ((((h s305 3 here).2).1 here).2 here here).1 here⟩,
    ⟨_, ((((h s306 3 here).1 here).2 here here).2).1 here here⟩,
    ⟨_, ((((((h s307 3 here).2).2).2).1 here).2 here here).1 here⟩⟩

theorem test_meets_TwinCommandsComplete_3 (h : Obligations.TwinCommandsComplete) :
    (∃ p, Completes (.join 3) s308 p) :=
  ⟨_, (((((h s308 3 here).1 here).2 here here).2).2).2 here here here here⟩

theorem test_meets_HeartbeatsAndMirrorLossComplete_1 (h : Obligations.HeartbeatsAndMirrorLossComplete) :
    Ignored (.heartbeatSend) s309 ∧
    (∃ p, Completes (.heartbeat { port := 3, seq := 0, ack := 0, crcOk := true } v64) s309 p) ∧
    Ignored (.mirrorLinkLoss) s309 ∧
    (∃ p, Completes (.heartbeatSend) s310 p) ∧
    (∃ p, Completes (.heartbeat { port := 3, seq := 0, ack := 0, crcOk := true } v64) s310 p) ∧
    (∃ p, Completes (.mirrorLinkLoss) s310 p) ∧
    (∃ p, Completes (.heartbeat { port := 3, seq := 5, ack := 0, crcOk := false } v64) s311 p) ∧
    (∃ p, Completes (.mirrorLinkLoss) s311 p) :=
  ⟨((h s309).2).1 here,
    ⟨_, ((((h s309).2).2).1 { port := 3, seq := 0, ack := 0, crcOk := true } v64 here here).1 here⟩,
    (((((h s309).2).2).2).2).1 here,
    ⟨_, (h s310).1 here here⟩,
    ⟨_, ((((((h s310).2).2).1 { port := 3, seq := 0, ack := 0, crcOk := true } v64 here here).2).2).1 here here here here⟩,
    ⟨_, (((((((h s310).2).2).2).2).2 here here).2).1 here here⟩,
    ⟨_, ((((h s311).2).2).2).1 { port := 3, seq := 5, ack := 0, crcOk := false } v64 here here⟩,
    ⟨_, (((((((((h s311).2).2).2).2).2 here here).2).2).2).2 here here⟩⟩

theorem test_meets_HeartbeatsAndMirrorLossComplete_2 (h : Obligations.HeartbeatsAndMirrorLossComplete) :
    (∃ p, Completes (.heartbeat { port := 3, seq := 0, ack := 0, crcOk := true } v64) s312 p) ∧
    (∃ p, Completes (.mirrorLinkLoss) s312 p) ∧
    (∃ p, Completes (.mirrorLinkLoss) s313 p) ∧
    (∃ p, Completes (.mirrorLinkLoss) s314 p) ∧
    (∃ p, Completes (.heartbeat { port := 3, seq := 0, ack := 0, crcOk := true } v65) s315 p) ∧
    (∃ p, Completes (.heartbeat { port := 3, seq := 0, ack := 0, crcOk := true } v66) s316 p) ∧
    (∃ p, Completes (.heartbeat { port := 3, seq := 5, ack := 0, crcOk := true } v67) s316 p) ∧
    (∃ p, Completes (.heartbeat { port := 3, seq := 0, ack := 0, crcOk := true } v68) s317 p) :=
  ⟨⟨_, (((((h s312).2).2).1 { port := 3, seq := 0, ack := 0, crcOk := true } v64 here here).2).1 here here here⟩,
    ⟨_, (((((((((h s312).2).2).2).2).2 here here).2).2).2).1 here here here⟩,
    ⟨_, ((((((h s313).2).2).2).2).2 here here).1 here here⟩,
    ⟨_, ((((((((h s314).2).2).2).2).2 here here).2).2).1 here here here here⟩,
    ⟨_, (((((((h s315).2).2).1 { port := 3, seq := 0, ack := 0, crcOk := true } v65 here here).2).2).2).1 here here here here⟩,
    ⟨_, (((((((((h s316).2).2).1 { port := 3, seq := 0, ack := 0, crcOk := true } v66 here here).2).2).2).2).2).1 here here here here⟩,
    ⟨_, ((((((((h s316).2).2).1 { port := 3, seq := 5, ack := 0, crcOk := true } v67 here here).2).2).2).2).1 here here here here here here here⟩,
    ⟨_, ((((((((((h s317).2).2).1 { port := 3, seq := 0, ack := 0, crcOk := true } v68 here here).2).2).2).2).2).2).2 here here here here here here⟩⟩

theorem test_meets_HeartbeatsAndMirrorLossComplete_3 (h : Obligations.HeartbeatsAndMirrorLossComplete) :
    (∃ p, Completes (.heartbeat { port := 3, seq := 5, ack := 0, crcOk := true } v64) s318 p) :=
  ⟨_, ((((((((((h s318).2).2).1 { port := 3, seq := 5, ack := 0, crcOk := true } v64 here here).2).2).2).2).2).2).1 here here here here here here here⟩

theorem test_meets_JoinCopyAndDigestMessagesComplete_1 (h : Obligations.JoinCopyAndDigestMessagesComplete) :
    (∃ p, Completes (.joinRx { port := 3, seq := 0, ack := 0, crcOk := true } 4660 v69) s319 p) ∧
    (∃ p, Completes (.accept { port := 3, seq := 0, ack := 0, crcOk := true } 4886718345) s319 p) ∧
    (∃ p, Completes (.refuse { port := 3, seq := 0, ack := 0, crcOk := true } 4886718345) s319 p) ∧
    Ignored (.joinTimeout) s319 ∧
    (∃ p, Completes (.copy { port := 3, seq := 0, ack := 0, crcOk := true } 3 77 19088743 0 [] false) s319 p) ∧
    (∃ p, Completes (.digest { port := 3, seq := 0, ack := 0, crcOk := true } true 987654312985 v70) s319 p) ∧
    (∃ p, Completes (.accept { port := 3, seq := 5, ack := 0, crcOk := true } 200) s320 p) ∧
    (∃ p, Completes (.refuse { port := 3, seq := 5, ack := 0, crcOk := true } 200) s320 p) :=
  ⟨⟨_, ((h s319 { port := 3, seq := 0, ack := 0, crcOk := true }).1 4660 v69 here here).1 here⟩,
    ⟨_, ((((h s319 { port := 3, seq := 0, ack := 0, crcOk := true }).2).1 4886718345 here).2 here).1⟩,
    ⟨_, ((((h s319 { port := 3, seq := 0, ack := 0, crcOk := true }).2).1 4886718345 here).2 here).2⟩,
    ((((h s319 { port := 3, seq := 0, ack := 0, crcOk := true }).2).2).2).1 here,
    ⟨_, (((((((h s319 { port := 3, seq := 0, ack := 0, crcOk := true }).2).2).2).2).1 3 77 19088743 0 [] false here here here here here here here).2).1 here here here here here⟩,
    ⟨_, (((((((((h s319 { port := 3, seq := 0, ack := 0, crcOk := true }).2).2).2).2).2).2).2 987654312985 true v70 here).2).2 here here⟩,
    ⟨_, ((((h s320 { port := 3, seq := 5, ack := 0, crcOk := true }).2).1 200 here).1 here here).1⟩,
    ⟨_, ((((h s320 { port := 3, seq := 5, ack := 0, crcOk := true }).2).1 200 here).1 here here).2 here here⟩⟩

theorem test_meets_JoinCopyAndDigestMessagesComplete_2 (h : Obligations.JoinCopyAndDigestMessagesComplete) :
    (∃ p, Completes (.joinTimeout) s320 p) ∧
    (∃ p, Completes (.copy { port := 3, seq := 0, ack := 0, crcOk := true } 3 77 19088743 1 [(9, 9)] true) s319 p) ∧
    (∃ p, Completes (.copy { port := 3, seq := 0, ack := 0, crcOk := true } 3 77 19088743 1 [(5, 6)] false) s319 p) ∧
    (∃ p, Completes (.copy { port := 3, seq := 0, ack := 0, crcOk := true } 3 77 19088743 0 [(3, 4)] true) s321 p) ∧
    (∃ p, Completes (.digest { port := 3, seq := 0, ack := 0, crcOk := true } true 987654312985 v71) s321 p) ∧
    (∃ p, Completes (.digest { port := 3, seq := 0, ack := 0, crcOk := true } false 987654312985 v71) s321 p) ∧
    (∃ p, Completes (.joinRx { port := 3, seq := 5, ack := 0, crcOk := true } 4660 v69) s322 p) ∧
    (∃ p, Completes (.copyAck { port := 3, seq := 5, ack := 0, crcOk := true } 3 77) s322 p) :=
  ⟨⟨_, (((h s320 { port := 3, seq := 5, ack := 0, crcOk := true }).2).2).1 here here here⟩,
    ⟨_, ((((((((h s319 { port := 3, seq := 0, ack := 0, crcOk := true }).2).2).2).2).1 3 77 19088743 1 [(9, 9)] true here here here here here here here).2).2).2 here here here here here⟩,
    ⟨_, ((((((((h s319 { port := 3, seq := 0, ack := 0, crcOk := true }).2).2).2).2).1 3 77 19088743 1 [(5, 6)] false here here here here here here here).2).2).1 here here here here here⟩,
    ⟨_, ((((((h s321 { port := 3, seq := 0, ack := 0, crcOk := true }).2).2).2).2).1 3 77 19088743 0 [(3, 4)] true here here here here here here here).1 here⟩,
    ⟨_, ((((((((((h s321 { port := 3, seq := 0, ack := 0, crcOk := true }).2).2).2).2).2).2).1 987654312985 v70 v71 here here here).1 here).2).2 here⟩,
    ⟨_, ((((((((h s321 { port := 3, seq := 0, ack := 0, crcOk := true }).2).2).2).2).2).2).2 987654312985 false v71 here).1 here here⟩,
    ⟨_, (((h s322 { port := 3, seq := 5, ack := 0, crcOk := true }).1 4660 v69 here here).2).2 here here⟩,
    ⟨_, (((((((h s322 { port := 3, seq := 5, ack := 0, crcOk := true }).2).2).2).2).2).1 3 77 4 v64 here here here here).1 here⟩⟩

theorem test_meets_JoinCopyAndDigestMessagesComplete_3 (h : Obligations.JoinCopyAndDigestMessagesComplete) :
    (∃ p, Completes (.joinRx { port := 3, seq := 5, ack := 0, crcOk := true } 4660 v69) s323 p) ∧
    (∃ p, Completes (.copyAck { port := 3, seq := 5, ack := 0, crcOk := true } 3 77) s323 p) ∧
    (∃ p, Completes (.digest { port := 3, seq := 5, ack := 0, crcOk := true } true 12345 v70) s324 p) ∧
    (∃ p, Completes (.digest { port := 3, seq := 0, ack := 0, crcOk := true } true 987654312985 v72) s325 p) ∧
    (∃ p, Completes (.digest { port := 3, seq := 0, ack := 0, crcOk := true } true 987654312985 v70) s326 p) ∧
    (∃ p, Completes (.digest { port := 3, seq := 5, ack := 0, crcOk := true } true 987654312985 v70) s327 p) :=
  ⟨⟨_, (((h s323 { port := 3, seq := 5, ack := 0, crcOk := true }).1 4660 v69 here here).2).1 here here⟩,
    ⟨_, (((((((h s323 { port := 3, seq := 5, ack := 0, crcOk := true }).2).2).2).2).2).1 3 77 4 v64 here here here here).2 here⟩,
    ⟨_, (((((((((h s324 { port := 3, seq := 5, ack := 0, crcOk := true }).2).2).2).2).2).2).2 12345 true v70 here).2).1 here here here⟩,
    ⟨_, ((((((((h s325 { port := 3, seq := 0, ack := 0, crcOk := true }).2).2).2).2).2).2).1 987654312985 v70 v72 here here here).2 2 here here here here⟩,
    ⟨_, ((((((((((h s326 { port := 3, seq := 0, ack := 0, crcOk := true }).2).2).2).2).2).2).1 987654312985 v70 v70 here here here).1 here).2).1 here here here here here here⟩,
    ⟨_, (((((((((h s327 { port := 3, seq := 5, ack := 0, crcOk := true }).2).2).2).2).2).2).1 987654312985 v70 v70 here here here).1 here).1 here here here⟩⟩

theorem test_meets_ClaimsAndTakeoversComplete_1 (h : Obligations.ClaimsAndTakeoversComplete) :
    Ignored (.claimInChange true) base ∧
    Ignored (.takeoverDecision) base ∧
    Ignored (.takeover) base ∧
    Ignored (.claimConflict) base ∧
    Ignored (.tvwEnd 9) base ∧
    Ignored (.convTimeout) base ∧
    (∃ p, Completes (.claimInChange true) s328 p) ∧
    (∃ p, Completes (.claimConflict) s328 p) :=
  ⟨(((h base).2).2).1 true here,
    (((((((((h base).2).2).2).1).2).2).2).2).2 here,
    ((((((h base).2).2).2).2).2).1 here,
    ((((((((((h base).2).2).2).2).2).2).1).2).2).2 here,
    (((((((((h base).2).2).2).2).2).2).2).2).1 9 here,
    ((((((((((h base).2).2).2).2).2).2).2).2).2).2 here,
    ⟨_, ((((h s328).2).1 true here here).2).2 here here here⟩,
    ⟨_, ((((((((h s328).2).2).2).2).2).2).1).1 here here⟩⟩

theorem test_meets_ClaimsAndTakeoversComplete_2 (h : Obligations.ClaimsAndTakeoversComplete) :
    (∃ p, Completes (.join 3) s329 p) ∧
    (∃ p, Completes (.serve 3) s329 p) ∧
    (∃ p, Completes (.leave 3) s330 p) ∧
    (∃ p, Completes (.forceTakeover 3) s330 p) ∧
    (∃ p, Completes (.takeoverDecision) s330 p) ∧
    (∃ p, Completes (.takeover) s330 p) ∧
    (∃ p, Completes (.convTimeout) s330 p) ∧
    (∃ p, Completes (.tvwEnd 4080) s331 p) :=
  ⟨⟨_, ((h s329).1 3 here here).1 here here here here here here here⟩,
    ⟨_, (((h s329).1 3 here here).2).1 here here here⟩,
    ⟨_, ((((h s330).1 3 here here).2).2).1 here here⟩,
    ⟨_, ((((h s330).1 3 here here).2).2).2 here here here⟩,
    ⟨_, ((((((((h s330).2).2).2).1).2).2).2).1 here here here⟩,
    ⟨_, (((((h s330).2).2).2).2).1 here here⟩,
    ⟨_, ((((((((((h s330).2).2).2).2).2).2).2).2).2).1 here here here here⟩,
    ⟨_, ((((((((h s331).2).2).2).2).2).2).2).1 4080 here here⟩⟩

theorem test_meets_ClaimsAndTakeoversComplete_3 (h : Obligations.ClaimsAndTakeoversComplete) :
    (∃ p, Completes (.claimConflict) s332 p) ∧
    (∃ p, Completes (.claimConflict) s333 p) ∧
    (∃ p, Completes (.claimInChange false) s334 p) ∧
    (∃ p, Completes (.takeoverDecision) s334 p) ∧
    (∃ p, Completes (.takeoverDecision) s335 p) ∧
    (∃ p, Completes (.takeoverDecision) s336 p) ∧
    (∃ p, Completes (.takeoverDecision) s337 p) ∧
    (∃ p, Completes (.claimInChange true) s338 p) :=
  ⟨⟨_, (((((((((h s332).2).2).2).2).2).2).1).2).1 here here here⟩,
    ⟨_, ((((((((((h s333).2).2).2).2).2).2).1).2).2).1 here here here here here⟩,
    ⟨_, ((((h s334).2).1 false here here).2).1 here here⟩,
    ⟨_, (((((((((h s334).2).2).2).1).2).2).2).2).1 here here here⟩,
    ⟨_, (((((h s335).2).2).2).1).1 here here here⟩,
    ⟨_, (((((((h s336).2).2).2).1).2).2).1 here here here here⟩,
    ⟨_, ((((((h s337).2).2).2).1).2).1 here here here here here⟩,
    ⟨_, (((h s338).2).1 true here here).1 here⟩⟩

theorem test_meets_GelvyPortsCompleteTheirCommands_1 (h : Obligations.GelvyPortsCompleteTheirCommands) :
    Ignored (.gelvySignalDetect 3) s339 ∧
    (∃ p, Completes (.gelvyTrained 3) s339 p) ∧
    (∃ p, Completes (.gelvyLaneLos 3) s339 p) ∧
    Ignored (.helloSend 3) s339 ∧
    (∃ p, Completes (.helloTimeout 3) s339 p) ∧
    Ignored (.retryTimeout 3 false) s339 ∧
    Ignored (.superframeRx 3 v73) s339 ∧
    (∃ p, Completes (.gelvySignalDetect 3) s340 p) :=
  ⟨((h s339 3).2).1 here,
    ⟨_, (((h s339 3).2).2).1 here⟩,
    ⟨_, (((((h s339 3).2).2).2).2).1 here⟩,
    ((((((((h s339 3).2).2).2).2).2).2).2).1 here,
    ⟨_, ((((((((((h s339 3).2).2).2).2).2).2).2).2).2).1 here⟩,
    (((((((((((((h s339 3).2).2).2).2).2).2).2).2).2).2).2).1 false).1 here,
    ((((((((((((((h s339 3).2).2).2).2).2).2).2).2).2).2).2).2).2 v73).1 here,
    ⟨_, (h s340 3).1 here here⟩⟩

theorem test_meets_GelvyPortsCompleteTheirCommands_2 (h : Obligations.GelvyPortsCompleteTheirCommands) :
    Ignored (.gelvyTrained 3) s340 ∧
    Ignored (.gelvyLaneLos 3) s340 ∧
    (∃ p, Completes (.helloTimeout 3) s309 p) ∧
    (∃ p, Completes (.hello { port := 3, seq := 5, ack := 0, crcOk := true } v74) s309 p) ∧
    (∃ p, Completes (.superframeRx 3 v75) s309 p) ∧
    (∃ p, Completes (.hello { port := 3, seq := 5, ack := 0, crcOk := true } v74) s341 p) ∧
    (∃ p, Completes (.superframeRx 3 v76) s341 p) ∧
    (∃ p, Completes (.superframeRx 3 v75) s342 p) :=
  ⟨((((h s340 3).2).2).2).1 here,
    ((((((h s340 3).2).2).2).2).2).1 here,
    ⟨_, (((((((((h s309 3).2).2).2).2).2).2).2).2).1 here⟩,
    ⟨_, (((((((((((((h s309 3).2).2).2).2).2).2).2).2).2).2).1 { port := 3, seq := 5, ack := 0, crcOk := true } v74 here here here).2).1 here here here⟩,
    ⟨_, (((((((((((((((((((((h s309 3).2).2).2).2).2).2).2).2).2).2).2).2).2 v75).2).2).2).2).2).2).2).1 here here here here here⟩,
    ⟨_, ((((((((((((h s341 3).2).2).2).2).2).2).2).2).2).2).1 { port := 3, seq := 5, ack := 0, crcOk := true } v74 here here here).1 here⟩,
    ⟨_, (((((((((((((((((((h s341 3).2).2).2).2).2).2).2).2).2).2).2).2).2 v76).2).2).2).2).2).1 here here here here here⟩,
    ⟨_, (((((((((((((((((h s342 3).2).2).2).2).2).2).2).2).2).2).2).2).2 v75).2).2).2).1 here here⟩⟩

theorem test_meets_GelvyPortsCompleteTheirCommands_3 (h : Obligations.GelvyPortsCompleteTheirCommands) :
    (∃ p, Completes (.hello { port := 3, seq := 5, ack := 0, crcOk := true } v74) s343 p) ∧
    (∃ p, Completes (.superframeRx 3 v77) s343 p) ∧
    (∃ p, Completes (.superframeRx 3 v73) s342 p) ∧
    (∃ p, Completes (.hello { port := 3, seq := 5, ack := 0, crcOk := true } v74) s344 p) ∧
    (∃ p, Completes (.hello { port := 3, seq := 5, ack := 0, crcOk := true } v74) s345 p) ∧
    (∃ p, Completes (.helloSend 3) s346 p) ∧
    (∃ p, Completes (.ptpMessageRx { port := 3, seq := 5, ack := 0, crcOk := true } 4 [1#8, 2#8]) s346 p) ∧
    (∃ p, Completes (.superframeRx 3 v73) s346 p) :=
  ⟨⟨_, ((((((((((((((((h s343 3).2).2).2).2).2).2).2).2).2).2).1 { port := 3, seq := 5, ack := 0, crcOk := true } v74 here here here).2).2).2).2).1 here here here here here here⟩,
    ⟨_, ((((((((((((((((((((((h s343 3).2).2).2).2).2).2).2).2).2).2).2).2).2 v77).2).2).2).2).2).2).2).2).2 9 0 [1#8, 2#8, 3#8] here here here here here here⟩,
    ⟨_, ((((((((((((((((h s342 3).2).2).2).2).2).2).2).2).2).2).2).2).2 v73).2).2).1 here here here here⟩,
    ⟨_, ((((((((((((((h s344 3).2).2).2).2).2).2).2).2).2).2).1 { port := 3, seq := 5, ack := 0, crcOk := true } v74 here here here).2).2).1 here here here⟩,
    ⟨_, (((((((((((((((h s345 3).2).2).2).2).2).2).2).2).2).2).1 { port := 3, seq := 5, ack := 0, crcOk := true } v74 here here here).2).2).2).1 here here here here⟩,
    ⟨_, (((((((h s346 3).2).2).2).2).2).2).1 here⟩,
    ⟨_, (((((((((((((h s346 3).2).2).2).2).2).2).2).2).2).2).2).2).1 { port := 3, seq := 5, ack := 0, crcOk := true } 4 [1#8, 2#8] here⟩,
    ⟨_, (((((((((((((((h s346 3).2).2).2).2).2).2).2).2).2).2).2).2).2 v73).2).1 here here here⟩⟩

theorem test_meets_GelvyPortsCompleteTheirCommands_4 (h : Obligations.GelvyPortsCompleteTheirCommands) :
    (∃ p, Completes (.hello { port := 3, seq := 5, ack := 0, crcOk := true } v78) s347 p) ∧
    (∃ p, Completes (.superframeRx 3 v79) s348 p) ∧
    (∃ p, Completes (.superframeRx 3 v75) s349 p) ∧
    (∃ p, Completes (.retryTimeout 3 true) s350 p) ∧
    (∃ p, Completes (.retryTimeout 3 false) s351 p) ∧
    (∃ p, Completes (.superframeRx 3 v77) s352 p) ∧
    (∃ p, Completes (.hello { port := 3, seq := 5, ack := 0, crcOk := true } v78) s353 p) ∧
    (∃ p, Completes (.hello { port := 3, seq := 5, ack := 0, crcOk := true } v78) s354 p) :=
  ⟨⟨_, ((((((((((((((((((h s347 3).2).2).2).2).2).2).2).2).2).2).1 { port := 3, seq := 5, ack := 0, crcOk := true } v78 here here here).2).2).2).2).2 1 here here here here here here here).2).1 here here⟩,
    ⟨_, ((((((((((((((((((((((h s348 3).2).2).2).2).2).2).2).2).2).2).2).2).2 v79).2).2).2).2).2).2).2).2).1 here here here here⟩,
    ⟨_, ((((((((((((((((((((h s349 3).2).2).2).2).2).2).2).2).2).2).2).2).2 v75).2).2).2).2).2).2).1 here here here here⟩,
    ⟨_, ((((((((((((((h s350 3).2).2).2).2).2).2).2).2).2).2).2).1 true).2).2 here here here here⟩,
    ⟨_, ((((((((((((((h s351 3).2).2).2).2).2).2).2).2).2).2).2).1 false).2).1 here here here⟩,
    ⟨_, ((((((((((((((((((h s352 3).2).2).2).2).2).2).2).2).2).2).2).2).2 v77).2).2).2).2).1 here here here⟩,
    ⟨_, (((((((((((((((((h s353 3).2).2).2).2).2).2).2).2).2).2).1 { port := 3, seq := 5, ack := 0, crcOk := true } v78 here here here).2).2).2).2).2 1 here here here here here here here).1 here⟩,
    ⟨_, (((((((((((((((((((h s354 3).2).2).2).2).2).2).2).2).2).2).1 { port := 3, seq := 5, ack := 0, crcOk := true } v78 here here here).2).2).2).2).2 1 here here here here here here here).2).2 4 here here here here here).1 here here here⟩⟩

theorem test_meets_GelvyPortsCompleteTheirCommands_5 (h : Obligations.GelvyPortsCompleteTheirCommands) :
    (∃ p, Completes (.hello { port := 3, seq := 5, ack := 0, crcOk := true } v78) s355 p) :=
  ⟨_, (((((((((((((((((((h s355 3).2).2).2).2).2).2).2).2).2).2).1 { port := 3, seq := 5, ack := 0, crcOk := true } v78 here here here).2).2).2).2).2 1 here here here here here here here).2).2 4 here here here here here).2 here⟩

theorem test_meets_GroupOutcomesAndProxiesComplete_1 (h : Obligations.GroupOutcomesAndProxiesComplete) :
    Ignored (.memberDepart 2) s356 ∧
    (∃ p, Completes (.proxyAccess 3 25240391 false 15 0x99#32) s356 p) ∧
    (∃ p, Completes (.proxyAccess 3 25240391 true 15 0x99#32) s356 p) ∧
    (∃ p, Completes (.memberDepart 2) s357 p) ∧
    (∃ p, Completes (.proxyAccess 3 25240391 true 15 0x99#32) s357 p) ∧
    (∃ p, Completes (.groupCancelRx { port := 3, seq := 5, ack := 0, crcOk := true } 4) s358 p) ∧
    (∃ p, Completes (.proxyAccess 3 25240391 false 15 0x99#32) s358 p) ∧
    (∃ p, Completes (.proxyAccess 3 25240391 true 15 0x99#32) s358 p) :=
  ⟨(h s356).1 2 here,
    ⟨_, ((((((((((h s356).2).2).2).2).2).2).1 3 25240391 15 0x99#32 here here here).2).1 here here).1⟩,
    ⟨_, ((((((((((h s356).2).2).2).2).2).2).1 3 25240391 15 0x99#32 here here here).2).1 here here).2⟩,
    ⟨_, (((h s357).2).1 1 here here here).1 here here⟩,
    ⟨_, (((((((((h s357).2).2).2).2).2).2).1 3 25240391 15 0x99#32 here here here).2).2 here here here here true⟩,
    ⟨_, ((((((h s358).2).2).2).2).2).1 { port := 3, seq := 5, ack := 0, crcOk := true } 4 here here here⟩,
    ⟨_, (((((((((h s358).2).2).2).2).2).2).1 3 25240391 15 0x99#32 here here here).1 here).1⟩,
    ⟨_, (((((((((h s358).2).2).2).2).2).2).1 3 25240391 15 0x99#32 here here here).1 here).2⟩⟩

theorem test_meets_GroupOutcomesAndProxiesComplete_2 (h : Obligations.GroupOutcomesAndProxiesComplete) :
    (∃ p, Completes (.rraRsp { port := 3, seq := 5, ack := 0, crcOk := true } 70 0 0x99#32) s358 p) ∧
    (∃ p, Completes (.rraRsp { port := 3, seq := 5, ack := 0, crcOk := true } 70 1 0x99#32) s358 p) ∧
    (∃ p, Completes (.rraRsp { port := 3, seq := 5, ack := 0, crcOk := true } 71 0 0x99#32) s358 p) ∧
    (∃ p, Completes (.proxyTimeout 70) s358 p) ∧
    Ignored (.proxyTimeout 71) s358 ∧
    (∃ p, Completes (.memberDepart 2) s359 p) ∧
    (∃ p, Completes (.proxyAccess 3 25240391 false 15 0x99#32) s359 p) ∧
    (∃ p, Completes (.rraRsp { port := 3, seq := 5, ack := 0, crcOk := true } 70 0 0x99#32) s359 p) :=
  ⟨⟨_, (((((((((((h s358).2).2).2).2).2).2).2).2 v80 { port := 3, seq := 5, ack := 0, crcOk := true } 0x99#32 here here here here here here here).2).2).1 here here⟩,
    ⟨_, ((((((((((((h s358).2).2).2).2).2).2).2).2 v80 { port := 3, seq := 5, ack := 0, crcOk := true } 0x99#32 here here here here here here here).2).2).2).1 here here⟩,
    ⟨_, (((((((((((((h s358).2).2).2).2).2).2).2).2 v80 { port := 3, seq := 5, ack := 0, crcOk := true } 0x99#32 here here here here here here here).2).2).2).2).1 here⟩,
    ⟨_, (((((((((((((((h s358).2).2).2).2).2).2).2).2 v80 { port := 3, seq := 5, ack := 0, crcOk := true } 0x99#32 here here here here here here here).2).2).2).2).2).2).1 here⟩,
    (((((((((((((((h s358).2).2).2).2).2).2).2).2 v80 { port := 3, seq := 5, ack := 0, crcOk := true } 0x99#32 here here here here here here here).2).2).2).2).2).2).2,
    ⟨_, ((((h s359).2).1 1 here here here).2).2 v81 here here here here here here here⟩,
    ⟨_, ((((((((h s359).2).2).2).2).2).2).2).1 3 25240391 15 0x99#32 here here here⟩,
    ⟨_, (((((((((h s359).2).2).2).2).2).2).2).2 v81 { port := 3, seq := 5, ack := 0, crcOk := true } 0x99#32 here here here here here here here).1 here here here⟩⟩

theorem test_meets_GroupOutcomesAndProxiesComplete_3 (h : Obligations.GroupOutcomesAndProxiesComplete) :
    (∃ p, Completes (.proxyTimeout 70) s359 p) ∧
    (∃ p, Completes (.result { port := 3, seq := 5, ack := 0, crcOk := true } 12 0 5 1 1) s360 p) ∧
    (∃ p, Completes (.groupCancelRx { port := 3, seq := 5, ack := 0, crcOk := true } 4) s360 p) ∧
    (∃ p, Completes (.memberDepart 2) s361 p) ∧
    (∃ p, Completes (.rraRsp { port := 3, seq := 5, ack := 0, crcOk := true } 70 0 0x99#32) s362 p) ∧
    (∃ p, Completes (.groupCancelRx { port := 3, seq := 5, ack := 0, crcOk := true } 4) s363 p) ∧
    (∃ p, Completes (.result { port := 3, seq := 5, ack := 0, crcOk := true } 12 3 5 1 1) s364 p) ∧
    (∃ p, Completes (.result { port := 3, seq := 5, ack := 0, crcOk := true } 12 0 5 1 1) s365 p) :=
  ⟨⟨_, ((((((((((((((h s359).2).2).2).2).2).2).2).2 v81 { port := 3, seq := 5, ack := 0, crcOk := true } 0x99#32 here here here here here here here).2).2).2).2).2).1 here⟩,
    ⟨_, ((((h s360).2).2).2).1 { port := 3, seq := 5, ack := 0, crcOk := true } 0 5 1 1 12 here here⟩,
    ⟨_, ((((((h s360).2).2).2).2).1 { port := 3, seq := 5, ack := 0, crcOk := true } v82 here here here here here here here here here here here).1 here⟩,
    ⟨_, ((((h s361).2).1 1 here here here).2).1 v83 3 here here here here⟩,
    ⟨_, ((((((((((h s362).2).2).2).2).2).2).2).2 v84 { port := 3, seq := 5, ack := 0, crcOk := true } 0x99#32 here here here here here here here).2).1 25240388 [25240392] here here here here here here here here here here⟩,
    ⟨_, ((((((h s363).2).2).2).2).1 { port := 3, seq := 5, ack := 0, crcOk := true } v82 here here here here here here here here here here here).2 here here⟩,
    ⟨_, ((((h s364).2).2).1 { port := 3, seq := 5, ack := 0, crcOk := true } v85 3 5 1 1 here here here).1 here here⟩,
    ⟨_, ((((h s365).2).2).1 { port := 3, seq := 5, ack := 0, crcOk := true } v86 0 5 1 1 here here here).2 v87 here here here here here here⟩⟩

theorem test_meets_HatterCommandsComplete_1 (h : Obligations.HatterCommandsComplete) :
    Ignored (.hatterBoot) base ∧
    Ignored (.hatterBootTimeout) base ∧
    Ignored (.hatterRun) base ∧
    Ignored (.hatterWatchdog false) base ∧
    (∃ p, Completes (.h2cDbWrite 3 0x12345679#32) base p) ∧
    (∃ p, Completes (.c2hAckWrite 3 0x12345679#32) base p) ∧
    Ignored (.getInfo) base ∧
    Ignored (.imgWrite true 5) base :=
  ⟨((((((h base).1).2).2).2).2).1 here,
    (((((((((h base).1).2).2).2).2).2).2).2 here).1,
    (((((((((h base).1).2).2).2).2).2).2).2 here).2,
    ((((h base).2).2).1 false here).2 here,
    ⟨_, (((((((h base).2).2).2).2).2).1 here here 3 0x12345679#32).1⟩,
    ⟨_, (((((((h base).2).2).2).2).2).1 here here 3 0x12345679#32).2⟩,
    (((((((((h base).2).2).2).2).2).2).2).1 here).1,
    ((((((((((h base).2).2).2).2).2).2).2).1 here).2 true 5).1⟩

theorem test_meets_HatterCommandsComplete_2 (h : Obligations.HatterCommandsComplete) :
    Ignored (.imgErase true 5) base ∧
    Ignored (.imgCommit true) base ∧
    Ignored (.feLoad) base ∧
    (∃ p, Completes (.hatterBoot) s366 p) ∧
    (∃ p, Completes (.restart 3) s366 p) ∧
    (∃ p, Completes (.h2cDbWrite 3 0x12345679#32) s366 p) ∧
    (∃ p, Completes (.c2hAckWrite 3 0x12345679#32) s366 p) ∧
    (∃ p, Completes (.remapSwap 3 0x12345679#32) s366 p) :=
  ⟨(((((((((((h base).2).2).2).2).2).2).2).1 here).2 true 5).2).1,
    ((((((((((((h base).2).2).2).2).2).2).2).1 here).2 true 5).2).2).1,
    ((((((((((((h base).2).2).2).2).2).2).2).1 here).2 true 5).2).2).2,
    ⟨_, (((((h s366).1).2).2).2).1 here here here⟩,
    ⟨_, (((((h s366).2).2).2).1 3 here here here).2 here⟩,
    ⟨_, ((((((h s366).2).2).2).2).1 3 0x12345679#32 here).1⟩,
    ⟨_, (((((((h s366).2).2).2).2).1 3 0x12345679#32 here).2).1⟩,
    ⟨_, ((((((((h s366).2).2).2).2).1 3 0x12345679#32 here).2).2).2 here⟩⟩

theorem test_meets_HatterCommandsComplete_3 (h : Obligations.HatterCommandsComplete) :
    (∃ p, Completes (.hatterWatchdog false) s367 p) ∧
    (∃ p, Completes (.remapSwap 4 0x12345679#32) s367 p) ∧
    (∃ p, Completes (.hatterBootTimeout) s368 p) ∧
    (∃ p, Completes (.hatterRun) s368 p) ∧
    (∃ p, Completes (.restart 3) s369 p) ∧
    (∃ p, Completes (.getInfo) s370 p) ∧
    (∃ p, Completes (.feLoad) s371 p) ∧
    (∃ p, Completes (.imgWrite true 0) s372 p) :=
  ⟨⟨_, ((((h s367).2).2).1 false here).1 here⟩,
    ⟨_, ((((((((h s367).2).2).2).2).1 4 0x12345679#32 here).2).2).1 here⟩,
    ⟨_, ((((((((h s368).1).2).2).2).2).2).2).1 here here⟩,
    ⟨_, ((h s368).2).1 here⟩,
    ⟨_, (((((h s369).2).2).2).1 3 here here here).1 here⟩,
    ⟨_, (((((((h s370).2).2).2).2).2).2).1 here⟩,
    ⟨_, (((((((((((h s371).2).2).2).2).2).2).2).2).2).2).1 here here⟩,
    ⟨_, ((((((((((h s372).2).2).2).2).2).2).2).2).1 true 0).1 here here⟩⟩

theorem test_meets_HatterCommandsComplete_4 (h : Obligations.HatterCommandsComplete) :
    (∃ p, Completes (.imgWrite true 2) s373 p) ∧
    (∃ p, Completes (.imgCommit true) s374 p) ∧
    (∃ p, Completes (.imgWrite false 2) s375 p) ∧
    (∃ p, Completes (.imgErase true 4) s376 p) ∧
    (∃ p, Completes (.imgErase true 4) s377 p) ∧
    (∃ p, Completes (.imgCommit true) s378 p) ∧
    (∃ p, Completes (.imgErase false 4) s379 p) ∧
    (∃ p, Completes (.feLoad) s380 p) :=
  ⟨⟨_, (((((((((((h s373).2).2).2).2).2).2).2).2).1 true 2).2).1 here here here⟩,
    ⟨_, ((((((((((((h s374).2).2).2).2).2).2).2).2).2).1 true).2).1 here here here⟩,
    ⟨_, ((((((((((((h s375).2).2).2).2).2).2).2).2).1 false 2).2).2).1 here here here⟩,
    ⟨_, ((((((((((((((h s376).2).2).2).2).2).2).2).2).1 true 4).2).2).2).2).2 here here here⟩,
    ⟨_, ((((((((((((((h s377).2).2).2).2).2).2).2).2).1 true 4).2).2).2).2).1 here here here⟩,
    ⟨_, (((((((((((h s378).2).2).2).2).2).2).2).2).2).1 true).1 here here⟩,
    ⟨_, (((((((((((((h s379).2).2).2).2).2).2).2).2).1 false 4).2).2).2).1 here here⟩,
    ⟨_, ((((((((((((h s380).2).2).2).2).2).2).2).2).2).2).2).2 here here here here⟩⟩

theorem test_meets_HatterCommandsComplete_5 (h : Obligations.HatterCommandsComplete) :
    (∃ p, Completes (.hatterBoot) s381 p) ∧
    (∃ p, Completes (.hatterBootTimeout) s382 p) ∧
    (∃ p, Completes (.feLoad) s383 p) ∧
    (∃ p, Completes (.hatterBoot) s384 p) ∧
    (∃ p, Completes (.hatterBoot) s385 p) ∧
    (∃ p, Completes (.imgCommit true) s386 p) ∧
    (∃ p, Completes (.imgCommit false) s387 p) :=
  ⟨⟨_, (((h s381).1).2).1 here here here here⟩,
    ⟨_, (((((((h s382).1).2).2).2).2).2).1 here here⟩,
    ⟨_, ((((((((((((h s383).2).2).2).2).2).2).2).2).2).2).2).1 here here here⟩,
    ⟨_, ((h s384).1).1 here here⟩,
    ⟨_, ((((h s385).1).2).2).1 here here here⟩,
    ⟨_, (((((((((((((h s386).2).2).2).2).2).2).2).2).2).1 true).2).2).2 here here here here⟩,
    ⟨_, (((((((((((((h s387).2).2).2).2).2).2).2).2).2).1 false).2).2).1 here here here here⟩⟩

theorem test_meets_InterruptCommandsComplete (h : Obligations.InterruptCommandsComplete) :
    (∃ p, Completes (.eoi 3 7#32) base p) ∧
    (∃ p, Completes (.msixUnmask 5) base p) ∧
    (∃ p, Completes (.eoi 3 7#32) s388 p) ∧
    (∃ p, Completes (.msixUnmask 5) s388 p) ∧
    (∃ p, Completes (.msixUnmask 5) s389 p) :=
  ⟨⟨_, ((h base).2).1 3 7#32 here here⟩,
    ⟨_, (((h base).2).2 5).1 here⟩,
    ⟨_, (h s388).1 3 7#32 here here⟩,
    ⟨_, ((((h s388).2).2 5).2).1 here here here here⟩,
    ⟨_, ((((h s389).2).2 5).2).2 here here here here here here⟩⟩

theorem test_meets_MonitorCommandsComplete_1 (h : Obligations.MonitorCommandsComplete) :
    (∃ p, Completes (.gaugeClear 3) s390 p) ∧
    (∃ p, Completes (.gWr 3 0xFFFFFFF0#32) s390 p) ∧
    (∃ p, Completes (.traceStart 3) s390 p) ∧
    (∃ p, Completes (.traceStop 3) s390 p) ∧
    (∃ p, Completes (.traceReset 3) s390 p) ∧
    (∃ p, Completes (.tRdIdxWrite 3 5#32) s390 p) ∧
    (∃ p, Completes (.pop 3) s390 p) ∧
    Ignored (.instrTagRecord 2 4660 0x55#32 0x77#32 70000 21 5000 false) s390 :=
  ⟨⟨_, ((h s390 3).1).1 here here⟩,
    ⟨_, (((h s390 3).1).2 0xFFFFFFF0#32 here here here).1 here⟩,
    ⟨_, (((h s390 3).2).1 here).1 here⟩,
    ⟨_, ((((h s390 3).2).1 here).2).1 here⟩,
    ⟨_, ((((((h s390 3).2).1 here).2).2).1 here).2 here⟩,
    ⟨_, ((((((h s390 3).2).1 here).2).2).2).1 5#32⟩,
    ⟨_, ((((((h s390 3).2).1 here).2).2).2).2 here⟩,
    ((((h s390 3).2).2 2 4660 0x55#32 0x77#32 70000 21 5000 false here).2).2 here⟩

theorem test_meets_MonitorCommandsComplete_2 (h : Obligations.MonitorCommandsComplete) :
    (∃ p, Completes (.traceReset 3) s391 p) ∧
    (∃ p, Completes (.gWr 3 0xFFFFFFF0#32) s392 p) ∧
    (∃ p, Completes (.gWr 3 0x80000000#32) s393 p) ∧
    (∃ p, Completes (.instrTagRecord 2 4660 0x55#32 0x77#32 70000 21 5000 false) s394 p) ∧
    (∃ p, Completes (.instrTagRecord 2 4660 0x55#32 0x77#32 70000 21 5000 false) s395 p) :=
  ⟨⟨_, ((((((h s391 3).2).1 here).2).2).1 here).1 here⟩,
    ⟨_, ((((h s392 3).1).2 0xFFFFFFF0#32 here here here).2).2 here here⟩,
    ⟨_, ((((h s393 3).1).2 0x80000000#32 here here here).2).1 here here⟩,
    ⟨_, (((h s394 3).2).2 2 4660 0x55#32 0x77#32 70000 21 5000 false here).1 here here⟩,
    ⟨_, ((((h s395 3).2).2 2 4660 0x55#32 0x77#32 70000 21 5000 false here).2).1 here here⟩⟩

theorem test_meets_MappingWindowCommandsComplete_checked_bank :
    (checkBank s396 0 1).1 = 0 ∧
    3 ∈ s396.used 0 1 ∧
    9 ∈ s396.used 0 1 ∧
    3 ≠ 9 ∧
    (fmtFam (s396.g (bankFmt 0 1)) = .sdh ∧ s396.g (bankFmt 0 1) ≠ 0) ∧
    s396.used 0 1 ≠ [] ∧
    17 < stsOf (fmtRate (s396.g (bankFmt 0 1))) := by decide +kernel

theorem test_meets_SelectorCommandsComplete_kind :
    s397.usable (lgBase 0 + 0xF000) = true ∧
    alone s397 ∧
    s397.on (LGP_SW_CMD_WRITE 0) = false ∧
    11 < (s397.rd (LGP_SW_D_DATA 0 1).addr).toNat % 16 := by decide +kernel

theorem test_meets_SelectorCommandsComplete_width :
    s398.usable (lgBase 0 + 0xF000) = true ∧
    alone s398 ∧
    s398.on (LGP_SW_CMD_WRITE 0) = false ∧
    swCode s398 0 ≠ 1 ∧
    ((s398.rd (LGP_SW_D_DATA 0 1).addr).toNat / 2 ^ 15 % 2 ^ 12 = 0 ∨ (s398.rd (LGP_SW_D_DATA 0 1).addr).toNat / 2 ^ 15 % 2 ^ 12 = 4095) := by decide +kernel

theorem test_meets_SelectorCommandsComplete_scheme :
    s399.usable (lgBase 0 + 0xF000) = true ∧
    alone s399 ∧
    s399.on (LGP_SW_CMD_WRITE 0) = false ∧
    swCode s399 0 ∉ [1, 2, 3] ∧
    ((s399.rd (LGP_SW_D_DATA 0 0).addr).toNat / 2 % 4 = 3 ∨ 8 < (s399.rd (LGP_SW_D_DATA 0 0).addr).toNat / 32 % 16) := by decide +kernel

theorem test_meets_SelectorCommandsComplete_source :
    s400.usable (lgBase 0 + 0xF000) = true ∧
    alone s400 ∧
    s400.on (LGP_SW_CMD_WRITE 0) = false ∧
    (s400.g (LGP_SW_SEL_SRC 0) == 1) = true := by decide +kernel

theorem test_meets_EpochsResolveToBoundaries (h : Obligations.EpochsResolveToBoundaries) :
    resolveNs 124968 (classPeriod false) = 1 * 125000 ∧ resolveNs 125032 (classPeriod false) = 1 * 125000 ∧
    resolveNs 125033 (classPeriod false) = 1 * 125000 ∧ resolveNs 2967 (classPeriod true) = 2 * 1000 ∧ resolveNs 2968 (classPeriod true) = 3 * 1000 ∧
    tickOfNs false (resolveNs 32 (classPeriod false)) = 0 :=
  ⟨(h false 124968 1).1 (by decide) (by decide), (h false 125032 1).1 (by decide) (by decide), (h false 125033 1).2.1 (by decide) (by decide),
    (h true 2967 2).2.1 (by decide) (by decide), (h true 2968 3).1 (by decide) (by decide), (h false 32 0).2.2.2.2.2 rfl⟩

theorem test_meets_RecordedSamplesUpdateTheGauge (h : Obligations.RecordedSamplesUpdateTheGauge) :
    (∃ l, Sets l base (gaugeRecord base 7 (-2147483648))) ∧ (∃ l, Sets l base (gaugeRecord base 7 0)) ∧
    (∃ l, Sets l base (gaugeRecord base 7 29)) ∧ (∃ l, Sets l base (gaugeRecord base 7 2147483647)) :=
  ⟨⟨_, h base 7 (-2147483648) (by decide) (by decide) 0 here here here⟩,
    ⟨_, h base 7 0 (by decide) (by decide) 1 here here here⟩,
    ⟨_, h base 7 29 (by decide) (by decide) 30 here here here⟩,
    ⟨_, h base 7 2147483647 (by decide) (by decide) 31 here here here⟩⟩

theorem test_meets_SettleTouchesInterruptsOnly_open :
    (has (irqLevels s401) 7 ∧ ¬has s401.hst.vecLvl 7 ∧ has s401.hst.armed 7 ∧ s401.hst.msixEn = true) ∧
    (s401.hst.fnMask = false ∧ ¬has s401.hst.vecMask 7) := by decide +kernel

theorem test_meets_SettleTouchesInterruptsOnly_masked :
    (has (irqLevels s402) 0 ∧ ¬has s402.hst.vecLvl 0 ∧ has s402.hst.armed 0 ∧ s402.hst.msixEn = true) ∧
    ¬(s402.hst.fnMask = false ∧ ¬has s402.hst.vecMask 0) := by decide +kernel

theorem test_meets_SettleTouchesInterruptsOnly_quiet :
    ¬(has (irqLevels s403) 7 ∧ ¬has s403.hst.vecLvl 7 ∧ has s403.hst.armed 7 ∧ s403.hst.msixEn = true) := by decide +kernel

/-! Ill-formed terms, one for each check of WellFormed.lean; the first of each group is well formed. -/

def okEnv : Env := ⟨3, 5, 6, true⟩
def okAct : ActMsg := ⟨9, 0, false, [⟨1, 2, 3⟩], ⟨false, false, false, 1, 2⟩, 4⟩
def okHello : Hello := ⟨1, 2, 3, 4, 5, true, false, true, false⟩
def okBeat : Beat := ⟨7, 8, 3, 2, true, false, 5, 1, 1, 0, 15⟩
def okOdu : OduObs := ⟨0, 0, false, 1, none, none⟩
def okPath : PathObs := ⟨12, 0, 0, 0, .valid 522 false, false, false, 2, false, none, okOdu, [], false⟩
def okLine : LineObs := ⟨0, 8, [⟨3, 1, 5⟩], [], 0xF6F6F6282828, 1, 2, 0, 0, 0, 0, 0, 0, none, okOdu, okOdu, [okOdu], none, none, [okPath], [⟨0, 251, 0, 0, 0, 0, 0, [], [], [], [], false⟩], 4, 1, [(19, 3, 0)], [(9, 1)], [], 7⟩
def okFrame : FrameObs :=
  ⟨[⟨5, 1, [1], some 0⟩], [⟨1, 254, [1]⟩], [⟨15, 15, 0, false, false, false, []⟩], [⟨191, 0, [1, 2], [1]⟩], [(7, 9)], 40000, [3], [(191, 5)], [(7, 5)]⟩
def okSuper : SuperObs := ⟨true, 0, true, 9, false, 0, 0, [3], [(3743, 1, [])], 5⟩
def okBatt : BattObs := ⟨1, 2, some 15, false, false, 0, 10, 0, 0⟩

theorem test_wf_env : okEnv.wf = true ∧ { okEnv with seq := 2 ^ 32 }.wf = false ∧ { okEnv with ack := 2 ^ 32 }.wf = false := by decide
theorem test_wf_item : (Item.mk 255 1 2).wf = true ∧ (Item.mk 256 1 2).wf = false ∧ (Item.mk 1 (2 ^ 24) 2).wf = false ∧
    (Item.mk 1 1 (2 ^ 32)).wf = false := by decide
theorem test_wf_action : okAct.wf = true ∧ { okAct with items := [] }.wf = false ∧ { okAct with items := List.replicate 257 ⟨1, 2, 3⟩ }.wf = false ∧
    { okAct with items := [⟨256, 2, 3⟩] }.wf = false ∧ { okAct with tick := 125, us := true }.wf = false ∧ { okAct with tick := 1 }.wf = false ∧
    { okAct with hdr := ⟨false, false, false, 256, 2⟩ }.wf = false ∧ { okAct with hdr := ⟨false, false, false, 1, 65536⟩ }.wf = false := by decide +kernel
theorem test_wf_hello : okHello.wf = true ∧ { okHello with role := 3 }.wf = false ∧ { okHello with id := 8 }.wf = false ∧
    { okHello with mode := 6 }.wf = false ∧ { okHello with groupTag := 65536 }.wf = false ∧ { okHello with pairId := 65536 }.wf = false := by decide
theorem test_wf_beat : okBeat.wf = true ∧ { okBeat with mode := 6 }.wf = false ∧ { okBeat with twin := 8 }.wf = false ∧
    { okBeat with complete := 2 ^ 100 }.wf = false ∧ { okBeat with pairId := 65536 }.wf = false := by decide
theorem test_wf_odu : okOdu.wf = true ∧ { okOdu with bip := 256 }.wf = false ∧ { okOdu with bei := 16 }.wf = false ∧ { okOdu with stat := 8 }.wf = false ∧
    { okOdu with tti := some [1] }.wf = false ∧ { okOdu with pt := some 256 }.wf = false := by decide
theorem test_wf_path : okPath.wf = true ∧ { okPath with idx := 2048 }.wf = false ∧ { okPath with trib := 29 }.wf = false ∧ { okPath with bip := 256 }.wf = false ∧
    { okPath with rei := 16 }.wf = false ∧ { okPath with ptr := .valid 1024 false }.wf = false ∧ { okPath with label := 256 }.wf = false ∧
    { okPath with pj := true, nj := true }.wf = false ∧ { okPath with odu := { okOdu with bei := 16 } }.wf = false ∧
    { okPath with tcm := List.replicate 7 okOdu }.wf = false ∧ { okPath with tcm := [{ okOdu with bei := 16 }] }.wf = false ∧
    { okPath with trace := some (List.replicate 65 0) }.wf = false := by decide +kernel
theorem test_wf_trib :
    let x : TribObs := { kind := 1, num := 23, c0 := 0, c1 := 0, c2 := 0, c3 := 0 }
    x.wf = true ∧ { x with kind := 2 }.wf = false ∧ { x with num := 24 }.wf = false ∧ { x with kind := 0, num := 252 }.wf = false := by decide
theorem test_wf_line_bits : okLine.wf = true ∧ { okLine with lo := 9, ms := [] }.wf = false ∧ { okLine with ms := [⟨8, 1, 5⟩] }.wf = false ∧
    { okLine with lo := 4 }.wf = false ∧ { okLine with ms := [⟨3, 256, 5⟩] }.wf = false ∧ { okLine with ms := [⟨3, 1, 2 ^ 48⟩] }.wf = false ∧ { okLine with fas := 2 ^ 48 }.wf = false ∧ { okLine with b1s := [(0, 256, 0)] }.wf = false ∧ { okLine with b1s := [(0, 0, 256)] }.wf = false ∧
    { okLine with lls := [(20, 0, 0)] }.wf = false ∧ { okLine with lls := [(0, 4, 0)] }.wf = false ∧ { okLine with mfas := 256 }.wf = false ∧ { okLine with ss := 4 }.wf = false ∧
    { okLine with k1 := 256 }.wf = false ∧ { okLine with k2 := 256 }.wf = false ∧ { okLine with s1 := 256 }.wf = false ∧ { okLine with b1 := 256 }.wf = false ∧
    { okLine with b2 := 2 ^ 1536 }.wf = false ∧ { okLine with rei := 65536 }.wf = false := by decide +kernel
theorem test_wf_line_lists : { okLine with trace := some (List.replicate 65 0) }.wf = false ∧ { okLine with sm := { okOdu with stat := 8 } }.wf = false ∧
    { okLine with odu := { okOdu with stat := 8 } }.wf = false ∧ { okLine with tcm := List.replicate 7 okOdu }.wf = false ∧
    { okLine with tcm := [{ okOdu with stat := 8 }] }.wf = false ∧ { okLine with msi := some (List.replicate 81 0) }.wf = false ∧
    { okLine with ext := some 65536 }.wf = false ∧ { okLine with paths := [{ okPath with idx := 2048 }] }.wf = false ∧
    { okLine with tribs := [{ kind := 2, num := 0, c0 := 0, c1 := 0, c2 := 0, c3 := 0 }] }.wf = false ∧ { okLine with blocks := 5 }.wf = false ∧ { okLine with oh := [(256, 1)] }.wf = false ∧
    { okLine with stream := List.replicate 769 0 }.wf = false ∧ { okLine with at_ := 8192000000 }.wf = false := by decide +kernel
theorem test_wf_slot : slotWf 9 (8, 3, []) = true ∧ slotWf 9 (9, 3, []) = false ∧ slotWf 9 (8, 4, []) = false ∧ slotWf 9 (8, 0, []) = false ∧
    slotWf 9 (8, 1, [0]) = false ∧ slotWf 9 (8, 0, List.replicate 810 0) = true := by decide +kernel
theorem test_wf_frame : okFrame.wf = true ∧ { okFrame with stores := [⟨192, 1, [1], none⟩] }.wf = false ∧ { okFrame with stores := [⟨5, 2048, [1], none⟩] }.wf = false ∧
    { okFrame with stores := [⟨5, 1, [1], some 1⟩] }.wf = false ∧ { okFrame with odus := [⟨192, 0, []⟩] }.wf = false ∧ { okFrame with odus := [⟨0, 255, []⟩] }.wf = false ∧
    { okFrame with vcats := [⟨16, 0, 0, false, false, false, []⟩] }.wf = false ∧ { okFrame with vcats := [⟨0, 16, 0, false, false, false, []⟩] }.wf = false ∧
    { okFrame with eg := [⟨192, 1, [], []⟩] }.wf = false ∧ { okFrame with eg := [⟨0, 1, [1], [1]⟩] }.wf = false ∧ { okFrame with lat := [(98304, 9)] }.wf = false ∧
    { okFrame with cyc := 2 ^ 18 }.wf = false ∧ { okFrame with det := [192] }.wf = false ∧ { okFrame with dep := [(192, 0)] }.wf = false ∧
    { okFrame with dep := [(0, 8192000000)] }.wf = false ∧ { okFrame with lm := [(8, 0)] }.wf = false ∧ { okFrame with lm := [(0, 8192000000)] }.wf = false := by decide +kernel
theorem test_wf_super : okSuper.wf = true ∧ { okSuper with slots := [(3744, 1, [])] }.wf = false ∧ { okSuper with ucwSlots := [3744] }.wf = false ∧
    { okSuper with at_ := 8192000000 }.wf = false := by decide
theorem test_wf_batt : okBatt.wf = true ∧ { okBatt with corr := 16 }.wf = false ∧ { okBatt with ue := some 16 }.wf = false := by decide

/-- Commands whose fields are checked as they stand. -/
theorem test_wf_command_fields : ∀ i ∈ ([
    .registerWrite 0 (2 ^ 26) 0 15 false none, .lgPostedWrite 0 1 [(0x10000, 0, 15)], .lgPostedWrite 0 1 [(4, 0, 16)], .parityScanPass 5 [2 ^ 40],
    .counterPreset 0 (2 ^ 25) 0 0, .occAckWrite 0 (2 ^ 25) 0, .counterLowRead 0 (2 ^ 25), .plankDispatch 3 125 [], .plankDispatch 3 0 [(0, 256, 1)],
    .plankDispatch 3 0 [(0, 1, 5)], .eyeMeasureDone 0 true 65536 0, .eyeMeasureDone 0 true 0 65536, .hitlessAcquired 0 [1] 5,
    .hitlessAcquired 0 (List.replicate 8 1) 0, .delayStep 0 true [1], .portTimestamp 0 true 65536 0 0 0, .portTimestamp 0 true 0 16 0 0, .todRxMessage [] 0,
    .tvwEnd (2 ^ 192), .pcieWriteTlp .bar0 2 [(0, 15)] false, .pcieWriteTlp .bar0 4 [] false, .pcieWriteTlp .bar0 4 [(0, 16)] false,
    .pcieReadTlp .bar0 2 1 false 0, .pcieReadTlp .bar0 4 0 false 0, .pcieReadTlp .bar0 4 1025 false 0, .regionMeasure [] (List.replicate 16 0),
    .regionMeasure (List.replicate 16 0) [], .instrTagRecord 0 2 0 0 0 0 0 false, .instrTagRecord 0 (2 ^ 15) 0 0 0 0 0 false,
    .instrTagRecord 0 4 0 0 65536 0 0 false, .instrTagRecord 0 4 0 0 0 65536 0 false, .instrTagRecord 0 4 0 0 0 0 65536 false] : List Instr),
    i.wf = false := by decide +kernel
/-- Messages of the control channel. -/
theorem test_wf_command_messages : ∀ i ∈ ([
    .heartbeat okEnv { okBeat with mode := 6 }, .fwdWrite okEnv (2 ^ 25) 0 0 0 0, .fwdWrite okEnv 0 0 0 8 0, .digest okEnv true 0 [],
    .digest okEnv true 0 (List.replicate 192 (0, 16)), .copy okEnv 100 0 0 0 [] false, .copy okEnv 0 65536 0 0 [] false, .copyAck okEnv 100 0,
    .copyAck okEnv 0 65536, .joinRx okEnv 65536 0, .refuse okEnv 7, .hello okEnv { okHello with role := 3 }, .result okEnv 0 7 0 0 0,
    .result okEnv 0 0 0 257 0, .result okEnv 0 0 0 0 256, .rraReq okEnv 0 (2 ^ 26) true 15 0, .rraRsp okEnv 0 2 0,
    .actionMessageRx okEnv { okAct with items := [] } []] : List Instr), i.wf = false := by decide +kernel
/-- What carries a bad envelope or a bad observation is itself ill-formed. -/
theorem test_wf_command_parts : ∀ i ∈ ([
    .frameTick { okFrame with cyc := 2 ^ 18 }, .lineFrame 0 { okLine with ss := 4 }, .battReadReturn 0 0 { okBatt with corr := 16 },
    .superframeRx 0 { okSuper with ucwSlots := [3744] }, .actionMessageRx { okEnv with seq := 2 ^ 32 } okAct [], .ttStampRx { okEnv with seq := 2 ^ 32 } 0 0 0 true 0 0,
    .heartbeat { okEnv with seq := 2 ^ 32 } okBeat, .fwdWrite { okEnv with seq := 2 ^ 32 } 0 0 0 0 0,
    .digest { okEnv with seq := 2 ^ 32 } true 0 (List.replicate 192 (0, 0)), .copy { okEnv with seq := 2 ^ 32 } 0 0 0 0 [] false,
    .copyAck { okEnv with seq := 2 ^ 32 } 0 0, .joinRx { okEnv with seq := 2 ^ 32 } 0 0, .accept { okEnv with seq := 2 ^ 32 } 0,
    .refuse { okEnv with seq := 2 ^ 32 } 1, .hello { okEnv with seq := 2 ^ 32 } okHello, .result { okEnv with seq := 2 ^ 32 } 0 0 0 0 0,
    .groupCancelRx { okEnv with seq := 2 ^ 32 } 0, .rraReq { okEnv with seq := 2 ^ 32 } 0 0 true 15 0, .rraRsp { okEnv with seq := 2 ^ 32 } 0 0 0,
    .ptpMessageRx { okEnv with seq := 2 ^ 32 } 0 []] : List Instr), i.wf = false := by decide +kernel

/-! Worked numbers of the spec. -/

/-- Table 3-2: EPOCH_NS, class, boundary and tick. -/
theorem test_epochs_table_3_2 : ∀ r ∈ ([(0, false, 0, 0), (80000, false, 0, 0), (124968, false, 125000, 0), (124967, false, 0, 0), (125020, false, 125000, 0),
    (500000970, true, 500001000, 1), (500007990, true, 500008000, 8), (500000960, true, 500000000, 0)] : List (Nat × Bool × Nat × Nat)),
    resolveNs r.1 (classPeriod r.2.1) = r.2.2.1 ∧ tickOfNs r.2.1 (resolveNs r.1 (classPeriod r.2.1)) = r.2.2.2 := by decide +kernel

/-- Gauge 2 with its first edge at -150 and a step of 10 (the chapter's worked example). -/
def gauge2 : State := base.u [(MON_G_EDGE0_EDGE0 2, 0xFFFFFF6A), (MON_G_STEP_STEP 2, 10)]

/-- Table 19-6: the samples -12, 3, -200 and 175. -/
theorem test_gauge_table_19_6 :
    let t := [(-12 : Int), 3, -200, 175].foldl (fun s v => gaugeRecord s 2 v) gauge2
    [14, 16, 0, 31, 15].map (fun k => t.g (MON_G_BIN_COUNT 2 k)) = [1, 1, 1, 1, 0] ∧ t.g (MON_G_N_N 2) = 4 ∧
      t.int (MON_G_MIN_MIN 2) = -200 ∧ t.int (MON_G_MAX_MAX 2) = 175 := by decide +kernel

/-- Table 6-5: n, m and x, with the window and the errors of it; and when q is at most 0.4 (R114). -/
theorem test_ber_table_6_5 : ∀ r ∈ ([(1536, 801, 6, 7, 9), (1536, 801, 3, 1, 614), (8, 2349, 4, 6, 9), (2, 416, 3, 15, 9), (8, 15240, 5, 8, 9)] :
    List (Nat × Nat × Nat × Nat × Nat)), berW r.1 r.2.1 r.2.2.1 = r.2.2.2.1 ∧ berL r.1 r.2.1 r.2.2.1 = r.2.2.2.2 := by decide +kernel
theorem test_ber_saturated : berFine 801 3 = true ∧ berFine 9396 4 = false ∧ berExp 9396 1 4 = 5 := by decide +kernel

/-- CRC-32C of the nine digits, the code's published check value. -/
theorem test_crc32c : crc32 polyCrc32c [0x31, 0x32, 0x33, 0x34, 0x35, 0x36, 0x37, 0x38, 0x39] = 0xE3069283 := by decide +kernel

/-- A command has no word: it comes from outside and is not decoded. -/
theorem test_no_word : decodeTableWord 0 0 = none := rfl

/-- A state whose tables are canonical, and the step from it goes on. -/
theorem test_meets_StepsKeepTablesCanonical :
    gauge2.tablesWf = true ∧ (match step { gauge2 with pending := [.brownOut, .usTick] } with | .next t => t.pending == [.usTick] | _ => false) = true := by
  decide +kernel

/-- Two commands wait. -/
theorem test_meets_EveryStepConsumesOneCommand (h : Obligations.EveryStepConsumesOneCommand) :
    ∃ t : State, steps 2 { base with pending := [.brownOut, .usTick, .status] } t ∧ t.pending = [.status] :=
  h _ 2 (by decide)

end Sys2Proof.Tests
end

section
/-!
What reset leaves (O58): a field at reset is a field of the reset word of its register, and the rate masks of the lead lanes.
-/

namespace Sys2Proof.Machine

open Sys2Proof

/-- The empty register file reads as the reset columns of the register tables. -/
theorem reset_g (f : Fld) : State.reset.g f = wordGet (resetWordOf f.addr) f.lo f.w := rfl

/-- Table 4-5, DISC_CFG: lane 0 leads its quad and so hunts every rate, 9 and 11 included. -/
theorem reset_rateMask_lane0 : State.reset.g (CH_DISC_CFG_RATE_MASK 0) = 0xFFF := by
  rw [reset_g]
  decide

/-- Refutes O58: RATE_MASK resets to 0x5FF on the member lanes of a quad alone (Table 4-5); on lane 0, which leads one, it is 0xFFF. -/
theorem not_resetLeavesTheTablesValues : ¬ Obligations.ResetLeavesTheTablesValues := by
  unfold Obligations.ResetLeavesTheTablesValues
  intro h
  obtain ⟨-, -, -, -, -, -, -, -, -, hChannels⟩ := h
  obtain ⟨hMask, -⟩ := hChannels 0
  have hLane0 : State.reset.g (CH_DISC_CFG_RATE_MASK 0) = 0x5FF := hMask
  rw [reset_rateMask_lane0] at hLane0
  exact absurd hLane0 (by decide)

end Sys2Proof.Machine
end

section
/-!
SUPPORT. Lists of register writes as the statements give them: their fields share no bit, in any order, with and without the completion
of the access that brought them; what the flag of an occurrence counter and the low fields of a word are.
-/

namespace Sys2Proof.Machine

open Sys2Proof

/-- Two fields share no bit, evaluated. -/
def apartB (f q : Fld) : Bool := q.addr != f.addr || decide (q.lo + q.w ≤ f.lo) || decide (f.lo + f.w ≤ q.lo)

theorem apart_iff_apartB (f q : Fld) : apart f q ↔ apartB f q = true := by
  simp [apart, apartB, or_assoc]

/-- Fields that lie in their words and share no bit: what a list of writes needs so that each of its fields holds its value after it. -/
def separate : List Fld → Bool
  | [] => true
  | f :: l => f.ok && l.all (apartB · f) && separate l

theorem pairwise_apart_of_separate (l : List (Fld × Nat)) (h : separate (l.map Prod.fst) = true) :
    l.Pairwise (fun p q => apart q.1 p.1) := by
  induction l with
  | nil => exact List.Pairwise.nil
  | cons p l ih =>
    simp only [List.map_cons, separate, Bool.and_eq_true, List.all_eq_true] at h
    obtain ⟨⟨-, hp⟩, hl⟩ := h
    exact List.Pairwise.cons (fun q hq => (apart_iff_apartB _ _).2 (hp q.1 (List.mem_map_of_mem hq))) (ih hl)

theorem ok_of_separate (l : List Fld) (h : separate l = true) : ∀ f ∈ l, f.lo + f.w ≤ 32 := by
  induction l with
  | nil => simp
  | cons f l ih =>
    simp only [separate, Bool.and_eq_true] at h
    obtain ⟨⟨hf, -⟩, hl⟩ := h
    exact List.forall_mem_cons.2 ⟨of_decide_eq_true hf, ih hl⟩

/-- Each value of a list of writes fits its field. -/
def Fits (l : List (Fld × Nat)) : Prop := ∀ p ∈ l, p.2 < 2 ^ p.1.w

theorem fits_nil : Fits [] := fun _ h => absurd h List.not_mem_nil

theorem fits_cons {f : Fld} {v : Nat} {l : List (Fld × Nat)} (hv : v < 2 ^ f.w) (hl : Fits l) : Fits ((f, v) :: l) :=
  List.forall_mem_cons.2 ⟨hv, hl⟩

theorem fits_append {l l' : List (Fld × Nat)} (hl : Fits l) (hl' : Fits l') : Fits (l ++ l') := List.forall_mem_append.2 ⟨hl, hl'⟩

theorem regs_u_separate (s : State) (l : List (Fld × Nat)) (hf : separate (l.map Prod.fst) = true)
    (hv : Fits l) : Regs l s (s.u l) :=
  regs_u s l (pairwise_apart_of_separate l hf)
    (fun p hp => ⟨ok_of_separate _ hf p.1 (List.mem_map_of_mem hp), hv p hp⟩)

theorem sets_u_separate (s : State) (l : List (Fld × Nat)) (hf : separate (l.map Prod.fst) = true)
    (hv : Fits l) : Sets l s (s.u l) := ⟨rfl, regs_u_separate s l hf hv⟩

/-- One write. -/
theorem sets_u_one (s : State) (f : Fld) (v : Nat) (hf : f.lo + f.w ≤ 32) (hv : v < 2 ^ f.w) : Sets [(f, v)] s (s.u [(f, v)]) :=
  sets_u s _ (List.pairwise_singleton _ _) (by simpa using ⟨hf, hv⟩)

/-- The order in which a statement lists the fields is of no account. -/
theorem regs_perm {l l' : List (Fld × Nat)} {s t : State} (hp : l.Perm l') (h : Regs l s t) : Regs l' s t := by
  obtain ⟨hval, hkeep⟩ := h
  refine ⟨fun p hm => hval p (hp.mem_iff.2 hm), keep_mono hkeep fun k i hc => ?_⟩
  unfold covers at hc ⊢
  rwa [(hp.map Prod.fst).any_eq]

theorem sets_perm {l l' : List (Fld × Nat)} {s t : State} (hp : l.Perm l') (h : Sets l s t) : Sets l' s t :=
  ⟨h.1, regs_perm hp h.2⟩

/-- A register no listed field lies in holds the same word. -/
theorem rd_eq_of_keep {l : List Fld} {s t : State} (h : RegsKeep l s t) (k : Nat) (hk : ∀ f ∈ l, f.addr ≠ k) : t.rd k = s.rd k := by
  apply BitVec.eq_of_getLsbD_eq
  intro i hi
  apply h k i hi
  rw [covers, List.any_eq_false]
  intro f hf
  simp [hk f hf]

/-- Writes and then the completion of the access of the master that brought them. -/
theorem setsBy_answer (s : State) (m : Nat) (l : List (Fld × Nat)) (hb : s.busRuns = true) (hm : m < 8)
    (hf : separate ((l ++ [(BMX_PARK_T0, m)]).map Prod.fst) = true) (hv : Fits l) :
    SetsBy m l s ((s.u l).answer m true []) := by
  have hpark : Fits (l ++ [(BMX_PARK_T0, m)]) := fits_append hv (fits_cons hm fits_nil)
  have hregs : Regs (l ++ [(BMX_PARK_T0, m)]) s ((s.u l).answer m true []) := by
    rw [answer_eq (s.u l) m true [] hb]
    have h := regs_u_separate s _ hf hpark
    rw [u_append] at h
    exact h
  exact ⟨answer_frame _ _ _ _, answeredBy_answer (s.u l) m true [] hb hm, regs_perm List.perm_append_comm hregs⟩

theorem busRuns_of_usable {s : State} {pg : Nat} (h : s.usable pg = true) : s.busRuns = true := by
  simp only [State.usable, State.served, Bool.and_eq_true] at h
  obtain ⟨⟨hruns, -⟩, -⟩ := h
  exact hruns

/-- A command whose meaning answers `t` completes with what holds of `t`. -/
theorem completes_of_done {c : Instr} {s t : State} {P : State → Prop} (he : exec c s = done t) (hP : P t) : Completes c s P :=
  ⟨t, he, hP⟩

/-! ### Low fields and the top bit of a word -/

theorem wordGet_toNat (x : Word) (lo w : Nat) : wordGet x lo w = x.toNat / 2 ^ lo % 2 ^ w := by
  simp [wordGet, BitVec.extractLsb'_toNat, Nat.shiftRight_eq_div_pow]

theorem bit_beq_one {n : Nat} (h : n < 2) : bit (n == 1) = n := by
  obtain rfl | rfl : n = 0 ∨ n = 1 := by omega
  all_goals rfl

theorem bit_top (v : Word) : bit (wordGet v 31 1 == 1) = v.toNat / 2 ^ 31 := by
  have hv : v.toNat < 2 ^ 32 := v.isLt
  have htop : wordGet v 31 1 = v.toNat / 2 ^ 31 := by
    rw [wordGet_toNat]
    omega
  rw [htop, bit_beq_one (by omega)]

/-! ### Occurrences -/

/-- Of a value too wide for its field the low bits are written. -/
theorem wordSet_mod (x : Word) (lo w v : Nat) : wordSet x lo w (v % 2 ^ w) = wordSet x lo w v := by
  apply BitVec.eq_of_getLsbD_eq
  intro i hi
  simp only [wordSet, BitVec.getLsbD_or, BitVec.getLsbD_and, BitVec.getLsbD_not, getLsbD_fieldMask, BitVec.getLsbD_shiftLeft,
    BitVec.getLsbD_ofNat, Nat.testBit_mod_two_pow]
  by_cases hlo : lo ≤ i
  · by_cases hw : i < lo + w
    · have hin : i - lo < w := by omega
      simp [hin]
    · simp [hw]
  · simp [hlo]

theorem setFld_mod (t : Tab Word) (f : Fld) (v : Nat) : setFld t f (v % 2 ^ f.w) = setFld t f v := by
  unfold setFld
  rw [wordSet_mod]

/-- One occurrence is a write of the flag and of the count that follows modulo 65,536 (R42). -/
theorem occ_eq_u (s : State) (k : Nat) : s.occ k = s.u (occFlds s k).reverse := by
  have hcount (t : Tab Word) (v : Nat) : setFld t (occCount k) (v % 65536) = setFld t (occCount k) v := setFld_mod t (occCount k) v
  simp [State.occ, State.u, occFlds, setFlds, hcount]

theorem fits_occFlds (s : State) (k : Nat) (hlost : (lostFld k).w = 1) : Fits (occFlds s k).reverse := by
  have hflag (b : Bool) : bit b < 2 ^ (lostFld k).w := by
    rw [hlost]
    exact bit_lt b
  exact fits_cons (hflag _) (fits_cons (Nat.mod_lt _ (by decide)) fits_nil)

/-- An occurrence, and then writes of other fields. -/
theorem regs_occ_u (s : State) (k : Nat) (l : List (Fld × Nat))
    (hf : separate (((occFlds s k).reverse ++ l).map Prod.fst) = true) (hlost : (lostFld k).w = 1) (hv : Fits l) :
    Regs (l ++ occFlds s k) s ((s.occ k).u l) := by
  rw [occ_eq_u, ← u_append]
  exact regs_perm (List.perm_append_comm.trans (List.Perm.append_left l (List.reverse_perm _)))
    (regs_u_separate s _ hf (fits_append (fits_occFlds s k hlost) hv))

end Sys2Proof.Machine
end

section
/-!
SUPPORT. Crossing overflows (R18): what the ingress reads of a channel depends on, and what marking, recentring and replacing change.
-/

namespace Sys2Proof.Machine

open Sys2Proof

/-! ### The pages that a channel's ingress reads -/

/-- `t` holds what `s` holds in the pages of the line groups and in the window entries, the same waiting writes and the same lanes. -/
structure LineAgree (s t : State) : Prop where
  rd : ∀ k, 0x100000 ≤ k → t.rd k = s.rd k
  pend : t.pend = s.pend
  ln : t.ln = s.ln

theorem chBase_ge (c : Nat) : 0x100000 ≤ chBase c := by unfold chBase; omega

theorem contKey_ge (c b e : Nat) : 0x100000 ≤ contKey c b e := by unfold contKey entryKey; omega

theorem vgKey_ge (n g : Nat) : 0x100000 ≤ vgKey n g := by unfold vgKey entryKey; omega

namespace LineAgree

variable {s t : State} (h : LineAgree s t)
include h

theorem g (f : Fld) (hf : 0x100000 ≤ f.addr) : t.g f = s.g f := by
  unfold State.g
  rw [h.rd _ hf]

theorem f (f : Fld) (hf : 0x100000 ≤ f.addr) : t.f f = s.f f := by
  unfold State.f
  rw [h.rd _ hf, h.pend]

theorem disc (c : Nat) : t.disc c = s.disc c := h.g _ (Nat.le_add_right_of_le (chBase_ge c))

theorem laneChannel (l : Nat) : laneChannel t l = Machine.laneChannel s l := by
  unfold Machine.laneChannel State.bonded
  rw [h.disc]

theorem lane (c : Nat) : t.lane c = s.lane c := by
  unfold State.lane
  rw [h.ln]

theorem chSlots (c : Nat) : t.chSlots c = s.chSlots c := by
  unfold State.chSlots
  rw [h.lane]

theorem rxBank (c : Nat) : t.rxBank c = s.rxBank c := h.g _ (Nat.le_add_right_of_le (chBase_ge c))

theorem contType (c b e : Nat) : t.g (contType (contKey c b e)) = s.g (contType (contKey c b e)) := h.g _ (contKey_ge c b e)

theorem contStart (c b e : Nat) : t.g (contStart (contKey c b e)) = s.g (contStart (contKey c b e)) := h.g _ (contKey_ge c b e)

theorem contNsl (c b e : Nat) : t.g (contNsl (contKey c b e)) = s.g (contNsl (contKey c b e)) := h.g _ (contKey_ge c b e)

theorem inFmt (c : Nat) : t.inFmt c = s.inFmt c := by
  have hadm : t.g (CH_DISC_STAT_ADM_FMT c) = s.g (CH_DISC_STAT_ADM_FMT c) := h.g _ (Nat.le_add_right_of_le (chBase_ge c))
  unfold State.inFmt
  rw [h.disc, h.lane, hadm]

theorem inFits (c : Nat) : t.inFits c = s.inFits c := by
  have hfmt (b : Nat) : t.g (bankFmt c b) = s.g (bankFmt c b) := h.g _ (contKey_ge c b 255)
  unfold State.inFits
  rw [h.rxBank, h.inFmt, hfmt]

theorem used (c b : Nat) : t.used c b = s.used c b := by
  simp only [State.used, h.contType]

theorem grpSlots (c : Nat) : t.grpSlots c false = s.grpSlots c false := by
  have hsrc : t.f (CH_CL_CFG_SRC_GRP c) = s.f (CH_CL_CFG_SRC_GRP c) := h.f _ (Nat.le_add_right_of_le (chBase_ge c))
  have hnmem (n g : Nat) : t.f (vgNmem (vgKey n g)) = s.f (vgNmem (vgKey n g)) := h.f _ (vgKey_ge n g)
  have hmtype (n g : Nat) : t.f (vgMtype (vgKey n g)) = s.f (vgMtype (vgKey n g)) := h.f _ (vgKey_ge n g)
  simp [State.grpSlots, State.vgW, hsrc, hnmem, hmtype]

theorem contSlots (c b e : Nat) : t.contSlots c b e false = s.contSlots c b e false := by
  simp only [State.contSlots, h.contType, h.contNsl, h.grpSlots]

/-- The ODU containers of a channel's line slots are those of the bank in force, which `s` and `t` hold alike. -/
theorem oduConts (c : Nat) : oduConts t c = Machine.oduConts s c := by
  simp only [Machine.oduConts, h.inFits, h.rxBank, h.used, h.inFmt, h.contType, h.contStart, h.contNsl, h.contSlots]

end LineAgree

/-! ### Marks outside the Same-Output Guarantee -/

theorem tget_foldl_tset {α : Type} [DecidableEq α] (d : Nat → α) (v : α) (l : List Nat) (t : Tab α) (c : Nat) :
    tget d (l.foldl (fun u k => tset d u k v) t) c = if c ∈ l then v else tget d t c := by
  induction l generalizing t with
  | nil => simp
  | cons k l ih =>
    rw [List.foldl_cons, ih]
    by_cases hl : c ∈ l
    · simp [hl]
    · by_cases hk : c = k
      · subst hk; simp
      · simp [hl, hk, tget_tset_ne _ _ _ _ _ hk]

theorem foldl_markUncov_eq (l : List Nat) (n : Nat) (s : State) :
    l.foldl (fun t c => markUncov t c n) s =
      { s with uncov := l.foldl (fun u c => tset (fun _ => 0) u c (n + 1)) s.uncov } := by
  induction l generalizing s with
  | nil => rfl
  | cons c l ih => rw [List.foldl_cons, ih]; rfl

/-! ### Replacement -/

theorem foldl_slotIn_frame {α : Type} (f : State → α → State) (hf : ∀ t x, f t x = { t with slotIn := (f t x).slotIn })
    (l : List α) (s : State) : l.foldl f s = { s with slotIn := (l.foldl f s).slotIn } := by
  induction l generalizing s with
  | nil => rfl
  | cons x l ih =>
    rw [List.foldl_cons, ih, hf s x]

/-- The replacement signal stands in the slots that arrive, nowhere else. -/
theorem chReplace_frame (s : State) (c : Nat) : chReplace s c = { s with slotIn := (chReplace s c).slotIn } := by
  unfold chReplace
  exact foldl_slotIn_frame _ (fun _ _ => rfl) _ _

/-- A channel without ODUs carries AIS-P, which is what slots that are not listed carry. -/
theorem chReplace_slotIn_of_no_odu (s : State) (c : Nat) (h : oduConts s c = []) :
    (chReplace s c).slotIn = s.slotIn.filter (fun p => !(decide (512 * c ≤ p.1) && decide (p.1 < 512 * c + s.chSlots c))) := by
  have hno (l : Tab SlotData) : oduConts { s with slotIn := l } c = [] := h
  simp only [chReplace, hno, List.foldl_nil]

/-! ### The event -/

/-- The crossings that have an overflow (R18). -/
abbrev xingHas (x : Nat) : Prop := x ∈ [1, 2, 3, 0xC, 0xD]

/-- What every overflow does: marks, count, name, and the spoilt frame. -/
def xingNoted (s : State) (x i : Nat) : State :=
  let m := (xingChannels s x i).foldl (fun t c => markUncov t c s.sfn) s
  { m.occ 0x2030 with xingAis := (x, i) :: m.xingAis }.u [(CLK_XING_LAST_XID, x), (CLK_XING_LAST_INDEX, i)]

theorem xingNoted_frame (s : State) (x i : Nat) : xingNoted s x i =
    { s with regs := (xingNoted s x i).regs, uncov := (xingNoted s x i).uncov, xingAis := (x, i) :: s.xingAis } := by
  unfold xingNoted
  rw [foldl_markUncov_eq]
  rfl

theorem xingNoted_uncov (s : State) (x i c : Nat) : tget (fun _ => 0) (xingNoted s x i).uncov c =
    if c ∈ xingChannels s x i then s.sfn + 1 else tget (fun _ => 0) s.uncov c := by
  unfold xingNoted
  rw [foldl_markUncov_eq]
  exact tget_foldl_tset _ _ _ _ _

theorem xingNoted_regs (s : State) (x i : Nat) (hx : x < 256) (hi : i < 256) :
    Regs ([(CLK_XING_LAST_XID, x), (CLK_XING_LAST_INDEX, i)] ++ occFlds s 0x2030) s (xingNoted s x i) := by
  unfold xingNoted
  rw [foldl_markUncov_eq]
  exact regs_occ_u s 0x2030 _ rfl rfl (fits_cons hx (fits_cons hi fits_nil))

/-- The registers of an overflow lie in page CLK. -/
theorem xingNoted_lineAgree (s : State) (x i : Nat) (hx : x < 256) (hi : i < 256) : LineAgree s (xingNoted s x i) where
  rd k hk := by
    obtain ⟨-, hkeep⟩ := xingNoted_regs s x i hx hi
    refine rd_eq_of_keep hkeep k ?_
    have hclk : ∀ f ∈ [CLK_XING_LAST_XID, CLK_XING_LAST_INDEX, occCount 0x2030, lostFld 0x2030], f.addr < 0x100000 := by decide
    intro f hf he
    exact absurd (hclk f hf) (by omega)
  pend := by rw [xingNoted_frame]
  ln := by rw [xingNoted_frame]

/-- The slots that an overflow of crossing 0x01 or 0x02 replaces, those of the lane's channel. -/
theorem xingEvent_line (s : State) (x i : Nat) (h : x = 1 ∨ x = 2) : xingEvent s x i =
    chReplace (recentre (xingNoted s x i) (laneChannel (xingNoted s x i) i)) (laneChannel (xingNoted s x i) i) := by
  obtain rfl | rfl := h <;> rfl

theorem xingEvent_gelvy (s : State) (i : Nat) : xingEvent s 0xD i =
    { xingNoted s 0xD i with slotIn := s.slotIn.filter (fun p => !xingSlot s 0xD i p.1) } := by
  have hslots : (xingNoted s 0xD i).slotIn = s.slotIn := by rw [xingNoted_frame]
  rw [← hslots]
  rfl

theorem xingEvent_other (s : State) (x i : Nat) (h : x = 3 ∨ x = 0xC) : xingEvent s x i = xingNoted s x i := by
  obtain rfl | rfl := h <;> rfl

/-- The other crossings have no overflow. -/
theorem xingEvent_of_not_has (s : State) (x i : Nat) (h : ¬ xingHas x) : xingEvent s x i = s := by
  unfold xingEvent
  exact if_neg (by simpa using h)

/-- What CROSSING_OVERFLOW of a crossing that has one leaves of `s`, as the statement says it. -/
def XingEffect (s : State) (x i : Nat) (t : State) : Prop :=
  let ch := laneChannel s i
  let own (g : Nat) : Bool := decide (512 * ch ≤ g) && decide (g < 512 * ch + s.chSlots ch)
  t = { s with regs := t.regs, spe := t.spe, odu := t.odu, uncov := t.uncov, xingAis := (x, i) :: s.xingAis, slotIn := t.slotIn } ∧
  ((x = 1 ∨ x = 2) → (oduConts s ch = [] → t.slotIn = s.slotIn.filter (fun p => !own p.1)) ∧
    t.spe = s.spe.map (fun p => if own p.1 then (p.1, { p.2 with fresh := true }) else p) ∧
    t.odu = s.odu.map (fun p => if own p.1 then (p.1, { p.2 with buf := [], run := false }) else p)) ∧
  (x ≠ 1 → x ≠ 2 → t.spe = s.spe ∧ t.odu = s.odu ∧
    t.slotIn = if x = 0xD then s.slotIn.filter (fun p => !xingSlot s x i p.1) else s.slotIn) ∧
  (∀ c, tget (fun _ => 0) t.uncov c = if c ∈ xingChannels s x i then s.sfn + 1 else tget (fun _ => 0) s.uncov c) ∧
  Regs ([(CLK_XING_LAST_XID, x), (CLK_XING_LAST_INDEX, i)] ++ occFlds s 0x2030) s t

theorem xingEffect_line (s : State) (x i : Nat) (h : x = 1 ∨ x = 2) (hi : i < 256) : XingEffect s x i (xingEvent s x i) := by
  have hx : x < 256 := by omega
  have hagree := xingNoted_lineAgree s x i hx hi
  have hframe := xingNoted_frame s x i
  have hspe : (xingNoted s x i).spe = s.spe := by rw [hframe]
  have hodu : (xingNoted s x i).odu = s.odu := by rw [hframe]
  have hslots : (xingNoted s x i).slotIn = s.slotIn := by rw [hframe]
  rw [xingEvent_line s x i h, hagree.laneChannel]
  have hrep := chReplace_frame (recentre (xingNoted s x i) (laneChannel s i)) (laneChannel s i)
  refine ⟨?_, fun _ => ⟨fun hno => ?_, ?_, ?_⟩, fun h1 h2 => by omega, fun c => ?_, ?_⟩
  · rw [hrep]
    unfold recentre
    dsimp only
    rw [hframe]
  · have hnone : oduConts (recentre (xingNoted s x i) (laneChannel s i)) (laneChannel s i) = [] := (hagree.oduConts _).trans hno
    have hlen : (recentre (xingNoted s x i) (laneChannel s i)).chSlots (laneChannel s i) = s.chSlots (laneChannel s i) :=
      hagree.chSlots _
    have harrived : (recentre (xingNoted s x i) (laneChannel s i)).slotIn = s.slotIn := hslots
    rw [chReplace_slotIn_of_no_odu _ _ hnone, hlen, harrived]
  · rw [hrep]
    simp only [recentre, hspe, hagree.chSlots]
  · rw [hrep]
    simp only [recentre, hodu, hagree.chSlots]
  · rw [hrep]
    exact xingNoted_uncov s x i c
  · rw [hrep]
    exact xingNoted_regs s x i hx hi

theorem xingEffect_other (s : State) (x i : Nat) (h : x = 3 ∨ x = 0xC ∨ x = 0xD) (hi : i < 256) : XingEffect s x i (xingEvent s x i) := by
  have hx : x < 256 := by omega
  have hframe := xingNoted_frame s x i
  obtain ⟨l, hev, hslots⟩ : ∃ l, xingEvent s x i = { xingNoted s x i with slotIn := l } ∧
      l = if x = 0xD then s.slotIn.filter (fun p => !xingSlot s x i p.1) else s.slotIn := by
    by_cases hD : x = 0xD
    · subst hD
      exact ⟨_, xingEvent_gelvy s i, rfl⟩
    · refine ⟨(xingNoted s x i).slotIn, xingEvent_other s x i (by omega), ?_⟩
      rw [if_neg hD, hframe]
  rw [hev]
  refine ⟨?_, fun h12 => by omega, fun _ _ => ⟨?_, ?_, hslots⟩, fun c => xingNoted_uncov s x i c, xingNoted_regs s x i hx hi⟩
  all_goals
    rw [hframe]

theorem xingEffect_of_has (s : State) (x i : Nat) (h : xingHas x) (hi : i < 256) : XingEffect s x i (xingEvent s x i) := by
  have hcases : (x = 1 ∨ x = 2) ∨ x = 3 ∨ x = 0xC ∨ x = 0xD := by simpa [or_assoc] using h
  obtain hline | hother := hcases
  · exact xingEffect_line s x i hline hi
  · exact xingEffect_other s x i hother hi

end Sys2Proof.Machine
end

section
/-!
The clock commands (O3): CORE_CFG, the core PLLs and MCLK (R19, R20, R383); the reference inputs, the crossings and the PLLs outside the core
(R18 to R20, R239, R275, R320).
-/

namespace Sys2Proof.Machine

open Sys2Proof

/-! ### The core clocks -/

/-- R19, Table 1-5: in BOOT, with the reference not locked, the write is taken and the core PLLs unlock. -/
theorem coreCfgWrite_completes (s : State) (m : Fin 8) (v : Word) (hu : s.usable 0x2000 = true) (hmode : s.mode = 0)
    (hl : s.on CLK_CORE_CFG_LOCKED = false) (hpg : unlocked s 0x2000) (hv : v.toNat % 8 < 5) :
    Completes (.coreCfgWrite m v) s
      (SetsBy m [(CLK_CORE_CFG_LOCKED, v.toNat / 2 ^ 31), (CLK_CORE_CFG_REF_SEL, v.toNat % 8), (CLK_PLL_STAT_CCLK_LK, 0), (CLK_PLL_STAT_ECLK_LK, 0),
        (CLK_PLL_STAT_MCLK_LK, 0), (CLK_PLL_STAT_SCLK_LK, 0), (DEV_Q_CAUSE_CLK_LOSS, 1)] s) := by
  have hsel : wordGet v 0 3 = v.toNat % 8 := by simp [wordGet_toNat]
  have htop := bit_top v
  have hlt : v.toNat < 2 ^ 32 := v.isLt
  have hlock : v.toNat / 2 ^ 31 < 2 := by omega
  have hunlock : Fits [(CLK_PLL_STAT_CCLK_LK, 0), (CLK_PLL_STAT_ECLK_LK, 0), (CLK_PLL_STAT_MCLK_LK, 0), (CLK_PLL_STAT_SCLK_LK, 0),
      (DEV_Q_CAUSE_CLK_LOSS, 1)] := by unfold Fits; decide
  refine completes_of_done ?_ (setsBy_answer s m _ (busRuns_of_usable hu) m.isLt rfl ?_)
  · change execCoreCfgWrite m v s = _
    simp only [execCoreCfgWrite, hu, hmode, hl, hpg, hsel, htop, Nat.not_le.2 hv, Bool.false_or, Bool.not_true, bne_self_eq_false,
      Bool.false_eq_true, if_false, Bool.or_false]
    rfl
  · exact fits_cons hlock (fits_cons (Nat.mod_lt _ (by decide)) hunlock)

/-- R19, Table 17-9. -/
theorem coreLocked_sets (s : State) : Sets (coreLockFlds s) s (coreLocked s) :=
  sets_u_separate s (coreLockFlds s) rfl
    (fits_cons (by decide) (fits_cons (by decide) (fits_cons (by decide) (fits_cons (by decide)
      (fits_cons (bit_lt _) (fits_cons (by decide) (fits_cons (by decide) fits_nil)))))))

theorem corePllRelock_completes (s : State) (hr : s.pwr.inReset = false) (hm : s.pwr.mclkLost = false) :
    Completes .corePllRelock s (Sets (coreLockFlds s) s) := by
  refine completes_of_done ?_ (coreLocked_sets s)
  change execCorePllRelock s = _
  simp [execCorePllRelock, hr, hm]

/-- The writes of a loss of core locks (R20, R383). -/
def coreLossFlds (s : State) (c e k : Bool) : List (Fld × Nat) :=
  [(CLK_PLL_STAT_CCLK_LK, bit (s.on CLK_PLL_STAT_CCLK_LK && !c)), (CLK_PLL_STAT_ECLK_LK, bit (s.on CLK_PLL_STAT_ECLK_LK && !e)),
    (CLK_PLL_STAT_SCLK_LK, bit (s.on CLK_PLL_STAT_SCLK_LK && !k)), (DEV_Q_CAUSE_CLK_LOSS, 1)]

theorem exec_coreClockLockLoss (s : State) (c e k : Bool) (h : (c || e || k) = true) :
    exec (.coreClockLockLoss c e k) s = done (fatalPresent (s.u (coreLossFlds s c e k))) := by
  change execCoreClockLockLoss c e k s = _
  rw [execCoreClockLockLoss, if_pos h]
  rfl

theorem coreLossFlds_fit (s : State) (c e k : Bool) : Fits (coreLossFlds s c e k) :=
  fits_cons (bit_lt _) (fits_cons (bit_lt _) (fits_cons (bit_lt _) (fits_cons (by decide) fits_nil)))

theorem coreLoss_sets (s : State) (c e k : Bool) : Sets (coreLossFlds s c e k) s (s.u (coreLossFlds s c e k)) :=
  sets_u_separate s _ rfl (coreLossFlds_fit s c e k)

theorem mode_coreLoss (s : State) (c e k : Bool) : (s.u (coreLossFlds s c e k)).mode = s.mode :=
  g_u_apart s _ _ (by simp [coreLossFlds, apart, CLK_PLL_STAT_CCLK_LK, CLK_PLL_STAT_ECLK_LK, CLK_PLL_STAT_SCLK_LK, DEV_Q_CAUSE_CLK_LOSS,
    DEV_MODE_MODE])

theorem failReleases_of_no_reqs (s : State) (h : s.pwr.modeReqs = []) : failReleases s = s := by
  simp [failReleases, h]

/-- With no release waiting, a fatal cause outside service changes nothing. -/
theorem fatalPresent_out_of_service (s : State) (hq : s.pwr.modeReqs = []) (hm : s.mode = 0 ∨ s.mode = 5) : fatalPresent s = s := by
  simp only [fatalPresent, failReleases_of_no_reqs s hq]
  exact if_neg (by omega)

/-- With no release waiting, a fatal cause in service leads to QUARANTINE. -/
theorem fatalPresent_in_service (s : State) (hq : s.pwr.modeReqs = []) (h1 : 1 ≤ s.mode) (h4 : s.mode ≤ 4) :
    fatalPresent s = enterQuarantine s (lowestCause (fatalBits s)) := by
  simp only [fatalPresent, failReleases_of_no_reqs s hq]
  exact if_pos ⟨h1, h4⟩

/-- The writes of an entry into QUARANTINE out of mode `mode` (R380, R381, R296, R383). -/
def quarantineFlds (mode first : Nat) : List (Fld × Nat) :=
  [(DEV_MODE_PREV, mode), (DEV_MODE_MODE, 5), (TWN_STAT_CLAIM_OUT, 0), (TWN_STAT_STATE, 0)] ++ [(DEV_Q_CAUSE_FIRST, first)]

theorem enterQuarantine_eq (s : State) (first : Nat) : enterQuarantine s first = s.u (quarantineFlds s.mode first) := by
  simp [enterQuarantine, setMode, bit, quarantineFlds, State.u, setFlds]

theorem quarantineFlds_fit (mode first : Nat) (hm : mode < 8) (hf : first < 8) : Fits (quarantineFlds mode first) :=
  fits_cons hm (fits_cons (by decide) (fits_cons (by decide) (fits_cons (by decide) (fits_cons hf fits_nil))))

/-- CLK_LOSS is the lowest of the fatal causes. -/
theorem lowestCause_of_clkLoss (s : State) (h : s.g DEV_Q_CAUSE_CLK_LOSS = 1) : lowestCause (fatalBits s) = 0 := by
  have hodd : fatalBits s % 2 = 1 := by
    rw [← h]
    simp only [fatalBits, State.g, wordGet_toNat, DEV_Q_CAUSE_CLK_LOSS]
    omega
  simp [lowestCause, hodd]

theorem coreClockLockLoss_completes_out_of_service (s : State) (c e k : Bool) (h : (c || e || k) = true) (hm : s.mode = 0 ∨ s.mode = 5)
    (hq : s.pwr.modeReqs = []) : Completes (.coreClockLockLoss c e k) s (Sets (coreLossFlds s c e k) s) := by
  refine completes_of_done (exec_coreClockLockLoss s c e k h) ?_
  rw [fatalPresent_out_of_service (s.u (coreLossFlds s c e k)) hq (by rwa [mode_coreLoss])]
  exact coreLoss_sets s c e k

theorem coreClockLockLoss_completes_in_service (s : State) (c e k : Bool) (h : (c || e || k) = true) (h1 : 1 ≤ s.mode) (h4 : s.mode ≤ 4)
    (hq : s.pwr.modeReqs = []) : Completes (.coreClockLockLoss c e k) s (Sets (coreLossFlds s c e k ++
      [(DEV_Q_CAUSE_FIRST, 0), (DEV_MODE_MODE, 5), (DEV_MODE_PREV, s.mode), (TWN_STAT_CLAIM_OUT, 0), (TWN_STAT_STATE, 0)]) s) := by
  have hloss : (s.u (coreLossFlds s c e k)).g DEV_Q_CAUSE_CLK_LOSS = 1 :=
    (coreLoss_sets s c e k).2.1 (DEV_Q_CAUSE_CLK_LOSS, 1) (by simp [coreLossFlds])
  have hentered : fatalPresent (s.u (coreLossFlds s c e k)) = s.u (coreLossFlds s c e k ++ quarantineFlds s.mode 0) := by
    rw [fatalPresent_in_service (s.u (coreLossFlds s c e k)) hq (by rwa [mode_coreLoss]) (by rwa [mode_coreLoss]),
      lowestCause_of_clkLoss _ hloss, enterQuarantine_eq, mode_coreLoss, u_append]
  have horder : (quarantineFlds s.mode 0).Perm
      [(DEV_Q_CAUSE_FIRST, 0), (DEV_MODE_MODE, 5), (DEV_MODE_PREV, s.mode), (TWN_STAT_CLAIM_OUT, 0), (TWN_STAT_STATE, 0)] :=
    (List.perm_append_singleton _ _).trans (.cons _ (.swap _ _ _))
  refine completes_of_done (exec_coreClockLockLoss s c e k h) ?_
  rw [hentered]
  exact sets_perm (horder.append_left _) (sets_u_separate s _ rfl
    (fits_append (coreLossFlds_fit s c e k) (quarantineFlds_fit s.mode 0 (by omega) (by decide))))

/-- R20, R296. -/
theorem mclkLockLoss_completes (s : State) : Completes .mclkLockLoss s (fun t =>
    t = { s with regs := t.regs, pwr := { s.pwr with mclkLost := true } } ∧
      Regs [(CLK_PLL_STAT_MCLK_LK, 0), (TWN_STAT_CLAIM_OUT, 0)] s t) :=
  completes_of_done rfl ⟨rfl, regs_u_separate s _ rfl (fits_cons (by decide) (fits_cons (by decide) fits_nil))⟩

/-! ### Reference inputs -/

theorem lostFld_refOcc : lostFld 0x2040 = CLK_REF_LAST_OCC_LOST := rfl

theorem refLoss_completes (s : State) (i : Fin 5) (h : s.on (bitOf CLK_REF_STAT_PRESENT i) = true) : Completes (.refLoss i) s
    (Sets ([(bitOf CLK_REF_STAT_PRESENT i, 0), (CLK_REF_LAST_INPUT, 2 ^ i.val)] ++ occFlds s 0x2040) s) := by
  have hi : 2 ^ i.val < 2 ^ CLK_REF_LAST_INPUT.w := Nat.pow_lt_pow_right (by decide) i.isLt
  refine completes_of_done (if_pos h) ⟨rfl, regs_occ_u s 0x2040 _ ?_ rfl ?_⟩
  · simp [occFlds, lostFld_refOcc, separate, apartB, Fld.ok, occCount, bitOf, CLK_REF_LAST_OCC_LOST, CLK_REF_LAST_INPUT, CLK_REF_STAT_PRESENT]
    omega
  · exact fits_cons (by decide : 0 < 2 ^ 1) (fits_cons hi fits_nil)

theorem refLoss_ignored (s : State) (i : Fin 5) (h : s.on (bitOf CLK_REF_STAT_PRESENT i) = false) : Ignored (.refLoss i) s :=
  if_neg (by simp [h])

theorem refReturn_completes (s : State) (i : Fin 5) (h : s.pwr.inReset = false) : Completes (.refReturn i) s (fun t =>
      t = { s with regs := t.regs, pwr := { s.pwr with refSeen := s.pwr.refSeen ||| 2 ^ i.val } } ∧
      Regs [(bitOf CLK_REF_STAT_PRESENT i, 1),
        (CLK_PLL_STAT_TCLK_LK, bit (s.on CLK_PLL_STAT_TCLK_LK || i.val == 4 && s.on CLK_PLL_STAT_CCLK_LK))] s t) := by
  refine completes_of_done (if_neg (by simp [h])) ⟨rfl, regs_u_separate s _ ?_ ?_⟩
  · simp [separate, apartB, Fld.ok, bitOf, CLK_REF_STAT_PRESENT, CLK_PLL_STAT_TCLK_LK]
    omega
  · exact fits_cons (by decide : 1 < 2 ^ 1) (fits_cons (bit_lt _) fits_nil)

theorem refOorChange_completes (s : State) (i : Fin 5) (b : Bool) : Completes (.refOorChange i b) s (Sets [(bitOf CLK_REF_STAT_OOR i, bit b)] s) :=
  completes_of_done rfl (sets_u_one s _ _ (by simp [bitOf, CLK_REF_STAT_OOR]; omega) (bit_lt b))

/-! ### Crossings -/

theorem crossingOverflow_completes (s : State) (x : Fin 32) (i : Fin 256) (h : xingHas x.val) :
    Completes (.crossingOverflow x i) s (XingEffect s x.val i.val) :=
  completes_of_done rfl (xingEffect_of_has s x.val i.val h i.isLt)

theorem crossingOverflow_ignored (s : State) (x : Fin 32) (i : Fin 256) (h : ¬ xingHas x.val) : Ignored (.crossingOverflow x i) s := by
  change done (xingEvent s x.val i.val) = _
  rw [xingEvent_of_not_has s _ _ h]
  rfl

/-! ### PLLs -/

/-- A relock out of the internal reset is one write of lock bits, but for the core PLLs. -/
theorem exec_pllRelock (s : State) (p : Pll) (h : s.pwr.inReset = false) : exec (.pllRelock p) s = match p with
    | .core => done (if s.pwr.mclkLost then s else coreLocked s)
    | .mem => done (s.u [(CLK_PLL_STAT_G6_LK, 1), (MEM_STAT_TRAINED, 0), (MEM_STAT_FAIL, 0)])
    | .pcie => done (s.u [(CLK_PLL_STAT_PCIE_LK, 1)])
    | .quad q => done (s.u [(LGS_QCFG_TXPLL_LK (q.val / 3) (q.val % 3), 1)])
    | .tport p => done (s.u [(TPT_STAT_PLL_LK p.val, 1)])
    | .gelvy p => done (s.u [(bitOf CLK_PLL_STAT_GP_LK p.val, 1)]) := by
  change execPllRelock p s = _
  cases p <;> exact if_neg (by simp [h])

theorem pllRelock_mem_completes (s : State) (h : s.pwr.inReset = false) : Completes (.pllRelock .mem) s
    (Sets [(CLK_PLL_STAT_G6_LK, 1), (MEM_STAT_TRAINED, 0), (MEM_STAT_FAIL, 0)] s) :=
  completes_of_done (exec_pllRelock s .mem h) (sets_u_separate s _ rfl (fits_cons (by decide) (fits_cons (by decide) (fits_cons (by decide) fits_nil))))

theorem pllRelock_core_completes (s : State) (h : s.pwr.inReset = false) (hm : s.pwr.mclkLost = false) :
    Completes (.pllRelock .core) s (Sets (coreLockFlds s) s) :=
  completes_of_done ((exec_pllRelock s .core h).trans (by simp [hm])) (coreLocked_sets s)

theorem pllRelock_pcie_completes (s : State) (h : s.pwr.inReset = false) : Completes (.pllRelock .pcie) s (Sets [(CLK_PLL_STAT_PCIE_LK, 1)] s) :=
  completes_of_done (exec_pllRelock s .pcie h) (sets_u_one s _ _ (by decide) (by decide))

theorem pllRelock_quad_completes (s : State) (h : s.pwr.inReset = false) (q : Fin 48) :
    Completes (.pllRelock (.quad q)) s (Sets [(LGS_QCFG_TXPLL_LK (q.val / 3) (q.val % 3), 1)] s) :=
  completes_of_done (exec_pllRelock s (.quad q) h) (sets_u_one s _ _ (by decide : 2 + 1 ≤ 32) (by decide : 1 < 2 ^ 1))

theorem pllRelock_tport_completes (s : State) (h : s.pwr.inReset = false) (p : Fin 4) :
    Completes (.pllRelock (.tport p)) s (Sets [(TPT_STAT_PLL_LK p, 1)] s) :=
  completes_of_done (exec_pllRelock s (.tport p) h) (sets_u_one s _ _ (by decide : 0 + 1 ≤ 32) (by decide : 1 < 2 ^ 1))

theorem pllRelock_gelvy_completes (s : State) (h : s.pwr.inReset = false) (p : Fin 8) :
    Completes (.pllRelock (.gelvy p)) s (Sets [(bitOf CLK_PLL_STAT_GP_LK p, 1)] s) :=
  completes_of_done (exec_pllRelock s (.gelvy p) h) (sets_u_one s _ _ (by simp [bitOf, CLK_PLL_STAT_GP_LK]; omega) (by decide : 1 < 2 ^ 1))

theorem txPllLockLoss_quad_completes (s : State) (q : Fin 48) : Completes (.txPllLockLoss (.quad q)) s (fun t =>
      t = { s with regs := t.regs, tvwFail := if s.on TWN_STAT_TVW_RUN then s.tvwFail ||| (0xF * 2 ^ (4 * q.val)) else s.tvwFail } ∧
      Regs [(LGS_QCFG_TXPLL_LK (q.val / 3) (q.val % 3), 0)] s t) := by
  obtain ⟨-, hregs⟩ := sets_u_one s (LGS_QCFG_TXPLL_LK (q.val / 3) (q.val % 3)) 0 (by decide : 2 + 1 ≤ 32) (by decide : 0 < 2 ^ 1)
  refine completes_of_done rfl ?_
  split
  · exact ⟨rfl, hregs⟩
  · exact ⟨rfl, hregs⟩

theorem txPllLockLoss_tport_completes (s : State) (p : Fin 4) :
    Completes (.txPllLockLoss (.tport p)) s (Sets [(TPT_STAT_PLL_LK p, 0), (TPT_STAT_LINK p, 0)] s) := by
  refine completes_of_done rfl (sets_u_separate s _ ?_ ?_)
  · simp [separate, apartB, Fld.ok, TPT_STAT_PLL_LK, TPT_STAT_LINK]
  · exact fits_cons (by decide : 0 < 2 ^ 1) (fits_cons (by decide : 0 < 2 ^ 1) fits_nil)

theorem txPllLockLoss_pcie_completes (s : State) : Completes (.txPllLockLoss .pcie) s (Sets [(CLK_PLL_STAT_PCIE_LK, 0)] s) :=
  completes_of_done rfl (sets_u_one s _ _ (by decide) (by decide))

theorem txPllLockLoss_gelvy_completes (s : State) (p : Fin 8) :
    Completes (.txPllLockLoss (.gelvy p)) s (Sets [(bitOf CLK_PLL_STAT_GP_LK p, 0)] s) :=
  completes_of_done rfl (sets_u_one s _ _ (by simp [bitOf, CLK_PLL_STAT_GP_LK]; omega) (by decide : 0 < 2 ^ 1))

/-! ### The memory PLL -/

/-- Emptying the batt store writes HL_STATE of selectors and BAT.STAT.UE (R275, R377): no other field below the window entries. -/
theorem battEmpty_g (s : State) (f : Fld) (hlow : f.addr < 0x100000000000000) (hUE : f.addr ≠ 0xB020) : (battEmpty s).g f = s.g f := by
  unfold battEmpty battUeShow
  rw [g_u_apart _ _ f (by simp [apart, BAT_STAT_UE, hUE]), g_u_apart _ _ f ?_]
  · rfl
  · intro p hp
    obtain ⟨n, -, rfl⟩ := List.mem_map.1 hp
    left
    simp only [seHl, selKey, entryKey]
    omega

theorem memPllLockLoss_completes (s : State) (h : s.pwr.inReset = false) : Completes .memPllLockLoss s (fun t =>
      t.on CLK_PLL_STAT_G6_LK = false ∧ t.g MEM_STAT_FAIL = 0xFFFF ∧ t.cells = [] ∧ t.ready 0xB000 = false) := by
  have hvalues : Fits [(CLK_PLL_STAT_G6_LK, 0), (MEM_STAT_FAIL, 0xFFFF), (PG_READY_READY 0xB000, 0)] :=
    fits_cons (by decide) (fits_cons (by decide) (fits_cons (by decide) fits_nil))
  have hwritten := (regs_u_separate s _ rfl hvalues).1
  simp only [List.forall_mem_cons] at hwritten
  obtain ⟨hg6, hfail, hready, -⟩ := hwritten
  refine completes_of_done (congrArg done (if_neg (by simp [h]))) ⟨?_, ?_, rfl, ?_⟩
  · rw [State.on, battEmpty_g _ _ (by decide) (by decide), hg6]
    rfl
  · rw [battEmpty_g _ _ (by decide) (by decide), hfail]
  · rw [State.ready, State.on, battEmpty_g _ _ (by decide) (by decide), hready]
    rfl

/-- Settles O3: the statements of the commands, one lemma per clause. -/
theorem clockCommandsComplete : Obligations.ClockCommandsComplete := by
  unfold Obligations.ClockCommandsComplete
  refine ⟨fun s => ⟨coreCfgWrite_completes s, corePllRelock_completes s, coreClockLockLoss_completes_out_of_service s,
    coreClockLockLoss_completes_in_service s, mclkLockLoss_completes s⟩, fun s => ⟨refLoss_completes s, refLoss_ignored s,
    refReturn_completes s, refOorChange_completes s, crossingOverflow_completes s, crossingOverflow_ignored s, fun hr => ⟨pllRelock_mem_completes s hr,
    pllRelock_pcie_completes s hr, pllRelock_core_completes s hr, pllRelock_quad_completes s hr, pllRelock_tport_completes s hr,
    pllRelock_gelvy_completes s hr⟩, memPllLockLoss_completes s, txPllLockLoss_quad_completes s, txPllLockLoss_tport_completes s,
    txPllLockLoss_pcie_completes s, txPllLockLoss_gelvy_completes s⟩⟩

end Sys2Proof.Machine
end
